-- ==== Sys2Proof/Word.lean ====
section
/-! DEFINITION. The plain word types of the model. -/
namespace Sys2Proof

/-- One byte, as structures in host memory, device memory, frames and flits hold it. -/
abbrev Byte := BitVec 8

/-- A raw time: the count of 1.25 GHz timekeeper cycles (0.8 ns each) since the supplies came up.
Every command of the model carries one (DESIGN CHOICE, notes/assumptions/1.md). -/
abbrev Ticks := Nat

end Sys2Proof
end

