-- ==== Sys2Proof/Syntax.lean ====
section
/-! DEFINITION. The commands of the FB4160: one constructor per row of the spec's opcode table.

A host packet carries a `Packet` (header, parameters, provenance and what the device's own reads of
host memory return). An event carries what its environment supplies: pin levels, received bytes,
sensor readings, results of link training. Every command carries first the time `t` at which it
happens, in 0.8 ns ticks (DESIGN CHOICE, notes/assumptions/1.md). -/
namespace Sys2Proof

/-- What the environment answers while a packet runs: data that the packet's own DMA reads return,
and facts about sinks and peers that no register of the device holds. -/
structure Env where
  blockFails : Bool := false          -- the indirect block read fails (R74 check 4)
  dataFails  : Bool := false          -- the read of a BUF by the opcode fails
  data       : List Byte := []        -- the bytes that read returned
  aux        : List Nat := []         -- further facts, defined where an opcode uses them
  deriving DecidableEq, Repr

/-- A command packet (R55 to R58) with its provenance. -/
structure Packet where
  func        : Nat := 0              -- originating function, 0 to 15
  qp          : Nat := 0              -- queue pair, 0 to 7
  origin      : Option Nat := none    -- origin device of a packet routed in; none: this device's host
  fence       : Bool := false
  replyAlways : Bool := false
  indirect    : Bool := false
  atTime      : Bool := false
  reserved    : Nat := 0              -- all reserved header bits taken together
  plen        : Nat := 0
  tag         : Nat := 0
  dest        : Nat := 0x3FFFF
  seq         : Nat := 0
  execTime    : Nat := 0
  pptr        : Nat := 0
  params      : List Byte := []       -- the parameter bytes, direct or from the indirect block
  env         : Env := {}
  deriving DecidableEq, Repr

/-- A command message of the fabric's command virtual channel (R87). -/
inductive CmdMsg where
  /-- A packet forwarded by another device. -/
  | request (opcode : Nat) (p : Packet)
  /-- The acceptance or final response of a packet this device forwarded. -/
  | reply (device func qp tag status r0 r1 : Nat)
  /-- The anchor's firmware gives this device its place in a node (R431, R543): its device ID, the
  topology, W − 1, H − 1, and what enumeration found, per member: unique ID, whether it has a PCIe
  link, and the live lanes of its links 0 to 3. -/
  | assignId (devid topo wM1 hM1 : Nat) (members : List (Nat × List Nat))
  /-- Firmware of another device applies an FLR here (R600). -/
  | flrApply (func : Nat)
  /-- The waiting timed packets that a queue pair of another device sent here complete with FLUSHED
  (R83, R84). -/
  | flushTimed (device func qp : Nat)
  /-- A member of the node reports the live lanes of its links 0 to 3 after a change (R433). -/
  | linkState (device : Nat) (lanes : List Nat)
  /-- The destination of a surface transfer answers its header, or reports the publish (R434). -/
  | xferAnswer (device ctx : Nat) (published : Bool) (status r0 : Nat)
  /-- The anchor sets the node's reference rate, from a time on, and has every link measured again (R442, R443). -/
  | refRate (n d start : Nat)
  deriving DecidableEq, Repr

/-- A flit as it arrives on a link, in FSEQ order (R421): its 256 bytes. `creditB` says whether the credits
returned are those of half B: the header does not carry it (DESIGN CHOICE, notes/assumptions/20.md). -/
structure FlitRx where
  link    : Nat
  image   : List Byte
  creditB : Bool := false
  fixed   : Nat := 0                  -- codewords corrected on the link since the flit before
  deriving DecidableEq, Repr

/-- A frame of a port that Movement firmware takes (R351): an ARP request or a neighbour solicitation for an
address, an echo request to an address with its identifier, sequence number and data, a membership query with its
version and group (0: general), or other traffic that asks for no answer. -/
inductive FwRequest where
  | arp (target : Nat)
  | solicit (target : Nat)
  | echo (ipv6 : Bool) (dst : Nat) (data : List Byte)
  | query (ipv6 : Bool) (version group : Nat)
  | other
  deriving DecidableEq, Repr

/-- The properties of a source surface that a destination compares (R434); XFER_HDR does not carry them
all, and firmware tells the destination (DESIGN CHOICE, notes/assumptions/21.md). -/
structure SrcInfo where
  func    : Nat
  format  : Nat
  comp    : Nat
  budget  : Nat
  widthM1 : Nat
  heightM1 : Nat
  pitch   : Nat
  deriving DecidableEq, Repr

/-- What the PTP servo and the best master algorithm decided on a message (R437, R440): the PTP standard
says how, not the spec. -/
structure PtpResult where
  state   : Nat                       -- the new TK_STAT.STATE
  offset  : Int                       -- offset from master in 0.1 ns
  step    : Int := 0                  -- change of the time in 0.1 ns
  rate    : Int := 0                  -- rate adjustment in 2^-16 ppb
  fofs    : Int := 0                  -- REFCLK offset in 0.01 ppb
  gmId    : Nat := 0
  tlv     : List Byte := []
  master  : Bool := true              -- the message is a master's
  delayReq : Bool := false            -- it is a Delay_Req, which a master answers
  deriving DecidableEq, Repr

/-- What the boot sequence finds (R538, R539, R105, R595): whether the image of the slot tried first and of
the other slot verifies, the version and the subsystem identity in the header of the image booted, the
channels that fail training and the capacity code of each channel. -/
structure BootResult where
  first   : Bool := true
  second  : Bool := true
  version : Nat := 0
  subVendor : Nat := 0
  subId   : Nat := 0
  failed  : Nat := 0
  caps    : List Nat := []
  deriving DecidableEq, Repr

/-- An ECC error as a memory controller reports it (R570, R571, R590): the device address that was accessed,
the row, bank and die that firmware derives from it, whether the link code found it, and the client class. -/
structure EccHit where
  addr : Nat
  row  : Nat
  bank : Nat
  die  : Nat
  link : Bool
  cls  : Nat
  deriving DecidableEq, Repr

/-- The configuration-space bits that a configuration write of one function sets (R601, R603, R609). -/
structure CfgWrite where
  bme    : Bool
  mse    : Bool
  msixEn : Bool
  bar2   : Nat                        -- log2 of the BAR2 size (function 0 only)
  deriving DecidableEq, Repr

/-- A part of a strike as it registers with the anchor (R450): its device, STRIKE_ID, T, originating
function, and per member the frame period and the time from its latch to the end of its frame, as exact
rationals in ns with one denominator. -/
structure StrikeReg where
  device  : Nat
  id      : Nat
  time    : Nat
  func    : Nat
  members : List (Nat × Nat × Nat)
  deriving DecidableEq, Repr

/-- What a part tells the anchor (R451, R452; DESIGN CHOICE, notes/assumptions/24.md). -/
inductive StrikeUp where
  | vote (ready : Bool)
  /-- The strike is cancelled by this part (R322). -/
  | cancel
  /-- No verdict came in time: the part keeps and moves its members. -/
  | kept
  deriving DecidableEq, Repr

/-- What the anchor tells a part (R450 to R452; DESIGN CHOICE, notes/assumptions/24.md). -/
inductive StrikeDown where
  /-- The registration's status and C, 0 while parts are missing. -/
  | answer (status c : Nat)
  /-- Every part has registered: boundary C, its D, the common period pn / pd, and whether C was moved. -/
  | fixed (c d pn pd : Nat) (moved : Bool)
  | struck
  | moved (c d : Nat)
  | cancelled
  /-- The strike has split. -/
  | split
  deriving DecidableEq, Repr

/-- One constructor per row of the opcode table: the host packets in opcode order, then the events. -/
inductive Instr where
  -- Host packets, groups 0x00 to 0x0E (R98)
  | nop (t : Ticks) (p : Packet)
  | getIdentity (t : Ticks) (p : Packet)
  | queryUnit (t : Ticks) (p : Packet)
  | reconcile (t : Ticks) (p : Packet)
  | cancelTimed (t : Ticks) (p : Packet)
  | assign (t : Ticks) (p : Packet)
  | queryOwner (t : Ticks) (p : Packet)
  | getFirmware (t : Ticks) (p : Packet)
  | surfaceCreate (t : Ticks) (p : Packet)
  | surfaceDestroy (t : Ticks) (p : Packet)
  | surfaceQuery (t : Ticks) (p : Packet)
  | slotPublish (t : Ticks) (p : Packet)
  | surfaceSetSharing (t : Ticks) (p : Packet)
  | memQuery (t : Ticks) (p : Packet)
  | gatelistLoad (t : Ticks) (p : Packet)
  | gatelistArm (t : Ticks) (p : Packet)
  | gatelistQuery (t : Ticks) (p : Packet)
  | shaperSet (t : Ticks) (p : Packet)
  | leadSet (t : Ticks) (p : Packet)
  | admitCheck (t : Ticks) (p : Packet)
  | demandQuery (t : Ticks) (p : Packet)
  | latencyHistRead (t : Ticks) (p : Packet)
  | sceneSubmit (t : Ticks) (p : Packet)
  | sceneCommit (t : Ticks) (p : Packet)
  | paneUpdate (t : Ticks) (p : Packet)
  | sceneQuery (t : Ticks) (p : Packet)
  | fallbackSet (t : Ticks) (p : Packet)
  | paneCountersRead (t : Ticks) (p : Packet)
  | coefBankLoad (t : Ticks) (p : Packet)
  | itfLutLoad (t : Ticks) (p : Packet)
  | lut3dLoad (t : Ticks) (p : Packet)
  | outputColourSet (t : Ticks) (p : Packet)
  | rasterTimingSet (t : Ticks) (p : Packet)
  | rasterStart (t : Ticks) (p : Packet)
  | rasterStop (t : Ticks) (p : Packet)
  | sinkAttach (t : Ticks) (p : Packet)
  | sinkDetach (t : Ticks) (p : Packet)
  | strikeArm (t : Ticks) (p : Packet)
  | strikeCancel (t : Ticks) (p : Packet)
  | dpPortConfig (t : Ticks) (p : Packet)
  | rasterBind (t : Ticks) (p : Packet)
  | rasterQuery (t : Ticks) (p : Packet)
  | crystalUnlock (t : Ticks) (p : Packet)
  | crystalPaneSet (t : Ticks) (p : Packet)
  | crystalExpectSet (t : Ticks) (p : Packet)
  | crystalLock (t : Ticks) (p : Packet)
  | crystalKeyProvision (t : Ticks) (p : Packet)
  | portConfig (t : Ticks) (p : Packet)
  | ingestFlowSet (t : Ticks) (p : Packet)
  | egressFlowSet (t : Ticks) (p : Packet)
  | mcastJoin (t : Ticks) (p : Packet)
  | mcastLeave (t : Ticks) (p : Packet)
  | fstSubscribe (t : Ticks) (p : Packet)
  | fstUnsubscribe (t : Ticks) (p : Packet)
  | flowQuery (t : Ticks) (p : Packet)
  | queueShaperSet (t : Ticks) (p : Packet)
  | qbvListLoad (t : Ticks) (p : Packet)
  | qbvListArm (t : Ticks) (p : Packet)
  | meterSet (t : Ticks) (p : Packet)
  | tsStatsRead (t : Ticks) (p : Packet)
  | linkConfig (t : Ticks) (p : Packet)
  | nodeEnumerate (t : Ticks) (p : Packet)
  | ptpConfig (t : Ticks) (p : Packet)
  | timeQuery (t : Ticks) (p : Packet)
  | beatCalibrate (t : Ticks) (p : Packet)
  | surfaceTransfer (t : Ticks) (p : Packet)
  | routeQuery (t : Ticks) (p : Packet)
  | blitCopy (t : Ticks) (p : Packet)
  | blitFill (t : Ticks) (p : Packet)
  | blitBlend (t : Ticks) (p : Packet)
  | blitConvert (t : Ticks) (p : Packet)
  | blitMaskExpand (t : Ticks) (p : Packet)
  | blitListRun (t : Ticks) (p : Packet)
  | blitDeadtimeSet (t : Ticks) (p : Packet)
  | hdChannelConfig (t : Ticks) (p : Packet)
  | hdStart (t : Ticks) (p : Packet)
  | hdAbort (t : Ticks) (p : Packet)
  | hdQuery (t : Ticks) (p : Packet)
  | eventRoute (t : Ticks) (p : Packet)
  | eventQuery (t : Ticks) (p : Packet)
  | eventSoftSet (t : Ticks) (p : Packet)
  | powerStateSet (t : Ticks) (p : Packet)
  | unitReset (t : Ticks) (p : Packet)
  | deviceReset (t : Ticks) (p : Packet)
  | loopWindowSet (t : Ticks) (p : Packet)
  | shedMaskSet (t : Ticks) (p : Packet)
  | pmuQuery (t : Ticks) (p : Packet)
  | retirementQuery (t : Ticks) (p : Packet)
  | retirementClear (t : Ticks) (p : Packet)
  | ltrRead (t : Ticks) (p : Packet)
  | ltrCheckpoint (t : Ticks) (p : Packet)
  | eccLogRead (t : Ticks) (p : Packet)
  -- Command port events (chapter 02): function f, queue pair q, v the value written
  | queueEnable (t : Ticks) (f q v : Nat)
  | queueDisable (t : Ticks) (f q v : Nat)
  | queueFlush (t : Ticks) (f q v : Nat)
  | flushBoundary (t : Ticks) (f q : Nat)
  | submitDoorbell (t : Ticks) (f q v : Nat)
  | replyDoorbell (t : Ticks) (f q v : Nat)
  | cpEntryCopy (t : Ticks) (f q : Nat) (entry : List Byte)
  | creditOnlyReply (t : Ticks) (f q : Nat)
  | ringFault (t : Ticks) (f q : Nat) (onReply : Bool)
  | timedPacketDue (t : Ticks) (env : Env)
  | routeForward (t : Ticks) (op : Nat) (p : Packet)
  | routeTimeout (t : Ticks)
  | cmdFlitRx (t : Ticks) (x : FlitRx) (m : Option CmdMsg)
  -- Register accesses (chapters 00, 17): function f's BAR0, byte offset off, byte enables be
  | registerWrite (t : Ticks) (f off be v : Nat)
  | rcRegisterRead (t : Ticks) (f off be : Nat)
  | pairLowRead (t : Ticks) (f off be : Nat)
  | pairHighRead (t : Ticks) (f off be : Nat)
  -- Event concentrator (chapter 14): target tg, accessed by function f (16: Movement firmware)
  | evcClaim (t : Ticks) (f tg : Nat)
  | evcComplete (t : Ticks) (f tg v : Nat)
  | evcTargetHold (t : Ticks) (f tg v : Nat)
  | evcTargetIdle (t : Ticks) (f tg v : Nat)
  | evcGlobalHold (t : Ticks) (f v : Nat)
  | evcSwsetWrite (t : Ticks) (f v : Nat)
  | msixEntryUnmask (t : Ticks) (f v : Nat)
  | busMasterEnableChange (t : Ticks) (f : Nat) (c : CfgWrite)
  | vfEnableSet (t : Ticks) (num bar2 : Nat)
  | vfEnableClear (t : Ticks)
  | evcEdge (t : Ticks) (src : Nat)
  | evcLevelChange (t : Ticks) (src : Nat) (level : Bool)
  | evcDelivery (t : Ticks) (tg : Nat)
  | evcNowakeFallback (t : Ticks) (src : Nat)
  -- Register writes with rows of their own
  | rgCommitWrite (t : Ticks) (f r v : Nat)
  | paneWindowWrite (t : Ticks) (f off v : Nat)
  | blRegListStart (t : Ticks) (f v : Nat)
  | blRegListStop (t : Ticks) (f v : Nat)
  | hdRegStart (t : Ticks) (f c : Nat)
  | hdRegAbort (t : Ticks) (f c : Nat)
  | hdReqsetWrite (t : Ticks) (f v : Nat)
  | recoveryPageCommit (t : Ticks) (f : Nat)
  | recoveryPageProgrammed (t : Ticks)
  | recoveryDone (t : Ticks) (f : Nat) (ok : Bool)
  -- BAR2 (R140): byte offset and data
  | bar2Write (t : Ticks) (f off : Nat) (data : List Byte)
  | bar2Read (t : Ticks) (f off len : Nat)
  | bar2Atomicop (t : Ticks) (f off : Nat)
  -- Resets, power and clocks (chapters 15, 16, 17)
  | flr (t : Ticks) (f : Nat)
  | flrRemoteApply (t : Ticks) (f device : Nat)
  | perstNAssert (t : Ticks)
  | perstNWake (t : Ticks)
  | hotReset (t : Ticks)
  | powerOnReset (t : Ticks) (aon : Bool)
  | porRelease (t : Ticks) (straps : Nat)
  | pinReset (t : Ticks)
  | wakePin (t : Ticks)
  | wakeTimer (t : Ticks)
  | pfw (t : Ticks)
  | thermtrip (t : Ticks)
  | refclkLoss (t : Ticks)
  | pllLockLoss (t : Ticks)
  | pcieRefclkLoss (t : Ticks)
  | wdogWarn (t : Ticks) (core : Nat)
  | watchdogReset (t : Ticks) (core : Nat)
  | avsUpdate (t : Ticks) (want : Nat)
  | thermalSample (t : Ticks) (tj : Int)
  | refreshPoll (t : Ticks) (mr4 : Nat)
  | powerStateDrainEnd (t : Ticks)
  | powerStateDrainTimeout (t : Ticks)
  -- Rasters, scenes and fetching (chapters 04, 05, 08)
  | rasterStartLatch (t : Ticks) (r : Nat)
  | rasterFrameStart (t : Ticks) (r : Nat)
  | rasterLatch (t : Ticks) (r : Nat)
  | rasterLineStart (t : Ticks) (r y : Nat)
  | indexBuildDone (t : Ticks) (r : Nat)
  | fsRequestIssue (t : Ticks) (n : Nat)
  | fetchDataArrive (t : Ticks) (r pane row k : Nat) (ok : Bool)
  | mcgEntryAdvance (t : Ticks) (n : Nat)
  | gateSwitch (t : Ticks) (n : Nat)
  | divergenceCompare (t : Ticks) (unit : Nat)
  | strikeDecision (t : Ticks) (r : Nat)
  | strikeVoteTime (t : Ticks) (num : Nat)
  | strikeVerdictDeadline (t : Ticks) (num : Nat)
  | strikeRegistrationRx (t : Ticks) (x : FlitRx) (reg : StrikeReg)
  | strikeVoteRx (t : Ticks) (x : FlitRx) (device num : Nat) (v : StrikeUp)
  | strikeVerdictRx (t : Ticks) (x : FlitRx) (num : Nat) (w : StrikeDown)
  | strikeRegistrationTimeout (t : Ticks) (num : Nat)
  | crystalUnlockExpire (t : Ticks)
  | crystalLockoutExpire (t : Ticks)
  -- Network engine and traffic scheduler (chapters 09, 10)
  | ethFrameRx (t : Ticks) (port level fixed : Nat) (frame : List Byte)
  | fwFrameService (t : Ticks) (port : Nat) (x : FwRequest)
  | ptpMessageRx (t : Ticks) (port : Nat) (x : PtpResult)
  | ptpAnnounceTimeout (t : Ticks) (becomesMaster : Bool)
  | dcoSteer (t : Ticks)
  | ingestFrameTimeout (t : Ticks) (flow : Nat)
  | st2110PacketRelease (t : Ticks) (flow : Nat)
  | fstPacketSend (t : Ticks) (flow : Nat)
  | portTxSelect (t : Ticks) (port : Nat)
  | qbvEntryAdvance (t : Ticks) (port : Nat)
  | qbvGateSwitch (t : Ticks) (port : Nat)
  | queueStatsSample (t : Ticks)
  | ethLinkUp (t : Ticks) (port : Nat)
  | ethLinkDown (t : Ticks) (port : Nat)
  | fecUncorrectable (t : Ticks) (port n : Nat)
  | cfBlockDecodeFail (t : Ticks) (k n : Nat)
  | retrainDone (t : Ticks) (link lane : Nat)
  | retrainAttemptFail (t : Ticks) (link lanes : Nat)
  -- Fabric and time (chapter 11)
  | cfLinkUp (t : Ticks) (k lanes : Nat)
  | cfBringupTimeout (t : Ticks) (k : Nat)
  | cfBringupRetry (t : Ticks) (k : Nat)
  | cfLinkDown (t : Ticks) (k : Nat)
  | cfFlitTx (t : Ticks) (k : Nat)
  | idleFlitRx (t : Ticks) (x : FlitRx)
  | helloRx (t : Ticks) (x : FlitRx) (uid lanes : Nat)
  | calReqRx (t : Ticks) (x : FlitRx)
  | calRespRx (t : Ticks) (x : FlitRx) (n : Nat) (sum : Int)
  | beatEmit (t : Ticks)
  | beatRx (t : Ticks) (x : FlitRx)
  | beatLoss (t : Ticks)
  | xferHdrRx (t : Ticks) (x : FlitRx) (src : SrcInfo)
  | xferDataRx (t : Ticks) (device : Nat) (x : FlitRx)
  | xferEndRx (t : Ticks) (device : Nat) (x : FlitRx)
  | frameStartRx (t : Ticks) (x : FlitRx)
  | lineDataRx (t : Ticks) (device : Nat) (x : FlitRx)
  | importPublishTimeout (t : Ticks) (imp : Nat)
  | dpTrainingDone (t : Ticks) (port rate lanes : Nat)
  | dpHpdChange (t : Ticks) (port : Nat) (level : Bool)
  | hdcpAuthResult (t : Ticks) (port stream : Nat) (ok : Bool) (rxids : List Byte)
  -- Blitter and housekeeping DMA (chapters 12, 13)
  | blJobStart (t : Ticks)
  | blBurst (t : Ticks)
  | blJobEnd (t : Ticks)
  | blListEntryRun (t : Ticks)
  | hdChannelSelect (t : Ticks) (desc : List Byte) (ok : Bool)
  | hdHwRequest (t : Ticks) (line : Nat)
  | hdBurst (t : Ticks) (src dst : List Byte) (ok : Bool)
  | hdDescComplete (t : Ticks) (readBack : Bool) (desc : List Byte) (ok : Bool)
  | hdReqTimeout (t : Ticks)
  | hdAccessTimeout (t : Ticks)
  -- Memory and reliability (chapters 03, 16)
  | eccCorrected (t : Ticks) (x : EccHit)
  | eccUncorrectable (t : Ticks) (x : EccHit)
  | migrationSurfaceMoved (t : Ticks) (surf : Nat)
  | migrationDone (t : Ticks) (lost : List Nat)
  | channelRestartDone (t : Ticks) (n : Nat)
  | channelRestartTimeout (t : Ticks) (n : Nat)
  | parity (t : Ticks) (slice pane y : Nat)
  | ltrPeriodic (t : Ticks)
  | ltrCheckpointDone (t : Ticks) (ok : Bool)
  | ltrSecondSample (t : Ticks) (ber : List (Nat × Nat))
  | resetNDeassert (t : Ticks) (tj : Int)
  | bootReady (t : Ticks) (x : BootResult)
  | tjBelow115BootStart (t : Ticks) (tj : Int)
  | xferAnswerRx (t : Ticks) (device ctx : Nat) (published : Bool) (status r0 : Nat)
  | ptpMessageInterval (t : Ticks) (port kind : Nat)
  | serdesEqAdapt (t : Ticks) (lane code : Nat)
  | pcieLinkTrained (t : Ticks)
  deriving DecidableEq, Repr

end Sys2Proof
end

