-- ==== Sys2Proof/Decode.lean ====
section
/-! DEFINITION. No row of the FB4160's opcode table carries encoding bits: its commands are host
packets and events, not words of a program. -/
namespace Sys2Proof

/-- The command a table word spells: none, for no row gives bits. -/
def decodeTableWord (_nbits _w : Nat) : Option Instr := none

end Sys2Proof
end

