-- ==== Sys2Proof/Config.lean ====
section
/-! DEFINITION. What an implementation fixes and the values the spec leaves open: opaque constants,
which no proof can evaluate. -/
namespace Sys2Proof.Config

/-- A fresh free value, indexed by the model's counter `State.fresh` (DESIGN CHOICE, notes/assumptions/4.md). -/
opaque freeValue : Nat → Nat

/-- The binary16 code that a device returns for the built-in decoding functions of R259, codes 1 to 4, on the code of V
where R243 allows it: the rule bounds the error and fixes no value (DESIGN CHOICE, notes/assumptions/30.md). -/
opaque decodeTf : (code v : Nat) → Nat

/-- The built-in encoding functions, the inverses of `decodeTf` (R259). -/
opaque encodeTf : (code l : Nat) → Nat

/-- The code that a component which is not a number takes when it is quantised to d bits: R265 states
no value for it (DESIGN CHOICE, notes/assumptions/32.md). -/
opaque nanCode : (d : Nat) → Nat

/-- The FTC-F index that a writeback's encoder chooses for a sample between two endpoints of a component
of a depth, with n index bits: the spec fixes the decoder only (DESIGN CHOICE, notes/assumptions/33.md). -/
opaque ftcIndex : (depth n lo hi sample : Nat) → Nat

/-- The fused voltage-floor table: the voltage in mV that CCLK needs at a junction temperature in 1/8 °C
(R557, R549; DESIGN CHOICE, notes/assumptions/40.md). -/
opaque voltageFloor : (tj : Int) → Nat

/-- How far a boot has come at a tick: R538 bounds when each step ends and does not fix it
(DESIGN CHOICE, notes/assumptions/44.md). -/
opaque bootStage : (ticks : Nat) → Nat

end Sys2Proof.Config
end

