-- ==== Sys2Proof/Machine/Data.lean ====
section
/-! DEFINITION. Bit fields, byte order (R11, R12), saturating counters and sparse tables. -/
namespace Sys2Proof.Machine
open Sys2Proof

/-- 1 for true, 0 for false. -/
def b2n (b : Bool) : Nat := if b then 1 else 0

/-- Bits [hi:lo] of n. -/
def bits (n hi lo : Nat) : Nat := (n / 2 ^ lo) % 2 ^ (hi + 1 - lo)

/-- Bit i of n. -/
def tbit (n i : Nat) : Bool := (n / 2 ^ i) % 2 == 1

/-- n modulo 2^w. -/
def wrap (w n : Nat) : Nat := n % 2 ^ w

/-- n held to w bits by saturation. -/
def sat (w n : Nat) : Nat := if n < 2 ^ w then n else 2 ^ w - 1

/-- Place a value at bit position lo. -/
def shl (v lo : Nat) : Nat := v * 2 ^ lo

/-- The two's complement value of the low w bits of n. -/
def sint (w n : Nat) : Int :=
  let m := n % 2 ^ w
  if m < 2 ^ (w - 1) then (m : Int) else (m : Int) - (2 ^ w : Nat)

/-- The w-bit two's complement encoding of an integer. -/
def uint (w : Nat) (i : Int) : Nat := (i % (2 ^ w : Nat)).toNat

/-- Quotient rounded up; 0 for a zero divisor. -/
def cdiv (a b : Nat) : Nat := if b = 0 then 0 else (a + b - 1) / b

/-- a rounded up to a multiple of b. -/
def roundUp (a b : Nat) : Nat := cdiv a b * b

/-- Little-endian number of a byte list (R11). -/
def leNat : List Byte → Nat
  | [] => 0
  | b :: bs => b.toNat + 256 * leNat bs

/-- Big-endian number of a byte list (R12). -/
def beNat (bs : List Byte) : Nat := leNat bs.reverse

/-- n bytes of v, least significant first (R11). -/
def leBytes : Nat → Nat → List Byte
  | 0, _ => []
  | n + 1, v => BitVec.ofNat 8 v :: leBytes n (v / 256)

/-- n bytes of v, most significant first (R12). -/
def beBytes (n v : Nat) : List Byte := (leBytes n v).reverse

/-- The n-byte little-endian field at byte offset off; bytes beyond the list read as zero (R57). -/
def rd (bs : List Byte) (off n : Nat) : Nat := leNat ((bs.drop off).take n)

/-- The n-byte big-endian field at byte offset off; bytes beyond the list read as zero. -/
def rdBE (bs : List Byte) (off n : Nat) : Nat :=
  let f := (bs.drop off).take n
  beNat f * 256 ^ (n - f.length)

/-- Bits [hi:lo] of the n-byte little-endian field at off. -/
def rdb (bs : List Byte) (off n hi lo : Nat) : Nat := bits (rd bs off n) hi lo

/-- One bit of the byte at off. -/
def rdbit (bs : List Byte) (off i : Nat) : Bool := tbit (rd bs off 1) i

/-- Whether every byte of [lo, hi) is zero. -/
def zeroBytes (bs : List Byte) (lo hi : Nat) : Bool := rd bs lo (hi - lo) == 0

/-- Bytes padded or cut to exactly n. -/
def fitBytes (n : Nat) (bs : List Byte) : List Byte :=
  bs.take n ++ List.replicate (n - bs.length) 0#8

/-- Overwrite bytes at off of a list that is long enough. -/
def putBytes (bs : List Byte) (off : Nat) (new : List Byte) : List Byte :=
  let b := fitBytes (max bs.length (off + new.length)) bs
  b.take off ++ new ++ b.drop (off + new.length)

/-- Cut a list into pieces of n, for n above 0. -/
def chunksAux {α : Type} (n : Nat) : Nat → List α → List (List α)
  | 0, _ => []
  | _ + 1, [] => []
  | k + 1, xs => xs.take n :: chunksAux n k (xs.drop n)

/-- Cut a list into pieces of n. -/
def chunks {α : Type} (n : Nat) (xs : List α) : List (List α) := chunksAux n xs.length xs

/-- The number of set bits among the low w bits. -/
def popcount (w n : Nat) : Nat := ((List.range w).filter fun i => tbit n i).length

/-- The positions of the set bits among the low w bits, ascending. -/
def bitList (w n : Nat) : List Nat := (List.range w).filter fun i => tbit n i

/-- The mask whose set bits are the listed positions. -/
def maskOf (l : List Nat) : Nat := l.foldl (fun m i => if tbit m i then m else m + 2 ^ i) 0

/-- Set or clear bit i. -/
def setBit (n i : Nat) (v : Bool) : Nat :=
  if tbit n i == v then n else if v then n + 2 ^ i else n - 2 ^ i

/-- The largest k with 2^k ≤ n, searching down from w; 0 for 0. -/
def log2Down : Nat → Nat → Nat
  | 0, _ => 0
  | w + 1, n => if 2 ^ (w + 1) ≤ n then w + 1 else log2Down w n

/-- The largest m ≤ hi with m * m ≤ n. -/
def isqrtAux (n : Nat) : Nat → Nat
  | 0 => 0
  | m + 1 => if (m + 1) * (m + 1) ≤ n then m + 1 else isqrtAux n m

/-- A sparse table: (key, value) pairs with strictly rising keys. -/
abbrev Tbl (α : Type) := List (Nat × α)

/-- The entry of key k, if listed. -/
def Tbl.find? {α : Type} : Tbl α → Nat → Option α
  | [], _ => none
  | (k', v) :: t, k => if k' = k then some v else if k < k' then none else Tbl.find? t k

/-- The entry of key k, or the given reset value. -/
def Tbl.get {α : Type} (t : Tbl α) (d : α) (k : Nat) : α := (Tbl.find? t k).getD d

/-- Store v at key k. -/
def Tbl.set {α : Type} : Tbl α → Nat → α → Tbl α
  | [], k, v => [(k, v)]
  | (k', v') :: t, k, v =>
    if k' = k then (k, v) :: t
    else if k < k' then (k, v) :: (k', v') :: t
    else (k', v') :: Tbl.set t k v

/-- Remove key k. -/
def Tbl.del {α : Type} : Tbl α → Nat → Tbl α
  | [], _ => []
  | (k', v') :: t, k =>
    if k' = k then t else if k < k' then (k', v') :: t else (k', v') :: Tbl.del t k

/-- Change the entry of key k, starting from the reset value when it is not listed. -/
def Tbl.upd {α : Type} (t : Tbl α) (d : α) (k : Nat) (f : α → α) : Tbl α :=
  Tbl.set t k (f (Tbl.get t d k))

/-- The keys listed, ascending. -/
def Tbl.keys {α : Type} (t : Tbl α) : List Nat := t.map (·.1)

/-- The first listed pair that satisfies p. -/
def Tbl.first? {α : Type} (t : Tbl α) (p : Nat → α → Bool) : Option (Nat × α) :=
  List.find? (fun e => p e.1 e.2) t

/-- Remove the entry at position i of a list. -/
def dropAt {α : Type} (l : List α) (i : Nat) : List α := l.take i ++ l.drop (i + 1)

/-- The position of the first element that satisfies p. -/
def findPos {α : Type} (p : α → Bool) : List α → Option Nat
  | [] => none
  | x :: xs => if p x then some 0 else (findPos p xs).map (· + 1)

/-- The greatest element of a list of naturals, or 0. -/
def maxOf (l : List Nat) : Nat := l.foldl max 0

/-- The sum of a list of naturals. -/
def sumOf (l : List Nat) : Nat := l.foldl (· + ·) 0

/-- Insert into a list kept in rising order, without repeats. -/
def insertNat (k : Nat) : List Nat → List Nat
  | [] => [k]
  | x :: xs => if k = x then x :: xs else if k < x then k :: x :: xs else x :: insertNat k xs

end Sys2Proof.Machine
end

