-- ==== Sys2Proof/Machine/StateHost.lean ====
section
/-! DEFINITION. State of the host side: the command port (chapter 02), the event concentrator
(chapter 14), ownership (chapter 01) and the PCIe functions (chapter 17). -/
namespace Sys2Proof.Machine
open Sys2Proof

/-- A packet inside the device: its opcode, header and parameters with its provenance (R92 text). -/
structure Entry where
  opcode  : Nat
  pkt     : Packet
  slots   : Nat := 0       -- reply reservations held (R67)
  counted : Bool := false  -- counted in OUTSTANDING of its queue pair and owed a reply (R50, R86)
  arrived : Ticks := 0     -- arrival time of the provenance word
  taken   : Ticks := 0     -- when it was taken (R137)
  deriving DecidableEq, Repr

/-- Why a taken packet has not completed yet. `unit` names the unit it acts on (kind × index). -/
structure Inflight where
  ent   : Entry
  unit  : Nat              -- kind * 2^24 + index, as a unit reference (R95); model kinds start at 0x80
  late  : Bool := false    -- it started late (R77)
  deriving DecidableEq, Repr

/-- A packet that has been taken and has not begun: what it acts on is busy (R72). -/
structure Held where
  ent     : Entry
  keys    : List Nat       -- the units it acts on, as unit references
  deriving DecidableEq, Repr

/-- One waiting timed packet (R76). -/
structure Timed where
  ent   : Entry
  order : Nat              -- acceptance order (R78)
  deriving DecidableEq, Repr

/-- A forwarded packet whose first response has not returned (R87, R89). -/
structure Routed where
  ent      : Entry
  device   : Nat
  deadline : Ticks
  acked    : Bool := false -- the acceptance of an AT_TIME packet has returned
  deriving DecidableEq, Repr

/-- One queue pair: the register group of R46 to R52 and the CP's own indices. -/
structure Qp where
  sbase    : Nat := 0
  rbase    : Nat := 0
  slog2    : Nat := 4
  rlog2    : Nat := 4
  enable   : Bool := false
  flush    : Bool := false
  repEvent : Bool := false
  batch    : Nat := 0x10
  running  : Bool := false
  stopping : Bool := false
  err      : Nat := 0
  outstanding : Nat := 0
  pi       : Nat := 0
  ci       : Nat := 0
  granted  : Nat := 0
  expected : Nat := 0
  rpi      : Nat := 0
  unreported : Nat := 0            -- credits granted and not yet reported (R63)
  reserved : Nat := 0              -- reply slots reserved (R67)
  copied   : Nat := 0              -- entries copied since enable, modulo 65,536
  flushTo  : Option Nat := none    -- the PI up to which the flush in progress removes entries (R80)
  flushAt  : Option Ticks := none  -- when the latest flush was requested (R80)
  replyDead : Bool := false        -- a reply write failed: replies are discarded (R84)
  held     : List (List Nat) := []  -- replies held while Bus Master Enable is 0 (R601), oldest first
  deriving DecidableEq, Repr

/-- The command port. -/
structure CpSt where
  qps      : Tbl Qp := []          -- key 8 f + q
  fifo     : List Entry := []      -- the command FIFO, oldest first
  hwm      : Nat := 0
  routeTmo : Nat := 0x186A0
  routeLate : Nat := 0
  timed    : List Timed := []
  order    : Nat := 0              -- acceptances so far
  routed   : List Routed := []
  inflight : List Inflight := []
  held     : List Held := []       -- taken packets that wait for their units, in the order taken
  roundPos : Nat := 0              -- queue pairs before this one have been visited in the round (R71)
  deriving DecidableEq, Repr

/-- Route and state of one event source (R512, R527). -/
structure EvcSrc where
  target   : Nat := 4
  prio     : Nat := 0
  nowake   : Bool := false
  asserted : Bool := false
  pending  : Bool := false
  claimed  : Bool := false
  claimer  : Nat := 0
  moved    : Option Nat := none    -- the pending instance stands at a fallback target (R524)
  pendAt   : Ticks := 0            -- when the source became pending (R524)
  since    : Option Ticks := none  -- deliverable since (R520)
  deriving DecidableEq, Repr

/-- One event target (R528). -/
structure EvcTgt where
  thresh   : Nat := 0
  hold     : Bool := false
  idle     : Bool := false
  interval : Nat := 0
  count    : Nat := 1
  armed    : Bool := true
  badcomp  : Bool := false
  deliv    : Nat := 0
  last     : Option Ticks := none  -- time of the last delivery
  tookAt   : Option Ticks := none  -- time of the last claim read that returned a source
  waiting  : Bool := false         -- the core executes its wait for an event (R521)
  request  : Bool := false         -- the core's request line (R519)
  awake    : Bool := false         -- the wake latch has started the sleeping core's clock (R523)
  fallback : Option Nat := none    -- a FALLBACK target set by firmware; none: the reset value
  deriving DecidableEq, Repr

/-- The event concentrator. -/
structure EvcSt where
  src    : Tbl EvcSrc := []
  tgt    : Tbl EvcTgt := []
  ghold  : Bool := false
  merges : Nat := 0
  deriving DecidableEq, Repr

/-- One MSI-X table entry (R609). -/
structure MsixEntry where
  addr : Nat := 0
  data : Nat := 0
  mask : Bool := true
  pend : Bool := false
  deriving DecidableEq, Repr

/-- A BAR2 access of a function within one granule: a posted write of `data`, or a read of `len` bytes. -/
structure Bar2Op where
  func  : Nat
  addr  : Nat
  write : Bool
  data  : List Byte
  len   : Nat
  since : Ticks                    -- when it reached the device
  deriving DecidableEq, Repr

/-- The PCIe functions: configuration bits, BAR sizes and the DEV and VF status registers. -/
structure HostSt where
  bme       : Nat := 0             -- Bus Master Enable, bit f
  mse       : Nat := 0             -- Memory Space Enable, bit f
  msixEn    : Nat := 0             -- MSI-X Enable, bit f
  vfEnable  : Bool := false
  numVfs    : Nat := 0
  pfBar2    : Nat := 34            -- log2 of PF0 BAR2 (R603: 16 GiB)
  vfBar2    : Nat := 32            -- log2 of VF BAR2 (R603: 4 GiB)
  accErr    : Nat := 0             -- ACCESS_ERR, bit f
  scratch   : Tbl Nat := []
  denied    : Tbl Nat := []        -- DEV_BAR2DENIED
  holding   : Tbl Nat := []        -- holding registers (R14), key f * 2^23 + offset of the low word
  tkSub     : Tbl Nat := []        -- captured TENTHS per function (R454)
  msix      : Tbl MsixEntry := []  -- key 4 f + v
  linkUp    : Bool := false
  subVendor : Nat := 0
  subId     : Nat := 0
  posted    : List Bar2Op := []    -- BAR2 accesses that wait for memory, in order of arrival (R141)
  deriving DecidableEq, Repr

/-- Holdings of the functions (R27, R100). -/
structure OwnSt where
  raster  : Tbl Nat := []          -- owner of each raster
  panes   : Tbl (Nat × Nat) := []  -- (first, count) per VF
  surfs   : Tbl (Nat × Nat) := []
  ingress : Tbl (Nat × Nat) := []
  egress  : Tbl (Nat × Nat) := []
  qpairs  : Tbl Nat := []          -- queue-pair count per enabled VF
  targets : Tbl Bool := []         -- the VF holds its four host targets
  deriving DecidableEq, Repr

/-- The timekeeper's clock: time is `base` at tick `at_`, advancing 0.8 ns a tick with the rate (R439).
`base` counts fifths of 2^-16 ns. -/
structure ClockSt where
  ticks : Ticks := 0
  base  : Nat := 0
  at_   : Ticks := 0
  rate  : Int := 0                 -- rate adjustment in 2^-16 ppb
  onTicks : Ticks := 0             -- power-on time of the present power cycle, P3 not counted (R587)
  deriving DecidableEq, Repr

end Sys2Proof.Machine
end

