-- ==== Sys2Proof/Machine/StateMem.lean ====
section
/-! DEFINITION. State of device memory and surfaces (chapter 03), of the fetch scheduler and the
gate lists (chapter 04). -/
namespace Sys2Proof.Machine
open Sys2Proof

/-- One slot of a surface: its header (R128), who pins it (R129) and when it was published. Before its first publish
its times, SEQ and LOSS read 0 (DESIGN CHOICE, notes/assumptions/79.md). -/
structure Slot where
  capture    : Nat := 0
  seq        : Nat := 0
  published  : Bool := false
  writing    : Bool := false
  incomplete : Bool := false
  invalid    : Bool := false
  loss       : Nat := 0
  pubTime    : Nat := 0
  pubTick    : Ticks := 0
  pins       : List Nat := []      -- one entry per pin: the holder's key
  deriving DecidableEq, Repr

/-- One surface table entry (R114) with its slots and counters (R152). -/
structure Surface where
  base     : Nat := 0
  format   : Nat := 0
  valid    : Bool := false
  shared   : Bool := false
  crystal  : Bool := false
  lost     : Bool := false
  comp     : Nat := 0
  budget   : Nat := 0
  writer   : Nat := 0
  frozen   : Bool := false
  widthM1  : Nat := 0
  heightM1 : Nat := 0
  pitch    : Nat := 0
  slotsM1  : Nat := 0
  stride   : Nat := 0
  wslot    : Nat := 0
  newest   : Nat := 0
  pubSeq   : Nat := 0
  hdr      : Nat := 0
  slots    : Tbl Slot := []
  lastCap  : Option Nat := none    -- CAPTURE_TIME of the previous publish (R135)
  publishes : Nat := 0
  noWrite  : Nat := 0
  clamps   : Nat := 0
  ftcErr   : Nat := 0
  claimAt  : Option Ticks := none  -- when an automatic writer claimed the write slot, until its next frame begins (R136)
  deriving DecidableEq, Repr

/-- A migration in progress (R142 to R145). -/
structure Migration where
  channel : Nat
  since   : Ticks                  -- when the channel was retired
  moving  : Option Nat := none     -- the surface being moved now
  deriving DecidableEq, Repr

/-- Device memory: contents, surfaces, channels. -/
structure MmSt where
  mem      : List Host.Cell := []
  surfs    : Tbl Surface := []
  cap      : Nat := 0              -- MC_CFG.CAP
  ecc      : Bool := false         -- MC_CFG.ECC
  chan     : Tbl Nat := []         -- MC_STAT.STATE; reset value 1 RESTARTING
  restart  : Tbl Ticks := []       -- start of a restart in progress (R112)
  live     : Nat := 0              -- MC_LIVE.LIVE
  migrating : Bool := false        -- MC_LIVE.MIGRATING
  migr     : Option Migration := none
  waiting  : List Migration := []  -- fenced channels whose migration waits, oldest first (R574)
  badSect  : List Nat := []        -- sectors (address / 256) that hold an uncorrectable error (R571)
  rdBytes  : Tbl Nat := []
  wrBytes  : Tbl Nat := []
  deriving DecidableEq, Repr

/-- One gate-list entry (R161, and R393 for ports). -/
structure GateEntry where
  dur  : Nat
  mask : Nat
  deriving DecidableEq, Repr

/-- State of an armed gate list (R166). -/
inductive ArmState where
  | empty | loaded | pending
  deriving DecidableEq, Repr

/-- One fetch request of a raster: request k of a reduced row of a pane (R156). -/
structure FetchReq where
  pane : Nat
  row  : Nat
  k    : Nat
  deriving DecidableEq, Repr

/-- A request that the guard rule holds back in an open run of its class (R164). -/
structure GuardWait where
  raster : Nat
  req    : FetchReq
  runEnd : Nat                       -- PTP time (ns) at which the run ends
  deriving DecidableEq, Repr

/-- The gate page of one memory channel (R195). -/
structure ChanFs where
  running  : List GateEntry := [⟨250, 0xFF⟩]
  armed    : List GateEntry := []
  arm      : ArmState := .empty
  armT     : Nat := 0              -- pending takeover time (ns)
  swT      : Nat := 0              -- last takeover time (ns)
  late     : Bool := false
  taken    : Option Nat := none    -- takeover time since which nothing has been loaded (R168)
  start    : Nat := 0              -- time (ns) of a cycle boundary of the running list
  entry    : Nat := 0
  guard    : Nat := 0
  c0req    : Nat := 0
  hist     : List Nat := List.replicate 16 0
  histMax  : Nat := 0
  turn     : Nat := 0              -- the raster after the one last served in C0 (R163)
  lastIssue : Option Ticks := none
  guarded  : List GuardWait := []      -- waits counted in open runs that have not ended (R164)
  deriving DecidableEq, Repr

/-- A request that has issued and whose data have not arrived. -/
structure FetchFlight where
  raster  : Nat
  req     : FetchReq
  channel : Nat
  cls     : Nat
  issued  : Ticks
  old     : Bool := false          -- issued for a frame whose lines are all composed
  deriving DecidableEq, Repr

/-- The escapement page of one raster (R194), its shaper, lead reserve and fetch progress. -/
structure RasterFs where
  peak     : Nat := 24
  cbs      : Nat := 65536
  pbs      : Nat := 4096
  stPeak   : Option Nat := none    -- staged by SHAPER_SET (R181)
  stCbs    : Option Nat := none
  stPbs    : Option Nat := none
  cir      : Nat := 0
  pir      : Nat := 0
  bc       : Nat := 0              -- buckets, bytes with 16 fraction bits
  bp       : Nat := 0
  bucketAt : Ticks := 0
  line     : Nat := 0              -- the fetch line (R180)
  band     : Nat := 0              -- the band whose rates are in force
  opened   : List Ticks := []      -- when the latest lines became fetchable, newest first (R163, R183)
  active   : Bool := false
  subst    : Nat := 0
  substSeen : Bool := false        -- a substitution occurred in this frame (R191)
  lead     : Nat := 4
  leadMin  : Nat := 4
  leadMax  : Nat := 16
  stLead   : Option (Nat × Nat) := none
  cap      : Nat := 16
  atMax    : Bool := false
  atMin    : Bool := false
  belowMin : Bool := false
  worst    : Nat := 0
  frameWorst : Nat := 0            -- largest latency so far in the frame in progress
  gap      : Nat := 0
  issued   : List FetchReq := []   -- requests of the frame being fetched that have issued
  arrived  : List FetchReq := []   -- of those, the ones whose data arrived
  parity   : List (Nat × Nat) := []  -- pane-lines whose buffer met a parity error: pane, line (R577)
  deriving DecidableEq, Repr

/-- The fetch scheduler. -/
structure FsSt where
  rasters : Tbl RasterFs := []
  chans   : Tbl ChanFs := []
  flights : List FetchFlight := []
  deriving DecidableEq, Repr

end Sys2Proof.Machine
end

