-- ==== Sys2Proof/Machine/StateNet.lean ====
section
/-! DEFINITION. State of the network engine (chapter 09), the traffic scheduler (10), the Cririk
fabric, the node and the timekeeper (11). -/
namespace Sys2Proof.Machine
open Sys2Proof

/-- An Ethernet port (R347, R350, R375). -/
structure EthPort where
  cfgMode : Nat := 0               -- configured mode
  mode    : Nat := 0               -- mode in use
  cr      : Bool := false
  mtu     : Nat := 0x5EE
  mac     : Nat := 0
  ipv4    : Nat := 0
  ipv6    : Nat := 0
  up      : Bool := false
  coming  : Bool := false          -- configured, and the link has not come up since
  adopt   : Bool := false          -- a unit reset: the management view follows the link (R43, R554)
  retraining : Bool := false
  degraded : Bool := false
  lanes   : Nat := 0               -- mask of Ethernet lanes held
  attempts : Nat := 0              -- failed attempts of the retrain in progress (R573)
  fwSecond : Nat := 0              -- the second of the firmware budget (R351)
  fwCount : Nat := 0
  igmpOld : Option (Nat × Ticks) := none  -- the older IGMP version last heard, and when (R353)
  mldOld  : Option (Nat × Ticks) := none
  rxfr    : Nat := 0
  txfr    : Nat := 0
  rxoct   : Nat := 0
  txoct   : Nat := 0
  feccor  : Nat := 0
  fecunc  : Nat := 0
  rxerr   : Nat := 0
  rxnoflow : Nat := 0
  fwdrop  : Nat := 0
  txdrop  : Nat := 0
  retrain : Nat := 0
  deriving DecidableEq, Repr

/-- A leg of an ingest flow (R380). -/
structure Leg where
  port  : Nat := 0
  valid : Bool := false
  ipv6  : Bool := false
  ssm   : Bool := false
  vlan  : Bool := false
  vid   : Nat := 0
  udp   : Nat := 0
  dst   : Nat := 0
  src   : Nat := 0
  deriving DecidableEq, Repr

/-- Frame state of an ingest flow (R360). -/
inductive FrState where
  | idle | opened | discarding
  deriving DecidableEq, Repr

/-- An ingest flow (R355): kind 0 disabled, 1 ST 2110-20, 2 FST. -/
structure Ingest where
  kind     : Nat := 0
  enabled  : Bool := false
  merge    : Bool := false
  fill     : Nat := 0
  pt       : Nat := 0
  surface  : Nat := 0
  ssrc     : Nat := 0
  ssrcEn   : Bool := false
  legA     : Leg := {}
  legB     : Leg := {}
  handle   : Nat := 0
  highest  : Option Nat := none    -- highest sequence number received
  recv     : List Nat := []        -- sequence numbers received, within the window
  first    : Nat := 0              -- the first sequence number received
  lossBase : Nat := 0              -- LOSS counts numbers above this one (R361)
  frHigh   : Nat := 0              -- highest sequence number of the frame in progress
  used     : Nat := 0              -- numbers above lossBase that were received and not dropped
  st       : FrState := .idle
  cur      : Nat := 0
  last     : Option Nat := none
  lineSegs : Tbl (List (Nat × Nat)) := []  -- byte spans received per line of the open frame
  tiles    : List Nat := []        -- tiles received of the open frame
  capture  : Nat := 0
  lastPkt  : Ticks := 0
  packets  : Nat := 0
  lostCnt  : Nat := 0
  dup      : Nat := 0
  late     : Nat := 0
  malformed : Nat := 0
  mismatch : Nat := 0
  frames   : Nat := 0
  incomplete : Nat := 0
  discarded : Nat := 0
  cntA     : Nat := 0
  cntB     : Nat := 0
  lastCap  : Nat := 0
  deriving DecidableEq, Repr

/-- The parameters of an egress flow (R379). -/
structure EgressCfg where
  kind  : Nat := 0                 -- 0 disabled, 1 ST 2110-20, 2 FST
  ipv6  : Bool := false
  vlan  : Bool := false
  port  : Nat := 0
  vid   : Nat := 0
  pcp   : Nat := 0
  dscp  : Nat := 0
  ttl   : Nat := 0
  dmac  : Nat := 0
  sudp  : Nat := 0
  dudp  : Nat := 0
  dip   : Nat := 0
  pt    : Nat := 0
  blocks : Nat := 0                -- BLOCKS or TPP
  surface : Nat := 0
  ssrc  : Nat := 0
  seq0  : Nat := 0
  deriving DecidableEq, Repr

/-- A raster frame whose packets a sender is releasing (R402): packet j goes at
FT + floor((ra + j * rb) / rc) ns. -/
structure SendFrame where
  ft      : Nat
  cfg     : EgressCfg               -- the flow's parameters for this frame
  format  : Nat                     -- its wire format
  lineLen : Nat
  total   : Nat                     -- bytes of the whole frame
  npkt    : Nat
  ra      : Nat
  rb      : Nat
  rc      : Nat
  data    : List Byte := []         -- the lines emitted so far, converted to the sink's encoding
  next    : Nat := 0                -- next packet index j
  deriving DecidableEq, Repr

/-- A slot being sent by an FST sender (R368). -/
structure FstSend where
  slot : Nat
  seq  : Nat
  tile : Nat := 0                  -- next tile
  deriving DecidableEq, Repr

/-- An egress flow. -/
structure Egress where
  cfg     : EgressCfg := {}
  staged  : Option EgressCfg := none
  stopped : Bool := false          -- stopped by firmware (R373)
  sending : Bool := false          -- SENDING at the last evaluation (R374)
  sender  : Option Nat := none     -- raster whose sender is attached
  nextSeq : Nat := 0
  frames  : List SendFrame := []
  fst     : Option FstSend := none
  lastSent : Option Nat := none    -- SEQ of the last slot sent
  packets : Nat := 0
  octets  : Nat := 0
  frameCnt : Nat := 0
  skipped : Nat := 0
  dropped : Nat := 0
  deriving DecidableEq, Repr

/-- An entry added by MCAST_JOIN (R354). -/
structure Join where
  port : Nat
  ipv6 : Bool
  ssm  : Bool
  group : Nat
  source : Nat
  deriving DecidableEq, Repr

/-- A packet of an ingest flow as frame assignment sees it (R360). -/
structure FlowPkt where
  seq     : Nat
  key     : Nat
  marker  : Bool
  isEnd   : Bool                   -- an FST END packet
  capture : Nat
  parts   : List (Nat × List Byte) -- what it writes: slot offset and bytes
  segs    : List (Nat × Nat × Nat) -- line and byte span of each part (ST 2110-20)
  ids     : List Nat               -- tiles it holds (FST)
  deriving DecidableEq, Repr

/-- A packet in the ingest buffer. -/
structure IngestPkt where
  flow : Nat
  len  : Nat                       -- bytes of its frame
  pkt  : FlowPkt
  deriving DecidableEq, Repr

/-- The network engine. -/
structure NeSt where
  ports   : Tbl EthPort := []
  joins   : List Join := []
  q0eth   : Bool := true           -- quad-mode straps (R346)
  q1eth   : Bool := false
  ingress : Tbl Ingest := []
  egress  : Tbl Egress := []
  ibuf    : List IngestPkt := []   -- packets that wait for memory to take them, in order of arrival (R356)
  ibufHwm : Nat := 0
  ibovf   : Nat := 0
  alertI  : Nat := 0               -- NE_FALERT_I, bit f
  alertE  : Nat := 0
  deadLanes : Nat := 0             -- retired SerDes lanes, bit i: lane i of the 16
  deriving DecidableEq, Repr

/-- A frame in an egress queue. -/
structure QFrame where
  data  : List Byte                -- destination address through FCS
  enter : Ticks
  deriving DecidableEq, Repr

/-- An egress queue (R384 to R390). Buckets hold bytes with 32 fraction bits. -/
structure TsQueue where
  cls    : Nat := 0
  cir    : Nat := 0
  pir    : Nat := 0
  cbs    : Nat := 0
  pbs    : Nat := 9236
  qlimit : Nat := 262144
  alarm  : Nat := 0
  bc     : Nat := 0
  bp     : Nat := 9236 * 2 ^ 32
  at_    : Ticks := 0              -- tick of the last bucket update
  frames : List QFrame := []       -- oldest first
  guarded : Option Nat := none     -- end (ns) of the open run in which a wait of the head frame was counted last (R394)
  depthHist : List Nat := List.replicate 16 0
  delayHist : List Nat := List.replicate 16 0
  depthHwm : Nat := 0
  delayHwm : Nat := 0
  alarms : Nat := 0
  deriving DecidableEq, Repr

/-- The scheduler's view of a port (R410). -/
structure TsPort where
  running : List GateEntry := [⟨1000, 0xFF⟩]
  armed   : List GateEntry := []
  arm     : ArmState := .empty
  armT    : Nat := 0
  swT     : Nat := 0
  late    : Bool := false
  taken   : Option Nat := none
  start   : Nat := 0
  entry   : Nat := 0
  ovh     : Nat := 20
  armOvh  : Nat := 20
  guard   : Nat := 0
  nofit   : Nat := 0
  freeAt  : Nat := 0               -- the port is free at this time, in ns * 1000
  turns   : Tbl Nat := []          -- per class: the queue after the one last served
  deriving DecidableEq, Repr

/-- An ingress meter (R406). -/
structure Meter where
  en    : Bool := false
  aware : Bool := false
  cir   : Nat := 0
  pir   : Nat := 0
  cbs   : Nat := 0
  pbs   : Nat := 0
  tc    : Nat := 0
  tp    : Nat := 0
  at_   : Ticks := 0
  green : Nat := 0
  yellow : Nat := 0
  yellowDrop : Nat := 0
  red   : Nat := 0
  greenOct : Nat := 0
  yellowOct : Nat := 0
  deriving DecidableEq, Repr

/-- The traffic scheduler. -/
structure TsSt where
  ports   : Tbl TsPort := []
  queues  : Tbl TsQueue := []
  meters  : Tbl Meter := []
  ythresh : Nat := 0xC00
  ebufHwm : Nat := 0
  sampled : Nat := 0               -- the µs of the last statistics sample (R404)
  dscpcol : Tbl Nat := []
  qalert  : Nat := 0
  malert  : Nat := 0
  deriving DecidableEq, Repr

/-- A flit (R421) without its link-level numbers. -/
structure Flit where
  vc   : Nat
  dl   : Bool := false
  ty   : Nat
  dst  : Nat := 0
  tagw : Nat := 0
  payload : List Byte := []
  via  : Option Nat := none        -- the link whose receive buffer it holds until it is sent on (R425)
  deriving DecidableEq, Repr

/-- A Cririk link (R419 to R429, R453). -/
structure CfLink where
  enabled : Bool := false
  first   : Nat := 0
  width   : Nat := 0
  up      : Bool := false
  laneMap : Nat := 0
  retraining : Bool := false
  degraded : Bool := false
  calibrated : Bool := false
  miswired : Bool := false
  ldelay  : Nat := 0
  attempts : Nat := 0
  bringup : Option Ticks := none   -- start of the bring-up in progress
  adopt   : Bool := false          -- a unit reset: the management view follows the link (R43, R554)
  downAt  : Ticks := 0             -- when the last bring-up ended without success
  peer    : Option (Nat × Nat × Nat) := none   -- unique ID, link number and lane count of HELLO
  fseq    : Nat := 0               -- next FSEQ to send
  expect  : Nat := 0               -- next FSEQ expected
  replay  : List (Nat × Flit) := []  -- sent and not acknowledged, oldest first
  waiting : List Flit := []        -- flits waiting to be sent, oldest first
  credits : Tbl Nat := []          -- key 2 vc + half: credits the peer has granted and not used
  owed    : Tbl Nat := []          -- credits to return to the peer, by virtual channel
  calCount : Nat := 0
  calSum  : Int := 0               -- sum of (t4 - t1) - (t3 - t2), in 1/16 ns
  feccor  : Nat := 0
  fecunc  : Nat := 0
  retrain : Nat := 0
  replayCnt : Nat := 0
  badflit : Nat := 0
  txflit  : Nat := 0
  rxflit  : Nat := 0
  deriving DecidableEq, Repr

/-- A member of the node as enumeration found it (R431). -/
structure NodeMember where
  uid  : Nat
  pcie : Bool
  links : List Nat                 -- live lanes of links 0 to 3
  deriving DecidableEq, Repr

/-- A surface transfer this device sends (R434, R435). -/
structure Xfer where
  follow  : Bool
  surface : Nat
  handle  : Nat
  func    : Nat
  slot    : Option Nat := none     -- the slot being sent, pinned
  seq     : Nat := 0               -- SEQ of that slot
  started : Bool := false          -- the destination accepted XFER_HDR
  chunk   : Nat := 0
  ended   : Bool := false          -- XFER_END has been sent
  stop    : Bool := false
  lastSent : Option Nat := none
  skipped : Nat := 0
  deriving DecidableEq, Repr

/-- A surface transfer this device receives. -/
structure XferIn where
  source  : Nat                    -- source device
  surface : Nat
  capture : Nat
  lost    : Bool := false          -- the surface gave up its write slot: the frame is discarded (R143, R145)
  deriving DecidableEq, Repr

/-- A bound import (R436). -/
structure Import where
  surface : Nat
  device  : Nat
  active  : Bool := false          -- a frame is in progress and has a write slot
  ft      : Nat := 0
  enc     : Nat := 0
  depth   : Nat := 0
  lineLen : Nat := 0
  vact    : Nat := 0
  parity  : Bool := false
  parts   : Tbl (List (Nat × List Byte)) := []  -- chunks received of lines not complete
  lines   : List Nat := []         -- lines written
  lastLine : Ticks := 0
  deriving DecidableEq, Repr

/-- A received flit of a transfer or of an import: the device it comes from, and for XFER_HDR what the source
says of its surface. -/
structure InFlit where
  device : Nat
  flit   : FlitRx
  src    : Option SrcInfo := none
  held   : Bool := true            -- it holds a place of its link's receive buffer
  deriving DecidableEq, Repr

/-- One member raster of a strike part: the exact rationals in ns of its frame period, pnum/pden, and of
the time from its latch to the end of its frame, lnum/pden (R446, R451). -/
structure StrikeMember where
  pnum : Nat
  pden : Nat
  lnum : Nat
  deriving DecidableEq, Repr

/-- A strike open at the anchor (R450). -/
structure OpenStrike where
  num    : Nat
  t      : Nat
  parts  : Nat
  func   : Nat
  regs   : List (Nat × List StrikeMember) := []   -- device and its members
  c      : Nat := 0
  votes  : List (Nat × Bool) := []
  struck : Bool := false
  deriving DecidableEq, Repr

/-- The fabric. -/
structure CfSt where
  links   : Tbl CfLink := []
  devid   : Nat := 0
  valid   : Bool := false
  anchor  : Bool := false
  topo    : Nat := 0
  wM1     : Nat := 0
  hM1     : Nat := 0
  members : Tbl NodeMember := []
  xfers   : Tbl Xfer := []
  xfersIn : Tbl XferIn := []       -- key: source device * 64 + context
  imports : Tbl Import := []
  strikes : List OpenStrike := []
  inbuf   : List InFlit := []      -- received flits that wait for memory to take their writes
  msgNo   : Nat := 0               -- number of the next command message (R422)
  owedFlr : List (Nat × Nat) := [] -- (device, function): FLRs for devices without a route (R553)
  expStop : Nat := 0               -- rasters whose export firmware stopped (R428)
  deriving DecidableEq, Repr

/-- PTP configuration (R438, R456). -/
structure PtpCfg where
  port     : Nat := 0
  backupEn : Bool := false
  backup   : Nat := 0
  role     : Nat := 0
  twoStep  : Bool := false
  ipv6     : Bool := false
  prio1    : Nat := 128
  prio2    : Nat := 128
  logAnn   : Int := -2
  logSync  : Int := -3
  logDreq  : Int := -3
  steer    : Bool := false
  dco      : Nat := 0
  deriving DecidableEq, Repr

/-- The timekeeper's registers and its PTP and beat state (R454). -/
structure TkSt where
  state    : Nat := 0
  port     : Nat := 0
  domain   : Nat := 0x7F
  offset   : Int := 0
  fofs     : Int := 0
  beatErr  : Int := 0
  alignErr : Nat := 0
  alignThr : Nat := 0x28
  alignSeen : Nat := 0             -- rasters whose ALIGN_ERROR has been raised
  refN     : Nat := 60
  refD     : Nat := 1
  stRef    : Option (Nat × Nat × Nat) := none  -- staged N, D and the time from which it may apply
  steps    : Nat := 0
  beatNo   : Nat := 0
  ptp      : PtpCfg := {}
  reachedLocked : Bool := false
  gmId     : Nat := 0
  tlv      : List Byte := []
  lastAnn  : Ticks := 0            -- last time a master was heard
  beatSeen : Bool := false         -- a beat has been received since link-up
  locked   : Bool := false         -- 64 beats have been filtered
  filter   : List Int := []        -- the last offsets, newest first (0.1 ns)
  lastBeat : Nat := 0              -- time (ns) of the last beat
  lastDco  : Ticks := 0
  lastMsg  : Tbl Ticks := []       -- when a PTP message last went out, key 4 port + kind
  deriving DecidableEq, Repr

end Sys2Proof.Machine
end

