-- ==== Sys2Proof/Machine/StateScene.lean ====
section
/-! DEFINITION. State of scenes and panes (chapter 05), colour tables (06), crystals (07) and raster
generators with their sinks and strikes (08). -/
namespace Sys2Proof.Machine
open Sys2Proof

/-- The header of a scene (R201). -/
structure SceneHdr where
  scene    : Nat := 0xFFFFFF
  backdrop : Nat := 0
  tally1   : Nat := 0
  tally2   : Nat := 0
  tally3   : Nat := 0
  domain   : Bool := false         -- false encoded, true linear light
  deriving DecidableEq, Repr

/-- What the resolution of a pane's slot gave for the frame (R222 to R226). -/
inductive SlotUse where
  /-- Not resolved: not visible, or of a type that has no surface. -/
  | none
  /-- Fetched from this slot, which is pinned. -/
  | slot (k : Nat)
  /-- Drawn as the pane's BACKDROP colour. -/
  | backdrop
  deriving DecidableEq, Repr

/-- Run-time state and counters of one pane (R241). -/
structure PaneRun where
  use      : SlotUse := .none
  stale    : Bool := false         -- stale at the previous resolution
  ft0      : Option Nat := none    -- FT0 of R224
  subst    : Nat := 0
  tapShed  : Nat := 0
  depth    : Nat := 0
  fanout   : Nat := 0
  lbBack   : Nat := 0
  staleCnt : Nat := 0
  miss     : Nat := 0
  deriving DecidableEq, Repr

/-- A pixel contribution in the blend domain: binary16 codes of R, G, B and effective alpha. -/
structure Px where
  r : Nat
  g : Nat
  b : Nat
  a : Nat
  deriving DecidableEq, Repr

/-- The scenes of one raster. -/
structure SceneSt where
  active   : SceneHdr := {}
  shadow   : SceneHdr := {}
  pending  : Bool := false         -- an accepted scene waits for its latch (R160)
  fallback : Option (SceneHdr × List (List Byte)) := none
  building : Bool := false
  built    : Bool := false
  buildAt  : Ticks := 0            -- when the build in progress started
  entries  : Nat := 0              -- CS_INDEX.ENTRIES
  readmit  : Option (SceneHdr × List (List Byte)) := none  -- result of a readmission (R177)
  deriving DecidableEq, Repr

/-- The pane table (R202): 64-byte descriptors, shadow and active, and what runs. -/
structure PaneSt where
  shadow : Tbl (List Byte) := []
  active : Tbl (List Byte) := []
  run    : Tbl PaneRun := []
  deriving DecidableEq, Repr

/-- The page of one slice (R236). `first` is the lead slice of its gang. -/
structure Slice where
  raster  : Nat := 0
  bound   : Bool := false
  gang    : Nat := 0
  leads   : Bool := false
  stat    : Nat := 0               -- CS_STAT[6:0]
  fanMax  : Nat := 0
  fanLine : Nat := 0
  frameFanMax : Nat := 0           -- of the frame in progress
  frameFanLine : Nat := 0
  poolHwm : Nat := 0
  wdenied : Nat := 0
  shed    : Nat := 0
  dclip   : Nat := 0
  fclip   : Nat := 0
  lbbd    : Nat := 0
  seen    : Nat := 0               -- conditions already raised in this frame (R221)
  retired : Bool := false
  deriving DecidableEq, Repr

/-- A copy of a loadable table (R267). -/
structure TblCopy where
  data : List Byte
  taps : Nat := 0
  deriving DecidableEq, Repr

/-- Output settings of a raster (R271, R265). -/
structure OutSet where
  wtf    : Nat := 1
  lutEn  : Bool := false
  otf    : Nat := 1
  depth  : Nat := 2
  dither : Nat := 1
  matrix : List Nat := [4096, 0, 0, 0, 0, 4096, 0, 0, 0, 0, 4096, 0]
  deriving DecidableEq, Repr

/-- Per raster: older copies still in use until its next latch, and the loads it has not taken. -/
structure RasterTbl where
  old    : Tbl (Option TblCopy) := []   -- key -> the copy still in use (none: the reset contents)
  oldOut : Option OutSet := none
  waiting : List Nat := []              -- load sequence numbers not yet taken
  deriving DecidableEq, Repr

/-- The colour tables: newest copies by table key, output settings, load sequence number. -/
structure ColSt where
  tables  : Tbl TblCopy := []
  out     : Tbl OutSet := []
  loadSeq : Nat := 0
  rasters : Tbl RasterTbl := []
  deriving DecidableEq, Repr

/-- A crystal commit waiting for its latch (R284, R285). -/
structure CryCommit where
  slot    : Nat
  seq     : Nat
  surface : Nat
  action  : Nat
  learn   : Bool
  release : Bool
  expect  : Nat
  at_     : Ticks
  pinned  : Bool := true           -- the slot is pinned; a removal names none
  deriving DecidableEq, Repr

/-- The crystal of one raster (R296). -/
structure Crystal where
  pane    : Option Nat := none          -- active crystal pane ID
  slot    : Option (Nat × Nat) := none  -- surface and slot shown
  staged  : Option (Option Nat) := none -- some none: removal; some (some id): a staged crystal
  commit  : Option CryCommit := none
  action  : Nat := 0
  armed   : Bool := false
  learn   : Bool := false
  forced  : Bool := false
  mismatch : Bool := false
  subst   : Bool := false
  mismatched : Bool := false            -- a mismatch since the last latch (R292)
  expect  : Nat := 0
  last    : Nat := 0
  misCnt  : Nat := 0
  unchk   : Nat := 0
  seq     : Nat := 0
  crc     : Nat := 0xFFFFFFFF           -- running CRC register of the frame
  crcAny  : Bool := false               -- the region of the frame is not empty so far
  crcSubst : Bool := false              -- a crystal line of the frame was substituted
  crcLen  : Nat := 0                    -- bytes in `crc`, of the part in tile 1 of a crystal in both tiles
  deriving DecidableEq, Repr

/-- The crystal key of the device (R273 to R276). -/
structure CryKey where
  key     : Nat := 0
  until_  : Option Ticks := none        -- unlocked until
  lockout : Option Ticks := none
  fails   : Nat := 0
  deriving DecidableEq, Repr

/-- Timing parameters of a raster (R298). -/
structure Timing where
  set   : Bool := false
  hact  : Nat := 0
  hfp   : Nat := 0
  hsync : Nat := 0
  hbp   : Nat := 0
  vact  : Nat := 0
  vfp   : Nat := 0
  vsync : Nat := 0
  vbp   : Nat := 0
  latch : Nat := 0
  hpol  : Bool := false
  vpol  : Bool := false
  tiles2 : Bool := false
  n     : Nat := 0
  d     : Nat := 1
  deriving DecidableEq, Repr

/-- A sink attached to a raster (R323, R343). -/
structure Sink where
  live    : Bool := false               -- its attachment has taken effect
  leaving : Bool := false               -- a detach waits for the end of the frame
  enc     : Nat := 0
  mat     : Nat := 0
  narrow  : Bool := false
  depth   : Nat := 0
  port    : Nat := 0
  stream  : Nat := 0
  dsc     : Bool := false
  hdcp    : Bool := false
  type1   : Bool := false
  bpp     : Nat := 0
  slices  : Nat := 0
  slots   : Nat := 0                    -- MTP slots used
  flow    : Nat := 0
  wide    : Bool := false
  surface : Nat := 0
  dest    : Nat := 0
  imp     : Nat := 0
  stopped : Bool := false               -- a DP stream stopped for lack of slots (R330)
  rxids   : List Byte := []             -- HDCP receiver IDs (R331)
  deriving DecidableEq, Repr

/-- The data-path state of a raster (R336); the numbers of `RG_STAT.STATE`. -/
inductive DpState where
  | stopped | running | blanked | forced | halted
  deriving DecidableEq, Repr

/-- The phase of a raster whose slice was retired (R309). -/
inductive Rehome where
  /-- No re-home in progress. -/
  | none
  /-- A slice was retired; the raster halts at the next frame start. -/
  | lost
  /-- Halted and re-bound; the raster resumes at the next frame start after the index rebuild. -/
  | rebound
  /-- Halted with no free set. -/
  | stuck
  deriving DecidableEq, Repr

/-- A raster generator (R340) with what it needs to run. -/
structure Raster where
  tim      : Timing := {}
  stTim    : Option Timing := none      -- staged timing (R344)
  nextTim  : Option Timing := none      -- taken at the latch, in force from the next frame start
  st       : DpState := .stopped
  orphan   : Bool := false
  aligned  : Bool := false
  line     : Nat := 0
  frame    : Nat := 0
  ft       : Nat := 0
  latchT   : Nat := 0
  cdefer   : Nat := 0
  cdeferLife : Nat := 0
  alert    : Nat := 0
  sdrop    : Nat := 0
  blank    : Nat := 0
  commit   : Bool := false
  commitAt : Ticks := 0                 -- when COMMIT was last set (R314)
  latchAt  : Option Ticks := none       -- when the latest latch cycle was
  stopping : Bool := false              -- a stop waits for the end of the frame
  discard  : Bool := false              -- that stop discards the scenes
  resetting : Bool := false             -- that stop is a unit reset
  lastEnd  : Nat := 0
  first    : Option Nat := none         -- first bound slice
  g        : Nat := 0                   -- gang size, kept after an unbind (R307)
  startFt  : Nat := 0                   -- planned first FT (R639)
  waitingStart : Bool := false          -- RASTER_START done, the start latch is to come
  leadIn   : Bool := false
  latched  : Bool := false              -- the latch of the frame in progress has passed
  newFrame : Bool := false              -- the frame has started and its line 0 has not been handled
  accAt    : Ticks := 0                 -- when acc and pos last restarted
  pos0     : Nat := 0                   -- pos at that moment
  starts   : Nat := 0                   -- frame starts since then
  rehome   : Rehome := .none
  restart  : Bool := false              -- to be restarted at P2 exit (R547)
  prev     : Tbl (List Px) := []        -- each pane's contribution to the previous line (R189)
  ready    : Option (List (List Nat)) := none   -- the line composed and not yet emitted: codes per pixel
  cryPrev  : Option (List Px) := none   -- the crystal's contribution to the previous line
  cryAlpha : List Nat := []             -- its effective alphas on that line
  sinks    : Tbl Sink := []             -- key: kind 0 DP, 1 ST 2110-20, 2 writeback, 3 export
  wbSlot   : Option Nat := none         -- write slot of the writeback frame in progress
  wbLost   : Nat := 0
  wbTiles  : List (List (List Nat)) := []  -- lines of the FTC-F tile row being gathered
  wbBuf    : List (Nat × Option (List (List Nat))) := []  -- lines in the writeback buffer, oldest first; none: lost
  wbRowLost : Bool := false
  wbEnd    : Option Nat := none         -- FT of a writeback frame that has ended and whose lines still wait (R334)
  deriving DecidableEq, Repr

/-- A DisplayPort port (R341). -/
structure DpPort where
  hpd      : Bool := false
  enabled  : Bool := false
  mst      : Bool := false
  rate     : Nat := 0
  lanes    : Nat := 0
  fallback : Bool := false
  trained  : Bool := false
  tRate    : Nat := 0
  tLanes   : Nat := 0
  auth     : Nat := 0
  retrain  : Nat := 0
  training : Bool := false
  hpdLost  : Bool := false              -- HPD was lost since the port was configured
  deriving DecidableEq, Repr

/-- One strike (R318; across devices R449 to R452). -/
structure Strike where
  members : Nat                         -- raster mask
  owner   : Nat
  id      : Nat := 0
  c       : Nat := 0                    -- boundary C (ns)
  t       : Nat := 0
  pn      : Nat := 0                    -- the common frame period pn / pd in ns
  pd      : Nat := 1
  d       : Nat := 0                    -- decision point D of the boundary (ns)
  struck  : Bool := false
  voted   : Bool := false               -- this part has voted for the boundary in force
  deriving DecidableEq, Repr

/-- All rasters, slices and DisplayPort ports. -/
structure RgSt where
  rasters : Tbl Raster := []
  slices  : Tbl Slice := []
  scenes  : Tbl SceneSt := []
  crystals : Tbl Crystal := []
  dps     : Tbl DpPort := []
  strikes : List Strike := []
  deriving DecidableEq, Repr

/-- Management views of units other than rasters, marks, and frozen words of marked rasters (R35, R38). -/
structure UnitSt where
  mgmt    : Tbl Nat := []               -- key: unit reference
  marked  : Tbl Nat := []               -- marked units, with the management word while marked
  deriving DecidableEq, Repr

end Sys2Proof.Machine
end

