-- ==== Sys2Proof/Machine/StateSys.lean ====
section
/-! DEFINITION. State of the blitter (chapter 12), the housekeeping DMA (13), the power and clock
manager (15) and of reliability, identity and lifetime records (16). -/
namespace Sys2Proof.Machine
open Sys2Proof

/-- A job of the blitter's queue (R457): a blit or a list of BLIT_LIST_RUN. -/
structure BlJob where
  ent   : Entry
  late  : Bool := false
  raced : List (Nat × Nat) := []   -- ranges [lo, hi) of its destination that host software wrote (R470)
  deriving DecidableEq, Repr

/-- The operation in progress (R465 to R469). -/
structure BlOp where
  block   : List Byte
  func    : Nat
  src     : Option (Nat × Nat) := none   -- pinned source surface and slot
  dst     : Option (Nat × Nat) := none   -- destination surface and write slot
  line    : Nat := 0               -- lines of the walk done, those of plane 0 first
  chunk   : Nat := 0               -- bursts of the line in progress done
  faults  : Nat := 0               -- failed accesses: RESULT1
  stop    : Bool := false          -- ends at the next burst boundary (R471)
  raced   : List (Nat × Nat) := [] -- ranges [lo, hi) of its destination that host software wrote (R470)
  deriving DecidableEq, Repr

/-- The command list in progress (R474 to R477). -/
structure BlList where
  addr    : Nat
  limit   : Nat                    -- entries to run: up to the first END
  next    : Nat := 0
  stopErr : Bool := true
  okCnt   : Nat := 0
  run     : Nat := 0
  fail    : Option Nat := none
  byReg   : Bool := false
  stop    : Bool := false
  deriving DecidableEq, Repr

/-- The blitter (R478). -/
structure BlSt where
  queue    : List BlJob := []
  job      : Option BlJob := none  -- the job whose operation or list runs
  op       : Option BlOp := none
  list     : Option BlList := none
  regWait  : Bool := false         -- a register-started list waits for the operation in progress
  accFault : Bool := false
  listErr  : Bool := false
  dead     : Nat := 0
  burstEnd : Option Ticks := none
  laddr    : Nat := 0
  stopOnErr : Bool := true
  lcount   : Nat := 0x10000
  ldone    : Nat := 0
  lfail    : Nat := 0x1FFFF
  lfstat   : Nat := 0
  faults   : Nat := 0
  ops      : Nat := 0
  deriving DecidableEq, Repr

/-- State of an HD channel (R482). -/
inductive HdState where
  | idle | ready | running | aborting
  deriving DecidableEq, Repr

/-- What the engine is doing with the running chain. -/
inductive HdPhase where
  /-- A descriptor is carried out, burst by burst. -/
  | burst
  /-- Its bursts are over; its completion, after the read-back, is awaited (R493). -/
  | closing
  deriving DecidableEq, Repr

/-- One HD channel (R503). -/
structure HdChan where
  prio     : Nat := 0
  burst    : Nat := 4
  cqLog2   : Nat := 4
  cqSpace  : Bool := false
  configured : Bool := false
  st       : HdState := .idle
  waitreq  : Bool := false
  waitAt   : Ticks := 0
  cqOvf    : Bool := false
  last     : Nat := 0
  chead    : Nat := 0              -- HD_CHEAD as a pair
  start    : Bool := false         -- HD_CCTL.START
  abort    : Bool := false
  limit    : Nat := 0x10000
  ccur     : Nat := 0
  resid    : Nat := 0
  count    : Nat := 0
  cqpi     : Nat := 0
  cqci     : Nat := 0
  ciOld    : Nat := 0              -- CI before the write at tick `ciAt` (R495, R500)
  ciAt     : Option Ticks := none
  ctmo     : Nat := 0
  cqbase   : Nat := 0
  head     : Nat := 0              -- the head of the chain being run: [63] space
  desc     : Option (List Byte) := none  -- the descriptor in progress
  phase    : HdPhase := .burst
  k        : Nat := 0              -- bytes done
  mismatch : Option Nat := none
  accessAt : Ticks := 0            -- since when the engine waits for an access of the chain (R498)
  noRecords : Bool := false        -- records to host memory are discarded (R501)
  deriving DecidableEq, Repr

/-- The housekeeping DMA. -/
structure HdSt where
  chans   : Tbl HdChan := []
  cur     : Nat := 0
  reqOvf  : Bool := false
  req     : Tbl Nat := []          -- pending count per line
  lastAt  : Tbl Nat := []          -- per PRIO: the channel last taken
  records : List (Nat × List Byte) := []  -- completion records that wait for device memory, oldest first
  deriving DecidableEq, Repr

/-- The power and clock manager (R563). AON items first. -/
structure PmuSt where
  pstate   : Nat := 0
  changing : Bool := false
  cause    : Nat := 0
  thermtrip : Bool := false
  wake     : Nat := 0
  strapBoot : Nat := 0
  strapQ0  : Bool := true
  strapQ1  : Bool := false
  wakeAt   : Option Ticks := none  -- always-on timer
  stage    : Nat := 0
  slot     : Nat := 0
  fallback : Bool := false
  recovered : Bool := false
  fwVersion : Nat := 0
  por      : Bool := true          -- held by POR
  inReset  : Bool := true          -- held by POR, by RESET_N or shut down hot (R626)
  tripped  : Bool := false         -- a shutdown that the lifetime recorder has not counted
  keptLive : Option Nat := none    -- the live set under which memory was kept over a reset
  off      : Bool := false         -- shut down by the comparator (R562)
  pinLow   : Bool := false         -- RESET_N is low
  perstLow : Bool := false
  hotPend  : Bool := false         -- a PIN reset was released at or above 115 °C (R626)
  tj       : Int := 0              -- 1/8 °C
  tjHwm    : Int := 0
  vset     : Nat := 7500           -- supply setpoint in 0.1 mV (R620)
  avsAt    : Option Ticks := none  -- the last AVS update
  shed     : Nat := 0              -- bit c
  override : Bool := false
  blank    : Bool := false
  noshed   : Nat := 0
  shedOrder : List Nat := []       -- classes shed under the first row, last shed first
  lastShed : Option Ticks := none
  lastRestore : Option Ticks := none
  tshed    : Nat := 100
  hyst     : Nat := 5
  vmin     : Nat := 650
  vmax     : Nat := 850
  eqMin    : Nat := 0
  eqMax    : Nat := 31
  rfMin    : Nat := 0
  rfMax    : Nat := 2
  pinned   : Nat := 0
  clamp    : Nat := 0
  refresh  : Nat := 0
  mr4      : Nat := 0              -- the highest rate that MR4 demanded at the last poll
  rfErrs   : List (Nat × Ticks) := []  -- corrected errors counted since rfSince: channel and power-on time
  rfSince  : Ticks := 0            -- power-on time since which the refresh loop counts (R559)
  rfAt     : Option Ticks := none  -- the last poll
  tjAt     : Option Ticks := none  -- the last sample of the thermal governor
  page     : Nat := 0
  commit   : Bool := false
  done     : Bool := false
  busy     : Bool := false
  rcvErr   : Bool := false
  window   : Tbl Nat := []         -- recovery window, words
  flash    : Tbl (List (Nat × Nat)) := []  -- pages programmed into slot A
  eq       : Tbl Nat := []         -- CTLE code per SerDes lane
  eqWin    : Tbl (Nat × Nat) := [] -- the window in force per lane: that of its last training (R558)
  warned   : Tbl Ticks := []       -- when WDOG_WARN was last raised per core
  drainAt  : Option Ticks := none  -- start of the wait of R545 step 1
  entering : Bool := false         -- steps 2 to 6 of R545 run; rasters are stopping
  target   : Nat := 0              -- target of the change in progress
  wakeAfter : Nat := 0
  resuming : Bool := false         -- R547 step 3 runs
  deriving DecidableEq, Repr

/-- The level of a pin that the device drives. -/
inductive PinLevel where
  | high | low
  /-- High-impedance: TDO, or a released open-drain line. -/
  | highZ
  deriving DecidableEq, Repr

/-- The pins whose levels in reset the spec gives (R627). After reset UART, JTAG, I2C, AVSBus and the flash's chip
select follow traffic the spec does not describe: they keep these levels. -/
structure Pins where
  uartTx     : PinLevel := .high
  ospiCsN    : PinLevel := .high
  ospiResetN : PinLevel := .low
  tdo        : PinLevel := .highZ
  i2c        : PinLevel := .highZ
  avsBus     : PinLevel := .highZ
  deriving DecidableEq, Repr

/-- One ECC log entry (R590) with when it counted towards the threshold. -/
structure EccEntry where
  time  : Nat
  row   : Nat
  bank  : Nat
  die   : Nat
  kind  : Nat
  cls   : Nat
  repaired : Bool := false
  count : Nat := 1
  sector : Nat                     -- device address of the 256-byte sector
  at_   : Ticks                    -- power-on time of the latest occurrence
  deriving DecidableEq, Repr

/-- A retirement record (R584). -/
structure Retire where
  kind   : Nat
  index  : Nat
  cause  : Nat
  active : Bool := true
  clearPending : Bool := false
  count  : Nat := 0
  time   : Nat := 0
  on     : Nat := 0
  deriving DecidableEq, Repr

/-- A row of a channel: bank, die and row number. -/
structure RowRef where
  chan : Nat
  die  : Nat
  bank : Nat
  row  : Nat
  deriving DecidableEq, Repr

/-- A record of PST outside the banks of the lifetime recorder (R582). -/
inductive PstRecord where
  /-- The boot record: the inline-ECC selection. -/
  | boot (eccSel : Bool)
  /-- The crystal key record. -/
  | key (k : Nat)
  /-- The retirement records. -/
  | retirements (l : List Retire)
  /-- The pending-repair and repair-done lists. -/
  | repairs (pending done exhausted : List RowRef)
  deriving DecidableEq, Repr

/-- One copy of a record with its update count and CRC-32 (R583). -/
structure PstCopy where
  val   : PstRecord
  count : Nat
  crc   : Nat
  deriving DecidableEq, Repr

/-- The two copies of a record. During the tick of an update the second still holds the record before it. -/
structure PstSlot where
  first  : PstCopy
  second : PstCopy
  at_    : Ticks                            -- the tick of the latest update
  deriving DecidableEq, Repr

/-- What one checkpoint of the lifetime recorder counts (R587). -/
structure LtrSnap where
  time   : Nat := 0
  on     : Nat := 0                         -- power-on seconds
  live   : Tbl Nat := []
  boots  : Tbl (List Byte) := []
  bootNo : Nat := 0
  deriving DecidableEq, Repr

/-- Reliability state, identity and the lifetime recorder. -/
structure RelSt where
  ecc      : Tbl (List EccEntry) := []      -- newest first, at most 64
  sectors  : List (Nat × Nat × Ticks) := [] -- channel, sector, time of counted uncorrectable errors
  errAt    : List (Nat × Nat × Ticks) := [] -- channel, sector, time of its latest uncorrectable error (R571)
  corr     : List (RowRef × Ticks) := []    -- corrected errors per row
  parity   : List (Nat × Ticks) := []       -- slice
  laneRt   : List (Nat × Ticks) := []       -- lane charged with a retrain
  attempts : List (Nat × Ticks) := []       -- failed attempts: link key (port p, or 8 + k)
  parityCnt : Nat := 0                      -- REL_PARITY
  pprPending : List RowRef := []            -- PST
  pprDone  : List RowRef := []              -- PST
  pprExhausted : List RowRef := []          -- PST
  retired  : List Retire := []              -- PST, oldest first
  eccSel   : Bool := true                   -- PST boot record (R542)
  pst      : Tbl PstSlot := []              -- PST: the copies of records, by area (R582, R583)
  ltrPend  : Option LtrSnap := none         -- the checkpoint being written
  ltrTrigger : Nat := 0
  ltrBank  : Nat := 0
  ltrWSeq  : Nat := 0                       -- SEQ of the last checkpoint begun
  ltrFault : Bool := false
  ltrRetry : Bool := false                  -- the write in progress is the retry (R591)
  ltrSeq   : Nat := 0                       -- PST: SEQ of the newest checkpoint
  ltrSnap  : LtrSnap := {}                  -- PST: what the newest checkpoint counted
  banks    : Tbl (List Byte) := []          -- PST: valid records of the 16 banks
  live     : Tbl Nat := []                  -- live counters, key: byte offset in the record
  boots    : Tbl (List Byte) := []          -- boot history ring by slot
  bootNo   : Nat := 0                       -- boots entered
  onBase   : Nat := 0                       -- power-on seconds at the last reset
  lastCkpt : Ticks := 0                     -- power-on time of the last checkpoint
  lastSec  : Nat := 0                       -- the last power-on second sampled
  berAt    : Nat := 0                       -- the last power-on hour whose BER was evaluated
  partid   : Nat := 0x41601104
  lot      : List Byte := [0x41#8, 0x30#8, 0x30#8, 0x30#8, 0x30#8, 0x31#8]
  wafer    : Nat := 1
  dieX     : Nat := 1
  dieY     : Nat := 1
  uid      : Nat := 1
  deriving DecidableEq, Repr

end Sys2Proof.Machine
end

