-- ==== Sys2Proof/Machine/State.lean ====
section
/-! DEFINITION. The whole state of the FB4160 as plain data, the reasons a step can stop, and the
state at power-on reset. -/
namespace Sys2Proof.Machine
open Sys2Proof

/-- What the device sends out, as commands of its environment would see it. -/
inductive Out where
  /-- A packet's final completion (or acceptance), whether or not a reply is written for it. -/
  | completion (func qp tag status r0 r1 : Nat)
  /-- A write to host memory by a function: replies, records, completion records. -/
  | hostWrite (func addr : Nat) (bytes : List Byte)
  /-- Data returned for a register or BAR2 read of a function. -/
  | readData (func value : Nat)
  /-- BAR2 read data; poisoned when an uncorrectable sector was met (R571). -/
  | bar2Data (func : Nat) (bytes : List Byte) (poisoned : Bool)
  /-- Unsupported Request returned to a function's requester. -/
  | ur (func : Nat)
  /-- An edge raised to the event concentrator. -/
  | event (source : Nat)
  /-- An MSI-X message of entry v of function f. -/
  | msix (func vector addr data : Nat)
  /-- The request line of a Movement core rises. -/
  | coreRequest (core : Nat)
  /-- A flit sent on a Cririk link: its 256 bytes (R421). -/
  | flit (link : Nat) (image : List Byte)
  /-- A command message handed to the fabric for another device. -/
  | routed (device : Nat) (m : CmdMsg)
  /-- A read of host memory by a function: ring entries and parameter blocks. -/
  | hostRead (func addr len : Nat)
  /-- An Ethernet frame sent on a port. -/
  | frame (port : Nat) (bytes : List Byte)
  /-- Firmware or timekeeper traffic sent on a port: kind and words (contents are set by RFCs). -/
  | fwFrame (port kind : Nat) (words : List Nat)
  /-- A line of a raster handed to a sink of a kind: codes of three components per pixel. -/
  | line (raster kind y : Nat) (codes : List (List Nat))
  /-- The VSC colorimetry and HDR metadata of a raster's DisplayPort stream: ENCODING, MATRIX, RANGE, s and OTF (R326). -/
  | sdp (raster : Nat) (fields : List Nat)
  /-- A raster's sinks carry no video. -/
  | noVideo (raster : Nat)
  /-- A register write of the REFCLK oscillator over I2C (R441). -/
  | i2c (addr reg : Nat) (bytes : List Byte)
  /-- A new supply setpoint in 0.1 mV (R557). -/
  | supply (v : Nat)
  /-- The THERMTRIP_N pin. -/
  | thermtrip (asserted : Bool)
  /-- Data written by the HD to host memory with PF0's requester ID, or read from it. -/
  | hdHost (addr : Nat) (bytes : List Byte)
  deriving DecidableEq, Repr

/-- The parts of the state that hold registers which a host access clears, as they stood when a tick began, and
what has happened to such registers in the tick (R17): W1C bits set, by register, and RC registers cleared. -/
structure Parts where
  sets    : Tbl Nat := []
  cleared : List Nat := []
  host    : HostSt := {}
  cp      : CpSt := {}
  evc     : EvcSt := {}
  pn      : PaneSt := {}
  key     : CryKey := {}
  rg      : RgSt := {}
  ne      : NeSt := {}
  ts      : TsSt := {}
  cf      : CfSt := {}
  tk      : TkSt := {}
  bl      : BlSt := {}
  hd      : HdSt := {}
  pmu     : PmuSt := {}
  rel     : RelSt := {}
  arb     : EvcSt := {}            -- the EVC as it stood at the end of the previous arbitration cycle (R516)
  deriving DecidableEq, Repr

/-- The state of the block. -/
structure State where
  pending : List Instr := []       -- commands waiting, first in, first out (the model's own)
  out     : List Out := []         -- what has been sent, newest first (the model's own)
  fresh   : Nat := 0               -- index of the next free value (the model's own)
  clk     : ClockSt := {}
  host    : HostSt := {}
  own     : OwnSt := {}
  cp      : CpSt := {}
  evc     : EvcSt := {}
  mm      : MmSt := {}
  fs      : FsSt := {}
  pn      : PaneSt := {}
  col     : ColSt := {}
  key     : CryKey := {}
  rg      : RgSt := {}
  un      : UnitSt := {}
  ne      : NeSt := {}
  ts      : TsSt := {}
  cf      : CfSt := {}
  tk      : TkSt := {}
  bl      : BlSt := {}
  hd      : HdSt := {}
  pmu     : PmuSt := {}
  rel     : RelSt := {}
  pins    : Pins := {}
  prior   : Parts := {}            -- those parts as the present tick began (the model's own, R17)
  deriving DecidableEq, Repr

/-- The reasons a step can stop with a fault. Nobody raises one: the spec lets no command stop the
device (R94: every failing packet completes with a status). Safe. -/
inductive Fault where
  /-- Raised by nobody; the type must not be empty. Safe. -/
  | unreachable
  deriving DecidableEq, Repr

/-- The reasons a step can be refused. -/
inductive Refusal where
  /-- The command has no meaning yet. Raised by `exec`'s refused arms only. Safe: nothing is claimed. -/
  | notModelled (mnemonic : String)
  deriving DecidableEq, Repr

/-- The machine at power-on reset: every register at its reset value, boot stage 0, every channel
RESTARTING, no memory listed, the supplies not yet good (R18, R550, R563, R622). -/
def State.reset : State := {}

end Sys2Proof.Machine
end

