-- ==== Sys2Proof/Machine/Ops.lean ====
section
/-! DEFINITION. Operations over the whole state: device time, output, the event concentrator and the
ownership of resources. -/
namespace Sys2Proof.Machine
open Sys2Proof

/-! ### Output and free values -/

/-- Record something the device sends. -/
def emit (o : Out) (s : State) : State := { s with out := o :: s.out }

/-- A free value and the state with the counter advanced. -/
def takeFree (s : State) : Nat × State := (Config.freeValue s.fresh, { s with fresh := s.fresh + 1 })

/-! ### Device time (R8, R9, R439) -/

/-- Time in fifths of 2^-16 ns at a tick: `base` plus 0.8 ns a tick plus the rate adjustment. -/
def timeAt (c : ClockSt) (t : Ticks) : Nat :=
  let n := (t - c.at_) * 262144
  (((c.base + n : Nat) : Int) + ((n : Int) * c.rate) / (2 ^ 16 * 1000000000 : Int)).toNat

/-- The 0.8 ns timestamp count since the epoch (R439). -/
def stamp (s : State) : Nat := timeAt s.clk s.clk.ticks / 262144

/-- Device time in ns, truncated (R9). -/
def now (s : State) : Nat := stamp s * 4 / 5

/-- Tenths of a ns of the timestamp: 0, 2, 4, 6 or 8 (R454). -/
def tenths (s : State) : Nat := (stamp s * 8) % 10

/-- The device time in ns that a given tick has. -/
def nsAt (s : State) (t : Ticks) : Nat := timeAt s.clk t / 262144 * 4 / 5

/-- Set the clock to a time given in 0.8 ns ticks since the epoch. -/
def setStamp (v : Nat) (s : State) : State :=
  { s with clk := { s.clk with base := v * 262144, at_ := s.clk.ticks } }

/-- Move the time by a signed count of tenths of a ns. -/
def slewTenths (d : Int) (s : State) : State :=
  let u := timeAt s.clk s.clk.ticks
  { s with clk := { s.clk with base := ((u : Int) + d * 32768).toNat, at_ := s.clk.ticks } }

/-- Set the rate adjustment, held to ±1,000 ppm (R439). -/
def setRate (r : Int) (s : State) : State :=
  let lim : Int := 1000000 * 65536
  let r := max (-lim) (min lim r)
  let u := timeAt s.clk s.clk.ticks
  { s with clk := { s.clk with base := u, at_ := s.clk.ticks, rate := r } }

/-- An event sets bit i of the W1C register of a key in this tick (R17). The key of a register of function f at
offset off of its BAR0 is f · 2^23 + off; a field of flags that spans registers has the key of its first. -/
def noteSet (key i : Nat) (s : State) : State :=
  { s with prior := { s.prior with sets := Tbl.upd s.prior.sets 0 key fun m => setBit m i true } }

/-- Bits of a W1C register that an event has set in this tick. -/
def setNow (s : State) (key : Nat) : Nat := Tbl.get s.prior.sets 0 key

/-- Key of a function's ACCESS_ERR. -/
def accErrKey (f : Nat) : Nat := if f = 0 then 0x30 else f * 2 ^ 23 + 4
/-- Key of EVC_TSTAT of a target. -/
def tstatKey (tg : Nat) : Nat := 0xC014 + 0x40 * tg
/-- Key of RG_ALERT of a raster. -/
def rgAlertKey (r : Nat) : Nat := 0x10024 + 0x1000 * r
/-- Key of CRY_STAT of a raster. -/
def cryStatKey (r : Nat) : Nat := 0x10800 + 0x1000 * r
/-- Key of CS_STAT of a slice. -/
def csStatKey (c : Nat) : Nat := 0x20004 + 0x1000 * c
/-- Key of HD_CSTAT of a channel. -/
def hdStatKey (c : Nat) : Nat := 0x58104 + 0x40 * c

/-- Ticks of a duration in µs, and in ms. -/
def usTicks (n : Nat) : Nat := n * 1250
/-- Ticks of a duration in ms. -/
def msTicks (n : Nat) : Nat := n * 1250000
/-- Ticks of a duration in s. -/
def secTicks (n : Nat) : Nat := n * 1250000000

/-- The parts of a state in which a host access can clear a register, and those that a latch copies. -/
def partsOf (s : State) : Parts :=
  { host := s.host, cp := s.cp, evc := s.evc, pn := s.pn, key := s.key, rg := s.rg, ne := s.ne, ts := s.ts, cf := s.cf,
    tk := s.tk, bl := s.bl, hd := s.hd, pmu := s.pmu, rel := s.rel }

/-- The arbitration cycle of a tick: the EVC runs at 1,000 MHz (chapter 14), the ticks at 1,250 MHz. -/
def arbCycle (t : Ticks) : Nat := 4 * t / 5

/-- Advance to the time of a step. Time never runs backwards; power-on time counts P0 to P2 (R568). A new
tick begins with the registers as they stand (R17). -/
def advance (t : Ticks) (s : State) : State :=
  let t' := max s.clk.ticks t
  let d := t' - s.clk.ticks
  { s with
    clk := { s.clk with
      ticks := t'
      onTicks := if s.pmu.pstate = 3 then s.clk.onTicks else s.clk.onTicks + d }
    prior := if d = 0 then s.prior
      else { partsOf s with arb := if arbCycle s.clk.ticks = arbCycle t' then s.prior.arb else s.evc } }

/-- The state with panes and rasters as they stood at the end of the previous cycle: what a latch copies
(R314). -/
def lastCycle (s : State) : State := { s with pn := s.prior.pn, rg := s.prior.rg }

/-- The state with the EVC as it stood at the end of the previous arbitration cycle: what claim reads, reads of
EVC_TSTAT and deliveries see (R516). -/
def lastArb (s : State) : State := { s with evc := s.prior.arb }

/-- Whether a time lies in the arbitration cycle of the present tick. -/
def inThisArb (s : State) (t : Option Ticks) : Bool :=
  match t with
  | some u => arbCycle u == arbCycle s.clk.ticks
  | none => false

/-- Whole power-on seconds of the part (R587). -/
def powerOn (s : State) : Nat := s.rel.onBase + s.clk.onTicks / secTicks 1

/-- Whether the boot sequence has reached READY (R538). -/
def isReady (s : State) : Bool := s.pmu.stage == 5

/-- Whether the part runs: ready and not in P3 nor shut down. -/
def isRunning (s : State) : Bool := isReady s && s.pmu.pstate != 3 && !s.pmu.off

/-- Held quiet for P2: from the start of entry until the state is left (R545). -/
def quiesced (s : State) : Bool := s.pmu.entering || s.pmu.pstate == 2

/-! ### Event concentrator (chapter 14) -/

/-- Level sources are 832 to 959 (R508). -/
def isLevelSource (src : Nat) : Bool := decide (832 ≤ src ∧ src ≤ 959)

/-- The record of a source. -/
def srcOf (s : State) (n : Nat) : EvcSrc := Tbl.get s.evc.src {} n
/-- The record of a target. -/
def tgtOf (s : State) (n : Nat) : EvcTgt := Tbl.get s.evc.tgt {} n

/-- The target at which an instance stands: the fallback it was moved to, or the routed one (R524). -/
def srcTarget (x : EvcSrc) : Nat := x.moved.getD x.target

/-- Whether a core's clock is stopped: waiting in P1 or P2, or P3 (R523; log entry 12). -/
def coreAsleep (s : State) (tg : Nat) : Bool :=
  decide (tg < 4) && (s.pmu.pstate == 3
    || (s.pmu.pstate != 0 && (tgtOf s tg).waiting && !(tgtOf s tg).awake))

/-- Deliverable at its target (R513). -/
def deliverable (s : State) (x : EvcSrc) : Bool :=
  x.pending && !x.claimed && decide ((tgtOf s (srcTarget x)).thresh < x.prio)

/-- Recompute since when a source has been deliverable. -/
def settleSrc (s : State) (x : EvcSrc) : EvcSrc :=
  { x with since := if deliverable s x then (match x.since with
      | some t => some t
      | none => some s.clk.ticks) else none }

/-- Store a source record, settled. -/
def putSrc (n : Nat) (x : EvcSrc) (s : State) : State :=
  { s with evc := { s.evc with src := Tbl.set s.evc.src n (settleSrc s x) } }

/-- Store a target record and settle every source that stands at it. -/
def putTgt (tg : Nat) (x : EvcTgt) (s : State) : State :=
  let s1 := { s with evc := { s.evc with tgt := Tbl.set s.evc.tgt tg x } }
  { s1 with evc := { s1.evc with src := s1.evc.src.map fun e => (e.1, settleSrc s1 e.2) } }

/-- A source has become pending: a sleeping core's wake latch starts its clock, unless NOWAKE is set and
the instance stands at the routed target (R523, R524). -/
def wakeFor (n : Nat) (s : State) : State :=
  let x := srcOf s n
  let tg := srcTarget x
  if x.pending && coreAsleep s tg && (!x.nowake || x.moved.isSome) then
    putTgt tg { tgtOf s tg with awake := true } s
  else s

/-- Sources that no chapter uses (R113, R197, R378, R414, R455, R479, R509, R564, R592). -/
def unusedSource (n : Nat) : Bool :=
  [(14, 63), (242, 255), (327, 383), (419, 447), (466, 639), (659, 703), (706, 767), (971, 991),
    (1002, 1007)].any fun r => decide (r.1 ≤ n ∧ n ≤ r.2)

/-- An edge reaching the EVC (R512). Source 0 and unused sources are never raised (R530). -/
def evcEdge (n : Nat) (s : State) : State :=
  if n = 0 ∨ 1023 < n ∨ isLevelSource n ∨ unusedSource n then s
  else
    let x := srcOf s n
    if x.pending then
      { s with evc := { s.evc with merges := sat 32 (s.evc.merges + 1) } }
    else
      wakeFor n (putSrc n { x with pending := true, pendAt := s.clk.ticks, since := none } s)

/-- Raise an edge source of the device itself. -/
def raise (n : Nat) (s : State) : State := evcEdge n (emit (.event n) s)

/-- A level source asserts or deasserts; PENDING follows it while unclaimed (R512). -/
def evcLevel (n : Nat) (lvl : Bool) (s : State) : State :=
  let x := srcOf s n
  if x.asserted = lvl then s
  else
    let x := { x with asserted := lvl }
    let x := if x.claimed then x else
      { x with pending := lvl, pendAt := s.clk.ticks, since := none, moved := none }
    wakeFor n (putSrc n x s)

/-- Claims held by a target (R514). -/
def claimsOf (s : State) (tg : Nat) : Nat :=
  (s.evc.src.filter fun e => e.2.claimed && e.2.claimer == tg).length

/-- A target is held by its own HOLD or the device-wide one (R518). -/
def tgtHeld (s : State) (tg : Nat) : Bool := (tgtOf s tg).hold || s.evc.ghold

/-- The deliverable sources of a target, ascending. -/
def deliverables (s : State) (tg : Nat) : List (Nat × EvcSrc) :=
  s.evc.src.filter fun e => srcTarget e.2 == tg && deliverable s e.2

/-- The source of highest PRIO, then of lowest number, among ascending ones (R513); 0 when there is none. -/
def topOf (l : List (Nat × EvcSrc)) : Nat :=
  (l.foldl (fun (best : Nat × Nat) e => if best.2 < e.2.prio then (e.1, e.2.prio) else best) (0, 0)).1

/-- The top source of a target. -/
def topSource (s : State) (tg : Nat) : Nat := topOf (deliverables s tg)

/-- What a claim read of a target returns (R514, R516): its top source as it stood at the end of the previous
arbitration cycle, without those that have been claimed or dropped since; 0 while the target was held. -/
def claimTop (s : State) (tg : Nat) : Nat :=
  let p := lastArb s
  if tgtHeld p tg then 0
  else topOf ((deliverables p tg).filter fun e =>
    let x := srcOf s e.1
    !x.claimed && (x.pending || isLevelSource e.1))

/-- A target is idle (R521). -/
def tgtIdle (s : State) (tg : Nat) : Bool :=
  claimsOf s tg == 0 && (if tg < 4 then (tgtOf s tg).waiting else (tgtOf s tg).idle)

/-- The function that holds a target: 16 stands for Movement firmware (R510). -/
def tgtHolder (s : State) (tg : Nat) : Nat :=
  if tg < 4 then 16
  else
    let f := (tg - 4) / 4
    if f = 0 then 0 else if Tbl.get s.own.targets false f then f else 0

/-- `EVC_SRC` of a source (R527). -/
def srcWord (s : State) (n : Nat) : Nat :=
  if n = 0 then 0 else
  let x := srcOf s n
  x.target + shl x.prio 8 + shl (b2n x.nowake) 12 + shl (b2n (isLevelSource n)) 13
    + shl (b2n x.asserted) 14 + shl (b2n x.pending) 16 + shl (b2n x.claimed) 17
    + shl (if x.claimed then x.claimer else 0) 18

/-- `EVC_TSTAT` of a target (R528). -/
def tstatWord (s : State) (tg : Nat) : Nat :=
  let top := topSource s tg
  top + shl (b2n (top != 0)) 10 + shl (b2n (!(tgtOf s tg).armed)) 11
    + shl (b2n (coreAsleep s tg)) 12 + shl (b2n (tgtOf s tg).badcomp) 13
    + shl (b2n (tgtIdle s tg)) 14 + shl (claimsOf s tg % 1024) 16

/-- PENDING of a source that holds no claim once its instance is dropped: a level that is still asserted
is pending again (R512). -/
def pendingDropped (n : Nat) (x : EvcSrc) : Bool := isLevelSource n && x.asserted

/-- The change of route that an owner change brings (R511): pending unclaimed instances are dropped. -/
def evcRehomeSrc (n : Nat) (s : State) : State :=
  let x := srcOf s n
  putSrc n { x with target := 4, prio := 0, nowake := false, moved := none,
                    pending := if x.claimed then x.pending else pendingDropped n x, since := none } s

/-- Apply a state change to each element of a list in turn. -/
def forAll {α : Type} (l : List α) (f : α → State → State) (s : State) : State :=
  l.foldl (fun s a => f a s) s

/-! ### Functions and ownership (chapter 01) -/

/-- Bus Master Enable of a function. -/
def bmeOf (s : State) (f : Nat) : Bool := tbit s.host.bme f

/-- Whether a function exists: PF0, or an enabled VF (R597, R99). -/
def functionOn (s : State) (f : Nat) : Bool :=
  f == 0 || (s.host.vfEnable && decide (f ≤ s.host.numVfs))

/-- Owner of a raster (R27). -/
def rasterOwner (s : State) (r : Nat) : Nat := Tbl.get s.own.raster 0 r

/-- The function whose range holds an index, or PF0 (R28). -/
def rangeOwner (t : Tbl (Nat × Nat)) (i : Nat) : Nat :=
  match Tbl.first? t fun _ r => decide (r.1 ≤ i ∧ i < r.1 + r.2) with
  | some e => e.1
  | none => 0

/-- Owner of a pane ID. -/
def paneOwner (s : State) (i : Nat) : Nat := rangeOwner s.own.panes i
/-- Owner of a surface index. -/
def surfOwner (s : State) (i : Nat) : Nat := rangeOwner s.own.surfs i
/-- Owner of an ingest flow. -/
def ingestOwner (s : State) (i : Nat) : Nat := rangeOwner s.own.ingress i
/-- Owner of an egress flow. -/
def egressOwner (s : State) (i : Nat) : Nat := rangeOwner s.own.egress i

/-- Queue-pair count of a function (R45). -/
def qpCount (s : State) (f : Nat) : Nat :=
  if f = 0 then 8 else if functionOn s f then Tbl.get s.own.qpairs 1 f else 0

/-! ### Records of units -/

/-- A surface table entry. -/
def surfOf (s : State) (i : Nat) : Surface := Tbl.get s.mm.surfs {} i
/-- Store a surface table entry. -/
def putSurf (i : Nat) (x : Surface) (s : State) : State :=
  { s with mm := { s.mm with surfs := Tbl.set s.mm.surfs i x } }
/-- A raster. -/
def rasterOf (s : State) (r : Nat) : Raster := Tbl.get s.rg.rasters {} r
/-- Store a raster. -/
def putRaster (r : Nat) (x : Raster) (s : State) : State :=
  { s with rg := { s.rg with rasters := Tbl.set s.rg.rasters r x } }
/-- The scenes of a raster. -/
def sceneOf (s : State) (r : Nat) : SceneSt := Tbl.get s.rg.scenes {} r
/-- Store the scenes of a raster. -/
def putScene (r : Nat) (x : SceneSt) (s : State) : State :=
  { s with rg := { s.rg with scenes := Tbl.set s.rg.scenes r x } }
/-- The crystal of a raster. -/
def crystalOf (s : State) (r : Nat) : Crystal := Tbl.get s.rg.crystals {} r
/-- Store the crystal of a raster. -/
def putCrystal (r : Nat) (x : Crystal) (s : State) : State :=
  { s with rg := { s.rg with crystals := Tbl.set s.rg.crystals r x } }
/-- A slice. -/
def sliceOf (s : State) (c : Nat) : Slice := Tbl.get s.rg.slices {} c
/-- Store a slice. -/
def putSlice (c : Nat) (x : Slice) (s : State) : State :=
  { s with rg := { s.rg with slices := Tbl.set s.rg.slices c x } }
/-- A DisplayPort port. -/
def dpOf (s : State) (p : Nat) : DpPort := Tbl.get s.rg.dps {} p
/-- Store a DisplayPort port. -/
def putDp (p : Nat) (x : DpPort) (s : State) : State :=
  { s with rg := { s.rg with dps := Tbl.set s.rg.dps p x } }
/-- The escapement page of a raster. -/
def fsOf (s : State) (r : Nat) : RasterFs := Tbl.get s.fs.rasters {} r
/-- Store the escapement page of a raster. -/
def putFs (r : Nat) (x : RasterFs) (s : State) : State :=
  { s with fs := { s.fs with rasters := Tbl.set s.fs.rasters r x } }
/-- The gate page of a channel. -/
def chanFsOf (s : State) (n : Nat) : ChanFs := Tbl.get s.fs.chans {} n
/-- Store the gate page of a channel. -/
def putChanFs (n : Nat) (x : ChanFs) (s : State) : State :=
  { s with fs := { s.fs with chans := Tbl.set s.fs.chans n x } }
/-- An Ethernet port. -/
def ethOf (s : State) (p : Nat) : EthPort := Tbl.get s.ne.ports {} p
/-- Store an Ethernet port. -/
def putEth (p : Nat) (x : EthPort) (s : State) : State :=
  { s with ne := { s.ne with ports := Tbl.set s.ne.ports p x } }
/-- An ingest flow. -/
def ingestOf (s : State) (f : Nat) : Ingest := Tbl.get s.ne.ingress {} f
/-- Store an ingest flow. -/
def putIngest (f : Nat) (x : Ingest) (s : State) : State :=
  { s with ne := { s.ne with ingress := Tbl.set s.ne.ingress f x } }
/-- An egress flow. -/
def egressOf (s : State) (f : Nat) : Egress := Tbl.get s.ne.egress {} f
/-- Store an egress flow. -/
def putEgress (f : Nat) (x : Egress) (s : State) : State :=
  { s with ne := { s.ne with egress := Tbl.set s.ne.egress f x } }
/-- An egress queue. -/
def queueOf (s : State) (q : Nat) : TsQueue := Tbl.get s.ts.queues {} q
/-- Store an egress queue. -/
def putQueue (q : Nat) (x : TsQueue) (s : State) : State :=
  { s with ts := { s.ts with queues := Tbl.set s.ts.queues q x } }
/-- The scheduler's port. -/
def tsPortOf (s : State) (p : Nat) : TsPort := Tbl.get s.ts.ports {} p
/-- Store the scheduler's port. -/
def putTsPort (p : Nat) (x : TsPort) (s : State) : State :=
  { s with ts := { s.ts with ports := Tbl.set s.ts.ports p x } }
/-- A meter. -/
def meterOf (s : State) (f : Nat) : Meter := Tbl.get s.ts.meters {} f
/-- Store a meter. -/
def putMeter (f : Nat) (x : Meter) (s : State) : State :=
  { s with ts := { s.ts with meters := Tbl.set s.ts.meters f x } }
/-- A Cririk link. -/
def linkOf (s : State) (k : Nat) : CfLink := Tbl.get s.cf.links {} k
/-- Store a Cririk link. -/
def putLink (k : Nat) (x : CfLink) (s : State) : State :=
  { s with cf := { s.cf with links := Tbl.set s.cf.links k x } }
/-- An HD channel. -/
def hdOf (s : State) (c : Nat) : HdChan := Tbl.get s.hd.chans {} c
/-- Store an HD channel. -/
def putHd (c : Nat) (x : HdChan) (s : State) : State :=
  { s with hd := { s.hd with chans := Tbl.set s.hd.chans c x } }
/-- The state of a memory channel: 0 IN_SERVICE, 1 RESTARTING, 2 RETIRED (R111). -/
def chanState (s : State) (n : Nat) : Nat := Tbl.get s.mm.chan 1 n
/-- Add to a counter of the lifetime recorder at a byte offset of its record (R587). -/
def ltrAdd (off n : Nat) (s : State) : State :=
  { s with rel := { s.rel with live := Tbl.upd s.rel.live 0 off (· + n) } }

/-- A training gives the lanes the equaliser window in force (R558). -/
def trainLanes (lanes : Nat) (s : State) : State :=
  forAll (bitList 16 lanes) (fun i s =>
    { s with pmu := { s.pmu with eqWin := Tbl.set s.pmu.eqWin i (s.pmu.eqMin, s.pmu.eqMax) } }) s

/-- The crystal unlock ends: source 9 (R275). -/
def endUnlock (s : State) : State :=
  if s.key.until_.isSome then raise 9 { s with key := { s.key with until_ := none } } else s

end Sys2Proof.Machine
end

