-- ==== Sys2Proof/Machine/Route.lean ====
section
/-! DEFINITION. Routes over the Cririk fabric of a node (R420, R430, R433). -/
namespace Sys2Proof.Machine
open Sys2Proof

/-- Node width and height. -/
def nodeW (s : State) : Nat := s.cf.wM1 + 1
/-- Node height. -/
def nodeH (s : State) : Nat := s.cf.hM1 + 1
/-- Devices of the node. -/
def nodeSize (s : State) : Nat := nodeW s * nodeH s
/-- Own member number. -/
def ownMember (s : State) : Nat := s.cf.devid % 64

/-- Live lanes of a link of this device. -/
def linkLanes (s : State) (k : Nat) : Nat :=
  let l := linkOf s k
  if l.up then popcount 16 l.laneMap else 0

/-- Live lanes of link k of member m: this device's own links, or as enumeration found them. -/
def memberLanes (s : State) (m k : Nat) : Nat :=
  if m = ownMember s then linkLanes s k
  else match Tbl.find? s.cf.members m with
    | some x => x.links.getD k 0
    | none => 0

/-- n hops from (x, y) over link k, each as (member, link), and the position reached. -/
def hopsAlong (w h k : Nat) : Nat → Nat → Nat → List (Nat × Nat) × Nat × Nat
  | 0, x, y => ([], x, y)
  | n + 1, x, y =>
    let x' := if k = 0 then (x + 1) % w else if k = 1 then (x + w - 1) % w else x
    let y' := if k = 2 then (y + 1) % h else if k = 3 then (y + h - 1) % h else y
    let r := hopsAlong w h k n x' y'
    ((y * w + x, k) :: r.1, r.2.1, r.2.2)

/-- Ways to go from a to b in one dimension of n positions: (link direction bit, hops), the preferred
one first. Only a ring or torus dimension has a second way. -/
def dimWays (wrap : Bool) (n a b : Nat) : List (Nat × Nat) :=
  let up := (b + n - a) % n
  let dn := (a + n - b) % n
  if wrap then (if up ≤ dn then [(0, up), (1, dn)] else [(1, dn), (0, up)])
  else (if a ≤ b then [(0, b - a)] else [(1, a - b)])

/-- A route by x then y, or y then x. -/
def routeBy (w h : Nat) (xFirst : Bool) (m : Nat) (wx wy : Nat × Nat) : List (Nat × Nat) :=
  let x := m % w
  let y := m / w
  if xFirst then
    let a := hopsAlong w h wx.1 wx.2 x y
    a.1 ++ (hopsAlong w h (2 + wy.1) wy.2 a.2.1 a.2.2).1
  else
    let a := hopsAlong w h (2 + wy.1) wy.2 x y
    a.1 ++ (hopsAlong w h wx.1 wx.2 a.2.1 a.2.2).1

/-- The candidate routes from member a to member b, in the order firmware tries them (R433). -/
def routeCandidates (s : State) (a b : Nat) : List (List (Nat × Nat)) :=
  let w := nodeW s
  let h := nodeH s
  let wrapX := s.cf.topo == 2 || s.cf.topo == 3
  let xs := dimWays wrapX w (a % w) (b % w)
  let ys := dimWays (s.cf.topo == 3) h (a / w) (b / w)
  let ways := xs.flatMap fun x => ys.map fun y => (x, y)
  ways.flatMap fun p => [routeBy w h true a p.1 p.2, routeBy w h false a p.1 p.2]

/-- The live route from this device to a device of its node, if there is one (R88, R433). -/
def routeTo (s : State) (dev : Nat) : Option (List (Nat × Nat)) :=
  if !s.cf.valid || dev / 64 ≠ s.cf.devid / 64 || nodeSize s ≤ dev % 64 then none
  else (routeCandidates s (ownMember s) (dev % 64)).find? fun r =>
    r.all fun hop => decide (0 < memberLanes s hop.1 hop.2)

/-- Whether DEST names this device (R2, R3, R87). -/
def destLocal (s : State) (dest : Nat) : Bool :=
  dest == 0x3FFFF || (s.cf.valid && dest == s.cf.devid)

end Sys2Proof.Machine
end

