-- ==== Sys2Proof/Machine/Flits.lean ====
section
/-! DEFINITION. Flits on the Cririk links (R421, R422, R425): their bytes, the way they wait on a link, and the
command messages that Movement firmware sends to other devices (R87, R433). -/
namespace Sys2Proof
open Sys2Proof.Machine

/-! ### The bytes of a flit (R421), most significant byte first (R12) -/

/-- VC. -/
def FlitRx.vc (x : FlitRx) : Nat := bits (rdBE x.image 0 1) 1 0
/-- DL. -/
def FlitRx.dl (x : FlitRx) : Bool := tbit (rdBE x.image 0 1) 2
/-- TYPE. -/
def FlitRx.ty (x : FlitRx) : Nat := bits (rdBE x.image 0 1) 7 3
/-- FSEQ. -/
def FlitRx.fseq (x : FlitRx) : Nat := rdBE x.image 2 2
/-- ACKSEQ. -/
def FlitRx.ackseq (x : FlitRx) : Nat := rdBE x.image 4 2
/-- DST. -/
def FlitRx.dst (x : FlitRx) : Nat := bits (rdBE x.image 6 3) 17 0
/-- CVC. -/
def FlitRx.cvc (x : FlitRx) : Nat := bits (rdBE x.image 6 3) 19 18
/-- CCOUNT. -/
def FlitRx.ccount (x : FlitRx) : Nat := rdBE x.image 9 1
/-- TAGW. -/
def FlitRx.tagw (x : FlitRx) : Nat := rdBE x.image 12 4
/-- The payload bytes that PLEN counts. -/
def FlitRx.payload (x : FlitRx) : List Byte := (x.image.drop 16).take (min 240 (rdBE x.image 1 1))

namespace Machine

/-- The 16-byte header of a flit with its numbers on the link and the credits it returns. -/
def flitHeader (f : Flit) (fseq ackseq cvc ccount : Nat) : List Byte :=
  beBytes 1 (f.vc % 4 + shl (b2n f.dl) 2 + shl (f.ty % 32) 3) ++ beBytes 1 f.payload.length ++ beBytes 2 fseq
    ++ beBytes 2 ackseq ++ beBytes 3 (f.dst % 2 ^ 18 + shl (cvc % 4) 18) ++ beBytes 1 ccount ++ [0#8, 0#8]
    ++ beBytes 4 f.tagw

/-- The 256 bytes of a flit: the payload bytes that are not used are zero. -/
def flitImage (f : Flit) (fseq ackseq cvc ccount : Nat) : List Byte :=
  flitHeader f fseq ackseq cvc ccount ++ fitBytes 240 f.payload

/-! ### Virtual channels -/

/-- The command virtual channel. -/
def vcCmd : Nat := 0
/-- The surface virtual channel. -/
def vcSurf : Nat := 1
/-- The raster virtual channel. -/
def vcRast : Nat := 2
/-- The synchronisation virtual channel. -/
def vcSync : Nat := 3

/-- Whether a TYPE is valid on a virtual channel (R422). -/
def flitTypeOk (vc ty : Nat) : Bool :=
  ty == 0 || (match vc with
    | 0 => [1, 2].contains ty
    | 1 => [4, 5, 6].contains ty
    | 2 => [8, 9].contains ty
    | _ => [0xC, 0xD, 0xE, 0xF, 0x10].contains ty)

/-- Receive buffers of a virtual channel per half, in flits (R425). -/
def vcBuffer (vc : Nat) : Nat :=
  match vc with
  | 0 => 32 | 1 => 512 | 2 => 1024 | _ => 8

/-- Key of a virtual channel's half in a link's credit tables. -/
def halfKey (vc : Nat) (dl : Bool) : Nat := 2 * vc + b2n dl

/-- Credits of a fresh link. -/
def fullCredits : Tbl Nat := (List.range 8).map fun k => (k, vcBuffer (k / 2))

/-! ### Waiting on a link -/

/-- The first link of the live route to a device, if it is another one that can be reached. -/
def firstHop (s : State) (dev : Nat) : Option Nat := (routeTo s dev).bind fun r => r.head?.map (·.2)

/-- A flit waits on a link. -/
def queueFlit (k : Nat) (f : Flit) (s : State) : State :=
  let l := linkOf s k
  putLink k { l with waiting := l.waiting ++ [f] } s

/-- The credit of the receive buffer that a forwarded flit held goes back to the link it came from (R425). -/
def giveBack (f : Flit) (s : State) : State :=
  match f.via with
  | some j => putLink j { linkOf s j with owed := Tbl.upd (linkOf s j).owed 0 f.vc (· + 1) } s
  | none => s

/-- The flits that wait on a link are discarded. -/
def discardWaiting (k : Nat) (s : State) : State :=
  forAll (linkOf s k).waiting giveBack (putLink k { linkOf s k with waiting := [] } s)

/-- The receive buffers of a link are emptied as it starts anew: no flit that came over it holds a place in them. -/
def forgetBuffers (k : Nat) (s : State) : State :=
  let links := s.cf.links.map fun e =>
    (e.1, { e.2 with waiting := e.2.waiting.map fun f => if f.via == some k then { f with via := none } else f })
  let buf := s.cf.inbuf.map fun f => if f.flit.link == k then { f with held := false } else f
  { s with cf := { s.cf with links := links, inbuf := buf } }

/-- A flit starts towards a device: it waits on the first link of the route, or is lost without one. -/
def sendTo (dev : Nat) (f : Flit) (s : State) : State :=
  match firstHop s dev with
  | some k => queueFlit k { f with dst := dev } s
  | none => s

/-! ### Command messages (R87, R422) -/

/-- The bytes of a packet's header and parameters in a command message. -/
def packetBytes (op : Nat) (p : Packet) : List Byte :=
  beBytes 2 op ++ beBytes 1 p.func ++ beBytes 1 p.qp ++ beBytes 3 (p.origin.getD 0)
    ++ beBytes 1 (b2n p.fence + 2 * b2n p.replyAlways + 4 * b2n p.indirect + 8 * b2n p.atTime) ++ beBytes 1 p.plen
    ++ beBytes 2 p.tag ++ beBytes 3 p.dest ++ beBytes 4 p.seq ++ beBytes 8 p.execTime ++ p.params

/-- The bytes of a command message: a kind and its fields. The spec does not lay a message out
(DESIGN CHOICE, notes/assumptions/69.md). -/
def msgBytes : CmdMsg → List Byte
  | .request op p => 1#8 :: packetBytes op p
  | .reply dev f q tag st r0 r1 =>
    2#8 :: (beBytes 3 dev ++ beBytes 1 f ++ beBytes 1 q ++ beBytes 2 tag ++ beBytes 2 st ++ beBytes 4 r0 ++ beBytes 4 r1)
  | .assignId dev topo w h ms =>
    3#8 :: (beBytes 3 dev ++ beBytes 1 topo ++ beBytes 1 w ++ beBytes 1 h
      ++ ms.flatMap fun m => beBytes 8 m.1 ++ m.2.flatMap (beBytes 1))
  | .flrApply f => 4#8 :: beBytes 1 f
  | .flushTimed dev f q => 5#8 :: (beBytes 3 dev ++ beBytes 1 f ++ beBytes 1 q)
  | .linkState dev lanes => 6#8 :: (beBytes 3 dev ++ lanes.flatMap (beBytes 1))
  | .xferAnswer dev ctx published st r0 =>
    7#8 :: (beBytes 3 dev ++ beBytes 1 ctx ++ beBytes 1 (b2n published) ++ beBytes 2 st ++ beBytes 4 r0)
  | .refRate n d start => 8#8 :: (beBytes 4 n ++ beBytes 4 d ++ beBytes 8 start)

/-- The flits of command message `no`: a first flit and later flits of 240 bytes at most, each with the
message number in TAGW (R422). -/
def msgFlits (no : Nat) (m : CmdMsg) : List Flit :=
  ((chunks 240 (msgBytes m)).zipIdx).map fun c =>
    { vc := vcCmd, ty := if c.2 = 0 then 1 else 2, tagw := no % 2 ^ 32, payload := c.1 }

/-- Send a command message on link k. -/
def sendOn (k : Nat) (m : CmdMsg) (s : State) : State :=
  forAll (msgFlits s.cf.msgNo m) (queueFlit k) { s with cf := { s.cf with msgNo := s.cf.msgNo + 1 } }

/-- Send a command message to another device: its flits start on the route, one after the other. -/
def sendMsg (dev : Nat) (m : CmdMsg) (s : State) : State :=
  emit (.routed dev m) (forAll (msgFlits s.cf.msgNo m) (sendTo dev)
    { s with cf := { s.cf with msgNo := s.cf.msgNo + 1 } })

/-- The other members of the node, by device ID. -/
def otherMembers (s : State) : List Nat :=
  ((List.range (nodeSize s)).map fun m => s.cf.devid / 64 * 64 + m).filter (· != s.cf.devid)

/-- An FLR of function f at the anchor goes to a device of the node, or waits until its route returns (R553). -/
def sendFlrTo (f d : Nat) (s : State) : State :=
  if (firstHop s d).isSome then sendMsg d (.flrApply f) s
  else { s with cf := { s.cf with owedFlr := if s.cf.owedFlr.contains (d, f) then s.cf.owedFlr else s.cf.owedFlr ++ [(d, f)] } }

/-- A route may have returned: FLRs that wait for theirs go out; those for devices that left the node are dropped. -/
def sendOwed (s : State) : State :=
  forAll (s.cf.owedFlr.filter fun e => (otherMembers s).contains e.1) (fun e => sendFlrTo e.2 e.1)
    { s with cf := { s.cf with owedFlr := [] } }

/-- The live lanes of this device's links, for the other members of its node (R433; DESIGN CHOICE,
notes/assumptions/69.md), and what waited for a route goes out. -/
def announceLinks (s : State) : State :=
  if s.cf.valid then
    sendOwed (forAll (otherMembers s) (fun d s => sendMsg d (.linkState s.cf.devid ((List.range 4).map (linkLanes s))) s) s)
  else s

end Machine
end Sys2Proof
end

