-- ==== Sys2Proof/Machine/Operands.lean ====
section
/-! DEFINITION. The submission entry (R54 to R58): its header and parameter fields, and the accessors
by which every opcode reads its parameters. -/
namespace Sys2Proof.Machine
open Sys2Proof

/-- The parameter bytes that count: PLEN bytes, or 16 × PLEN bytes of an indirect block (R57). -/
def prms (p : Packet) : List Byte := p.params.take (if p.indirect then 16 * p.plen else p.plen)

/-- The n-byte parameter at byte off (R58); beyond PLEN it reads as zero. -/
def prm (p : Packet) (off n : Nat) : Nat := rd (prms p) off n

/-- Bits [hi:lo] of the n-byte parameter at byte off. -/
def prmb (p : Packet) (off n hi lo : Nat) : Nat := bits (prm p off n) hi lo

/-- One bit of the parameter byte at off. -/
def prmbit (p : Packet) (off i : Nat) : Bool := tbit (prm p off 1) i

/-- Read the header and the direct parameters of an entry of function f, queue pair q (R55, R56). -/
def parseEntry (f q : Nat) (b : List Byte) : Packet :=
  let flags := rd b 2 1
  let indirect := tbit flags 2
  let atTime := tbit flags 3
  let base := if atTime then 24 else 16
  let plen := rd b 3 1
  { func := f, qp := q, origin := none, fence := tbit flags 0, replyAlways := tbit flags 1,
    indirect := indirect, atTime := atTime,
    reserved := bits flags 7 4 + shl (rd b 6 2) 4 + shl (bits (rd b 8 4) 31 18) 20,
    plen := plen, tag := rd b 4 2, dest := bits (rd b 8 4) 17 0, seq := rd b 12 4,
    execTime := if atTime then rd b 16 8 else 0,
    pptr := if indirect then rd b base 8 else 0,
    params := if indirect then [] else ((b.take 64).drop base).take plen, env := {} }

/-- The opcode of an entry (R55). -/
def entryOpcode (b : List Byte) : Nat := rd b 0 2

/-- Check 2 of R74: reserved header bits zero, PLEN and PPTR as R57 asks. -/
def headerOk (p : Packet) : Bool :=
  p.reserved == 0 &&
    (if p.indirect then decide (1 ≤ p.plen) && p.pptr % 16 == 0
     else decide (p.plen ≤ if p.atTime then 40 else 48))

/-- The packet that the environment presents for an entry: equal but for what the device reads from
host memory while it runs the packet. -/
def samePacket (e p : Packet) : Bool :=
  { e with params := if e.indirect then p.params else e.params, env := p.env } == p

/-- The opcodes of the catalogue (R98): group g holds 0 to n − 1. -/
def groupSizes : List Nat := [8, 6, 8, 6, 4, 10, 5, 8, 5, 7, 7, 4, 3, 6, 5]

/-- Whether an opcode is in the catalogue (R98). -/
def inCatalogue (op : Nat) : Bool := decide (op % 256 < groupSizes.getD (op / 256) 0)

end Sys2Proof.Machine
end

