-- ==== Sys2Proof/Machine/CpReply.lean ====
section
/-! DEFINITION. Replies, reservations, the completion of packets and what it lets go on behind them (R53, R62 to
R70, R73, R83, R84). -/
namespace Sys2Proof.Machine
open Sys2Proof

/-- Queue pair q of function f. -/
def qpOf (s : State) (f q : Nat) : Qp := Tbl.get s.cp.qps {} (8 * f + q)

/-- The level of the queue pair's event source (R53). -/
def qpLevel (x : Qp) : Bool := (x.repEvent && x.rpi != x.ci) || x.err != 0

/-- Store a queue pair; its level source follows (R53). -/
def putQp (f q : Nat) (x : Qp) (s : State) : State :=
  evcLevel (832 + 8 * f + q) (qpLevel x)
    { s with cp := { s.cp with qps := Tbl.set s.cp.qps (8 * f + q) x } }

/-- Reply slots neither occupied by an unconsumed reply nor reserved (R67). -/
def freeReplySlots (x : Qp) : Nat := 2 ^ x.rlog2 - (x.rpi + 65536 - x.ci) % 65536 - x.reserved

/-- A reply waiting to be written: tag, status, results, and the CREDIT_ONLY and ROUTED bits. -/
abbrev Reply := List Nat

/-- The 16 bytes of a reply (R68). -/
def replyBytes (r : Reply) (credits phase : Nat) : List Byte :=
  leBytes 2 (r.getD 0 0) ++ leBytes 2 (r.getD 1 0) ++ leBytes 4 (r.getD 2 0) ++ leBytes 4 (r.getD 3 0)
    ++ leBytes 2 credits ++ leBytes 1 (phase + r.getD 4 0) ++ [0#8]

/-- Write a reply to the ring now: the next slot, the phase of its pass, all unreported credits
(R63, R68, R69); RPI advances. -/
def putReply (f q : Nat) (r : Reply) (s : State) : State :=
  let x := qpOf s f q
  let n := 2 ^ x.rlog2
  let phase := 1 - (x.rpi / n) % 2
  putQp f q { x with rpi := (x.rpi + 1) % 65536, unreported := 0 }
    (emit (.hostWrite f (x.rbase + 16 * (x.rpi % n)) (replyBytes r x.unreported phase)) s)

/-- Release n reply reservations. -/
def releaseSlots (f q n : Nat) (s : State) : State :=
  let x := qpOf s f q
  putQp f q { x with reserved := x.reserved - n } s

/-- Write a packet's reply, or hold it while Bus Master Enable is 0 (R601), or discard it after a
failed reply write (R84). One reservation goes with it, when it is written. -/
def sendReply (f q : Nat) (r : Reply) (s : State) : State :=
  let x := qpOf s f q
  if x.replyDead then releaseSlots f q 1 s
  else if bmeOf s f then putReply f q r (releaseSlots f q 1 s)
  else putQp f q { x with held := x.held ++ [r] } s

/-- RUNNING and STOPPING clear once nothing is outstanding and the last reply is written (R83). -/
def stopCheck (f q : Nat) (s : State) : State :=
  let x := qpOf s f q
  if x.stopping && x.outstanding == 0 && !x.flush && x.flushTo.isNone && x.held.isEmpty then
    putQp f q { x with running := false, stopping := false } s
  else s

/-- A flush is complete when nothing it removes is left and every reply is written (R80). -/
def flushCheck (f q : Nat) (s : State) : State :=
  let x := qpOf s f q
  match x.flushTo with
  | some pi =>
    if x.copied = pi && x.held.isEmpty then
      stopCheck f q (putQp f q { x with flush := false, flushTo := none } s)
    else s
  | none => stopCheck f q s

/-- The reply words of a completion, with ROUTED set for a packet that ran elsewhere. -/
def replyOf (e : Entry) (status r0 r1 : Nat) (routed : Bool) : Reply :=
  [e.pkt.tag, status, r0, r1, if routed then 4 else 0]

/-- Complete a packet: answer its origin device, or count it off and write its reply (R65, R67, R76).
A packet of an FLR'd or never enabled pair is completed without a reply. -/
def completeAs (routed : Bool) (e : Entry) (status r0 r1 : Nat) (s : State) : State :=
  let f := e.pkt.func
  let q := e.pkt.qp
  let r0 := wrap 32 r0
  let r1 := wrap 32 r1
  match e.pkt.origin with
  | some dev => sendMsg dev (.reply s.cf.devid f q e.pkt.tag status r0 r1) s
  | none =>
    let s := emit (.completion f q e.pkt.tag status r0 r1) s
    if !e.counted then s
    else
      let x := qpOf s f q
      let s := putQp f q { x with outstanding := x.outstanding - 1 } s
      if 0x100 ≤ status || e.pkt.replyAlways then
        flushCheck f q (sendReply f q (replyOf e status r0 r1 routed) (releaseSlots f q (e.slots - 1) s))
      else flushCheck f q (releaseSlots f q e.slots s)

/-- Complete a packet that ran on this device. -/
def complete (e : Entry) (status r0 r1 : Nat) (s : State) : State := completeAs false e status r0 r1 s

/-- Complete a packet with FLUSHED (0x0108); the results of a flushed packet are free values. -/
def flushEntry (e : Entry) (s : State) : State :=
  let a := takeFree s
  let b := takeFree a.2
  complete e 0x108 a.1 b.1 b.2

/-- An unstated result is a free value (DESIGN CHOICE, notes/assumptions/4.md). -/
def resultOr (r : Option Nat) (s : State) : Nat × State :=
  match r with
  | some v => (v, s)
  | none => takeFree s

/-- Complete a packet whose results may be unstated. -/
def finish (e : Entry) (status : Nat) (r0 r1 : Option Nat) (s : State) : State :=
  let a := resultOr r0 s
  let b := resultOr r1 a.2
  complete e status a.1 b.1 b.2

/-- The status of a packet that would have completed with OK but began late (R77). -/
def lateStatus (late : Bool) (status : Nat) : Nat := if late && status == 0 then 0x10B else status

/-! ### The command FIFO and its pairs -/

/-- Entries of a pair, or of the pair at an origin device. -/
def ofPair (f q : Nat) (o : Option Nat) (e : Entry) : Bool :=
  e.pkt.func == f && e.pkt.qp == q && e.pkt.origin == o

/-- Whether an earlier packet of the pair has been taken and has not completed (R73). -/
def earlierOpen (s : State) (f q : Nat) (o : Option Nat) : Bool :=
  s.cp.timed.any (fun x => ofPair f q o x.ent) || s.cp.routed.any (fun x => ofPair f q o x.ent)
    || s.cp.inflight.any (fun x => ofPair f q o x.ent) || s.cp.held.any (fun x => ofPair f q o x.ent)
    || (match s.bl.job with | some j => ofPair f q o j.ent | none => false)
    || s.bl.queue.any (fun j => ofPair f q o j.ent)

/-- A FENCE packet is not taken while an earlier packet of its pair is open (R73). -/
def fenceHolds (s : State) (p : Packet) : Bool := p.fence && earlierOpen s p.func p.qp p.origin

/-- Drop the first entry of a pair from the command FIFO. -/
def popEntry (f q : Nat) (o : Option Nat) (s : State) : State :=
  match findPos (ofPair f q o) s.cp.fifo with
  | some i => { s with cp := { s.cp with fifo := dropAt s.cp.fifo i } }
  | none => s

/-- Complete with BAD_OPCODE the unknown opcodes that stand at the front of a pair (check 1 of R74). -/
def settleFifo (f q : Nat) : Nat → State → State
  | 0, s => s
  | n + 1, s =>
    match s.cp.fifo.find? (ofPair f q none) with
    | none => s
    | some e =>
      if inCatalogue e.opcode || fenceHolds s e.pkt then s
      else settleFifo f q n (finish e 0x100 none none (popEntry f q none s))

/-- A packet of a pair that had been taken has completed: a fence behind it may be lifted, and an unknown opcode
that it held completes. -/
def settlePair (e : Entry) (s : State) : State :=
  if e.pkt.origin.isSome then s else settleFifo e.pkt.func e.pkt.qp s.cp.fifo.length s

/-- Remove the first packet in flight that satisfies p and complete it. -/
def finishInflight (p : Inflight → Bool) (status : Nat) (r0 r1 : Option Nat) (s : State) : State :=
  match findPos p s.cp.inflight with
  | none => s
  | some i =>
    match s.cp.inflight[i]? with
    | none => s
    | some x =>
      settlePair x.ent (finish x.ent (lateStatus x.late status) r0 r1
        { s with cp := { s.cp with inflight := dropAt s.cp.inflight i } })

/-- Complete the packet in flight on a unit, if there is one. -/
def finishUnit (unit status : Nat) (r0 r1 : Option Nat) (s : State) : State :=
  finishInflight (fun x => x.unit == unit) status r0 r1 s

/-- Whether a packet is in flight on a unit. -/
def unitBusy (s : State) (unit : Nat) : Bool := s.cp.inflight.any fun x => x.unit == unit

/-- A timed packet of queue pair q of function f at an origin device, waiting for its time. -/
def waitsTimed (s : State) (f q : Nat) (o : Option Nat) (e : Timed) : Bool :=
  ofPair f q o e.ent && decide (now s < e.ent.pkt.execTime)

/-- Complete the timed packets of a pair that wait on this device with FLUSHED. -/
def flushWaiting (f q : Nat) (o : Option Nat) (s : State) : State :=
  let gone := s.cp.timed.filter (waitsTimed s f q o)
  forAll (gone.map (·.ent)) flushEntry
    { s with cp := { s.cp with timed := s.cp.timed.filter fun e => !waitsTimed s f q o e } }

/-- The devices on which timed packets of a pair wait, or may wait. -/
def timedDevices (s : State) (f q : Nat) : List Nat :=
  ((s.cp.routed.filter fun r => r.ent.pkt.atTime && ofPair f q none r.ent).map (·.device)).eraseDups

/-- Complete the waiting timed packets of a queue pair with FLUSHED (R83, R84): those on this device now, and
each other device on which some wait is told to (DESIGN CHOICE, notes/assumptions/70.md). -/
def flushTimed (f q : Nat) (s : State) : State :=
  let s := flushWaiting f q none s
  let s := forAll (timedDevices s f q) (fun d s => sendMsg d (.flushTimed s.cf.devid f q) s) s
  settleFifo f q s.cp.fifo.length s

/-- Fault a queue pair (R84): no further copies; its waiting timed packets complete with FLUSHED.
The code of the first fault stays; a flush in progress ends with what has been copied
(DEDUCED, notes/assumptions/14.md). -/
def faultQp (f q code : Nat) (s : State) : State :=
  let x := qpOf s f q
  let s := putQp f q { x with err := (if x.err = 0 then code else x.err),
                              stopping := x.running,
                              flush := false, flushTo := none } s
  stopCheck f q (flushTimed f q s)

end Sys2Proof.Machine
end

