-- ==== Sys2Proof/Machine/CpRun.lean ====
section
/-! DEFINITION. Taking a packet and running it: the checks of R74 in order, fences (R73), units that
are busy (R72), timed packets (R76 to R78), routing (R87, R88) and completion. -/
namespace Sys2Proof.Machine
open Sys2Proof

/-- What an opcode's own part does once checks 1 to 7 have passed. A result given as `none` is one the
spec does not state: a free value (DESIGN CHOICE, notes/assumptions/4.md). -/
inductive Res where
  /-- It completes with OK. -/
  | ok (r0 r1 : Option Nat) (s : State)
  /-- It completes with a failing status and changes nothing (R94). -/
  | fail (status : Nat) (r0 r1 : Option Nat)
  /-- It completes with a status after changing the state. -/
  | done (status : Nat) (r0 r1 : Option Nat) (s : State)
  /-- It is carried out over later steps on a unit; it completes then. -/
  | pend (unit : Nat) (s : State)
  /-- A unit keeps the packet in a queue of its own and completes it later. -/
  | keep (f : Entry → Bool → State)
  /-- It cannot start yet and is not taken. -/
  | wait

/-- A failing status with unstated results. -/
def bad (status : Nat) : Res := .fail status none none
/-- BAD_PARAM. -/
def badParam : Res := bad 0x101
/-- NO_RESOURCE. -/
def noResource : Res := bad 0x102
/-- NOT_OWNER. -/
def notOwner : Res := bad 0x106
/-- BUSY. -/
def busy : Res := bad 0x107
/-- RETIRED. -/
def retired : Res := bad 0x10D
/-- BUS_ERROR. -/
def busError : Res := bad 0x110
/-- OK with unstated results. -/
def okay (s : State) : Res := .ok none none s

/-- One opcode: which checks apply to it and what it does. -/
structure CmdSpec where
  /-- The opcode. -/
  opcode : Nat
  /-- A query, RECONCILE or a unit reset: carried out on a unit marked DIVERGED (R39). -/
  exempt : Packet → Bool := fun _ => false
  /-- The units it names, as unit references (R95). -/
  units : Packet → State → List Nat := fun _ _ => []
  /-- What it acts on beside them, as unit references: a packet waits for these as well (R72). -/
  acts : Packet → List Nat := fun _ => []
  /-- Check 6: the issuing function owns every resource named. -/
  owns : Packet → State → Bool := fun p _ => p.func == 0
  /-- It cannot take effect yet (R137). -/
  waits : Entry → State → Bool := fun _ _ => false
  /-- The opcode's own checks and its action. -/
  body : Packet → State → Res

/-- Unit reference of a kind and index (R95). -/
def unitRef (kind i : Nat) : Nat := shl kind 24 + i
/-- The unit reference of a raster. -/
def unitRaster (r : Nat) : Nat := unitRef 1 r
/-- Unit reference of a memory channel. -/
def unitChan (n : Nat) : Nat := unitRef 2 n
/-- Unit references. -/
def unitPort (p : Nat) : Nat := unitRef 3 p
/-- The unit reference of a link. -/
def unitLink (k : Nat) : Nat := unitRef 4 k
/-- The unit reference of a DisplayPort port. -/
def unitDp (p : Nat) : Nat := unitRef 5 p
/-- The unit reference of an egress flow. -/
def unitFlow (f : Nat) : Nat := unitRef 6 f

/-- Check 7: a named unit is marked and the opcode is not exempt (R39). -/
def divergedHit (sp : CmdSpec) (p : Packet) (s : State) : Bool :=
  !sp.exempt p && (sp.units p s).any fun u => (Tbl.find? s.un.marked u).isSome

/-- The opcodes that execute in P2 (R546): groups 0x00, 0x0C and 0x0D, TIME_QUERY, ROUTE_QUERY,
RETIREMENT_QUERY and LTR_READ. -/
def runsInP2 (op : Nat) : Bool :=
  [0x00, 0x0C, 0x0D].contains (op / 256) || [0x903, 0x906, 0xE00, 0xE02].contains op

/-- What a packet acts on (R72). -/
def waitKeys (sp : CmdSpec) (p : Packet) (s : State) : List Nat := sp.units p s ++ sp.acts p

/-- Something a packet acts on is busy: an earlier packet is in flight on it, or waits for it (R72). -/
def unitsBusy (ahead : List Held) (sp : CmdSpec) (p : Packet) (s : State) : Bool :=
  (waitKeys sp p s).any fun u => unitBusy s u || ahead.any fun h => h.keys.contains u

/-- Run checks 6 to 8 and the action (R75) of a packet that follows the held packets `ahead`. None: it must wait for
a unit (R72). In P2 an opcode outside R546 completes with BUSY first (DEDUCED, notes/assumptions/15.md). -/
def executeBehind (ahead : List Held) (sp : CmdSpec) (e : Entry) (late : Bool) (s : State) : Option State :=
  if s.pmu.pstate = 2 && !runsInP2 sp.opcode then some (finish e 0x107 none none s)
  else if unitsBusy ahead sp e.pkt s || sp.waits e s then none
  else if !sp.owns e.pkt s then some (finish e 0x106 none none s)
  else if divergedHit sp e.pkt s then some (finish e 0x105 none none s)
  else match sp.body e.pkt s with
    | .ok r0 r1 s' => some (finish e (lateStatus late 0) r0 r1 s')
    | .fail st r0 r1 => some (finish e st r0 r1 s)
    | .done st r0 r1 s' => some (finish e (lateStatus late st) r0 r1 s')
    | .pend u s' =>
      some { s' with cp := { s'.cp with inflight := s'.cp.inflight ++ [⟨e, u, late⟩] } }
    | .keep f => some (f e late)
    | .wait => none

/-- Run a packet behind every held one. -/
def executeNow (sp : CmdSpec) (e : Entry) (late : Bool) (s : State) : Option State :=
  executeBehind s.cp.held sp e late s

/-- A timed packet is late when it begins more than 10 µs after EXEC_TIME (R77). -/
def isLate (p : Packet) (s : State) : Bool := p.atTime && decide (p.execTime + 10000 < now s)

/-- Waiting timed packets (R76): those whose time has not come. -/
def timedWaiting (s : State) : Nat :=
  (s.cp.timed.filter fun e => decide (now s < e.ent.pkt.execTime)).length

/-- Entries in the command FIFO, due timed packets among them (R76). Its 64 places are the most there are
(R92): what finds none waits for one. -/
def fifoLevel (s : State) : Nat := min 64 (s.cp.fifo.length + (s.cp.timed.length - timedWaiting s))

/-- Record the highest level of the command FIFO. -/
def noteLevel (s : State) : State := { s with cp := { s.cp with hwm := max s.cp.hwm (fifoLevel s) } }

/-- Accept a timed packet (R76): ACCEPTED_AT_TIME goes to the origin device always, and as a reply with
REPLY_ALWAYS. -/
def acceptTimed (e : Entry) (s : State) : State :=
  let a := takeFree s
  let b := takeFree a.2
  let s := b.2
  let f := e.pkt.func
  let q := e.pkt.qp
  let s := match e.pkt.origin with
    | some dev => sendMsg dev (.reply s.cf.devid f q e.pkt.tag 1 (wrap 32 a.1) (wrap 32 b.1)) s
    | none =>
      let s := emit (.completion f q e.pkt.tag 1 (wrap 32 a.1) (wrap 32 b.1)) s
      if e.counted && e.pkt.replyAlways then
        sendReply f q (replyOf e 1 (wrap 32 a.1) (wrap 32 b.1) false) s
      else s
  let e' := { e with slots := if e.counted && e.pkt.replyAlways then e.slots - 1 else e.slots }
  noteLevel { s with cp := { s.cp with timed := s.cp.timed ++ [⟨e', s.cp.order⟩],
                                       order := s.cp.order + 1 } }

/-- Checks 5 to 8 at the destination (R74, R78). -/
def atDestination (sp : CmdSpec) (e : Entry) (s : State) : Option State :=
  if e.pkt.atTime then
    if now s + 1000000000000000 < e.pkt.execTime then some (finish e 0x101 none none s)
    else if 256 ≤ timedWaiting s then some (raise 11 (finish e 0x102 none none s))
    else some (acceptTimed e s)
  else executeNow sp e false s

/-- An ASSIGN of PF0 that names a VF which is not enabled. The VFs are those of the host that issues it, so the
receiving device answers, wherever the packet goes (R99; DEDUCED, notes/assumptions/71.md). -/
def assignsNoVf (e : Entry) (s : State) : Bool :=
  e.opcode == 0x005 && e.pkt.func == 0 && !functionOn s (prmb e.pkt 0 1 3 0)

/-- Forward a packet to another device (R87, R89). -/
def forwardPacket (e : Entry) (s : State) : State :=
  let tmo := usTicks (max 1000 s.cp.routeTmo)
  sendMsg e.pkt.dest (.request e.opcode { e.pkt with origin := some s.cf.devid })
    { s with cp := { s.cp with routed := s.cp.routed ++
      [{ ent := e, device := e.pkt.dest, deadline := s.clk.ticks + tmo }] } }

/-- The read of an indirect parameter block, which the receiving device does (R57, R59, R88). -/
def readBlock (p : Packet) (s : State) : State :=
  if p.indirect && p.origin.isNone then emit (.hostRead p.func p.pptr (16 * p.plen)) s else s

/-- Checks 2 to 4 at the receiving device; `here` carries the packet on when it is for this device. -/
def atReceiver (e : Entry) (here : State → Option State) (s : State) : Option State :=
  let p := e.pkt
  if !headerOk p then some (finish e 0x101 none none s)
  else if !destLocal s p.dest && (routeTo s p.dest).isNone then some (finish e 0x109 none none s)
  else if p.indirect && (p.env.blockFails || !bmeOf s p.func) then some (finish e 0x110 none none s)
  else if destLocal s p.dest then here (readBlock p s)
  else if assignsNoVf e s then some (finish e 0x101 none none (readBlock p s))
  else some (forwardPacket e (readBlock p s))

/-- A flush of the pair has been requested and its packet boundary is still to come: the pair gives no further
packet first (R80). -/
def flushPending (s : State) (p : Packet) : Bool :=
  p.origin.isNone && (qpOf s p.func p.qp).flush && (qpOf s p.func p.qp).flushTo.isNone

/-- A core may take an entry: it is the oldest of its pair, no fence holds it and no flush comes first. -/
def takeable (s : State) (e : Entry) : Bool :=
  s.cp.fifo.find? (ofPair e.pkt.func e.pkt.qp e.pkt.origin) == some e && !fenceHolds s e.pkt && !flushPending s e.pkt

/-- The entry that the next read of a FIFO pop register returns: the oldest of the 64 that may be taken (R92, R93).
With none the core's read stalls. -/
def nextEntry (s : State) : Option Entry := (s.cp.fifo.take 64).find? (takeable s)

/-- Take a packet: the entry that the pop register returns, when it is the packet presented, and the state without it;
when the FIFO holds none of the packet's pair, the packet stands for one that has been copied and whose bookkeeping is
not followed (DESIGN CHOICE, notes/assumptions/13.md). None: nothing is taken. -/
def takeEntry (op : Nat) (p : Packet) (s : State) : Option (Entry × State) :=
  if fenceHolds s p || flushPending s p then none
  else if (s.cp.fifo.find? (ofPair p.func p.qp p.origin)).isNone then
    some ({ opcode := op, pkt := p, arrived := s.clk.ticks, taken := s.clk.ticks }, s)
  else match nextEntry s with
    | none => none
    | some e =>
      if ofPair p.func p.qp p.origin e && e.opcode == op && samePacket e.pkt p then
        some ({ e with pkt := p, taken := s.clk.ticks }, popEntry p.func p.qp p.origin (noteLevel s))
      else none

/-- What a taken packet does on this device or on the way to another. -/
def runTaken (sp : CmdSpec) (e : Entry) (s : State) : Option State :=
  if e.pkt.origin.isSome then atDestination sp e s else atReceiver e (atDestination sp e) s

/-- A taken packet whose units are busy waits for them (R72; DEDUCED, notes/assumptions/72.md). -/
def holdPacket (sp : CmdSpec) (e : Entry) (s : State) : State :=
  { s with cp := { s.cp with held := s.cp.held ++ [⟨e, waitKeys sp e.pkt s⟩] } }

/-- The place of a packet among those that have been taken and wait. -/
def heldAt (op : Nat) (p : Packet) (s : State) : Option Nat :=
  findPos (fun h : Held => h.ent.opcode == op && samePacket h.ent.pkt p) s.cp.held

/-- A held packet begins, once nothing ahead of it is busy. -/
def beginHeld (sp : CmdSpec) (p : Packet) (i : Nat) (s : State) : State :=
  match s.cp.held[i]? with
  | none => s
  | some h =>
    let e : Entry := { h.ent with pkt := { h.ent.pkt with env := p.env } }
    let s' := { s with cp := { s.cp with held := dropAt s.cp.held i } }
    match executeBehind (s.cp.held.take i) sp e false s' with
    | none => s
    | some s' => settlePair e s'

/-- The command of an opcode's row: a held packet begins, or the packet is taken and runs (R74) or waits (R72). Before
READY, in P3 and from a function that is not enabled, no packet is taken. -/
def runPacket (sp : CmdSpec) (t : Ticks) (p : Packet) (s : State) : Host.Outcome State Fault Refusal :=
  let s := advance t s
  if !isRunning s || (p.origin.isNone && !functionOn s p.func) then .next s
  else match heldAt sp.opcode p s with
    | some i => .next (beginHeld sp p i s)
    | none => match takeEntry sp.opcode p s with
      | none => .next s
      | some x =>
        let s' := match runTaken sp x.1 x.2 with
          | some s' => s'
          | none => holdPacket sp x.1 (readBlock p x.2)
        .next (settleFifo p.func p.qp s'.cp.fifo.length s')

end Sys2Proof.Machine
end

