-- ==== Sys2Proof/Machine/Buffers.lean ====
section
/-! DEFINITION. The buffers that packets name in host memory: records written there and data read from
there, with the alignment check and the failure of the access (R94, R601). -/
namespace Sys2Proof.Machine
open Sys2Proof

/-- An access of a packet to host memory fails: the environment says so, or Bus Master Enable of its
function is 0 on this device (R601). -/
def hostAccessFails (p : Packet) (s : State) : Bool :=
  p.env.dataFails || (p.origin.isNone && !bmeOf s p.func)

/-- Write a record to a packet's buffer, aligned to `align`; with `optional`, address 0 means none. The
action `k` is given the write. -/
def withBuf (p : Packet) (s : State) (buf align : Nat) (optional : Bool) (bytes : List Byte)
    (k : (State → State) → Res) : Res :=
  if optional && buf == 0 then k id
  else if buf % align ≠ 0 then badParam
  else if hostAccessFails p s then busError
  else k (emit (.hostWrite p.func buf bytes))

/-- Read n bytes from a packet's buffer: what the environment returns, filled up with zeros. -/
def withData (p : Packet) (s : State) (buf align n : Nat) (k : List Byte → Res) : Res :=
  if buf % align ≠ 0 then badParam
  else if hostAccessFails p s then busError
  else k (fitBytes n p.env.data)

/-- Checks of an opcode in order: the first that does not hold gives its result. -/
def require (c : Bool) (fail : Res) (k : Res) : Res := if c then k else fail

/-- RASTER of byte 0, bits [3:0]. -/
def prmRaster (p : Packet) : Nat := prmb p 0 1 3 0

/-- The issuing function owns a raster. -/
def ownsRaster (p : Packet) (s : State) (r : Nat) : Bool := rasterOwner s r == p.func

/-- A query names something the issuing function owns, or comes from PF0, which can query every
resource (R30). -/
def mayQuery (p : Packet) (owner : Nat) : Bool := p.func == 0 || owner == p.func

/-- The parameter bits that a group lists: (byte offset, bytes, mask within them). -/
abbrev Fields := List (Nat × Nat × Nat)

/-- Parameter bits and bytes that are not listed are zero (R379, R415, R456). -/
def onlyBits (p : Packet) (f : Fields) : Bool :=
  let m := sumOf (f.map fun e => (e.2.2 % 256 ^ e.2.1) * 256 ^ e.1)
  let v := leNat (prms p)
  Nat.land v m == v

/-- All the bits of n bytes at an offset. -/
def allBits (off n : Nat) : Nat × Nat × Nat := (off, n, 256 ^ n - 1)

end Sys2Proof.Machine
end

