-- ==== Sys2Proof/Machine/CommandPort.lean ====
section
/-! DEFINITION. The command port's own events (chapter 02): queue control, doorbells, copying,
credit-only replies, faults and routing. A command whose condition does not hold leaves everything but
the time unchanged (DESIGN CHOICE, notes/assumptions/3.md). -/
namespace Sys2Proof.Machine
open Sys2Proof

/-- An event that acts while the part runs; otherwise only time passes. -/
def whenRunning (t : Ticks) (f : State → State) (s : State) : Host.Outcome State Fault Refusal :=
  let s := advance t s
  .next (if isRunning s then f s else s)

/-- Memory Space Enable of a function; Movement firmware (16) reaches the registers always (R601). -/
def mseOf (s : State) (f : Nat) : Bool := f == 16 || tbit s.host.mse f

/-- Host requests to function f reach the part: the PCIe link is up and the function exists. Movement
firmware (16) needs no link. -/
def hostReaches (s : State) (f : Nat) : Bool :=
  !s.pmu.inReset && !s.pmu.off && s.pmu.pstate != 3 && (if f = 16 then isReady s else s.host.linkUp && functionOn s f)

/-- A host access to registers of function f: `act` once the device is READY, `early` before (R541).
While Memory Space Enable of the function is 0 it ends with Unsupported Request (R601). -/
def regAccess (t : Ticks) (f : Nat) (act early : State → State) (s : State) : Host.Outcome State Fault Refusal :=
  let s := advance t s
  .next (if !hostReaches s f then s
    else if !mseOf s f then emit (.ur f) s
    else if isReady s then act s else early s)

/-- An access to the registers of queue pair q of function f. -/
def qpAccess (t : Ticks) (f q : Nat) (act : State → State) (s : State) : Host.Outcome State Fault Refusal :=
  regAccess t f (fun s => if f < 16 ∧ q < 8 then act s else s) id s

/-- The ERR code a write of ENABLE to 1 gives: 2 NOT_ASSIGNED, 1 BAD_CONFIG, 0 accepted (R51). -/
def enableError (s : State) (f q : Nat) (x : Qp) : Nat :=
  if qpCount s f ≤ q then 2
  else if x.sbase % 4096 ≠ 0 || x.rbase % 4096 ≠ 0 then 1
  else if x.slog2 < 4 || 12 < x.slog2 || x.rlog2 < 4 || 12 < x.rlog2 then 1
  else 0

/-- A queue pair just enabled (R60). -/
def enabledQp (x : Qp) : Qp :=
  { x with enable := true, running := true, stopping := false, err := 0, outstanding := 0,
           pi := 0, ci := 0, expected := 0, rpi := 0, granted := 2 ^ x.slog2, unreported := 0,
           reserved := 0, copied := 0, flushTo := none, replyDead := false, held := [] }

/-- A write of CP_QCTL (R49, R51, R60, R80, R82, R83). During the flush that a write of ENABLE from 1 to 0
performs, FLUSH reads 1 as in a requested flush (DESIGN CHOICE, notes/assumptions/73.md). -/
def writeQctl (f q v : Nat) (s : State) : State :=
  let x := qpOf s f q
  let x := { x with repEvent := tbit v 2, batch := bits v 15 8 }
  let x := { x with flushAt := if tbit v 1 && !x.flush then some s.clk.ticks else x.flushAt,
                    flush := x.flush || tbit v 1 }
  if tbit v 0 then
    if x.enable || x.running || x.stopping then putQp f q x s
    else
      let err := enableError s f q x
      if err = 0 then putQp f q (enabledQp x) s else putQp f q { x with err := err } s
  else if x.enable then
    let s := putQp f q { x with enable := false, stopping := x.running,
                                flush := x.flush || x.running } s
    flushTimed f q s
  else putQp f q x s

/-- QUEUE_ENABLE: CP_QCTL of queue pair q of function f is written with v (R60). -/
def execQueueEnable (t : Ticks) (f q v : Nat) (s : State) : Host.Outcome State Fault Refusal :=
  qpAccess t f q (writeQctl f q v) s

/-- QUEUE_DISABLE: CP_QCTL is written with v, ENABLE going to 0 (R83). -/
def execQueueDisable (t : Ticks) (f q v : Nat) (s : State) : Host.Outcome State Fault Refusal :=
  qpAccess t f q (writeQctl f q v) s

/-- QUEUE_FLUSH: CP_QCTL is written with v, FLUSH set (R80, R82). -/
def execQueueFlush (t : Ticks) (f q v : Nat) (s : State) : Host.Outcome State Fault Refusal :=
  qpAccess t f q (writeQctl f q v) s

/-- At the packet boundary (R80): entries in the command FIFO complete with FLUSHED, and entries up to
the last PI will, as they are copied. A faulted pair copies no more (R84). -/
def flushBoundary (f q : Nat) (s : State) : State :=
  let x := qpOf s f q
  if !x.flush || x.flushTo.isSome then s
  else
    let gone := s.cp.fifo.filter (ofPair f q none)
    let s := noteLevel s
    let s := { s with cp := { s.cp with fifo := s.cp.fifo.filter fun e => !ofPair f q none e } }
    let s := forAll gone flushEntry s
    let x := qpOf s f q
    let target := if x.running && x.err == 0 then x.pi else x.copied
    flushCheck f q (putQp f q { x with flushTo := some target } s)

/-- FLUSH_BOUNDARY (R80). -/
def execFlushBoundary (t : Ticks) (f q : Nat) (s : State) : Host.Outcome State Fault Refusal :=
  whenRunning t (flushBoundary f q) s

/-- A doorbell in the tick of the flush request counts as recorded before it, wherever it stands in that tick (R80):
what it submits is flushed too. -/
def joinFlush (now' : Ticks) (x : Qp) : Qp :=
  if x.flushAt = some now' && !(x.flush && x.flushTo.isNone) then { x with flush := true, flushTo := some x.pi } else x

/-- A write of CP_QSDB (R61). To a pair that is not enabled, or that stops, it does nothing and is no overrun
(DESIGN CHOICE, notes/assumptions/74.md). -/
def submitDoorbell (f q v : Nat) (s : State) : State :=
  let x := qpOf s f q
  let v := v % 65536
  if !x.enable || !x.running || x.stopping then s
  else if (x.granted % 65536 + 65536 - x.pi) % 65536 < (v + 65536 - x.pi) % 65536 then faultQp f q 3 s
  else putQp f q (joinFlush s.clk.ticks { x with pi := v }) s

/-- SUBMIT_DOORBELL (R61). -/
def execSubmitDoorbell (t : Ticks) (f q v : Nat) (s : State) : Host.Outcome State Fault Refusal :=
  qpAccess t f q (submitDoorbell f q v) s

/-- A write of CP_QRDB (R53). -/
def replyDoorbell (f q v : Nat) (s : State) : State :=
  putQp f q { qpOf s f q with ci := v % 65536 } s

/-- REPLY_DOORBELL (R53). -/
def execReplyDoorbell (t : Ticks) (f q v : Nat) (s : State) : Host.Outcome State Fault Refusal :=
  qpAccess t f q (replyDoorbell f q v) s

/-- The index that copying stops at: the flush target while a flush removes entries, else PI. -/
def copyEnd (x : Qp) : Nat := x.flushTo.getD x.pi

/-- Whether the CP may copy an entry of a pair now (R61, R67, R71, R92, R601): of the 64 places of the FIFO, host
entries leave 8 to the fabric and the timed list. -/
def copyEligible (s : State) (f q : Nat) : Bool :=
  let x := qpOf s f q
  functionOn s f && bmeOf s f && x.running && (!x.stopping || x.flushTo.isSome)
    && x.copied != copyEnd x && 0 < freeReplySlots x
    && (x.flushTo.isSome ||
        (fifoLevel s < 56 && (s.cp.fifo.filter (ofPair f q none)).length < 8))

/-- The pair to copy from next: the first eligible one at or after the position the round has reached,
else the first of a new round (R71). -/
def nextPair (s : State) : Option Nat :=
  let el := (List.range 128).filter fun k => copyEligible s (k / 8) (k % 8)
  match el.find? fun k => decide (s.cp.roundPos ≤ k) with
  | some k => some k
  | none => el.head?

/-- The address of submission entry i of a pair: slot i modulo the ring's size, 64 bytes a slot (R52, R54). -/
def entryAddr (x : Qp) (i : Nat) : Nat := x.sbase + 64 * (i % 2 ^ x.slog2)

/-- Copy an entry (R52, R54, R62, R64, R67): the 64 bytes of its slot are read, a credit is granted and reply slots
are reserved; a flushed entry completes at once. -/
def copyEntry (f q : Nat) (b : List Byte) (s : State) : State :=
  let x := qpOf s f q
  let p := parseEntry f q b
  let slots := if p.atTime && p.replyAlways then 2 else 1
  let s := emit (.hostRead f (entryAddr x x.copied) 64) { s with cp := { s.cp with roundPos := 8 * f + q + 1 } }
  if freeReplySlots x < slots then s
  else if p.seq ≠ x.expected then faultQp f q 4 s
  else
    let e : Entry := { opcode := entryOpcode b, pkt := p, slots := slots, counted := true, arrived := s.clk.ticks }
    let s := putQp f q { x with expected := (x.expected + 1) % 2 ^ 32,
                                copied := (x.copied + 1) % 65536,
                                granted := (x.granted + 1) % 65536,
                                unreported := x.unreported + 1,
                                outstanding := x.outstanding + 1,
                                reserved := x.reserved + slots } s
    if x.flushTo.isSome then flushEntry e s
    else
      let s := noteLevel { s with cp := { s.cp with fifo := s.cp.fifo ++ [e] } }
      settleFifo f q s.cp.fifo.length s

/-- CP_ENTRY_COPY: `entry` is the 64 bytes that the ring read returned (R71). -/
def execCpEntryCopy (t : Ticks) (f q : Nat) (entry : List Byte) (s : State) :
    Host.Outcome State Fault Refusal :=
  whenRunning t (fun s => if nextPair s = some (8 * f + q) then copyEntry f q entry s else s) s

/-- Write a credit-only reply when one is due (R66). -/
def creditOnly (f q : Nat) (s : State) : State :=
  let x := qpOf s f q
  if x.running && bmeOf s f && !x.replyDead && x.batch != 0 && x.batch ≤ x.unreported
      && 0 < freeReplySlots x then putReply f q [0, 0, 0, 0, 2] s
  else s

/-- CREDIT_ONLY_REPLY (R66). -/
def execCreditOnlyReply (t : Ticks) (f q : Nat) (s : State) : Host.Outcome State Fault Refusal :=
  whenRunning t (creditOnly f q) s

/-- A ring access failed (R84, R85). A reply write that failed has produced nothing: RPI takes it back (R69);
the write may be the last one of a queue pair that has stopped. -/
def ringFault (f q : Nat) (onReply : Bool) (s : State) : State :=
  let x := qpOf s f q
  let undo := onReply && !x.replyDead && x.rpi != x.ci
  if !x.running && !undo then s
  else faultQp f q 5 (putQp f q { x with replyDead := x.replyDead || onReply,
                                         rpi := if undo then (x.rpi + 65535) % 65536 else x.rpi } s)

/-- RING_FAULT: of a submission-ring read, or with `onReply` of a reply write (R85). -/
def execRingFault (t : Ticks) (f q : Nat) (onReply : Bool) (s : State) :
    Host.Outcome State Fault Refusal :=
  whenRunning t (ringFault f q onReply) s

/-- ROUTE_FORWARD: take a packet whose DEST is another device and forward it (R87, R433). -/
def execRouteForward (t : Ticks) (op : Nat) (p : Packet) (s : State) : Host.Outcome State Fault Refusal :=
  whenRunning t (fun s =>
    if destLocal s p.dest || p.origin.isSome || !functionOn s p.func || !inCatalogue op then s
    else match (takeEntry op p s).bind fun x => atReceiver x.1 (fun _ => none) x.2 with
      | some s' => settleFifo p.func p.qp s'.cp.fifo.length s'
      | none => s) s

/-- A forwarded packet completes: it leaves the list, and what it held back goes on. -/
def endRouted (i status r0 r1 : Nat) (r : Routed) (s : State) : State :=
  settlePair r.ent (completeAs true r.ent status r0 r1 { s with cp := { s.cp with routed := dropAt s.cp.routed i } })

/-- A forwarded packet without a first response in time completes with TIMEOUT (R89). Its reply has ROUTED set, though
it is not known whether it ran elsewhere (DESIGN CHOICE, notes/assumptions/75.md). -/
def timeoutRouted (i : Nat) (r : Routed) (s : State) : State :=
  let a := takeFree s
  let b := takeFree a.2
  endRouted i 0x10A a.1 b.1 r b.2

/-- ROUTE_TIMEOUT (R89). -/
def execRouteTimeout (t : Ticks) (s : State) : Host.Outcome State Fault Refusal :=
  whenRunning t (fun s =>
    match findPos (fun (r : Routed) => !r.acked && decide (r.deadline ≤ s.clk.ticks)) s.cp.routed with
    | none => s
    | some i =>
      match s.cp.routed[i]? with
      | none => s
      | some r => timeoutRouted i r s) s

/-- A response that nothing waits for, or that comes too late, is discarded and counted (R89). -/
def lateReply (s : State) : State :=
  let s' := { s with cp := { s.cp with routeLate := sat 32 (s.cp.routeLate + 1) } }
  if s.cp.routeLate = 0 then raise 10 s' else s'

/-- The destination has accepted a timed packet (R76). -/
def routedAccept (i r0 r1 : Nat) (r : Routed) (s : State) : State :=
  let p := r.ent.pkt
  let s := emit (.completion p.func p.qp p.tag 1 r0 r1) s
  let two := r.ent.counted && p.replyAlways && !r.acked
  let e' := { r.ent with slots := if two then r.ent.slots - 1 else r.ent.slots }
  let s := { s with cp := { s.cp with routed := dropAt s.cp.routed i ++ [{ r with acked := true, ent := e' }] } }
  if two then sendReply p.func p.qp (replyOf r.ent 1 r0 r1 true) s else s

/-- A routed reply arrives (R76, R87, R89). A first response after the routing timeout finds the packet completed with
TIMEOUT. -/
def routedReply (device f q tag status r0 r1 : Nat) (s : State) : State :=
  match findPos (fun (r : Routed) => r.device == device && r.ent.pkt.func == f && r.ent.pkt.qp == q
      && r.ent.pkt.tag == tag) s.cp.routed with
  | none => lateReply s
  | some i =>
    match s.cp.routed[i]? with
    | none => s
    | some r =>
      if !r.acked && decide (r.deadline < s.clk.ticks) then lateReply (timeoutRouted i r s)
      else if status = 1 then routedAccept i r0 r1 r s
      else endRouted i status r0 r1 r s

end Sys2Proof.Machine
end

