-- ==== Sys2Proof/Machine/Format.lean ====
section
/-! DEFINITION. Pixel formats (R116 to R118) and Fenbor tile compression (R119 to R126): where a sample
lies in a slot and what it decodes to. -/
namespace Sys2Proof.Machine
open Sys2Proof

/-- One component: its depth, and its grid: 0 full, 1 one sample per 2 pixels, 2 one per 2 × 2. -/
structure Comp where
  depth : Nat
  grid  : Nat
  deriving DecidableEq, Repr

/-- The format codes of R116. -/
def formatCodes : List Nat :=
  [1, 2, 3, 4, 5, 9, 0x10, 0x11, 0x12, 0x13, 0x14, 0x15, 0x20, 0x21, 0x22, 0x23, 0x24, 0x25, 0x26, 0x27, 0x28]

/-- Whether a format code exists. -/
def validFormat (f : Nat) : Bool := formatCodes.contains f

/-- Bits per pixel (R116). -/
def fmtBpp (f : Nat) : Nat :=
  match f with
  | 0x05 => 64 | 0x09 => 1 | 0x10 => 12 | 0x11 => 16 | 0x12 => 24 | 0x13 => 32
  | 0x20 => 16 | 0x21 => 20 | 0x22 => 24 | 0x23 => 24 | 0x24 => 30 | 0x25 => 36
  | 0x26 => 24 | 0x27 => 30 | 0x28 => 36 | _ => 32

/-- Semi-planar formats. -/
def isPlanar (f : Nat) : Bool := decide (0x10 ≤ f ∧ f ≤ 0x13)

/-- 4:2:0 formats. -/
def is420 (f : Nat) : Bool := f == 0x10 || f == 0x12

/-- Formats with one chroma pair per two pixels of a line or more. -/
def is422 (f : Nat) : Bool := f == 0x11 || f == 0x13 || decide (0x20 ≤ f ∧ f ≤ 0x22)

/-- Y, Cb, Cr formats; the others are R, G, B (MONO1 apart). -/
def isYcc (f : Nat) : Bool := isPlanar f || f == 0x14 || f == 0x15 || decide (0x20 ≤ f ∧ f ≤ 0x25)

/-- Formats that carry alpha (R204). -/
def hasAlpha (f : Nat) : Bool := f == 1 || f == 2 || f == 4 || f == 5

/-- Pixels that a width must be a multiple of (R117). -/
def widthUnit (f : Nat) : Nat :=
  match f with
  | 0x09 => 8 | 0x10 => 2 | 0x11 => 2 | 0x12 => 2 | 0x13 => 2
  | 0x20 => 2 | 0x21 => 2 | 0x22 => 2 | 0x24 => 4 | 0x25 => 2 | 0x27 => 4 | 0x28 => 2 | _ => 1

/-- Depth of the main components. -/
def fmtDepth (f : Nat) : Nat :=
  match f with
  | 0x04 => 10 | 0x05 => 16 | 0x09 => 1 | 0x12 => 16 | 0x13 => 16 | 0x15 => 10
  | 0x21 => 10 | 0x22 => 12 | 0x24 => 10 | 0x25 => 12 | 0x27 => 10 | 0x28 => 12 | _ => 8

/-- The components in the order of FTC: R, G, B, A or Y, Cb, Cr. -/
def fmtComps (f : Nat) : List Comp :=
  let d := fmtDepth f
  let g := if is420 f then 2 else if is422 f then 1 else 0
  if f = 9 then [⟨1, 0⟩]
  else if isYcc f then [⟨d, 0⟩, ⟨d, g⟩, ⟨d, g⟩]
  else if hasAlpha f then [⟨d, 0⟩, ⟨d, 0⟩, ⟨d, 0⟩, ⟨if f = 4 then 2 else d, 0⟩]
  else [⟨d, 0⟩, ⟨d, 0⟩, ⟨d, 0⟩]

/-- Bits per pixel of plane 0. -/
def plane0Bits (f : Nat) : Nat :=
  match f with
  | 0x10 => 8 | 0x11 => 8 | 0x12 => 16 | 0x13 => 16 | _ => fmtBpp f

/-- Bytes of a line of plane 0 of w pixels. -/
def lineBytes (f w : Nat) : Nat := cdiv (w * plane0Bits f) 8

/-- Where a sample lies: n bits at bit position `bit`, counted from byte `off`. With `be` the bits are
sent most significant first in byte order; otherwise they are bits of a little-endian word. -/
structure Loc where
  off : Nat
  bit : Nat
  n   : Nat
  be  : Bool
  deriving DecidableEq, Repr

/-- The place of component c's sample (sx, sy) in its own grid, for a line pitch in bytes and the offset
of plane 1 (R116, R118). -/
def sampleLoc (f pitch p1 c sx sy : Nat) : Loc :=
  let d := fmtDepth f
  let row := pitch * sy
  if f = 9 then ⟨row + sx / 8, sx % 8, 1, false⟩
  else if f = 1 ∨ f = 3 then ⟨row + 4 * sx + c, 0, 8, false⟩
  else if f = 2 then ⟨row + 4 * sx + (if c = 3 then 3 else 2 - c), 0, 8, false⟩
  else if f = 4 then ⟨row + 4 * sx, 10 * c, if c = 3 then 2 else 10, false⟩
  else if f = 5 then ⟨row + 8 * sx + 2 * c, 0, 16, false⟩
  else if f = 0x14 then ⟨row + 4 * sx + c, 0, 8, false⟩
  else if f = 0x15 then ⟨row + 4 * sx, 10 * c, 10, false⟩
  else if isPlanar f then
    let k := d / 8
    if c = 0 then ⟨row + k * sx, 0, d, false⟩
    else ⟨p1 + row + k * (2 * sx + (c - 1)), 0, d, false⟩
  else
    let pos :=
      if is422 f then
        (if c = 0 then 4 * (sx / 2) + 1 + 2 * (sx % 2) else 4 * sx + (if c = 1 then 0 else 2)) * d
      else if isYcc f then (3 * sx + (if c = 0 then 1 else if c = 1 then 0 else 2)) * d
      else (3 * sx + c) * d
    ⟨row + pos / 8, pos % 8, d, true⟩

/-- Bytes that a location touches. -/
def locSpan (l : Loc) : Nat := cdiv (l.bit + l.n) 8

/-- The value at a location, of bytes given from its offset on. -/
def locRead (l : Loc) (b : List Byte) : Nat :=
  let s := locSpan l
  if l.be then (beNat (fitBytes s b) / 2 ^ (8 * s - l.bit - l.n)) % 2 ^ l.n
  else bits (leNat (fitBytes s b)) (l.bit + l.n - 1) l.bit

/-- Replace the value at a location in the bytes it touches. -/
def locWrite (l : Loc) (v : Nat) (b : List Byte) : List Byte :=
  let s := locSpan l
  let v := v % 2 ^ l.n
  if l.be then
    let sh := 8 * s - l.bit - l.n
    let old := beNat (fitBytes s b)
    beBytes s (old - ((old / 2 ^ sh) % 2 ^ l.n) * 2 ^ sh + v * 2 ^ sh)
  else
    let old := leNat (fitBytes s b)
    leBytes s (old - ((old / 2 ^ l.bit) % 2 ^ l.n) * 2 ^ l.bit + v * 2 ^ l.bit)

/-! ### Geometry of a slot -/

/-- Tiles across. -/
def tilesX (w : Nat) : Nat := cdiv w 32
/-- Tiles down. -/
def tilesY (h : Nat) : Nat := cdiv h 16
/-- U_max: reserved 256-byte units per FTC-L tile (R123). -/
def uMax (f : Nat) : Nat := cdiv (fmtBpp f) 4
/-- FTC-F budget in bits per pixel (R114). -/
def budgetBits (b : Nat) : Nat := 4 * (b + 1)
/-- Bytes of an FTC-F tile (R120). -/
def tileBytes (b : Nat) : Nat := 256 * (b + 1)
/-- H of R123: where FTC-L tile data begin. -/
def ftclData (w h : Nat) : Nat := roundUp (tilesX w * tilesY h * 16) 4096

/-- The minimum PITCH in 256-byte units (R118, R120, R123). -/
def minPitch (f comp budget w : Nat) : Nat :=
  if comp = 2 then tilesX w * (budget + 1)
  else if comp = 1 then tilesX w * uMax f
  else cdiv (lineBytes f w) 256

/-- Offset of plane 1 (R118). -/
def plane1 (pitch h : Nat) : Nat := roundUp (pitch * 256 * h) 4096

/-- SLOT_STRIDE in 4 KiB units (R118, R120, R123). -/
def slotStride (f comp pitch w h : Nat) : Nat :=
  if comp = 2 then cdiv (pitch * 256 * tilesY h) 4096
  else if comp = 1 then cdiv (ftclData w h + pitch * 256 * tilesY h) 4096
  else if isPlanar f then cdiv (plane1 pitch h + pitch * 256 * (if is420 f then h / 2 else h)) 4096
  else cdiv (pitch * 256 * h) 4096

/-- Width of a surface in pixels. -/
def sWidth (x : Surface) : Nat := x.widthM1 + 1
/-- Height of a surface in lines. -/
def sHeight (x : Surface) : Nat := x.heightM1 + 1
/-- Slots of a surface. -/
def sSlots (x : Surface) : Nat := x.slotsM1 + 1
/-- Device address of slot k. -/
def slotAddr (x : Surface) (k : Nat) : Nat := x.base + k * x.stride * 4096
/-- Bytes of the whole extent. -/
def extentBytes (x : Surface) : Nat := sSlots x * x.stride * 4096

/-! ### FTC-F -/

/-- An 8-bit endpoint widened to a depth (R122). -/
def widen8 (d v : Nat) : Nat :=
  if 8 ≤ d then v * 2 ^ (d - 8) + v / 2 ^ (16 - d) else v / 2 ^ (8 - d)

/-- Samples of a component in a 4 × 4 block. -/
def blockSamples (c : Comp) : Nat := if c.grid = 0 then 16 else if c.grid = 1 then 8 else 4

/-- Index width of a component (R121). -/
def indexBits (cs : List Comp) (budget : Nat) (c : Comp) : Nat :=
  let p := 16 * budgetBits budget
  min (min ((p - 16 * cs.length) / sumOf (cs.map blockSamples)) 8) c.depth

/-- Bit position of component i's endpoints in a block. -/
def compBit (cs : List Comp) (budget i : Nat) : Nat :=
  sumOf ((cs.take i).map fun c => 16 + blockSamples c * indexBits cs budget c)

/-- n bits, most significant first, at bit position pos of a byte list. -/
def bitsBE (b : List Byte) (pos n : Nat) : Nat :=
  let l : Loc := ⟨0, pos % 8, n, true⟩
  locRead l (b.drop (pos / 8))

/-- Quotient of an integer by an odd positive divisor, rounded to nearest. -/
def roundDiv (a : Int) (d : Nat) : Int := (2 * a + d) / (2 * d : Int)

/-- Decode a sample from its endpoints and index (R122). -/
def ftcfValue (depth n lo hi idx : Nat) : Nat :=
  let l := widen8 depth lo
  let h := widen8 depth hi
  if n = 0 then l
  else ((l : Int) + roundDiv (((h : Int) - l) * idx) (2 ^ n - 1)).toNat

/-- The position of a sample in its tile's block list and its index in the block. -/
def ftcfPlace (grid sx sy : Nat) : Nat × Nat :=
  if grid = 0 then ((sy / 4) * 8 + sx / 4, (sy % 4) * 4 + sx % 4)
  else if grid = 1 then ((sy / 4) * 8 + sx / 2, (sy % 4) * 2 + sx % 2)
  else ((sy / 2) * 8 + sx / 2, (sy % 2) * 2 + sx % 2)

/-- A sample of an FTC-F tile: component i, sample (sx, sy) within the tile's own grid of that
component. -/
def ftcfSample (f budget : Nat) (tile : List Byte) (i sx sy : Nat) : Nat :=
  let cs := fmtComps f
  match cs[i]? with
  | none => 0
  | some c =>
    let pl := ftcfPlace c.grid sx sy
    let blk := (tile.drop (pl.1 * 2 * budgetBits budget)).take (2 * budgetBits budget)
    let p := compBit cs budget i
    let n := indexBits cs budget c
    ftcfValue c.depth n (bitsBE blk p 8) (bitsBE blk (p + 8) 8) (bitsBE blk (p + 16 + pl.2 * n) n)

/-! ### FTC-L -/

/-- Samples of a component across and down a tile. -/
def tileGrid (c : Comp) : Nat × Nat :=
  (if c.grid = 0 then 32 else 16, if c.grid = 2 then 8 else 16)

/-- One-bits from position pos, at most fuel of them. -/
def ones (b : List Byte) : Nat → Nat → Nat
  | 0, _ => 0
  | n + 1, pos => if bitsBE b pos 1 = 1 then ones b n (pos + 1) + 1 else 0

/-- One residual e (R125): its value and the position after it. -/
def riceOne (b : List Byte) (depth k pos : Nat) : Nat × Nat :=
  let q := ones b 16 pos
  if q = 16 then (bitsBE b (pos + 16) depth, pos + 16 + depth)
  else (q * 2 ^ k + bitsBE b (pos + q + 1) k, pos + q + 1 + k)

/-- The sample that a residual and a prediction give (R125). -/
def unmap (depth e pred : Nat) : Nat :=
  let d : Int := if e % 2 = 0 then ((e / 2 : Nat) : Int) else -(((e + 1) / 2 : Nat) : Int)
  uint depth ((pred : Int) + d)

/-- Decode n samples of a component of width w; `acc` holds those decoded, newest first. None: the
stream runs past `limit` bits or k is above the depth. -/
def riceComp (b : List Byte) (depth w limit : Nat) :
    Nat → Nat → Nat → List Nat → Option (List Nat × Nat)
  | 0, _, pos, acc => if pos ≤ limit then some (acc.reverse, pos) else none
  | n + 1, k, pos, acc =>
    let i := acc.length
    let newGroup := i % 16 == 0
    let k := if newGroup then bitsBE b pos 4 else k
    let pos := if newGroup then pos + 4 else pos
    if depth < k ∨ limit < pos then none
    else
      let pred := if i = 0 then 2 ^ (depth - 1)
                  else if i % w = 0 then acc.getD (w - 1) 0 else acc.getD 0 0
      let r := riceOne b depth k pos
      riceComp b depth w limit n k r.2 (unmap depth r.1 pred :: acc)

/-- Decode the components of a MODE 1 tile. -/
def riceTile (b : List Byte) (limit : Nat) : List Comp → Nat → Option (List (List Nat))
  | [], _ => some []
  | c :: cs, pos =>
    let g := tileGrid c
    match riceComp b c.depth g.1 limit (g.1 * g.2) 0 pos [] with
    | none => none
    | some r => (riceTile b limit cs r.2).map (r.1 :: ·)

/-- Whether a tile header is valid: MODE 0 to 2 and UNITS at most U_max (R126). -/
def ftclHeaderOk (f : Nat) (hdr : List Byte) : Bool :=
  decide (rdb hdr 0 1 7 5 ≤ 2) && decide (rdb hdr 0 1 4 0 ≤ uMax f)

/-- The samples of an FTC-L tile by component, or none when it fails to decode (R125, R126). -/
def ftclTile (f : Nat) (hdr data : List Byte) : Option (List (List Nat)) :=
  let cs := fmtComps f
  if !ftclHeaderOk f hdr then none
  else
    let mode := rdb hdr 0 1 7 5
    if mode = 0 then
      let pb := 4 * plane0Bits f
      some ((List.range cs.length).map fun i =>
        let g := tileGrid (cs.getD i ⟨8, 0⟩)
        (List.range (g.1 * g.2)).map fun k =>
          let l := sampleLoc f pb (16 * pb) i (k % g.1) (k / g.1)
          locRead l (data.drop l.off))
    else if mode = 2 then
      some ((List.range cs.length).map fun i =>
        let c := cs.getD i ⟨8, 0⟩
        let g := tileGrid c
        List.replicate (g.1 * g.2) (rd hdr (8 + 2 * i) 2 / 2 ^ (16 - c.depth)))
    else riceTile data (rdb hdr 0 1 4 0 * 2048) cs 0

/-! ### One sample of a slot -/

/-- Reads n bytes at an offset within a slot. -/
abbrev SlotRead := Nat → Nat → List Byte

/-- Component i's sample (sx, sy), in that component's own grid, of a slot. None: its tile fails to
decode. -/
def sampleAt (get : SlotRead) (x : Surface) (i sx sy : Nat) : Option Nat :=
  let f := x.format
  let cs := fmtComps f
  let g := tileGrid (cs.getD i ⟨8, 0⟩)
  let tx := sx / g.1
  let ty := sy / g.2
  let ix := sx % g.1
  let iy := sy % g.2
  if x.comp = 0 then
    let l := sampleLoc f (x.pitch * 256) (plane1 x.pitch (sHeight x)) i sx sy
    some (locRead l (get l.off (locSpan l)))
  else if x.comp = 2 then
    some (ftcfSample f x.budget (get (ty * x.pitch * 256 + tx * tileBytes x.budget) (tileBytes x.budget)) i ix iy)
  else
    let hdr := get ((ty * tilesX (sWidth x) + tx) * 16) 16
    let data := get (ftclData (sWidth x) (sHeight x) + ty * x.pitch * 256 + tx * uMax f * 256) (uMax f * 256)
    (ftclTile f hdr data).map fun t => (t.getD i []).getD (iy * g.1 + ix) 0

/-- The samples of the pixel at (x, y), each from its component's own grid. -/
def pixelAt (get : SlotRead) (sf : Surface) (x y : Nat) : Option (List Nat) :=
  let cs := fmtComps sf.format
  (List.range cs.length).foldr (fun i acc =>
    let c := cs.getD i ⟨8, 0⟩
    let sx := if c.grid = 0 then x else x / 2
    let sy := if c.grid = 2 then y / 2 else y
    match sampleAt get sf i sx sy, acc with
    | some v, some t => some (v :: t)
    | _, _ => none) (some [])

end Sys2Proof.Machine
end

