-- ==== Sys2Proof/Machine/Memory.lean ====
section
/-! DEFINITION. Device memory: its contents in one canonical form, the interleave (R107 to R110),
fenced channels (R142) and accesses. -/
namespace Sys2Proof.Machine
open Sys2Proof

/-! ### Contents -/

/-- What a byte reads as that is not listed (DESIGN CHOICE, notes/assumptions/5.md). -/
def memDefault : Byte := 0#8

/-- The byte at an address. -/
def memGet : List Host.Cell → Nat → Byte
  | [], _ => memDefault
  | (a, b) :: t, k => if a = k then b else if k < a then memDefault else memGet t k

/-- The cells of consecutive bytes: those that hold what an unlisted address reads as are not listed. -/
def memCells : Nat → List Byte → List Host.Cell
  | _, [] => []
  | a, b :: bs => if b = memDefault then memCells (a + 1) bs else (a, b) :: memCells (a + 1) bs

/-- Write consecutive bytes, keeping the canonical form. -/
def memPutBytes (m : List Host.Cell) (a : Nat) (bs : List Byte) : List Host.Cell :=
  m.filter (fun c => decide (c.1 < a)) ++ (memCells a bs ++ m.filter fun c => decide (a + bs.length ≤ c.1))

/-- The canonical form: addresses strictly rising, no entry equal to what an unlisted address reads as. -/
def Memory.wf : List Host.Cell → Bool
  | [] => true
  | (a, b) :: t => b != memDefault && t.all (fun c => decide (a < c.1)) && Memory.wf t

/-- n bytes from an address. -/
def memRead (s : State) (a n : Nat) : List Byte :=
  let m := s.mm.mem.filter fun c => decide (a ≤ c.1 ∧ c.1 < a + n)
  (List.range n).map fun i => memGet m (a + i)

/-- Write bytes with no check and no count: Movement firmware's own accesses. -/
def memPoke (a : Nat) (bs : List Byte) (s : State) : State :=
  { s with mm := { s.mm with mem := memPutBytes s.mm.mem a bs } }

/-- The contents of memory become undefined or are lost: everything reads as after power-on. -/
def memForget (s : State) : State := { s with mm := { s.mm with mem := [], badSect := [] } }

/-! ### Capacity and interleave -/

/-- K: data granules per channel (R107). -/
def granulesPer (s : State) : Nat :=
  (if s.mm.ecc then 491520 else 524288) * 2 ^ s.mm.cap

/-- R of R109 for a live set. -/
def redirected (k live : Nat) : Nat := k * (16 - popcount 16 live) / 16

/-- The device top for a live set (R110). -/
def topFor (s : State) (live : Nat) : Nat :=
  let k := granulesPer s
  16 * (k - redirected k live) * 4096

/-- The top that bounds accesses: the interleave in force (R142). -/
def deviceTop (s : State) : Nat := topFor s s.mm.live

/-- A channel that is retired while the interleave in force still holds it is fenced (R142). -/
def fenced (s : State) (n : Nat) : Bool := tbit s.mm.live n && chanState s n == 2

/-- Channels of the interleave that are not fenced. -/
def unfenced (s : State) : Nat := maskOf ((bitList 16 s.mm.live).filter fun n => !fenced s n)

/-- The top that bounds allocation: retired channels left out (R142). -/
def allocTop (s : State) : Nat := topFor s (unfenced s)

/-- The channel of R109 before redirection. -/
def naturalChannel (a : Nat) : Nat :=
  let g := a / 4096
  let row := g / 16
  let h := Nat.xor (Nat.xor (Nat.xor (bits row 3 0) (bits row 7 4)) (Nat.xor (bits row 11 8) (bits row 15 12)))
    (Nat.xor (bits row 19 16) (bits row 23 20))
  Nat.xor (g % 16) h

/-- Channel and data-granule index of a device address for K and a live set (R109). -/
def mapWith (k live a : Nat) : Nat × Nat :=
  let row := a / 4096 / 16
  let v := naturalChannel a
  let lv := bitList 16 live
  if tbit live v then (v, row)
  else
    let r := redirected k live
    let c := v - (lv.filter fun n => decide (n < v)).length
    let j := c * (k - r) + row
    (lv.getD (j % lv.length) 0, (k - r) + j / lv.length)

/-- Channel of an address under the interleave in force. -/
def channelOf (s : State) (a : Nat) : Nat := (mapWith (granulesPer s) s.mm.live a).1

/-- Channel address of R109: granule with the ECC granules stepped over, and the offset. -/
def channelAddress (s : State) (a : Nat) : Nat :=
  let i := (mapWith (granulesPer s) s.mm.live a).2
  (if s.mm.ecc then i + i / 15 else i) * 4096 + a % 4096

/-- Whether an access to the granule of an address meets a fenced channel. -/
def fencedAt (s : State) (a : Nat) : Bool := fenced s (channelOf s a)

/-! ### Accesses

An access belongs to the class of the block that issues it (R19). It waits while no gate-list entry of its channel
opens the class, while the class is shed (R561) and while the channel restarts (R112); an access to a fenced channel
ends at once (R142). -/

/-- An entry opens some class of a set. -/
def opens (x : Nat) (e : GateEntry) : Bool := Nat.land e.mask x != 0

/-- Whether a class is ever open on a channel's running list. -/
def everOpen (s : State) (n cls : Nat) : Bool := (chanFsOf s n).running.any (opens (2 ^ cls))

/-- Channel n serves accesses of a class. -/
def channelServes (s : State) (cls n : Nat) : Bool :=
  fenced s n || (everOpen s n cls && !tbit s.pmu.shed cls && chanState s n != 1)

/-- Cut n bytes at a into runs that lie each in one granule: (address, length). -/
def granuleRuns : Nat → Nat → Nat → List (Nat × Nat)
  | 0, _, _ => []
  | k + 1, a, n =>
    if n = 0 then []
    else
      let m := min n (4096 - a % 4096)
      (a, m) :: granuleRuns k (a + m) (n - m)

/-- The granule runs of n bytes at a. -/
def runsOf (a n : Nat) : List (Nat × Nat) := granuleRuns (n / 4096 + 2) a n

/-- The channels of n bytes at a serve a class. -/
def served (s : State) (cls a n : Nat) : Bool := (runsOf a n).all fun r => channelServes s cls (channelOf s r.1)

/-- Every channel of the interleave serves a class. -/
def servedAll (s : State) (cls : Nat) : Bool := (bitList 16 s.mm.live).all (channelServes s cls)

/-- Count bytes read on the channels they come from (R111). -/
def countRead (a n : Nat) (s : State) : State :=
  forAll (runsOf a n) (fun r s =>
    let c := Tbl.upd s.mm.rdBytes 0 (channelOf s r.1) fun v => (v + r.2) % 2 ^ 64
    { s with mm := { s.mm with rdBytes := c } }) s

/-- Count bytes written on their channels (R111). -/
def countWrite (a n : Nat) (s : State) : State :=
  forAll (runsOf a n) (fun r s =>
    let c := Tbl.upd s.mm.wrBytes 0 (channelOf s r.1) fun v => (v + r.2) % 2 ^ 64
    { s with mm := { s.mm with wrBytes := c } }) s

/-- Sector k meets n bytes at a. -/
def sectorMeets (a n k : Nat) : Bool := decide (256 * k < a + n ∧ a < 256 * (k + 1))

/-- Some of n bytes at a lie in a sector that holds an uncorrectable error. -/
def sectorBad (s : State) (a n : Nat) : Bool := s.mm.badSect.any (sectorMeets a n)

/-- A sector that is written holds no error any more (R571). -/
def healSectors (a n : Nat) (s : State) : State :=
  { s with mm := { s.mm with badSect := s.mm.badSect.filter fun k => !sectorMeets a n k } }

/-- Write a run that lies in one granule: discarded on a fenced channel (R142). -/
def writeRun (a : Nat) (bs : List Byte) (s : State) : State :=
  if fencedAt s a then s else countWrite a bs.length (healSectors a bs.length (memPoke a bs s))

/-- Write bytes as a client does: granule by granule. -/
def memWrite (a : Nat) (bs : List Byte) (s : State) : State :=
  forAll (runsOf a bs.length) (fun r s => writeRun r.1 ((bs.drop (r.1 - a)).take r.2) s) s

/-- Some of n bytes at a lie on a fenced channel. -/
def meetsFence (s : State) (a n : Nat) : Bool := (runsOf a n).any fun r => fencedAt s r.1

/-- Whether n bytes at a can be read: below the top, on no fenced channel, without an uncorrectable error. -/
def readable (s : State) (a n : Nat) : Bool :=
  decide (a + n ≤ deviceTop s) && !meetsFence s a n && !sectorBad s a n

end Sys2Proof.Machine
end

