-- ==== Sys2Proof/Machine/Pane.lean ====
section
/-! DEFINITION. Pane descriptors: the fields of R202, the shadow and active tables, colour words. -/
namespace Sys2Proof.Machine
open Sys2Proof

/-- A pane descriptor: 64 bytes (R202). -/
abbrev Desc := List Byte

def dId (d : Desc) : Nat := rdb d 0 2 12 0
def dType (d : Desc) : Nat := rdb d 2 1 1 0
def dMember (d : Desc) : Bool := rdbit d 2 2
def dVisible (d : Desc) : Bool := rdbit d 2 3
def dRaster (d : Desc) : Nat := rdb d 2 1 7 4
def dSlotMode (d : Desc) : Nat := rdb d 3 1 1 0
def dAlphaMode (d : Desc) : Nat := rdb d 3 1 3 2
def dKeyEn (d : Desc) : Bool := rdbit d 3 4
/-- Substitution mode: true BACKDROP, false REPEAT. -/
def dSubst (d : Desc) : Bool := rdbit d 3 5
/-- Action on a stale source: true BACKDROP, false HOLD. -/
def dStaleAct (d : Desc) : Bool := rdbit d 3 6
def dZ (d : Desc) : Nat := rdb d 4 2 11 0
def dBorderW (d : Desc) : Nat := rdb d 4 2 15 12
def dSurface (d : Desc) : Nat := rdb d 6 2 13 0
def dTally (d : Desc) : Nat := rdb d 6 2 15 14
def dX (d : Desc) : Int := sint 16 (rd d 8 2)
def dY (d : Desc) : Int := sint 16 (rd d 10 2)
/-- Destination width. -/
def dW (d : Desc) : Nat := rdb d 12 2 13 0 + 1
/-- Destination height. -/
def dH (d : Desc) : Nat := rdb d 14 2 13 0 + 1
def dSX (d : Desc) : Nat := rdb d 16 2 13 0
def dSY (d : Desc) : Nat := rdb d 18 2 13 0
/-- Source width. -/
def dSW (d : Desc) : Nat := rdb d 20 2 13 0 + 1
/-- Source height. -/
def dSH (d : Desc) : Nat := rdb d 22 2 13 0 + 1
def dSlotParam (d : Desc) : Nat := rd d 24 8
def dRate (d : Desc) : Nat := rd d 32 2
def dStaleLimit (d : Desc) : Nat := rd d 34 2
def dBackdrop (d : Desc) : Nat := rd d 36 4
def dBorder (d : Desc) : Nat := rd d 40 4
def dKey (d : Desc) : Nat := rd d 44 4
def dGalpha (d : Desc) : Nat := rd d 48 1
def dPreH (d : Desc) : Nat := rdb d 49 1 2 0
def dPreV (d : Desc) : Nat := rdb d 49 1 5 3
def dChromaSite (d : Desc) : Nat := rdb d 49 1 7 6
def dHBank (d : Desc) : Nat := rdb d 50 1 4 0
def dVBank (d : Desc) : Nat := rdb d 51 1 4 0
def dInMatrix (d : Desc) : Nat := rdb d 52 1 5 0
/-- Narrow range. -/
def dNarrow (d : Desc) : Bool := rdbit d 52 6
def dItf (d : Desc) : Nat := rdb d 53 1 3 0
def dHPhase (d : Desc) : Int := sint 16 (rd d 54 2)
def dVPhase (d : Desc) : Int := sint 16 (rd d 56 2)

/-- An all-zero descriptor but for its PANE_ID (R202). -/
def blankDesc (id : Nat) : Desc := leBytes 2 id ++ List.replicate 62 0#8

/-- The shadow descriptor of a pane. -/
def shadowDesc (s : State) (id : Nat) : Desc := Tbl.get s.pn.shadow (blankDesc id) id
/-- The active descriptor of a pane. -/
def activeDesc (s : State) (id : Nat) : Desc := Tbl.get s.pn.active (blankDesc id) id
/-- Store a shadow descriptor. -/
def putShadow (id : Nat) (d : Desc) (s : State) : State :=
  { s with pn := { s.pn with shadow := Tbl.set s.pn.shadow id d } }
/-- Store an active descriptor. -/
def putActive (id : Nat) (d : Desc) (s : State) : State :=
  { s with pn := { s.pn with active := Tbl.set s.pn.active id d } }
/-- Run-time state of a pane. -/
def paneRun (s : State) (id : Nat) : PaneRun := Tbl.get s.pn.run {} id
/-- Store run-time state of a pane. -/
def putRun (id : Nat) (x : PaneRun) (s : State) : State :=
  { s with pn := { s.pn with run := Tbl.set s.pn.run id x } }

/-- A descriptor with MEMBER set or cleared. -/
def setMember (v : Bool) (d : Desc) : Desc := putBytes d 2 (leBytes 1 (setBit (rd d 2 1) 2 v))

/-- Whether a descriptor is of type CRYSTAL. -/
def isCrystalDesc (d : Desc) : Bool := dType d == 3

/-- Members of a raster's scene in a table, the crystal left out, in ascending pane ID. -/
def sceneMembers (t : Tbl (List Byte)) (r : Nat) : List (Nat × Desc) :=
  t.filter fun e => dMember e.2 && dRaster e.2 == r && !isCrystalDesc e.2

/-- Visible members of a raster's active scene, ascending. -/
def activeVisible (s : State) (r : Nat) : List (Nat × Desc) :=
  (sceneMembers s.pn.active r).filter fun e => dVisible e.2

/-- The committed panes (R637): members in either table, crystals among them. -/
def committedPanes (s : State) : List (Nat × Desc) :=
  (s.pn.active.filter fun e => dMember e.2) ++ (s.pn.shadow.filter fun e => dMember e.2)

/-- Whether a pane reads a surface at all: a FILL pane references none (R637). -/
def dRefers (d : Desc) (surf : Nat) : Bool := dType d != 2 && dSurface d == surf

/-- Whether some committed pane references a surface. -/
def committedRefers (s : State) (surf : Nat) : Bool :=
  (committedPanes s).any fun e => dRefers e.2 surf

/-- Components of a colour word: R, G, B of 10 bits (R205). -/
def colourWord (w : Nat) : Nat × Nat × Nat := (bits w 9 0, bits w 19 10, bits w 29 20)

end Sys2Proof.Machine
end

