-- ==== Sys2Proof/Machine/Surfaces.lean ====
section
/-! DEFINITION. Surfaces and their slots: table entries, headers, pins, claims, publishing,
allocation and invalidation (chapter 03). -/
namespace Sys2Proof.Machine
open Sys2Proof

/-- The WSLOT and NEWEST value that means none. -/
def noSlot : Nat := 0x7FF

/-- A slot of a surface. -/
def slotOf (x : Surface) (k : Nat) : Slot := Tbl.get x.slots {} k
/-- Store a slot. -/
def setSlot (k : Nat) (v : Slot) (x : Surface) : Surface := { x with slots := Tbl.set x.slots k v }

/-- FREE: neither published nor being written (R128). -/
def slotFree (v : Slot) : Bool := !v.published && !v.writing
/-- Readable: published and not invalid (R128). -/
def slotReadable (v : Slot) : Bool := v.published && !v.invalid

/-- Slot numbers of a surface. -/
def slotNums (x : Surface) : List Nat := List.range (sSlots x)

/-- Readable slots, none for a LOST surface (R114). -/
def readableSlots (x : Surface) : List Nat :=
  if !x.valid || x.lost then [] else (slotNums x).filter fun k => slotReadable (slotOf x k)

/-- The 32 bytes of a table entry (R114) whose range has an owner. -/
def entryBytes (owner : Nat) (x : Surface) : List Byte :=
  leBytes 5 x.base ++ leBytes 1 x.format
    ++ leBytes 1 (b2n x.valid + shl (b2n x.shared) 1 + shl (b2n x.crystal) 2 + shl (b2n x.lost) 3
        + shl x.comp 4 + shl x.budget 6)
    ++ leBytes 1 (x.writer + shl (b2n x.frozen) 3 + shl owner 4)
    ++ leBytes 2 x.widthM1 ++ leBytes 2 x.heightM1 ++ leBytes 2 x.pitch ++ leBytes 2 x.slotsM1
    ++ leBytes 4 x.stride ++ leBytes 2 x.wslot ++ leBytes 2 x.newest ++ leBytes 4 x.pubSeq
    ++ leBytes 4 x.hdr

/-- The 32 bytes of a slot header (R128). -/
def headerBytes (v : Slot) : List Byte :=
  leBytes 8 v.capture ++ leBytes 4 v.seq
    ++ leBytes 1 (b2n v.published + shl (b2n v.writing) 1 + shl (b2n v.incomplete) 2
        + shl (b2n v.invalid) 3) ++ [0#8]
    ++ leBytes 2 v.loss ++ leBytes 8 v.pubTime ++ List.replicate 8 0#8

/-! ### Claims -/

/-- The claimable readable slot with the lowest SEQ: not pinned and not NEWEST (R132). -/
def oldestClaimable (x : Surface) : Option Nat :=
  ((readableSlots x).filter fun k => k != x.newest && (slotOf x k).pins.isEmpty).foldl
    (fun best k => match best with
      | none => some k
      | some b => if (slotOf x k).seq < (slotOf x b).seq then some k else some b) none

/-- Slot k becomes the write slot: the rest of its header stays (R132). -/
def takeSlot (k : Nat) (x : Surface) : Surface :=
  { setSlot k { slotOf x k with published := false, writing := true } x with wslot := k }

/-- Claim a write slot (R132): the lowest FREE slot, else the oldest claimable one, else none. -/
def claimSlot (x : Surface) : Surface :=
  match (slotNums x).find? fun k => slotFree (slotOf x k) with
  | some k => takeSlot k x
  | none =>
    match oldestClaimable x with
    | some k => takeSlot k x
    | none => { x with wslot := noSlot }

/-- A claim at a tick, noted while nothing has used the slot when it had to be given up by the readers: resolutions
of that tick come before it (R136). -/
def claimAuto (t : Ticks) (x : Surface) : Surface :=
  let y := claimSlot x
  { y with claimAt := if y.wslot != noSlot && slotReadable (slotOf x y.wslot) then some t else none }

/-- Claim again when there is no write slot and one may be had (R132, R143). A LOST surface has no slots to give
(DESIGN CHOICE, notes/assumptions/79.md). -/
def reclaim (t : Ticks) (x : Surface) : Surface :=
  if x.valid && !x.lost && !x.frozen && x.wslot == noSlot then claimAuto t x else x

/-- The write slot was claimed in this very tick, and nothing has used it yet (R136). -/
def claimedNow (s : State) (x : Surface) (k : Nat) : Bool := x.claimAt == some s.clk.ticks && x.wslot == k

/-- A writer begins a frame in the write slot: its claim stands. -/
def useSlot (i : Nat) (s : State) : State := putSurf i { surfOf s i with claimAt := none } s

/-! ### Publishing -/

/-- What a publish sets (R131): it does not claim. -/
def publishSlot (capture time : Nat) (tick : Ticks) (incomplete : Bool) (loss : Nat) (x : Surface) :
    Surface :=
  let w := x.wslot
  let seq := (x.pubSeq + 1) % 2 ^ 32
  let v := { slotOf x w with capture := capture, seq := seq, published := true, writing := false,
                             incomplete := incomplete, invalid := false, loss := sat 16 loss,
                             pubTime := time, pubTick := tick }
  { setSlot w v x with newest := w, pubSeq := seq, wslot := noSlot, lastCap := some capture,
                       publishes := (x.publishes + 1) % 2 ^ 64 }

/-- The capture time of an automatic writer and whether it was raised (R135). -/
def clampCapture (x : Surface) (capture : Nat) : Nat × Bool :=
  match x.lastCap with
  | some c => if capture < c then (c + 1, true) else (capture, false)
  | none => (capture, false)

/-! ### Pins (R129) -/

/-- Keys of pin holders: a pane, a crystal, the blitter, an FST sender, a transfer. -/
def pinPane (id : Nat) : Nat := id
/-- Pin key of a raster's crystal. -/
def pinCrystal (r : Nat) : Nat := 0x10000 + r
/-- Pin key of the blitter. -/
def pinBl : Nat := 0x20000
/-- Pin key of an FST sender. -/
def pinFst (f : Nat) : Nat := 0x30000 + f
/-- Pin key of a surface transfer. -/
def pinXfer (ctx : Nat) : Nat := 0x40000 + ctx

/-- Pin a slot. -/
def pinSlot (i k key : Nat) (s : State) : State :=
  let x := surfOf s i
  let v := slotOf x k
  putSurf i (setSlot k { v with pins := key :: v.pins } x) s

/-- A resolution takes slot k (R136): where the claim of this very tick had taken the slot first, the claim goes to
another slot. -/
def pinResolved (i k key : Nat) (s : State) : State :=
  let x := surfOf s i
  if claimedNow s x k then
    let y := { setSlot k { slotOf x k with published := true, writing := false } x with wslot := noSlot }
    let s := pinSlot i k key (putSurf i y s)
    putSurf i (reclaim s.clk.ticks (surfOf s i)) s
  else pinSlot i k key s

/-- Release a pin (R129): an INVALID slot whose last pin goes becomes FREE (R145); the surface claims
again if it has no write slot (R132). -/
def unpinSlot (i k key : Nat) (s : State) : State :=
  let x := surfOf s i
  let v := slotOf x k
  let v := { v with pins := v.pins.erase key }
  let v := if v.invalid && v.pins.isEmpty then { v with published := false, invalid := false } else v
  putSurf i (reclaim s.clk.ticks (setSlot k v x)) s

/-! ### Allocation (R108, R148, R604) -/

/-- BAR2 size of a function in bytes (R603). -/
def bar2Size (s : State) (f : Nat) : Nat := 2 ^ (if f = 0 then s.host.pfBar2 else s.host.vfBar2)

/-- The first address past the firmware region (R108). -/
def surfaceFloor : Nat := 0x10000000

/-- Extents (start, end) of valid surfaces, leaving out surface `skip`. -/
def extents (s : State) (skip : Nat) : List (Nat × Nat) :=
  (s.mm.surfs.filter fun e => e.2.valid && e.1 != skip).map fun e =>
    (e.2.base, e.2.base + extentBytes e.2)

/-- Insert an extent into a list sorted by start. -/
def insertExt (e : Nat × Nat) : List (Nat × Nat) → List (Nat × Nat)
  | [] => [e]
  | x :: xs => if e.1 ≤ x.1 then e :: x :: xs else x :: insertExt e xs

/-- The gaps of [lo, hi) left by extents sorted by start. -/
def gaps (hi : Nat) : Nat → List (Nat × Nat) → List (Nat × Nat)
  | lo, [] => if lo < hi then [(lo, hi)] else []
  | lo, (a, b) :: t =>
    if lo < min a hi then (lo, min a hi) :: gaps hi (max lo b) t else gaps hi (max lo b) t

/-- Free extents below a limit. -/
def freeExtents (s : State) (skip limit : Nat) : List (Nat × Nat) :=
  gaps limit surfaceFloor ((extents s skip).foldl (fun l e => insertExt e l) [])

/-- The k-th of all granule positions at which n bytes fit. -/
def placeAt (n : Nat) : Nat → List (Nat × Nat) → Option Nat
  | _, [] => none
  | k, (a, b) :: t =>
    if a + n ≤ b then
      let c := (b - a - n) / 4096 + 1
      if k < c then some (a + 4096 * k) else placeAt n (k - c) t
    else placeAt n k t

/-- How many granule positions there are for n bytes. -/
def placeCount (n : Nat) (l : List (Nat × Nat)) : Nat :=
  sumOf (l.map fun e => if e.1 + n ≤ e.2 then (e.2 - e.1 - n) / 4096 + 1 else 0)

/-- Where firmware places n bytes below a limit: some position where they fit, chosen by a free value
(DESIGN CHOICE, notes/assumptions/6.md); none when they fit nowhere. -/
def allocate (skip limit n : Nat) (s : State) : Option Nat × State :=
  let l := freeExtents s skip limit
  let c := placeCount n l
  if c = 0 then (none, s)
  else
    let v := takeFree s
    (placeAt n (v.1 % c) l, v.2)

/-- The limit of allocation for a function (R142, R604). -/
def allocLimit (s : State) (f : Nat) : Nat := min (allocTop s) (bar2Size s f)

/-- The surface whose extent holds an address, if any. -/
def surfaceAt (s : State) (a : Nat) : Option (Nat × Surface) :=
  Tbl.first? s.mm.surfs fun _ x => x.valid && decide (x.base ≤ a ∧ a < x.base + extentBytes x)

/-! ### Reading slots -/

/-- Reads of a slot's bytes. -/
def slotGet (s : State) (x : Surface) (k : Nat) : SlotRead := fun off n => memRead s (slotAddr x k + off) n

/-- A function can read a surface: it owns it or the surface is SHARED_READ (R29). -/
def mayRead (s : State) (f i : Nat) : Bool := surfOwner s i == f || (surfOf s i).shared

/-- A surface exists. -/
def surfValid (s : State) (i : Nat) : Bool := (surfOf s i).valid

/-- An automatic writer is bound to the surface (R149). -/
def hasAutoWriter (s : State) (i : Nat) : Bool :=
  s.ne.ingress.any (fun e => e.2.kind != 0 && e.2.surface == i)
    || s.rg.rasters.any (fun e => match Tbl.find? e.2.sinks 2 with
        | some k => k.surface == i
        | none => false)
    || s.cf.imports.any (fun e => e.2.surface == i)
    || s.cf.xfersIn.any (fun e => e.2.surface == i)

/-- Set a slot INVALID (R145): it is FREE at once when nothing pins it. -/
def invalidateSlot (k : Nat) (x : Surface) : Surface :=
  let v := slotOf x k
  if v.pins.isEmpty then setSlot k { v with published := false, invalid := false } x
  else setSlot k { v with invalid := true } x

/-- NEWEST after invalidation (R145). -/
def renewest (x : Surface) : Surface :=
  if x.newest != noSlot && !slotReadable (slotOf x x.newest) then
    let best := (readableSlots x).foldl (fun (b : Option Nat) k => match b with
      | none => some k
      | some j => if (slotOf x j).seq < (slotOf x k).seq then some k else some j) none
    { x with newest := best.getD noSlot }
  else x

end Sys2Proof.Machine
end

