-- ==== Sys2Proof/Machine/Tables.lean ====
section
/-! DEFINITION. The loadable colour tables (chapter 06): their built-in contents, the copy each raster
uses, and the taking of copies at a latch (R253 to R268). -/
namespace Sys2Proof.Machine
open Sys2Proof

/-- Key of a table: kind 0 horizontal bank, 1 vertical bank, 2 input matrix, 3 ITF LUT, 4 3D LUT. -/
def tblKey (kind i : Nat) : Nat := 64 * kind + i

/-- Signed 16-bit little-endian values. -/
def s16s (l : List Int) : List Byte := l.flatMap fun v => leBytes 2 (uint 16 v)

/-- A built-in bank of linear interpolation with n taps, the pair at tap k (R254). -/
def linearBank (n k : Nat) : List Byte :=
  (List.range 64).flatMap fun p => s16s ((List.range n).map fun i =>
    if i = k then ((64 - p) * 16 : Nat) else if i = k + 1 then (p * 16 : Nat) else 0)

/-- Identity input matrix, and the 3 × 3 identity. -/
def identity12 : List Int := [4096, 0, 0, 0, 0, 4096, 0, 0, 0, 0, 4096, 0]
/-- The 3 × 3 identity in S3.12. -/
def identity9 : List Int := [4096, 0, 0, 0, 4096, 0, 0, 0, 4096]
/-- The matrix that a, b, c, d give (R258). -/
def yccMatrix (a b c d : Int) : List Int := [4096, 0, a, 0, 4096, -b, -c, 0, 4096, d, 0, 0]

/-- BT.709 to BT.2020 (R258). -/
def gamutUp : List Int := [2570, 1349, 177, 283, 3766, 47, 67, 360, 3669]
/-- BT.2020 to BT.709 (R258). -/
def gamutDown : List Int := [6801, -2407, -298, -510, 4640, -34, -75, -412, 4583]

/-- A built-in input-matrix entry (R258): 64 bytes. -/
def builtinMatrix (i : Nat) : List Byte :=
  let a := match i with
    | 1 => yccMatrix 5743 1410 2925 7258
    | 2 => yccMatrix 6450 767 1917 7601
    | 3 => yccMatrix 6040 674 2340 7706
    | 5 => yccMatrix 6450 767 1917 7601
    | 7 => yccMatrix 6040 674 2340 7706
    | _ => identity12
  let g := match i with
    | 4 => gamutUp | 5 => gamutUp | 6 => gamutDown | 7 => gamutDown | _ => identity9
  fitBytes 64 (s16s a ++ s16s g)

/-- The newest copy of a table, if one was loaded. -/
def newestCopy (s : State) (key : Nat) : Option TblCopy := Tbl.find? s.col.tables key

/-- Table state of a raster. -/
def rasterTbl (s : State) (r : Nat) : RasterTbl := Tbl.get s.col.rasters {} r
/-- Store the table state of a raster. -/
def putRasterTbl (r : Nat) (x : RasterTbl) (s : State) : State :=
  { s with col := { s.col with rasters := Tbl.set s.col.rasters r x } }

/-- The copy of a table that a raster uses (R267). -/
def copyInUse (s : State) (r key : Nat) : Option TblCopy :=
  match Tbl.find? (rasterTbl s r).old key with
  | some c => c
  | none => newestCopy s key

/-- Output settings that a raster uses. -/
def outSetOf (s : State) (r : Nat) : OutSet :=
  (rasterTbl s r).oldOut.getD (Tbl.get s.col.out {} r)

/-- Taps of a TAPS code (R253). -/
def tapsOf (c : Option TblCopy) : Nat :=
  match c with
  | none => 6
  | some c => if c.taps = 1 then 4 else if c.taps = 2 then 2 else 6

/-- Vertical taps of a bank as a raster runs it. -/
def bankTaps (s : State) (r bank : Nat) : Nat := tapsOf (copyInUse s r (tblKey 1 bank))

/-- Vertical taps that admission counts: the larger of the copy in use and the newest (R266). -/
def admTaps (s : State) (r bank : Nat) : Nat :=
  max (bankTaps s r bank) (tapsOf (newestCopy s (tblKey 1 bank)))

/-- The bytes of a bank, matrix or LUT in use by a raster. -/
def tableBytes (s : State) (r kind i : Nat) : List Byte :=
  match copyInUse s r (tblKey kind i) with
  | some c => c.data
  | none =>
    if kind = 0 then linearBank 8 3
    else if kind = 1 then linearBank 6 2
    else if kind = 2 then builtinMatrix i
    else []

/-- A raster takes every copy due to it (R267). -/
def takeTables (r : Nat) (s : State) : State :=
  let x := rasterTbl s r
  putRasterTbl r { x with old := [], oldOut := none, waiting := [] } s

/-- A raster waits for its latch with a copy it has not taken. -/
def tablesWaiting (s : State) (r : Nat) : Bool := !(rasterTbl s r).waiting.isEmpty

/-- CS_TBLSEQ.TAKEN (R268). -/
def tblTaken (s : State) (r : Nat) : Nat :=
  match (rasterTbl s r).waiting with
  | [] => s.col.loadSeq
  | n :: _ => (n + 65535) % 65536

end Sys2Proof.Machine
end

