-- ==== Sys2Proof/Machine/Demand.lean ====
section
/-! DEFINITION. The planner's geometry: reduced rows, row bytes, band demand (R154 to R160, R174), the
phase accumulators (R250), taps and line-buffer needs (R215). -/
namespace Sys2Proof.Machine
open Sys2Proof

/-! ### Raster geometry -/

/-- Horizontal total. -/
def hTotal (t : Timing) : Nat := t.hact + t.hfp + t.hsync + t.hbp
/-- Vertical total of a tile. -/
def vTotal (t : Timing) : Nat := t.vact + t.vfp + t.vsync + t.vbp
/-- Number of tiles. -/
def tileCount (t : Timing) : Nat := if t.tiles2 then 2 else 1
/-- Active lines of the scene: both tiles together. -/
def activeHeight (t : Timing) : Nat := t.vact * tileCount t
/-- Bands of a raster (R154). -/
def bandCount (t : Timing) : Nat := cdiv (activeHeight t) 16
/-- Pixels of a frame (R300). -/
def frameTotal (t : Timing) : Nat := tileCount t * hTotal t * vTotal t

/-- Slices serving a raster; an unbound raster keeps the gang it had (R307). -/
def gangOf (x : Raster) : Nat := x.g
/-- Line-buffer pool in bytes (R215). -/
def poolBytes (x : Raster) : Nat := 786432 * gangOf x
/-- Lead-reserve capacity in bytes (R182). -/
def lrCapacity (x : Raster) : Nat := 1048576 * gangOf x

/-! ### Panes -/

/-- VIDEO. -/
def isVideo (d : Desc) : Bool := dType d == 0
/-- FILL. -/
def isFill (d : Desc) : Bool := dType d == 2

/-- Reduced width (R155). -/
def redW (d : Desc) : Nat := cdiv (dSW d) (2 ^ (if isVideo d then dPreH d else 0))
/-- Vertical pre-reduction factor. -/
def facV (d : Desc) : Nat := 2 ^ (if isVideo d then dPreV d else 0)
/-- Reduced height Hr (R155). -/
def redH (d : Desc) : Nat := cdiv (dSH d) (facV d)

/-- Step of a phase accumulator (R250). -/
def phaseStep (src dst : Nat) : Nat := (src * 2 ^ 24 + dst / 2) / dst
/-- s at output position i (R250); `adj` is the signed 8.8 phase adjustment. -/
def phaseAt (src dst : Nat) (adj : Int) (i : Nat) : Int :=
  let step := phaseStep src dst
  ((step : Int) - 2 ^ 24) / 2 + adj * 2 ^ 16 + i * step

/-- Vertical phase adjustment; only VIDEO panes have one (R204). -/
def vAdj (d : Desc) : Int := if isVideo d then dVPhase d else 0
/-- Horizontal phase adjustment. -/
def hAdj (d : Desc) : Int := if isVideo d then dHPhase d else 0

/-- s of output line y' (R157, R250). -/
def vPhase (d : Desc) (y : Nat) : Int := phaseAt (redH d) (dH d) (vAdj d) y

/-- Full vertical taps, given the taps of the pane's bank (R251). -/
def fullTaps (bank : Nat) (d : Desc) : Nat :=
  if !isVideo d || (redH d == dH d && dVPhase d == 0) then 1 else bank

/-- Clamp an integer to 0 to n − 1. -/
def clampRow (n : Nat) (i : Int) : Nat := min (n - 1) i.toNat

/-- First and last reduced row that output line y' needs at t taps (R157). -/
def rowsNeeded (d : Desc) (t y : Nat) : Nat × Nat :=
  let c := vPhase d y / 2 ^ 24
  let n := redH d
  (clampRow n (c - ((t + 1) / 2 : Nat) + 1), clampRow n (c + (t / 2 : Nat)))

/-- The source lines, counted in the rectangle, that the fetch of reduced row r reads (R155). -/
def rowLines (d : Desc) (r : Nat) : List Nat :=
  let fv := facV d
  let n := min fv (dSH d - fv * r)
  let a := fv * r + (n - 1) / 2
  let b := fv * r + n / 2
  if a = b then [a] else [a, b]

/-- Bytes of the 256-byte requests that cover [lo, hi). -/
def widened (lo hi : Nat) : Nat := (cdiv hi 256 - lo / 256) * 256

/-- First and past-the-last byte within a plane's line of the units holding pixels x to x + w − 1. -/
def spanBytes (f plane x w : Nat) : Nat × Nat :=
  if plane = 0 then
    let u := widthUnit f
    let a := x / u * u
    let b := (x + w - 1) / u * u + u
    (a * plane0Bits f / 8, cdiv (b * plane0Bits f) 8)
  else
    let k := fmtDepth f / 8
    (x / 2 * 2 * k, ((x + w - 1) / 2 + 1) * 2 * k)

/-- Bytes of an uncompressed line of a plane: the widened span at a line offset (R156). -/
def lineSpan (f plane off x w : Nat) : Nat :=
  let p := spanBytes f plane x w
  widened (off + p.1) (off + p.2)

/-- Plane-1 lines that hold the given plane-0 lines, each once (R155). -/
def chromaLines (f : Nat) (l : List Nat) : List Nat :=
  (l.map fun y => if is420 f then y / 2 else y).eraseDups

/-- Tile rows that hold the lines a reduced row reads. -/
def tileRows (d : Desc) (r : Nat) : List Nat := ((rowLines d r).map fun y => (dSY d + y) / 16).eraseDups

/-- Tiles across that the horizontal span touches. -/
def tilesAcross (d : Desc) : Nat := (dSX d + dSW d - 1) / 32 - dSX d / 32 + 1

/-- Bytes of one tile as admission counts it (R127, R156). -/
def tileCost (x : Surface) : Nat := if x.comp = 2 then tileBytes x.budget else uMax x.format * 256 + 16

/-- Row bytes of reduced row r (R156); `prev` is the row charged just before it, when it is r − 1. -/
def rowBytes (x : Surface) (d : Desc) (prev : Option Nat) (r : Nat) : Nat :=
  let f := x.format
  if x.comp = 0 then
    let ls := (rowLines d r).map (dSY d + ·)
    let pitch := x.pitch * 256
    let a := sumOf (ls.map fun y => lineSpan f 0 (pitch * y) (dSX d) (dSW d))
    let b := if isPlanar f then
        sumOf ((chromaLines f ls).map fun y =>
          lineSpan f 1 (plane1 x.pitch (sHeight x) + pitch * y) (dSX d) (dSW d))
      else 0
    a + b
  else
    let seen := match prev with
      | some p => if p + 1 = r then tileRows d p else []
      | none => []
    ((tileRows d r).filter fun k => !seen.contains k).length * tilesAcross d * tileCost x

/-- Bytes per reduced pixel as stored (R174). -/
def storedBytes (f : Nat) : Nat := if fmtDepth f ≤ 10 then 4 else 8

/-- Lines of the active area that the destination rectangle covers: first, and past the last (R206). -/
def clipLines (h : Nat) (d : Desc) : Nat × Nat := ((dY d).toNat, min h (dY d + dH d).toNat)
/-- Columns of the active area that the rectangle covers. -/
def clipCols (w : Nat) (d : Desc) : Nat × Nat := ((dX d).toNat, min w (dX d + dW d).toNat)

/-- The rectangle covers some column of the active area: one beside it has an empty clipped rectangle. -/
def onWidth (w : Nat) (d : Desc) : Bool := decide ((clipCols w d).1 < (clipCols w d).2)

/-- Whether a pane's clipped rectangle contains line y of a w × h active area. -/
def onLine (w h : Nat) (d : Desc) (y : Nat) : Bool :=
  onWidth w d && decide ((clipLines h d).1 ≤ y ∧ y < (clipLines h d).2)

/-- Charge the reduced rows of a pane to bands (R157): (band, row, bytes) in row order. -/
def chargeRows (x : Surface) (d : Desc) (t : Nat) (ys : List Nat) : List (Nat × Nat × Nat) :=
  (ys.foldl (fun (acc : List (Nat × Nat × Nat) × Option Nat) (y : Nat) =>
    let need := rowsNeeded d t ((y : Int) - dY d).toNat
    let lo := match acc.2 with
      | some p => max need.1 (p + 1)
      | none => need.1
    if need.2 < lo then acc
    else
      (List.range (need.2 + 1 - lo)).foldl (fun acc i =>
        ((y / 16, lo + i, rowBytes x d acc.2 (lo + i)) :: acc.1, some (lo + i))) acc)
    ([], none)).1

/-- Demand of a pane per band: (band, bytes, lead-reserve bytes) entries (R158, R174). A FILL pane, and
one whose surface does not exist, needs nothing. -/
def paneDemand (s : State) (w h taps : Nat) (d : Desc) : List (Nat × Nat × Nat) :=
  let x := surfOf s (dSurface d)
  let cl := clipLines h d
  let cc := clipCols w d
  if isFill d || !x.valid || cl.2 ≤ cl.1 || cc.2 ≤ cc.1 then []
  else
    let ys := (List.range (cl.2 - cl.1)).map (cl.1 + ·)
    (chargeRows x d (fullTaps taps d) ys).map fun e =>
      (e.1, e.2.2, redW d * storedBytes x.format)

/-- Demand of a list of panes, summed per band (R158). -/
def bandDemand (s : State) (r : Nat) (t : Timing) (ds : List Desc) : List (Nat × Nat) :=
  let es := ds.flatMap fun d => paneDemand s t.hact (activeHeight t) (admTaps s r (dVBank d)) d
  (List.range (bandCount t)).map fun b =>
    let mine := es.filter fun e => e.1 == b
    (sumOf (mine.map (·.2.1)), sumOf (mine.map (·.2.2)))

/-- Dc(b) in bytes per second, rounded up (R159). -/
def demandRate (t : Timing) (bytes : Nat) : Nat := cdiv (bytes * 1200000000 * t.n) (t.d * 16 * hTotal t)

/-- dc(b) on each of `live` channels, rounded up (R159). -/
def channelRate (t : Timing) (live bytes : Nat) : Nat := cdiv (demandRate t bytes * 9) (8 * live)

/-- CIR(b) in 10.16 fixed point (R178). -/
def cirOf (t : Timing) (bytes : Nat) : Nat := cdiv (bytes * t.n * 65536) (16 * hTotal t * t.d)

/-- PIR(b) (R178). -/
def pirOf (cir peak : Nat) : Nat := cdiv (cir * peak) 16

/-- Megabytes per second, rounded up. -/
def mbps (v : Nat) : Nat := cdiv v 1000000

/-- Line-buffer need of a pane (R215). -/
def lineNeed (x : Surface) (d : Desc) (taps : Nat) : Nat :=
  if isFill d then 0
  else if isVideo d then redW d * taps * storedBytes x.format
  else dSW d * storedBytes x.format

/-- Need at full taps, given the bank's taps. -/
def fullNeed (s : State) (bank : Nat) (d : Desc) : Nat :=
  lineNeed (surfOf s (dSurface d)) d (fullTaps bank d)

/-- Need at one tap: whether the pane alone exceeds the pool (R215). -/
def needOne (s : State) (d : Desc) : Nat := lineNeed (surfOf s (dSurface d)) d 1

end Sys2Proof.Machine
end

