-- ==== Sys2Proof/Machine/Admission.lean ====
section
/-! DEFINITION. Gate-list arithmetic (R161 to R165) and admission (R170 to R177). -/
namespace Sys2Proof.Machine
open Sys2Proof

/-! ### Gate lists -/

/-- Cycle in 4 ns units (R162). -/
def cycleOf (l : List GateEntry) : Nat := sumOf (l.map (·.dur))

/-- Lengths of maximal runs of entries that agree with `want`, along a list read once. -/
def runLengths (x : Nat) (want : Bool) : List GateEntry → Nat → List Nat
  | [], acc => if acc = 0 then [] else [acc]
  | e :: t, acc =>
    if opens x e = want then runLengths x want t (acc + e.dur)
    else if acc = 0 then runLengths x want t 0 else acc :: runLengths x want t 0

/-- Begin a cyclic list just after an entry whose openness differs from its successor's. -/
def rotateTo (x : Nat) (want : Bool) (l : List GateEntry) : List GateEntry :=
  match findPos (fun e => opens x e != want) l with
  | some i => l.drop i ++ l.take i
  | none => l

/-- Open runs of a class set, cyclic (R164). -/
def openRuns (x : Nat) (l : List GateEntry) : List Nat := runLengths x true (rotateTo x true l) 0
/-- Closed intervals of a class set, cyclic. -/
def closedRuns (x : Nat) (l : List GateEntry) : List Nat := runLengths x false (rotateTo x false l) 0

/-- Effective open time OX in 4 ns units (R165). -/
def openTime (x : Nat) (l : List GateEntry) : Nat :=
  if l.all (opens x) then cycleOf l else sumOf ((openRuns x l).map (· - 2))

/-- Closed gap GX in ns; none when unbounded (R165). -/
def closedGap (x : Nat) (l : List GateEntry) : Option Nat :=
  if l.all (opens x) then some 0
  else if l.all (fun e => !opens x e) then none
  else some (4 * maxOf (closedRuns x l) + 8)

/-- Whether a list obeys R161 and R162. -/
def gateListOk (l : List GateEntry) : Bool :=
  decide (1 ≤ l.length ∧ l.length ≤ 256) && l.all (fun e => decide (2 ≤ e.dur)) && l.any (opens 0x80)

/-- The lists of a channel that admission must satisfy: running, and armed while PENDING (R172). -/
def listsOf (c : ChanFs) : List (List GateEntry) :=
  c.running :: (if c.arm = .pending then [c.armed] else [])

/-! ### What is admitted -/

/-- A raster's scenes and timings as admission counts them (R160). `crystals` are active and staged. -/
structure Claim where
  scenes   : List (List Desc)
  crystals : List Desc
  timings  : List Timing
  deriving DecidableEq, Repr

/-- Live channels of admission: neither retired nor fenced (R177). -/
def liveMask (s : State) : Nat := unfenced s
/-- How many there are. -/
def liveCount (s : State) : Nat := popcount 16 (liveMask s)

/-- The timing in force at the next frame, and a staged one (R160). -/
def timingsOf (x : Raster) : List Timing := x.nextTim.getD x.tim :: x.stTim.toList

/-- Crystal descriptors of a raster: active and staged. -/
def crystalsOf (s : State) (r : Nat) : List Desc :=
  let c := crystalOf s r
  (match c.pane with
    | some id => [activeDesc s id]
    | none => []) ++
  (match c.staged with
    | some (some id) => [shadowDesc s id]
    | _ => [])

/-- The descriptor of a raster's active crystal. -/
def activeCrystal (s : State) (r : Nat) : Option Desc := (crystalOf s r).pane.map (activeDesc s)

/-- Descriptors of the committed scene. -/
def committedScene (s : State) (r : Nat) : List Desc := (sceneMembers s.pn.active r).map (·.2)
/-- Descriptors of the shadow scene. -/
def shadowScene (s : State) (r : Nat) : List Desc := (sceneMembers s.pn.shadow r).map (·.2)

/-- The result of a readmission that a raster holds (R177). -/
def heldScenes (s : State) (r : Nat) : List (List Desc) :=
  match (sceneOf s r).readmit with
  | some m => [m.2]
  | none => []

/-- Pending scenes: a submitted one, and the result of a readmission (R160, R177). -/
def pendingScenes (s : State) (r : Nat) : List (List Desc) :=
  let x := sceneOf s r
  (if x.pending then [shadowScene s r] else []) ++ heldScenes s r

/-- What a raster claims now. -/
def claimOf (s : State) (r : Nat) : Claim :=
  ⟨committedScene s r :: pendingScenes s r, crystalsOf s r, timingsOf (rasterOf s r)⟩

/-- A raster has a committed or a pending scene, of any number of panes, or a crystal (R170, R173). -/
def hasClaim (s : State) (r : Nat) : Bool :=
  let c := sceneOf s r
  c.active.scene != 0xFFFFFF || c.pending || c.readmit.isSome || !(committedScene s r).isEmpty
    || !(crystalsOf s r).isEmpty

/-- Bytes and lead-reserve bytes per band of each scene under each timing. -/
def claimBands (s : State) (r : Nat) (c : Claim) : List (Timing × List (Nat × Nat)) :=
  c.timings.flatMap fun t => c.scenes.map fun ds => (t, bandDemand s r t ds)

/-- The same of the crystals, which may be active and staged at once. -/
def crystalBands (s : State) (r : Nat) (c : Claim) : List (Timing × List (Nat × Nat)) :=
  c.timings.flatMap fun t => c.crystals.map fun d => (t, bandDemand s r t [d])

/-- Peak channel demand of band tables (R159, R160). -/
def peakRate (live : Nat) (l : List (Timing × List (Nat × Nat))) : Nat :=
  maxOf (l.flatMap fun e => e.2.map fun b => channelRate e.1 live b.1)

/-- P0 of a claim. -/
def peak0 (s : State) (r : Nat) (c : Claim) : Nat := peakRate (liveCount s) (claimBands s r c)
/-- P1 of a claim. -/
def peak1 (s : State) (r : Nat) (c : Claim) : Nat := peakRate (liveCount s) (crystalBands s r c)

/-- All claims of the device, with raster r's replaced. -/
def claimsWith (s : State) (r : Nat) (c : Claim) : List (Nat × Claim) :=
  (List.range 16).map fun i => (i, if i = r then c else claimOf s i)

/-- Σ P0 and Σ P1 over all rasters. -/
def totals (s : State) (cs : List (Nat × Claim)) : Nat × Nat :=
  (sumOf (cs.map fun e => peak0 s e.1 e.2), sumOf (cs.map fun e => peak1 s e.1 e.2))

/-! ### The checks -/

/-- A refusal: status, RESULT0 and RESULT1, which some refusals leave open. None: admitted. -/
abbrev Verdict := Option (Nat × Nat × Option Nat)

/-- NOT_ADMITTED with a limit code, its [15:8] and [31:16] fields and RESULT1 (R175). -/
def notAdmitted (code mid high r1 : Nat) : Verdict := some (0x103, code + shl mid 8 + shl high 16, some r1)

/-- The first refusal of a list of checks. -/
def firstOf : List Verdict → Verdict
  | [] => none
  | some v :: _ => some v
  | none :: t => firstOf t

/-- Where a refusal is reported: its line or band, then its channel (R175). -/
def refusedAt (v : Nat × Nat × Option Nat) : Nat := bits v.2.1 31 16 * 256 + bits v.2.1 15 8

/-- The refusal of a check that is reported: the one at the lowest line or band, then of the lowest channel
(R175). -/
def lowest : List Verdict → Verdict
  | [] => none
  | none :: t => lowest t
  | some v :: t => match lowest t with
    | some w => some (if refusedAt w < refusedAt v then w else v)
    | none => some v

/-- The first line of an active area for which f gives a refusal. -/
def firstLine (h : Nat) (f : Nat → Verdict) : Verdict := firstOf ((List.range h).map f)

/-- Check 2: a pane that alone exceeds the pool at one tap (R171, R215). RESULT1 is not stated. -/
def checkPane (s : State) (x : Raster) (ds : List Desc) : Verdict :=
  match ds.find? fun d => decide (poolBytes x < needOne s d) with
  | some d => some (0x104, dId d, none)
  | none => none

/-- Panes of a line, and the count at a pixel. -/
def lineCount (w h y : Nat) (ds : List Desc) : Nat := (ds.filter fun d => onLine w h d y).length

/-- Check 3: line fan-out (R214). -/
def checkFanout (t : Timing) (ds : List Desc) : Verdict :=
  let h := activeHeight t
  firstLine h fun y =>
    let n := lineCount t.hact h y ds
    if 256 < n then notAdmitted 0x02 0 y n else none

/-- Among panes of a line, those whose clipped rectangle holds column x. -/
def depthAt (t : Timing) (x : Nat) (l : List Desc) : Nat :=
  (l.filter fun d => decide ((clipCols t.hact d).1 ≤ x ∧ x < (clipCols t.hact d).2)).length

/-- The lowest column at which more than 16 panes of a line are counted: it is the left edge of one. -/
def deepColumn (t : Timing) (l : List Desc) : Option Nat :=
  let xs := (l.map fun d => (clipCols t.hact d).1).filter fun x => decide (16 < depthAt t x l)
  match xs with
  | [] => none
  | x :: r => some (r.foldl min x)

/-- Check 4: depth (R214). -/
def checkDepth (t : Timing) (ds : List Desc) : Verdict :=
  firstLine (activeHeight t) fun y =>
    let l := ds.filter (onLine t.hact (activeHeight t) · y)
    match deepColumn t l with
    | some x => notAdmitted 0x03 0 y (shl x 16 + depthAt t x l)
    | none => none

/-- Check 5: line-buffer pool at full taps (R171, R215). -/
def checkPool (s : State) (r : Nat) (t : Timing) (ds : List Desc) : Verdict :=
  let h := activeHeight t
  let pool := poolBytes (rasterOf s r)
  let ns := ds.map fun d => (d, fullNeed s (admTaps s r (dVBank d)) d)
  firstLine h fun y =>
    let n := sumOf ((ns.filter fun e => onLine t.hact h e.1 y).map (·.2))
    if pool < n then notAdmitted 0x04 0 y n else none

/-- LEAD_MIN values that bound a raster: the one in force and one that a LEAD_SET has staged, until the latch
takes it (DESIGN CHOICE, notes/assumptions/78.md). -/
def leadMins (s : State) (r : Nat) : List Nat :=
  let f := fsOf s r
  f.leadMin :: (match f.stLead with
    | some p => [p.1]
    | none => [])

/-- Check 6: lead-reserve capacity of each band (R174). -/
def checkLr (s : State) (r lead : Nat) (bands : List (Nat × Nat)) : Verdict :=
  let cap := lrCapacity (rasterOf s r)
  firstOf ((List.range bands.length).map fun b =>
    let n := cdiv (bands.getD b (0, 0)).2 16 * (lead + 1)
    if cap < n then notAdmitted 0x05 0 b n else none)

/-- Check 7: latch lead (R174). -/
def checkLatch (t : Timing) (lead : Nat) : Verdict :=
  let n := vTotal t - t.latch
  if t.set && n < lead then notAdmitted 0x06 0 0 n else none

/-- Whether a gap of g ns is within (lead − 1) line times (R173). -/
def gapFits (t : Timing) (lead g : Nat) : Bool :=
  decide (12 * g * t.n ≤ 10 * (lead - 1) * tileCount t * hTotal t * t.d)

/-- Check 8 for a raster: G0, and G1 with a crystal, on every list of every live channel. -/
def checkGap (s : State) (chan : Nat → ChanFs) (t : Timing) (lead : Nat) (crystal : Bool) : Verdict :=
  if !t.set then none else
  lowest ((bitList 16 (liveMask s)).flatMap fun n =>
    (listsOf (chan n)).flatMap fun l =>
      (1 :: (if crystal then [2] else [])).map fun x =>
        match closedGap x l with
        | none => notAdmitted 0x07 n 0 0xFFFFFFFF
        | some g => if gapFits t lead g then none else notAdmitted 0x07 n 0 g)

/-- Capacity of a list for a class set in bytes per second (R172). -/
def capacity (x : Nat) (l : List GateEntry) : Nat := 27000000000 * openTime x l / cycleOf l

/-- The lowest band with the largest value. -/
def worstBand (l : List Nat) : Nat :=
  (findPos (fun v => v == maxOf l) l).getD 0

/-- Checks 9 and 10: the sums fit every list of every live channel (R172). `b01` and `b0` are the bands
reported. -/
def checkChannels (s : State) (chan : Nat → ChanFs) (tot : Nat × Nat) (b01 b0 : Nat) : Verdict :=
  let ls := (bitList 16 (liveMask s)).flatMap fun n => (listsOf (chan n)).map fun l => (n, l)
  firstOf ((ls.map fun e => if capacity 3 e.2 < tot.1 + tot.2 then
      notAdmitted 0x08 e.1 b01 (mbps (tot.1 + tot.2)) else none)
    ++ (ls.map fun e => if capacity 1 e.2 < tot.1 then notAdmitted 0x09 e.1 b0 (mbps tot.1) else none))

/-- Checks 5, 6, 7 and 8 of one raster that has a scene or a crystal, for the scenes and timings of a claim:
the refusals of each. -/
def rasterChecks (s : State) (chan : Nat → ChanFs) (leads : List Nat) (r : Nat) (c : Claim) : List (List Verdict) :=
  let bands := claimBands s r c
  [c.timings.flatMap fun t => c.scenes.map fun ds => checkPool s r t ds,
   leads.flatMap fun m => bands.map fun e => checkLr s r m e.2,
   leads.flatMap fun m => c.timings.map fun t => checkLatch t m,
   leads.flatMap fun m => c.timings.map fun t => checkGap s chan t m (!c.crystals.isEmpty)]

/-- Each check over all rasters affected, before the next check (R171, R175). -/
def checkAll (l : List (List (List Verdict))) : Verdict :=
  firstOf ((List.range 4).map fun k => lowest (l.flatMap fun e => e.getD k []))

/-- Checks 5 to 8 of one raster. -/
def checkRaster (s : State) (chan : Nat → ChanFs) (leads : List Nat) (r : Nat) (c : Claim) : Verdict :=
  checkAll [rasterChecks s chan leads r c]

/-- Bands with the largest d0 + d1 and the largest d0 of a scene with crystals. Where no scene is refused,
R175 names none: the scene reported is the one that would take effect last, under the last timing (DESIGN
CHOICE, notes/assumptions/78.md). -/
def reportBands (s : State) (r : Nat) (t : Timing) (ds cry : List Desc) : Nat × Nat :=
  let live := liveCount s
  let b0 := (bandDemand s r t ds).map fun b => channelRate t live b.1
  let b1 := (bandDemand s r t cry).map fun b => channelRate t live b.1
  (worstBand ((List.range b0.length).map fun i => b0.getD i 0 + b1.getD i 0), worstBand b0)

/-- The bands reported of a raster's claim. -/
def claimReport (s : State) (r : Nat) (c : Claim) : Nat × Nat :=
  reportBands s r ((c.timings.getLast?).getD {}) ((c.scenes.getLast?).getD []) c.crystals

/-- Checks 5 to 10 with raster r's claim replaced by c (R171 second paragraph). -/
def admitClaim (s : State) (leads : List Nat) (r : Nat) (c : Claim) : Verdict :=
  let tot := totals s (claimsWith s r c)
  let rb := claimReport s r c
  firstOf [checkRaster s (chanFsOf s) leads r c, checkChannels s (chanFsOf s) tot rb.1 rb.2]

/-- Admission of a scene submitted for raster r (R171): every check, the new scene pending beside the
committed one and the result of a readmission that has not been latched (R177). -/
def admitScene (s : State) (r : Nat) (ds : List Desc) : Verdict :=
  let x := rasterOf s r
  let ts := timingsOf x
  let cry := crystalsOf s r
  if 4096 < ds.length then notAdmitted 0x01 0 0 ds.length
  else firstOf
    ([checkPane s x ds, lowest (ts.map (checkFanout · ds)), lowest (ts.map (checkDepth · ds))]
      ++ [checkRaster s (chanFsOf s) (leadMins s r) r ⟨[ds], cry, ts⟩]
      ++ [let tot := totals s (claimsWith s r ⟨committedScene s r :: heldScenes s r ++ [ds], cry, ts⟩)
          let rb := reportBands s r ((ts.getLast?).getD {}) ds cry
          checkChannels s (chanFsOf s) tot rb.1 rb.2])

/-- Admission of every raster against given gate pages (R176): checks 8 to 10. No scene is refused, and the
band reported is 0 (DESIGN CHOICE, notes/assumptions/78.md). -/
def admitLists (s : State) (chan : Nat → ChanFs) : Verdict :=
  let cs := (List.range 16).map fun i => (i, claimOf s i)
  firstOf
    [lowest ((cs.filter fun e => hasClaim s e.1).flatMap fun e => (leadMins s e.1).flatMap fun m =>
        e.2.timings.map fun t => checkGap s chan t m (!e.2.crystals.isEmpty)),
      checkChannels s chan (totals s cs) 0 0]

/-- LR_RGAP.GAP: the largest G0 over running and pending lists of live channels, saturated (R173, R184). -/
def gapOf (s : State) : Nat :=
  maxOf ((bitList 16 (liveMask s)).flatMap fun n =>
    (listsOf (chanFsOf s n)).map fun l => match closedGap 1 l with
      | some g => min g 65535
      | none => 65535)

/-- Movement firmware writes GAP of every raster after a list is loaded or taken over (R184). -/
def writeGaps (s : State) : State :=
  let g := gapOf s
  forAll (List.range 16) (fun r s => putFs r { fsOf s r with gap := g } s) s

/-- CAP of a raster for a scene: the largest lead whose use fits, at most 16 (R184). -/
def capOf (s : State) (r : Nat) (ds : List Desc) : Nat :=
  let t := (timingsOf (rasterOf s r)).headD {}
  let e := maxOf ((bandDemand s r t ds).map fun b => cdiv b.2 16)
  if e = 0 then 16 else min 16 (lrCapacity (rasterOf s r) / e - 1)

end Sys2Proof.Machine
end

