-- ==== Sys2Proof/Machine/LinePlan.lean ====
section
/-! DEFINITION. What a raster decides for one output line (R211, R212, R214 to R220): which panes take
part, at how many taps, and which are drawn as backdrop colour; and the depth decision of a pixel. -/
namespace Sys2Proof.Machine
open Sys2Proof

/-- One pane on a line. -/
structure LinePane where
  id    : Nat
  desc  : Desc
  taps  : Nat             -- vertical taps it runs at
  full  : Nat             -- its full taps
  bd    : Bool := false   -- drawn as backdrop colour, for any cause
  pool  : Bool := false   -- drawn as backdrop colour for pool reasons (R218)
  deriving DecidableEq, Repr

/-- The raster composes its scene's panes: it runs, and is neither halted, blanked nor forced (R336); in
the lead-in the first frame is fetched (R639), unless it will be blanked or forced (R292). -/
def composesScene (s : State) (r : Nat) : Bool :=
  let x := rasterOf s r
  if x.leadIn then !s.pmu.blank && !(crystalOf s r).forced else x.st == .running

/-- The timing for which lines are planned and composed: from the latch on, that of the next frame. -/
def planTim (x : Raster) : Timing := x.nextTim.getD x.tim

/-- Visible members of the active scene whose clipped rectangle meets a band, ascending (R211). -/
def bandPanes (s : State) (r b : Nat) : List (Nat × Desc) :=
  let t := planTim (rasterOf s r)
  (activeVisible s r).filter fun e =>
    let c := clipLines (activeHeight t) e.2
    onWidth t.hact e.2 && decide (c.1 < c.2 ∧ c.1 / 16 ≤ b ∧ b ≤ (c.2 - 1) / 16)

/-- Index entries of all bands below b. -/
def entriesBelow (s : State) (r b : Nat) : Nat :=
  sumOf ((List.range b).map fun k => (bandPanes s r k).length)

/-- Entries of the whole index of the active scene, at most the store's 147,456 (R212). -/
def indexEntries (s : State) (r : Nat) : Nat :=
  min 147456 (entriesBelow s r (bandCount (planTim (rasterOf s r))))

/-- The panes that the index lists for a band: those that fit the store (R212). -/
def indexed (s : State) (r b : Nat) : List (Nat × Desc) :=
  (bandPanes s r b).take (147456 - entriesBelow s r b)

/-- A pane is drawn as backdrop colour for the frame: its resolution found no slot, it is stale with
STALE_ACT BACKDROP, or its descriptor is invalid (R220 step 1). -/
def frameBackdrop (s : State) (id : Nat) : Bool := (paneRun s id).use == .backdrop

/-- Panes of line y before clipping, by the active descriptors. -/
def linePanes (s : State) (r y : Nat) : List (Nat × Desc) :=
  let t := planTim (rasterOf s r)
  (bandPanes s r (y / 16)).filter fun e => onLine t.hact (activeHeight t) e.2 y

/-- Farther first (R207): lower Z, then lower pane ID. -/
def farther (a b : LinePane) : Bool := decide (dZ a.desc < dZ b.desc ∨ (dZ a.desc = dZ b.desc ∧ a.id < b.id))

/-- Insert into a list kept farthest first. -/
def insertFar (x : LinePane) : List LinePane → List LinePane
  | [] => [x]
  | y :: t => if farther x y then x :: y :: t else y :: insertFar x t

/-- Panes kept after fan-out clipping, farthest first, and the IDs skipped (R216). -/
def keptPanes (s : State) (r y : Nat) : List LinePane × List Nat :=
  let inIdx := (indexed s r (y / 16)).map (·.1)
  let all := linePanes s r y
  let known := all.filter fun e => inIdx.contains e.1
  let kept := known.take 256
  let skipped := (all.filter fun e => !(kept.any fun k => k.1 == e.1)).map (·.1)
  let mk := fun (e : Nat × Desc) =>
    let n := fullTaps (bankTaps s r (dVBank e.2)) e.2
    ({ id := e.1, desc := e.2, taps := n, full := n, bd := frameBackdrop s e.1 } : LinePane)
  ((kept.map mk).foldl (fun l x => insertFar x l) [], skipped)

/-- Need of a pane of a line as it stands. -/
def paneNeed (s : State) (p : LinePane) : Nat :=
  if p.bd then 0 else lineNeed (surfOf s (dSurface p.desc)) p.desc p.taps

/-- Sum of needs. -/
def sumNeed (s : State) (l : List LinePane) : Nat := sumOf (l.map (paneNeed s))

/-- Draw as backdrop the panes that exceed the pool alone at one tap (R217). -/
def dropAlone (s : State) (pool : Nat) (l : List LinePane) : List LinePane :=
  l.map fun p => if !p.bd && pool < needOne s p.desc then { p with bd := true, pool := true } else p

/-- Go through the panes in order, changing each while the sum still exceeds the pool. `done` holds
those passed. -/
def shedWalk (s : State) (pool : Nat) (f : LinePane → LinePane) : List LinePane → List LinePane → List LinePane
  | done, [] => done
  | done, p :: t =>
    if sumNeed s (done ++ p :: t) ≤ pool then done ++ p :: t
    else shedWalk s pool f (done ++ [f p]) t

/-- Lower the taps of a pane to a step. -/
def toStep (n : Nat) (p : LinePane) : LinePane := if !p.bd && n < p.taps then { p with taps := n } else p

/-- Draw a pane as backdrop for pool reasons, unless it already is. -/
def toBackdrop (p : LinePane) : LinePane := if p.bd then p else { p with bd := true, pool := true }

/-- The pool decisions of R217 and R218. -/
def shedLine (s : State) (pool : Nat) (l : List LinePane) : List LinePane :=
  let l := dropAlone s pool l
  let l := shedWalk s pool (toStep 4) [] l
  let l := shedWalk s pool (toStep 2) [] l
  let l := shedWalk s pool (toStep 1) [] l
  shedWalk s pool toBackdrop [] l

/-- The panes of line y, farthest first, after steps 1 to 3 of R220, and the IDs skipped. -/
def decideLine (s : State) (r y : Nat) : List LinePane × List Nat :=
  let x := rasterOf s r
  if composesScene s r then
    let k := keptPanes s r y
    (shedLine s (poolBytes x) k.1, k.2)
  else ([], [])

/-- A pane's clipped rectangle holds column x. -/
def onColumn (w : Nat) (d : Desc) (x : Nat) : Bool := decide ((clipCols w d).1 ≤ x ∧ x < (clipCols w d).2)

/-- The panes blended at column x of a line: the 16 nearest that contain it (R219), farthest first. -/
def blendedAt (w x : Nat) (l : List LinePane) : List LinePane :=
  let m := l.filter fun p => onColumn w p.desc x
  m.drop (m.length - 16)

/-- A pane is depth-clipped at column x: it contains it and is not among the 16 nearest. -/
def depthClippedAt (w x : Nat) (l : List LinePane) (p : LinePane) : Bool :=
  onColumn w p.desc x && !(blendedAt w x l).any (fun q => q.id == p.id)

/-- A pane is clipped at some column of the line. -/
def depthClipped (w : Nat) (l : List LinePane) (p : LinePane) : Bool :=
  (List.range w).any fun x => depthClippedAt w x l p

/-- A pane is clipped at every column it covers: it is not fetched for the line (R219). -/
def fullyClipped (w : Nat) (l : List LinePane) (p : LinePane) : Bool :=
  (List.range w).all fun x => !onColumn w p.desc x || depthClippedAt w x l p

/-- Panes whose rows line y still needs (R220 step 4). -/
def fetchedPanes (s : State) (r y : Nat) : List LinePane :=
  let w := (planTim (rasterOf s r)).hact
  let l := (decideLine s r y).1
  l.filter fun p => !p.bd && !isFill p.desc && !fullyClipped w l p

end Sys2Proof.Machine
end

