-- ==== Sys2Proof/Machine/FetchOps.lean ====
section
/-! DEFINITION. The fetch scheduler (R155, R163, R164, R178 to R183): what a line needs fetched, the
gates, the shaper and the lead reserve. -/
namespace Sys2Proof.Machine
open Sys2Proof

/-! ### What is fetched -/

/-- Fetch units of a reduced row: the row itself, or for FTC the tile rows that hold the lines it reads,
which rows share (R156). -/
def rowUnits (x : Surface) (d : Desc) (r : Nat) : List Nat := if x.comp = 0 then [r] else tileRows d r

/-- Offsets of the 256-byte pieces that cover [lo, hi). -/
def pieces (lo hi : Nat) : List Nat :=
  (List.range (cdiv hi 256 - lo / 256)).map fun i => (lo / 256 + i) * 256

/-- Slot offsets of the requests of a fetch unit (R155, R156, R163). -/
def unitOffsets (x : Surface) (d : Desc) (u : Nat) : List Nat :=
  let f := x.format
  let pitch := x.pitch * 256
  if x.comp = 0 then
    let ls := (rowLines d u).map (dSY d + ·)
    let p0 := ls.flatMap fun y =>
      let b := spanBytes f 0 (dSX d) (dSW d)
      pieces (pitch * y + b.1) (pitch * y + b.2)
    let p1 := if isPlanar f then (chromaLines f ls).flatMap fun y =>
        let b := spanBytes f 1 (dSX d) (dSW d)
        let o := plane1 x.pitch (sHeight x) + pitch * y
        pieces (o + b.1) (o + b.2)
      else []
    p0 ++ p1
  else
    let txs := (List.range (tilesAcross d)).map (dSX d / 32 + ·)
    txs.flatMap fun tx =>
      if x.comp = 2 then
        let o := u * pitch + tx * tileBytes x.budget
        pieces o (o + tileBytes x.budget)
      else
        let h := (u * tilesX (sWidth x) + tx) * 16
        let o := ftclData (sWidth x) (sHeight x) + u * pitch + tx * uMax f * 256
        (h / 256 * 256) :: pieces o (o + uMax f * 256)

/-- A request a line still needs: what it is, its device address and class. -/
structure LineReq where
  req  : FetchReq
  addr : Nat
  cls  : Nat
  deriving DecidableEq, Repr

/-- The slot a pane is fetched from. -/
def paneSlot (s : State) (id : Nat) : Option Nat :=
  match (paneRun s id).use with
  | .slot k => some k
  | _ => none

/-- Reduced rows that a pane of a line needs. -/
def lineRows (p : LinePane) (y : Nat) : List Nat :=
  let n := rowsNeeded p.desc p.taps ((y : Int) - dY p.desc).toNat
  (List.range (n.2 + 1 - n.1)).map (n.1 + ·)

/-- Requests of one pane for some of its rows. -/
def unitRequests (s : State) (id : Nat) (d : Desc) (slot cls : Nat) (rows : List Nat) : List LineReq :=
  let x := surfOf s (dSurface d)
  ((rows.flatMap (rowUnits x d)).eraseDups).flatMap fun u =>
    let os := unitOffsets x d u
    (List.range os.length).map fun k => ⟨⟨id, u, k⟩, slotAddr x slot + os.getD k 0, cls⟩

/-- The crystal's descriptor, when the raster has an active crystal that covers line y. -/
def crystalOn (s : State) (r y : Nat) : Option Desc :=
  match (crystalOf s r).pane with
  | some id =>
    let d := activeDesc s id
    let t := planTim (rasterOf s r)
    if onLine t.hact (activeHeight t) d y then some d else none
  | none => none

/-- Requests for line y: C0 of the scene's panes, then C1 of the crystal (R19, R281). -/
def lineRequests (s : State) (r y : Nat) : List LineReq :=
  let c0 := (fetchedPanes s r y).flatMap fun p =>
    match paneSlot s p.id with
    | some k => unitRequests s p.id p.desc k 0 (lineRows p y)
    | none => []
  let c1 := match crystalOn s r y, (crystalOf s r).slot with
    | some d, some (_, k) => unitRequests s (dId d) d k 1 [((y : Int) - dY d).toNat]
    | _, _ => []
  if (rasterOf s r).st == .halted then [] else c0 ++ c1

/-- Requests of a line that have not issued. -/
def unissued (s : State) (r y : Nat) : List LineReq :=
  let f := fsOf s r
  (lineRequests s r y).filter fun q => !f.issued.contains q.req

/-- Whether all data that a pane's rows need have arrived. -/
def rowsArrived (s : State) (r id : Nat) (d : Desc) (rows : List Nat) : Bool :=
  let f := fsOf s r
  let x := surfOf s (dSurface d)
  ((rows.flatMap (rowUnits x d)).eraseDups).all fun u =>
    (List.range (unitOffsets x d u).length).all fun k => f.arrived.contains ⟨id, u, k⟩

/-! ### Where the raster is -/

/-- The line the slices compose, of the frame being fetched: −1 from the latch on (R303); past the
active lines nothing is composed. -/
def composing (x : Raster) : Int :=
  if x.latched then (if x.line + 1 = vTotal x.tim then 0 else -1)
  else (x.line : Int) + 1

/-- Lines that may be fetched: none more than LEAD after the line composed (R183). In a two-tile raster
each tile's lines count from its own first line. -/
def fetchWindow (s : State) (r : Nat) : List Nat :=
  let x := rasterOf s r
  let f := fsOf s r
  let c := composing x
  let lo := c.toNat
  let hi := min (planTim x).vact (c + f.lead + 1).toNat
  let base := (List.range (hi - lo)).map (lo + ·)
  if (planTim x).tiles2 then base.flatMap fun y => [y, (planTim x).vact + y] else base

/-- When a line of the window became fetchable: at the latch, or when the slices came to the line LEAD before
it. -/
def openedAt (s : State) (r y : Nat) : Ticks :=
  let x := rasterOf s r
  let f := fsOf s r
  let v := (planTim x).vact
  let j := composing x + f.lead - ((if y < v then y else y - v : Nat) : Int)
  f.opened.getD j.toNat (x.latchAt.getD 0)

/-- Reduced rows that the lines of the window need of each pane, the crystal among them. -/
def windowRows (s : State) (r : Nat) : List (Nat × Desc × List Nat) :=
  (fetchWindow s r).flatMap fun y =>
    ((fetchedPanes s r y).map fun p => (p.id, p.desc, lineRows p y)) ++
      match crystalOn s r y with
      | some d => [(dId d, d, [((y : Int) - dY d).toNat])]
      | none => []

/-- Lead-reserve bytes of a pane's rows: 256 for each request that has issued for them, and for rows that are
complete no more than the reduced pixels they keep (R174, R182, R183; DEDUCED, notes/assumptions/77.md). -/
def rowsHeld (s : State) (r id : Nat) (d : Desc) (rows : List Nat) : Nat :=
  let x := surfOf s (dSurface d)
  let units := fun l => (l.flatMap (rowUnits x d)).eraseDups
  let taken := fun us => 256 * (fsOf s r).issued.countP fun q => q.pane == id && us.contains q.row
  let done := rows.filter fun row => rowsArrived s r id d [row]
  let open_ := (units rows).filter fun u => !(units done).contains u
  min (taken (units done)) (done.length * redW d * storedBytes x.format) + taken open_

/-- Bytes the lead reserve holds: what the window's lines keep of each pane, and one credit for each request
still on its way whose line has been composed (R183, R190). -/
def lrUse (s : State) (r : Nat) : Nat :=
  let w := windowRows s r
  let ids := (w.map fun e => (e.1, e.2.1)).eraseDups
  let rowsOf := fun id => ((w.filter fun e => e.1 == id).flatMap fun e => e.2.2).eraseDups
  let kept := fun (q : FetchReq) => w.any fun e => e.1 == q.pane &&
    (e.2.2.flatMap (rowUnits (surfOf s (dSurface e.2.1)) e.2.1)).contains q.row
  let stray := s.fs.flights.countP fun x => x.raster == r && (x.old || !kept x.req)
  sumOf (ids.map fun e => rowsHeld s r e.1 e.2 (rowsOf e.1)) + 256 * stray

/-- The lead reserve holds a credit (R183). -/
def lrCredit (s : State) (r : Nat) : Bool := decide (lrUse s r + 256 ≤ lrCapacity (rasterOf s r))

/-! ### Shaper (R178 to R181) -/

/-- CCLK cycles between two ticks: 24 in 25 ticks of 0.8 ns. -/
def cclk (a b : Ticks) : Nat := b * 24 / 25 - a * 24 / 25

/-- The buckets brought up to the present. -/
def refill (s : State) (f : RasterFs) : RasterFs :=
  let n := cclk f.bucketAt s.clk.ticks
  { f with bc := min (f.cbs * 65536) (f.bc + n * f.cir), bp := min (f.pbs * 65536) (f.bp + n * f.pir),
           bucketAt := s.clk.ticks }

/-- B0 of a band of the committed scene. -/
def bandBytes (s : State) (r b : Nat) : Nat :=
  ((bandDemand s r (planTim (rasterOf s r)) (committedScene s r)).getD b (0, 0)).1

/-- Staged shaper values taken. -/
def takeShaper (f : RasterFs) : RasterFs :=
  { f with peak := f.stPeak.getD f.peak, cbs := f.stCbs.getD f.cbs, pbs := f.stPbs.getD f.pbs,
           stPeak := none, stCbs := none, stPbs := none }

/-- The fetch line enters a band: new rates, and a staged SHAPER_SET (R180, R181). -/
def enterBand (s : State) (r b : Nat) (f : RasterFs) : RasterFs :=
  let f := takeShaper (refill s f)
  let c := cirOf (planTim (rasterOf s r)) (bandBytes s r b)
  { f with cir := c, pir := pirOf c f.peak, band := b }

/-- A line has come into the window of the fetch, or has left it already (R183). -/
def lineReached (s : State) (r y : Nat) : Bool :=
  let x := rasterOf s r
  let v := (planTim x).vact
  decide (((if y < v then y else y - v : Nat) : Int) ≤ composing x + (fsOf s r).lead)

/-- Advance the fetch line over lines that may be fetched and whose requests have all issued. -/
def advanceLine (s : State) (r : Nat) : Nat → Nat → Nat
  | 0, y => y
  | n + 1, y =>
    if activeHeight (planTim (rasterOf s r)) ≤ y || !lineReached s r y then y
    else if (unissued s r y).isEmpty then advanceLine s r n (y + 1) else y

/-- Settle the fetch line after an issue, a latch or a line (R180): through the vertical blanking the rates of
band 0 stay. -/
def settleLine (r : Nat) (s : State) : State :=
  let f := fsOf s r
  let h := activeHeight (planTim (rasterOf s r))
  let y := advanceLine s r (h + 1) f.line
  let s1 := putFs r { f with line := y } s
  if y / 16 = f.band || h ≤ y || composing (rasterOf s r) < 0 then s1
  else putFs r (enterBand s r (y / 16) { f with line := y }) s1

/-- The slices begin composing a line: one more line may be fetched (R183). -/
def openLine (r : Nat) (s : State) : State :=
  settleLine r (putFs r { fsOf s r with opened := (s.clk.ticks :: (fsOf s r).opened).take 17 } s)

/-! ### Gates (R161, R164, R166) -/

/-- Position of the present in a channel's running cycle, in ns. -/
def gatePos (s : State) (c : ChanFs) : Nat :=
  (((now s : Int) - c.start) % ((4 * cycleOf c.running : Nat) : Int)).toNat

/-- The list turned so that the entry at a position (in ns) comes first, and the ns left of it. -/
def entryAt : List GateEntry → List GateEntry → Nat → List GateEntry × Nat
  | seen, [], _ => (seen.reverse, 0)
  | seen, e :: t, pos =>
    if pos < 4 * e.dur then (e :: t ++ seen.reverse, 4 * e.dur - pos)
    else entryAt (e :: seen) t (pos - 4 * e.dur)

/-- ns that consecutive open entries add. -/
def openAhead (x : Nat) : List GateEntry → Nat
  | [] => 0
  | e :: t => if opens x e then 4 * e.dur + openAhead x t else 0

/-- The ns of a run that no entry of the list ends. -/
def endlessRun : Nat := 2 ^ 64

/-- ns for which a class set stays open from now, ending at a pending takeover (R164); none: closed. -/
def openLeft (s : State) (c : ChanFs) (x : Nat) : Option Nat :=
  let e := entryAt [] c.running (gatePos s c)
  match e.1 with
  | [] => none
  | h :: t =>
    if !opens x h then none
    else
      let n := if c.running.all (opens x) then endlessRun else e.2 + openAhead x t
      some (if c.arm = .pending then min n (c.armT - now s) else n)

/-! ### The choice of R163 -/

/-- The first unissued request of a raster for a channel and class, in line order. -/
def firstFor (s : State) (r n cls : Nat) : Option LineReq :=
  ((fetchWindow s r).flatMap (unissued s r)).find? fun q => q.cls == cls && channelOf s q.addr == n

/-- A raster fetches: it runs, or its lead-in runs. -/
def fetching (s : State) (r : Nat) : Bool := (fsOf s r).active

/-- What raster r offers channel n in class C0: the request and whether it is green (R179). -/
def offer0 (s : State) (r n : Nat) : Option (LineReq × Bool) :=
  let f := refill s (fsOf s r)
  if fetching s r && decide (256 * 65536 ≤ f.bp) && lrCredit s r then
    (firstFor s r n 0).map fun q => (q, decide (256 * 65536 ≤ f.bc))
  else none

/-- Rasters in round robin from a position. -/
def fromTurn (k : Nat) : List Nat := (List.range 16).map fun i => (k + i) % 16

/-- The C0 request that goes: green first, rasters in turn. -/
def choose0 (s : State) (n : Nat) : Option (Nat × LineReq × Bool) :=
  let os := (fromTurn (chanFsOf s n).turn).filterMap fun r => (offer0 s r n).map fun o => (r, o.1, o.2)
  match os.find? fun o => o.2.2 with
  | some o => some o
  | none => os.head?

/-- What raster r offers channel n in class C1, and since when it has waited: its first request in line order,
when the lead reserve holds a credit for it. -/
def offer1 (s : State) (r n : Nat) : Option (LineReq × Ticks) :=
  if fetching s r && lrCredit s r then
    ((fetchWindow s r).findSome? fun y =>
      ((unissued s r y).find? fun q => q.cls == 1 && channelOf s q.addr == n).map fun q => (q, openedAt s r y))
  else none

/-- The C1 request that goes: the oldest. -/
def choose1 (s : State) (n : Nat) : Option (Nat × LineReq) :=
  let os := (List.range 16).filterMap fun r => (offer1 s r n).map fun o => (r, o)
  (os.foldl (fun (b : Option (Nat × LineReq × Ticks)) o => match b with
    | some c => if o.2.2 < c.2.2 then some o else b
    | none => some o) none).map fun o => (o.1, o.2.1)

/-- Issue a request (R163, R179): it is counted, and its raster's buckets pay for C0. -/
def issueReq (n r : Nat) (q : LineReq) (green : Bool) (s : State) : State :=
  let c := chanFsOf s n
  let s := putChanFs n { c with
    lastIssue := some s.clk.ticks,
    c0req := if q.cls = 0 then (c.c0req + 1) % 2 ^ 64 else c.c0req,
    turn := if q.cls = 0 then (r + 1) % 16 else c.turn } s
  let f := refill s (fsOf s r)
  let f := if q.cls = 0 then
      { f with bp := f.bp - 256 * 65536, bc := if green then f.bc - 256 * 65536 else f.bc }
    else f
  let s := putFs r { f with issued := q.req :: f.issued } s
  let s := { s with fs := { s.fs with flights :=
    s.fs.flights ++ [⟨r, q.req, n, q.cls, s.clk.ticks, false⟩] } }
  settleLine r (countRead q.addr 256 s)

/-- Count the wait of a request for the next open run of its class, once in each run (R164). -/
def guardWait (n r : Nat) (q : FetchReq) (runEnd : Nat) (s : State) : State :=
  let c := chanFsOf s n
  let w : GuardWait := ⟨r, q, runEnd⟩
  if c.guarded.contains w then s
  else
    let live := c.guarded.filter fun e => decide (now s ≤ e.runEnd)
    putChanFs n { c with guard := (c.guard + 1) % 2 ^ 64, guarded := w :: live } s

/-- The requests that rasters offer a channel in a class wait when its open run ends before 8 ns. -/
def guardClass (n : Nat) (left : Option Nat) (offers : List (Nat × LineReq)) (s : State) : State :=
  match left with
  | some l => if 8 ≤ l then s else forAll offers (fun o s => guardWait n o.1 o.2.req (now s + l) s) s
  | none => s

/-- A class may issue now (R164). -/
def mayIssue (left : Option Nat) : Bool := decide (8 ≤ left.getD 0)

/-- One service slot of a channel (R163, R164). -/
def serviceSlot (n : Nat) (s : State) : State :=
  let c := chanFsOf s n
  let slotFree := match c.lastIssue with
    | some t => decide (t + 10 ≤ s.clk.ticks)
    | none => true
  if !slotFree then s
  else
    let left0 := openLeft s c 1
    let left1 := openLeft s c 2
    let all := List.range 16
    let s := guardClass n left0 (all.filterMap fun r => (offer0 s r n).map fun o => (r, o.1)) s
    let s := guardClass n left1 (all.filterMap fun r => (offer1 s r n).map fun o => (r, o.1)) s
    let go0 := if mayIssue left0 then choose0 s n else none
    let go1 := if mayIssue left1 then choose1 s n else none
    match go0, go1 with
    | some (r, q, g), _ => issueReq n r q g s
    | none, some (r, q) => issueReq n r q false s
    | none, none => s

/-! ### Arrival (R183, R188, R193) -/

/-- Upper edges of the latency bins (R193). -/
def latEdges : List Nat := [100, 125, 150, 175, 200, 250, 300, 400, 500, 750, 1000, 1500, 2000, 4000, 8000]

/-- The bin of a latency. -/
def latBin (ns : Nat) : Nat := (latEdges.filter fun e => decide (e ≤ ns)).length

/-- Add 1 to a saturating bin. -/
def bumpBin (l : List Nat) (i : Nat) : List Nat := l.set i (sat 32 (l.getD i 0 + 1))

/-- Count the latency of a request (R184, R193). -/
def noteLatency (n r cls ns : Nat) (s : State) : State :=
  let c := chanFsOf s n
  let b := latBin ns
  let s := putChanFs n { c with hist := bumpBin c.hist b, histMax := max c.histMax (sat 32 ns) } s
  let s := ltrAdd (0x600 + 128 * n + 8 * b) 1 s
  if cls = 0 then putFs r { fsOf s r with frameWorst := max (fsOf s r).frameWorst (sat 16 ns) } s else s

/-- Count a tile that failed to decode (R126). -/
def ftcError (i : Nat) (s : State) : State :=
  let x := surfOf s i
  raise 325 (putSurf i { x with ftcErr := sat 32 (x.ftcErr + 1) } s)

/-- Whether an FTC-L tile of a slot decodes. -/
def tileDecodes (s : State) (x : Surface) (slot tx ty : Nat) : Bool :=
  if x.comp != 1 then true
  else
    let get := slotGet s x slot
    (ftclTile x.format (get ((ty * tilesX (sWidth x) + tx) * 16) 16)
      (get (ftclData (sWidth x) (sHeight x) + ty * x.pitch * 256 + tx * uMax x.format * 256)
        (uMax x.format * 256))).isSome

/-- The descriptor and slot a request of a raster was made for. -/
def reqPane (s : State) (r pane : Nat) : Desc × Option Nat :=
  let c := crystalOf s r
  if c.pane = some pane then (activeDesc s pane, c.slot.map (·.2))
  else (activeDesc s pane, paneSlot s pane)

/-- Where a request of a pane lies. -/
def reqAddr (s : State) (d : Desc) (slot : Nat) (q : FetchReq) : Nat :=
  let x := surfOf s (dSurface d)
  slotAddr x slot + (unitOffsets x d q.row).getD q.k 0

/-- Data of a request arrive, or it ends without data (R183, R188, R190). `ok` false: an uncorrectable
error, as the environment reports; a sector known to hold one, a fenced channel, an INVALID slot and a tile
that fails to decode are found here. -/
def arrive (r : Nat) (q : FetchReq) (ok : Bool) (s : State) : State :=
  match findPos (fun (x : FetchFlight) => x.raster == r && x.req == q) s.fs.flights with
  | none => s
  | some i =>
    match s.fs.flights[i]? with
    | none => s
    | some x =>
      let s := { s with fs := { s.fs with flights := dropAt s.fs.flights i } }
      let pd := reqPane s r q.pane
      let sf := surfOf s (dSurface pd.1)
      let slot := pd.2.getD 0
      let perTile := uMax sf.format + 1
      let tx := dSX pd.1 / 32 + q.k / perTile
      let tileOk := sf.comp != 1 || tileDecodes s sf slot tx q.row
      let bad := !ok || fenced s x.channel || (slotOf sf slot).invalid
        || sectorBad s (reqAddr s pd.1 slot q) 256
      let s := if !tileOk && !bad && q.k % perTile == 0 then ftcError (dSurface pd.1) s else s
      if bad || !tileOk then s
      else
        let s := noteLatency x.channel r x.cls ((s.clk.ticks - x.issued) * 4 / 5) s
        let f := fsOf s r
        if x.old then s else putFs r { f with arrived := q :: f.arrived } s

end Sys2Proof.Machine
end

