-- ==== Sys2Proof/Machine/Half.lean ====
section
/-! DEFINITION. Arithmetic of the pane pipeline and the output stage (R209, R243): binary16 codes,
exact fractions, and rounding to binary16 and binary32 to nearest with ties to even. -/
namespace Sys2Proof.Machine
open Sys2Proof

/-- An exact fraction n / d; d is above 0. It is not kept in lowest terms. -/
structure Fr where
  n : Int
  d : Nat
  deriving DecidableEq, Repr

def Fr.ofInt (i : Int) : Fr := ⟨i, 1⟩
def Fr.add (a b : Fr) : Fr := if a.d = b.d then ⟨a.n + b.n, a.d⟩ else ⟨a.n * b.d + b.n * a.d, a.d * b.d⟩
def Fr.neg (a : Fr) : Fr := ⟨-a.n, a.d⟩
def Fr.sub (a b : Fr) : Fr := a.add b.neg
def Fr.mul (a b : Fr) : Fr := ⟨a.n * b.n, a.d * b.d⟩
/-- a / k for k above 0. -/
def Fr.divNat (a : Fr) (k : Nat) : Fr := ⟨a.n, a.d * k⟩
/-- a / b for b above 0. -/
def Fr.div (a b : Fr) : Fr := if b.n < 0 then ⟨-a.n * b.d, a.d * b.n.natAbs⟩ else ⟨a.n * b.d, a.d * b.n.natAbs⟩
def Fr.lt (a b : Fr) : Bool := decide (a.n * b.d < b.n * a.d)
def Fr.floor (a : Fr) : Int := a.n / (a.d : Int)
def Fr.min (a b : Fr) : Fr := if b.lt a then b else a
def Fr.max (a b : Fr) : Fr := if a.lt b then b else a
/-- Clamp to 0 to 1. -/
def Fr.clamp01 (a : Fr) : Fr := (a.max ⟨0, 1⟩).min ⟨1, 1⟩

/-- a / b rounded to nearest, ties to even. -/
def rne (a b : Nat) : Nat :=
  let q := a / b
  let r := a % b
  if b < 2 * r || (2 * r == b && q % 2 == 1) then q + 1 else q

/-- An integer fraction rounded to nearest, ties to even. -/
def Fr.round (a : Fr) : Int :=
  let m := rne a.n.natAbs a.d
  if a.n < 0 then -(m : Int) else m

/-- a·2^k / d as numerator and denominator, for a signed k. -/
def scaled (a d : Nat) (k : Int) : Nat × Nat :=
  if 0 ≤ k then (a * 2 ^ k.toNat, d) else (a, d * 2 ^ (-k).toNat)

/-- floor(log2 (a / d)) for a and d above 0. -/
def log2Frac (a d : Nat) : Int :=
  let l : Int := (Nat.log2 a : Int) - Nat.log2 d
  let s := scaled a d (-l)
  if s.2 ≤ s.1 then l else l - 1

/-- The binary16 code nearest a fraction, ties to even. -/
def toHalf (x : Fr) : Nat :=
  let a := x.n.natAbs
  if a = 0 then 0
  else
    let e := log2Frac a x.d
    let c :=
      if e < -14 then
        let s := scaled a x.d 24
        rne s.1 s.2
      else
        let s := scaled a x.d (10 - e)
        (e + 14).toNat * 1024 + rne s.1 s.2
    let c := min c 31744
    if x.n < 0 then c + 32768 else c

/-- A fraction rounded to binary32, ties to even; no value of the pipeline leaves binary32's range. -/
def toSingle (x : Fr) : Fr :=
  let a := x.n.natAbs
  if a = 0 then ⟨0, 1⟩
  else
    let e := log2Frac a x.d
    let k : Int := max (e - 23) (-149)
    let s := scaled a x.d (-k)
    let m : Int := rne s.1 s.2
    let m := if x.n < 0 then -m else m
    if 0 ≤ k then ⟨m * 2 ^ k.toNat, 1⟩ else ⟨m, 2 ^ (-k).toNat⟩

/-- A number, an infinity or no number. -/
inductive Fl where
  | fin (x : Fr)
  | inf (neg : Bool)
  | nan
  deriving DecidableEq, Repr

/-- The value of a binary16 code. -/
def halfVal (c : Nat) : Fl :=
  let neg := tbit c 15
  let e := bits c 14 10
  let m := bits c 9 0
  if e = 31 then (if m = 0 then .inf neg else .nan)
  else
    let v : Nat := if e = 0 then m else (1024 + m) * 2 ^ (e - 1)
    .fin ⟨if neg then -(v : Int) else v, 16777216⟩

/-- The binary16 code of a value. -/
def halfOf : Fl → Nat
  | .fin x => toHalf x
  | .inf neg => if neg then 0xFC00 else 0x7C00
  | .nan => 0x7E00

/-- Round to binary32. -/
def Fl.single : Fl → Fl
  | .fin x => .fin (toSingle x)
  | v => v

/-- Sum. -/
def Fl.add : Fl → Fl → Fl
  | .fin a, .fin b => .fin (a.add b)
  | .nan, _ => .nan
  | _, .nan => .nan
  | .inf a, .inf b => if a = b then .inf a else .nan
  | .inf a, .fin _ => .inf a
  | .fin _, .inf b => .inf b

/-- Product. -/
def Fl.mul : Fl → Fl → Fl
  | .fin a, .fin b => .fin (a.mul b)
  | .nan, _ => .nan
  | _, .nan => .nan
  | .inf a, .inf b => .inf (a != b)
  | .inf a, .fin b => if b.n = 0 then .nan else .inf (a != decide (b.n < 0))
  | .fin a, .inf b => if a.n = 0 then .nan else .inf (b != decide (a.n < 0))

/-- Negation. -/
def Fl.neg : Fl → Fl
  | .fin a => .fin a.neg
  | .inf a => .inf (!a)
  | .nan => .nan

/-- Clamp to 0 to 1; no number stays no number. -/
def Fl.clamp01 : Fl → Fl
  | .fin a => .fin a.clamp01
  | .inf neg => .fin ⟨if neg then 0 else 1, 1⟩
  | .nan => .nan

/-- 1.0. -/
def one16 : Nat := 0x3C00

/-- Product of two codes, rounded. -/
def hMul (a b : Nat) : Nat := halfOf ((halfVal a).mul (halfVal b))
/-- Sum of two codes, rounded. -/
def hAdd (a b : Nat) : Nat := halfOf ((halfVal a).add (halfVal b))
/-- 1 − a, rounded. -/
def hOneMinus (a : Nat) : Nat := halfOf ((Fl.fin ⟨1, 1⟩).add (halfVal a).neg)
/-- Clamp a code to 0 to 1. -/
def hClamp (a : Nat) : Nat := halfOf (halfVal a).clamp01
/-- A product with an exact coefficient, in binary32. -/
def termOf (c : Fr) (h : Nat) : Fl := ((Fl.fin c).mul (halfVal h)).single
/-- A sum of terms in binary32, in the order listed, rounded to binary16 (R243;
DEDUCED, notes/assumptions/31.md). -/
def sumTerms (l : List Fl) : Nat := halfOf (l.foldl (fun a b => (a.add b).single) (.fin ⟨0, 1⟩))

/-- Decode by an ITF LUT (R260): linear interpolation between entries. -/
def lutDecode (lut : Nat → Nat) (v : Nat) : Nat :=
  match halfVal v with
  | .nan => v
  | f =>
    match f.clamp01 with
    | .fin c =>
      let x := c.mul ⟨1023, 1⟩
      let i := x.floor.toNat
      if 1023 ≤ i then lut 1023
      else
        let fr := x.sub (Fr.ofInt i)
        match halfVal (lut i), halfVal (lut (i + 1)) with
        | .fin a, .fin b => toHalf (a.add (fr.mul (b.sub a)))
        | _, _ => lut i
    | _ => v

end Sys2Proof.Machine
end

