-- ==== Sys2Proof/Machine/Curves.lean ====
section
/-! DEFINITION. The built-in transfer functions (R243, R259, R261): their formulas evaluated in fixed point, and the
binary16 values that a device may return for them. -/
namespace Sys2Proof.Machine
open Sys2Proof

/-! ### Fixed point: integers that count 2^−96 -/

/-- 1. -/
def fxOne : Nat := 2 ^ 96
/-- A fraction. -/
def fxOf (n d : Nat) : Nat := n * fxOne / d
/-- A product. -/
def fxMul (a b : Nat) : Nat := a * b / fxOne
/-- A quotient. -/
def fxDiv (a b : Nat) : Nat := a * fxOne / b

/-- z + z³/3 + z⁵/5 + …: n terms from the term p of index k on. -/
def atanhSum (zz : Nat) : Nat → Nat → Nat → Nat
  | 0, _, _ => 0
  | n + 1, k, p => p / (2 * k + 1) + atanhSum zz n (k + 1) (fxMul p zz)

/-- ln x for x from 1 to 2: 2 artanh ((x − 1) / (x + 1)). -/
def lnSmall (x : Nat) : Nat :=
  let z := fxDiv (x - fxOne) (x + fxOne)
  2 * atanhSum (fxMul z z) 40 0 z

/-- ln 2. -/
def fxLn2 : Nat := lnSmall (2 * fxOne)

/-- ln x for x above 0, as a signed count. -/
def fxLn (x : Nat) : Int :=
  let e : Int := (Nat.log2 x : Int) - 96
  let m := if 0 ≤ e then x / 2 ^ e.toNat else x * 2 ^ (-e).toNat
  e * fxLn2 + lnSmall m

/-- 1 + r + r²/2 + …: n terms from the term p of index k on. -/
def expSum (r : Nat) : Nat → Nat → Nat → Nat
  | 0, _, _ => 0
  | n + 1, k, p => p + expSum r n (k + 1) (fxMul p r / (k + 1))

/-- e^y. -/
def fxExp (y : Int) : Nat :=
  let k := y / (fxLn2 : Int)
  let v := expSum (y - k * fxLn2).toNat 32 0 fxOne
  if 0 ≤ k then v * 2 ^ k.toNat else v / 2 ^ (-k).toNat

/-- x^(n/d); 0 for x = 0. -/
def fxPow (x n d : Nat) : Nat := if x = 0 then 0 else fxExp (fxLn x * n / d)

/-! ### The formulas of R259, of values at or above 0 -/

/-- BT709: V^2.4. -/
def bt709Decode (v : Nat) : Nat := fxPow v 12 5
/-- The inverse of BT709. -/
def bt709Encode (l : Nat) : Nat := fxPow l 5 12

/-- SRGB. -/
def srgbDecode (v : Nat) : Nat :=
  if v * 100000 ≤ 4045 * fxOne then v * 100 / 1292 else fxPow ((v * 1000 + 55 * fxOne) / 1055) 12 5
/-- The inverse of SRGB. -/
def srgbEncode (l : Nat) : Nat :=
  if l ≤ srgbDecode (fxOf 4045 100000) then l * 1292 / 100 else fxPow l 5 12 * 1055 / 1000 - fxOf 55 1000

/-- PQ: SMPTE ST 2084, whose constants are m1 2610/16384, m2 2523/32, c1 3424/4096, c2 2413/128 and c3 2392/128; L is
in units of 100 cd/m². -/
def pqDecode (v : Nat) : Nat :=
  let t := fxPow v 32 2523
  100 * fxPow (fxDiv (t - fxOf 3424 4096) (fxOf 2413 128 - 2392 * t / 128)) 8192 1305
/-- The inverse of PQ. -/
def pqEncode (l : Nat) : Nat :=
  let t := fxPow (l / 100) 1305 8192
  fxPow (fxDiv (fxOf 3424 4096 + 2413 * t / 128) (fxOne + 2392 * t / 128)) 2523 32

/-- The constant a of BT.2100 HLG. -/
def hlgA : Nat := fxOf 17883277 100000000
/-- b = 1 − 4a. -/
def hlgB : Nat := fxOne - 4 * hlgA
/-- c = 0.5 − a ln 4a, which is above 0. -/
def hlgC : Nat := ((fxOne / 2 : Nat) - fxLn (4 * hlgA) * hlgA / fxOne).toNat

/-- HLG: ten times the inverse OETF. -/
def hlgDecode (v : Nat) : Nat :=
  if 2 * v ≤ fxOne then 10 * fxMul v v / 3
  else 10 * (fxExp (((v : Int) - hlgC) * fxOne / hlgA) + hlgB) / 12
/-- The inverse of HLG. -/
def hlgEncode (l : Nat) : Nat :=
  let e := l / 10
  if 12 * e ≤ fxOne then fxPow (3 * e) 1 2
  else (fxLn (12 * e - hlgB) * hlgA / fxOne + hlgC).toNat

/-- The decoding function of a code. -/
def curveDecode (code v : Nat) : Nat :=
  match code with
  | 1 => bt709Decode v
  | 2 => srgbDecode v
  | 3 => pqDecode v
  | 4 => hlgDecode v
  | _ => v

/-- The encoding function of a code. -/
def curveEncode (code l : Nat) : Nat :=
  match code with
  | 1 => bt709Encode l
  | 2 => srgbEncode l
  | 3 => pqEncode l
  | 4 => hlgEncode l
  | _ => l

/-! ### What a device returns (R243, R261) -/

/-- A binary16 code is within 0.1 % or 2^−14 of a value, whichever is wider. -/
def nearCurve (x : Nat) (c : Nat) : Bool :=
  match halfVal c with
  | .fin y =>
    let d := (y.sub ⟨x, fxOne⟩)
    decide (d.n.natAbs * 1000 * fxOne ≤ x * d.d ∨ d.n.natAbs * 16384 ≤ d.d)
  | _ => false

/-- The value returned for an exact one: the device's own where R243 allows it, which is not fixed (DESIGN CHOICE,
notes/assumptions/30.md), else the nearest. -/
def allowedHalf (x free : Nat) : Nat :=
  if free < 32768 ∧ nearCurve x free then free else toHalf ⟨x, fxOne⟩

/-- A built-in function on a binary16 code: odd, its input held to a bound (R261). LINEAR is exact; what it makes of no
number is not stated. -/
def oddTf (curve free : Nat → Nat) (linear : Bool) (bound v : Nat) : Nat :=
  let a := v % 32768
  let r := match halfVal a with
    | .nan => if linear then a else free a % 32768
    | .inf _ => if linear then toHalf ⟨bound, fxOne⟩ else allowedHalf (curve bound) (free a)
    | .fin y =>
      let x := min bound (fxOf y.n.toNat y.d)
      if linear then toHalf ⟨x, fxOne⟩ else allowedHalf (curve x) (free a)
  if tbit v 15 then r + 32768 else r

/-- 1.5. -/
def tfBound : Nat := 3 * fxOne / 2

/-- Decode by a built-in function, code 0 to 4 (R259, R261). -/
def tfDecode (code v : Nat) : Nat := oddTf (curveDecode code) (Config.decodeTf code) (code == 0) tfBound v
/-- Encode by a built-in function: its input is held to what encodes to 1.5 (R259, R261). -/
def tfEncode (code l : Nat) : Nat :=
  oddTf (curveEncode code) (Config.encodeTf code) (code == 0) (curveDecode code tfBound) l

end Sys2Proof.Machine
end

