-- ==== Sys2Proof/Machine/Pixels.lean ====
section
/-! DEFINITION. The pane pipeline of one pixel (R242 to R262): pre-reduction, range, chroma, filters,
matrices, transfer functions and the blend domain. -/
namespace Sys2Proof.Machine
open Sys2Proof

/-- What forms the pixels of one pane of a raster. -/
structure PaneCtx where
  st   : State
  r    : Nat
  d    : Desc
  sf   : Surface
  slot : Nat
  taps : Nat               -- vertical taps it runs at
  wtf  : Nat
  lin  : Bool              -- the scene blends in linear light
  itf  : Nat

/-- Bytes of the slot. -/
def PaneCtx.get (c : PaneCtx) : SlotRead := slotGet c.st c.sf c.slot

/-- A raw sample of component k in that component's own grid; a tile that does not decode is late data
and never reaches the pipeline. -/
def PaneCtx.raw (c : PaneCtx) (k x y : Nat) : Nat := (sampleAt c.get c.sf k x y).getD 0

/-! ### Stages 1 to 4 -/

/-- Chroma component of a Y, Cb, Cr format. -/
def isChroma (f k : Nat) : Bool := isYcc f && (k == 1 || k == 2)

/-- Stage 3: an integer component, perhaps with fraction bits, as binary16 (R245). -/
def normalise (f k : Nat) (narrow : Bool) (v : Fr) : Nat :=
  let d := ((fmtComps f)[k]?.getD ⟨8, 0⟩).depth
  let full : Nat := 2 ^ d - 1
  let u : Nat := 2 ^ (d - 8)
  if k = 3 then toHalf (v.divNat full)
  else if isChroma f k then
    (if narrow then toHalf ((v.sub ⟨(128 * u : Nat), 1⟩).divNat (224 * u)) else toHalf ((v.sub ⟨2 ^ (d - 1), 1⟩).divNat full))
  else if narrow then toHalf ((v.sub ⟨(16 * u : Nat), 1⟩).divNat (219 * u))
  else toHalf (v.divNat full)

/-- The mean of samples as stage 3 takes it: one sample exactly, several rounded to 4 fraction bits
(R245). RGBA16F samples give the mean of their values, rounded to binary16. -/
def meanNorm (f k : Nat) (narrow : Bool) (l : List Nat) : Nat :=
  let n := l.length
  if f = 5 then
    if n = 1 then l.headD 0
    else halfOf ((l.foldl (fun (a : Fl) v => a.add (halfVal v)) (Fl.fin ⟨0, 1⟩)).mul (.fin ⟨1, n⟩))
  else if n = 1 then normalise f k narrow ⟨l.headD 0, 1⟩
  else normalise f k narrow ⟨(rne (16 * sumOf l) n : Nat), 16⟩

/-- Horizontal pre-reduction factor. -/
def facH (d : Desc) : Nat := 2 ^ (if isVideo d then dPreH d else 0)

/-- Surface lines that reduced row j reads of component k. -/
def PaneCtx.lines (c : PaneCtx) (k j : Nat) : List Nat :=
  let ls := (rowLines c.d j).map (dSY c.d + ·)
  if ((fmtComps c.sf.format)[k]?.getD ⟨8, 0⟩).grid = 2 then (ls.map (· / 2)).eraseDups else ls

/-- The mean over the given columns and the lines of reduced row j. -/
def PaneCtx.mean (c : PaneCtx) (k j : Nat) (cols : List Nat) : Nat :=
  meanNorm c.sf.format k (dNarrow c.d)
    ((c.lines k j).flatMap fun y => cols.map fun x => c.raw k x y)

/-- Chroma sample i of reduced row j, with the index clamped to the source span (R249). -/
def PaneCtx.chroma (c : PaneCtx) (k j : Nat) (i : Int) : Nat :=
  let lo : Int := dSX c.d / 2
  let hi : Int := (dSX c.d + dSW c.d - 1) / 2
  c.mean k j [(max lo (min hi i)).toNat]

/-- A weighted mean of two chroma samples. -/
def mix (wa a wb b : Nat) : Nat :=
  sumTerms [termOf ⟨wa, wa + wb⟩ a, termOf ⟨wb, wa + wb⟩ b]

/-- Component k of reduced pixel i of reduced row j, after stage 4. -/
def PaneCtx.comp (c : PaneCtx) (k i j : Nat) : Nat :=
  let d := c.d
  let fh := facH d
  let f := c.sf.format
  if isChroma f k && (is422 f || is420 f) then
    if 1 < fh then
      let lo := (dSX d + fh * i) / 2
      let hi := (dSX d + dSW d - 1) / 2
      c.mean k j (((List.range (fh / 2)).map (lo + ·)).filter fun x => x = lo || x ≤ hi)
    else
      let x := dSX d + i
      let h : Int := (x / 2 : Nat)
      if dChromaSite d = 0 then
        if x % 2 = 0 then c.chroma k j h else mix 1 (c.chroma k j h) 1 (c.chroma k j (h + 1))
      else if x % 2 = 0 then mix 1 (c.chroma k j (h - 1)) 3 (c.chroma k j h)
      else mix 3 (c.chroma k j h) 1 (c.chroma k j (h + 1))
  else
    let n := min fh (dSW d - fh * i)
    c.mean k j ((List.range n).map (dSX d + fh * i + ·))

/-! ### Alpha, key and premultiplication -/

/-- A raw component as 10 bits (R208). -/
def keyBits (depth v : Nat) : Nat :=
  if depth = 8 then v * 4 + v / 64 else if 10 ≤ depth then v / 2 ^ (depth - 10) else v

/-- The colour key matches at reduced pixel (i, j) of a GRAPHIC pane (R208). -/
def PaneCtx.keyed (c : PaneCtx) (i j : Nat) : Bool :=
  dType c.d == 1 && dKeyEn c.d &&
    (let dep := fmtDepth c.sf.format
     let at_ := fun k => keyBits dep (c.raw k (dSX c.d + i) (dSY c.d + j))
     let w := colourWord (dKey c.d)
     at_ 0 == w.1 && at_ 1 == w.2.1 && at_ 2 == w.2.2)

/-- Per-pixel alpha before filtering (R208). -/
def PaneCtx.alpha (c : PaneCtx) (i j : Nat) : Nat :=
  if c.keyed i j then 0
  else if (dAlphaMode c.d == 1 || dAlphaMode c.d == 2) && hasAlpha c.sf.format then c.comp 3 i j
  else one16

/-- Red, green, blue (or Y, Cb, Cr) and alpha of a reduced pixel after stage 5. -/
def PaneCtx.reduced (c : PaneCtx) (i j : Nat) : List Nat :=
  let a := c.alpha i j
  let v := (List.range 3).map fun k => c.comp k i j
  (if dAlphaMode c.d = 1 then v.map (hMul · a) else v) ++ [a]

/-! ### Stage 6 -/

/-- A signed 16-bit coefficient of a table. -/
def coef (b : List Byte) (off : Nat) : Int := sint 16 (rd b off 2)

/-- Weighted sum of four-component pixels: coefficients in units of 1/unit, binary32 sums, binary16
result. -/
def weigh (unit : Nat) (l : List (Int × List Nat)) : List Nat :=
  (List.range 4).map fun k => sumTerms (l.map fun e => termOf ⟨e.1, unit⟩ (e.2.getD k 0))

/-- Weights of a vertical filter at t taps with the offset of the first row from the centre (R252,
R255). -/
def foldWeights (cs : List Int) (t : Nat) : Int × List Int :=
  let g := fun i => cs.getD i 0
  if t = 6 then (-2, [g 0, g 1, g 2, g 3, g 4, g 5])
  else if t = 4 then (-1, [g 0 + g 1, g 2, g 3, g 4 + g 5])
  else if t = 2 then (0, [g 0 + g 1 + g 2, g 3 + g 4 + g 5])
  else (0, [1024])

/-- The phase index of an accumulator value. -/
def phaseBits (s : Int) : Nat := ((s / 2 ^ 18) % 64).toNat

/-- Vertical filter: reduced column i of the output line y' of the rectangle. -/
def PaneCtx.column (c : PaneCtx) (y i : Nat) : List Nat :=
  if !isVideo c.d then c.reduced i y
  else
    let s := vPhase c.d y
    let bank := tableBytes c.st c.r 1 (dVBank c.d)
    let p := phaseBits s
    let w := foldWeights ((List.range 6).map fun k => coef bank (12 * p + 2 * k)) c.taps
    let ctr := s / 2 ^ 24
    weigh 1024 ((List.range w.2.length).map fun k =>
      (w.2.getD k 0, c.reduced i (clampRow (redH c.d) (ctr + w.1 + k))))

/-- Horizontal filter: output column x' of line y' of the rectangle (R251, R252). -/
def PaneCtx.filtered (c : PaneCtx) (x y : Nat) : List Nat :=
  let d := c.d
  if !isVideo d || (redW d == dW d && dHPhase d == 0) then c.column y x
  else
    let s := phaseAt (redW d) (dW d) (hAdj d) x
    let bank := tableBytes c.st c.r 0 (dHBank d)
    let p := phaseBits s
    let ctr := s / 2 ^ 24
    weigh 1024 ((List.range 8).map fun k =>
      (coef bank (16 * p + 2 * k), c.column y (clampRow (redW d) (ctr - 3 + k))))

/-! ### Stages 7 to 12 -/

/-- a is at least 2^−10. -/
def alphaDivides (a : Nat) : Bool := decide (0x1400 ≤ a)

/-- Stage 7 for one component: divide by a clamped alpha (R256). -/
def unmultiply (v a : Nat) : Nat :=
  if alphaDivides a then
    match halfVal v, halfVal a with
    | .fin x, .fin y => toHalf (x.div y)
    | w, _ => halfOf w
  else 0

/-- A matrix row in S3.12 applied to three components, with an offset (R257). -/
def matRow (e : Nat → Int) (off : Option Int) (v : List Nat) : Nat :=
  sumTerms ((List.range 3).map (fun j => termOf ⟨e j, 4096⟩ (v.getD j 0))
    ++ match off with
      | some o => [Fl.fin ⟨o, 4096⟩]
      | none => [])

/-- Decode by an ITF code (R259, R260): a LUT for codes 8 to 15. -/
def itfDecode (s : State) (r code v : Nat) : Nat :=
  if code < 8 then tfDecode code v
  else
    match copyInUse s r (tblKey 3 (code - 8)) with
    | some t => lutDecode (fun i => rd t.data (2 * i) 2) v
    | none => lutDecode (fun i => toHalf ⟨i, 1023⟩) v

/-- Stage 11 of a pane value (R262). -/
def toDomain (lin : Bool) (wtf v : Nat) : Nat := if lin then v else tfEncode wtf v

/-- A colour word in the blend domain (R262), with a = 1.0. -/
def wordPx (lin : Bool) (wtf w : Nat) : Px :=
  let c := colourWord w
  let f := fun v => let h := toHalf ⟨v, 1023⟩; if lin then tfDecode wtf h else h
  ⟨f c.1, f c.2.1, f c.2.2, one16⟩

/-- The pixel at column x' of line y' of the rectangle, after stage 12, with its per-pixel alpha. -/
def PaneCtx.pixel (c : PaneCtx) (x y : Nat) : Px :=
  let v := c.filtered x y
  let mode := dAlphaMode c.d
  let am := mode == 1 || mode == 2
  let a := if am then hClamp (v.getD 3 0) else v.getD 3 one16
  let rgb := v.take 3
  let rgb := if am then rgb.map (unmultiply · a) else rgb
  let m := tableBytes c.st c.r 2 (dInMatrix c.d)
  let s8 := (List.range 3).map fun i => matRow (fun j => coef m (8 * i + 2 * j)) (some (coef m (8 * i + 6))) rgb
  let s9 := s8.map (itfDecode c.st c.r c.itf)
  let s10 := (List.range 3).map fun i => matRow (fun j => coef m (24 + 6 * i + 2 * j)) none s9
  let s11 := s10.map (toDomain c.lin c.wtf)
  let s12 := if mode = 2 then s11.map (hMul · a) else s11
  ⟨s12.getD 0 0, s12.getD 1 0, s12.getD 2 0, a⟩

/-! ### Borders and blending -/

/-- Column x' and line y' of the rectangle lie in the border (R210). -/
def inBorder (d : Desc) (x y : Nat) : Bool :=
  let b := dBorderW d
  b != 0 && (decide (x < b) || decide (dW d ≤ x + b) || decide (y < b) || decide (dH d ≤ y + b))

/-- The border colour word of a pane in a scene (R210). -/
def borderWord (h : SceneHdr) (d : Desc) : Nat :=
  match dTally d with
  | 1 => h.tally1
  | 2 => h.tally2
  | 3 => h.tally3
  | _ => dBorder d

/-- g of R208: GALPHA / 255. -/
def globalAlpha (d : Desc) : Nat := toHalf ⟨dGalpha d, 255⟩

/-- Blend a pixel over what lies below (R209). `premult`: its colour holds colour × a already. -/
def blendOver (premult : Bool) (g : Nat) (p dst : Px) : Px :=
  let alpha := hMul g p.a
  let k := if premult then g else alpha
  let inv := hOneMinus alpha
  let f := fun c d => hAdd (hMul c k) (hMul d inv)
  ⟨f p.r dst.r, f p.g dst.g, f p.b dst.b, one16⟩

end Sys2Proof.Machine
end

