-- ==== Sys2Proof/Machine/OutStage.lean ====
section
/-! DEFINITION. The output stage of a raster (R263 to R265), the crystal's CRC (R287) and the encodings
of the sinks (R325). -/
namespace Sys2Proof.Machine
open Sys2Proof

/-! ### Steps 1 to 7 -/

/-- A component of a node of the 3D LUT (R264). -/
def lutNode (data : List Byte) (i j k c : Nat) : Fl := halfVal (rd data (8 * (i + 17 * j + 289 * k) + 2 * c) 2)

/-- Insert an axis into a list sorted by fraction, largest first; equal fractions keep their order. -/
def insertAxis (a : Nat × Fr) : List (Nat × Fr) → List (Nat × Fr)
  | [] => [a]
  | b :: t => if b.2.lt a.2 then a :: b :: t else b :: insertAxis a t

/-- Tetrahedral lookup of one component (R264); `v` are clamped values. -/
def lutLookup (data : List Byte) (v : List Fr) (c : Nat) : Nat :=
  let x := v.map (Fr.mul ⟨16, 1⟩)
  let n : List Nat := x.map fun a => min a.floor.toNat 15
  let f := (List.range 3).map fun i => (i, (x.getD i ⟨0, 1⟩).sub (Fr.ofInt (n.getD i 0)))
  let ax := f.foldl (fun l a => insertAxis a l) []
  let at_ := fun (steps : List Nat) =>
    let p := fun (i : Nat) => (n.getD i 0 : Nat) + b2n (steps.contains i)
    lutNode data (p 0) (p 1) (p 2) c
  let a := fun i => (ax.getD i (i, ⟨0, 1⟩)).1
  let fr := fun i => Fl.fin (ax.getD i (i, ⟨0, 1⟩)).2
  let p0 := at_ []
  let p1 := at_ [a 0]
  let p2 := at_ [a 0, a 1]
  let p3 := at_ [0, 1, 2]
  halfOf (((p0.add ((fr 0).mul (p1.add p0.neg))).add ((fr 1).mul (p2.add p1.neg))).add
    ((fr 2).mul (p3.add p2.neg)))

/-- Step 3 for the three clamped components. -/
def stepLut (data : Option (List Byte)) (v : List Nat) : List Nat :=
  let fs := v.map fun c => match halfVal c with
    | .fin x => x
    | _ => ⟨0, 1⟩
  (List.range 3).map fun c => match data with
    | some b => lutLookup b fs c
    | none => 0

/-- The dither table of R265. -/
def ditherTable : List (List Nat) := [[0, 8, 2, 10], [12, 4, 14, 6], [3, 11, 1, 9], [15, 7, 13, 5]]

/-- t of R265 at column x, line y, frame n. -/
def ditherT (mode x y n : Nat) : Fr :=
  let b := (ditherTable.getD (y % 4) []).getD (x % 4) 0
  if mode = 1 then ⟨2 * b + 1, 32⟩
  else if mode = 2 then ⟨2 * ((b + 4 * (n % 4)) % 16) + 1, 32⟩
  else ⟨1, 2⟩

/-- Bits of a DEPTH code. -/
def depthBits (code : Nat) : Nat := 6 + 2 * code

/-- Step 7: the code of a clamped component (R265). -/
def quantise (d : Nat) (t : Fr) (v : Nat) : Nat :=
  match halfVal v with
  | .fin x => min (2 ^ d - 1) ((x.mul ⟨(2 ^ d - 1 : Nat), 1⟩).add t).floor.toNat
  | .inf neg => if neg then 0 else 2 ^ d - 1
  | .nan => Config.nanCode d % 2 ^ d

/-- The codes that a blended pixel leaves the output stage with (R263). -/
def outCodes (o : OutSet) (lut : Option (List Byte)) (lin : Bool) (x y n : Nat) (p : Px) : List Nat :=
  let v := [p.r, p.g, p.b]
  let v := if lin then v.map (tfEncode o.wtf) else v
  let v := v.map hClamp
  let v := if o.lutEn then stepLut lut v else v.map (tfDecode o.wtf)
  let m := fun i => sint 16 (o.matrix.getD i 0)
  let v := (List.range 3).map fun i => matRow (fun j => m (4 * i + j)) (some (m (4 * i + 3))) v
  let v := (v.map (tfEncode o.otf)).map hClamp
  v.map (quantise (depthBits o.depth) (ditherT o.dither x y n))

/-! ### CRC-32 (R287) -/

/-- One bit of the reflected CRC. -/
def crcBit (c : Nat) : Nat := if c % 2 = 1 then Nat.xor (c / 2) 0xEDB88320 else c / 2

/-- One byte. -/
def crcByte (c : Nat) (b : Byte) : Nat :=
  (List.range 8).foldl (fun c _ => crcBit c) (Nat.xor c b.toNat)

/-- Run the register over bytes. -/
def crcRun (c : Nat) (bs : List Byte) : Nat := bs.foldl crcByte c

/-- CRC-32 of a byte list. -/
def crc32 (bs : List Byte) : Nat := Nat.xor (crcRun 0xFFFFFFFF bs) 0xFFFFFFFF

/-! ### Sink encoding (R325) -/

/-- Kr and Kb of a MATRIX code. -/
def krKb (m : Nat) : Fr × Fr :=
  if m = 0 then (⟨299, 1000⟩, ⟨114, 1000⟩)
  else if m = 1 then (⟨2126, 10000⟩, ⟨722, 10000⟩)
  else (⟨2627, 10000⟩, ⟨593, 10000⟩)

/-- Round to nearest and clamp to s bits. -/
def sinkRound (s : Nat) (v : Fr) : Nat := min (2 ^ s - 1) v.round.toNat

def fMul (a b : Fr) : Fr := toSingle (a.mul b)
def fAdd (a b : Fr) : Fr := toSingle (a.add b)
def fSub (a b : Fr) : Fr := toSingle (a.sub b)
def fDiv (a b : Fr) : Fr := toSingle (a.div b)

/-- Y, Cb and Cr of three components in binary32. -/
def toYcc (m : Nat) (v : List Fr) : List Fr :=
  let k := krKb m
  let kr := toSingle k.1
  let kb := toSingle k.2
  let one : Fr := ⟨1, 1⟩
  let z : Fr := ⟨0, 1⟩
  let r := v.getD 0 z
  let g := v.getD 1 z
  let b := v.getD 2 z
  let y := fAdd (fAdd (fMul kr r) (fMul (fSub (fSub one kr) kb) g)) (fMul kb b)
  [y, fDiv (fSub b y) (fMul ⟨2, 1⟩ (fSub one kb)), fDiv (fSub r y) (fMul ⟨2, 1⟩ (fSub one kr))]

/-- A luma or RGB component scaled to s bits. -/
def scaleLuma (narrow : Bool) (s : Nat) (v : Fr) : Fr :=
  if narrow then fMul (fAdd ⟨16, 1⟩ (fMul ⟨219, 1⟩ v)) ⟨(2 ^ (s - 8) : Nat), 1⟩
  else fMul v ⟨(2 ^ s - 1 : Nat), 1⟩

/-- A chroma component scaled to s bits. -/
def scaleChroma (narrow : Bool) (s : Nat) (v : Fr) : Fr :=
  if narrow then fMul (fAdd ⟨128, 1⟩ (fMul ⟨224, 1⟩ v)) ⟨(2 ^ (s - 8) : Nat), 1⟩
  else fAdd (fMul v ⟨(2 ^ s - 1 : Nat), 1⟩) ⟨(2 ^ (s - 1) : Nat), 1⟩

/-- Convert a line of codes of depth d to a sink's encoding: 0 RGB, 1 YCbCr 4:4:4, 2 YCbCr 4:2:2, where
odd columns keep their luma only. -/
def sinkLine (enc mat : Nat) (narrow : Bool) (d s : Nat) (line : List (List Nat)) : List (List Nat) :=
  let v := line.map fun p => p.map fun (c : Nat) => toSingle ⟨(c : Int), 2 ^ d - 1⟩
  if enc = 0 then v.map fun p => p.map fun c => sinkRound s (scaleLuma narrow s c)
  else
    let ycc := (v.map (toYcc mat)).map fun p =>
      [scaleLuma narrow s (p.getD 0 ⟨0, 1⟩), scaleChroma narrow s (p.getD 1 ⟨0, 1⟩),
        scaleChroma narrow s (p.getD 2 ⟨0, 1⟩)]
    if enc = 1 then ycc.map fun p => p.map (sinkRound s)
    else
      let n := ycc.length
      let at_ := fun (i : Nat) k => (ycc.getD (min i (n - 1)) []).getD k ⟨0, 1⟩
      (List.range n).map fun x =>
        let y := sinkRound s (at_ x 0)
        if x % 2 = 1 then [y]
        else
          let c := fun k => sinkRound s (fDiv (fAdd (fAdd (at_ (x - 1) k) (fMul ⟨2, 1⟩ (at_ x k)))
            (at_ (x + 1) k)) ⟨4, 1⟩)
          [y, c 1, c 2]

end Sys2Proof.Machine
end

