-- ==== Sys2Proof/Machine/DescCheck.lean ====
section
/-! DEFINITION. Validity of a pane descriptor (R202 to R204, R223, R245 to R248, R259), AUTO (R247). -/
namespace Sys2Proof.Machine
open Sys2Proof

/-- Formats of a GRAPHIC pane (R204). -/
def graphicFormat (f : Nat) : Bool := decide (1 ≤ f ∧ f ≤ 5)

/-- A pre-reduction exponent is valid for a source and a destination size (R246). -/
def preOk (e src dst : Nat) : Bool := e == 0 || (decide (e ≤ 4) && decide (dst ≤ cdiv src (2 ^ e)))

/-- The largest exponent that R246 allows. -/
def autoPre (src dst : Nat) : Nat := (([4, 3, 2, 1].find? fun e => preOk e src dst)).getD 0

/-- Replace AUTO (R247): the largest valid value of a VIDEO pane, 0 of a GRAPHIC pane. -/
def resolveAuto (d : Desc) : Desc :=
  let h := if dPreH d = 7 then (if isVideo d then autoPre (dSW d) (dW d) else 0) else dPreH d
  let v := if dPreV d = 7 then (if isVideo d then autoPre (dSH d) (dH d) else 0) else dPreV d
  if dType d = 0 ∨ dType d = 1 then putBytes d 49 (leBytes 1 (h + shl v 3 + shl (dChromaSite d) 6)) else d

/-- Reserved bits of SLOT_PARAM are zero (R223). -/
def slotParamOk (d : Desc) : Bool :=
  match dSlotMode d with
  | 0 => dSlotParam d == 0
  | 1 => decide (dSlotParam d < 1024)
  | 2 => decide (dSlotParam d < 2 ^ 40)
  | _ => true

/-- The fields of a descriptor of pane `id` that break a rule, as (byte offset, broken), in order of
offset. A rule that joins two fields is laid to the source rectangle, or to the field it restricts. -/
def descFaults (s : State) (id : Nat) (d : Desc) : List (Nat × Bool) :=
  let t := dType d
  let x := surfOf s (dSurface d)
  let reads := t == 0 || t == 1
  let am := dAlphaMode d
  [ (0, rd d 0 2 != id),
    (3, rdbit d 3 7 || (dKeyEn d && t != 1)
        || (reads && (am == 3 || (x.valid && (am == 1 || am == 2) && !hasAlpha x.format)))),
    (6, reads && (!x.valid || x.format == 9 || (t == 1 && !graphicFormat x.format))),
    (16, reads && x.valid && decide (sWidth x < dSX d + dSW d)),
    (18, reads && x.valid && decide (sHeight x < dSY d + dSH d)),
    (20, t == 1 && dSW d != dW d),
    (22, t == 1 && dSH d != dH d),
    (24, reads && !slotParamOk d),
    (36, bits (dBackdrop d) 31 30 != 0),
    (40, bits (dBorder d) 31 30 != 0),
    (44, t == 1 && bits (dKey d) 31 30 != 0),
    (49, reads && ((t == 1 && (dPreH d != 0 || dPreV d != 0))
        || (t == 0 && !(preOk (dPreH d) (dSW d) (dW d) && preOk (dPreV d) (dSH d) (dH d)))
        || decide (1 < dChromaSite d))),
    (52, reads && x.valid && x.format == 5 && dNarrow d),
    (53, reads && decide (5 ≤ dItf d ∧ dItf d ≤ 7)),
    (58, !zeroBytes d 58 64) ]

/-- The byte offset of the first invalid field, if any. -/
def descFault (s : State) (id : Nat) (d : Desc) : Option Nat :=
  ((descFaults s id d).find? (·.2)).map (·.1)

/-- The descriptor is valid; a CRYSTAL's rules are those of chapter 07. -/
def descValid (s : State) (id : Nat) (d : Desc) : Bool := dType d == 3 || (descFault s id d).isNone

end Sys2Proof.Machine
end

