-- ==== Sys2Proof/Machine/Flags.lean ====
section
/-! DEFINITION. State words (R95 to R97): the management view and the data-path state of every unit,
their comparison and the DIVERGED mark (R34 to R44). -/
namespace Sys2Proof.Machine
open Sys2Proof

/-- A state word without its mark (R96). -/
def stateWord (code detail : Nat) : Nat := shl code 24 + detail
/-- State code of a word. -/
def wordCode (w : Nat) : Nat := bits w 30 24
/-- Detail of a word. -/
def wordDetail (w : Nat) : Nat := bits w 23 0

/-- Kind and index of a unit reference (R95). -/
def unitKind (u : Nat) : Nat := bits u 31 24
/-- Index of a unit reference. -/
def unitIndex (u : Nat) : Nat := bits u 23 0
/-- Units of each kind of R95; 0 for a kind that does not exist. -/
def unitLimit (k : Nat) : Nat :=
  match k with
  | 1 => 16 | 2 => 16 | 3 => 8 | 4 => 4 | 5 => 4 | 6 => 1024 | _ => 0
/-- The unit exists. -/
def unitOk (u : Nat) : Bool := decide (unitIndex u < unitLimit (unitKind u))

/-! ### Data-path state -/

/-- Data-path word of a raster. -/
def rasterData (s : State) (r : Nat) : Nat :=
  match (rasterOf s r).st with
  | .stopped => stateWord 0 0
  | .running => stateWord 1 (sceneOf s r).active.scene
  | .blanked => stateWord 3 0
  | .forced => stateWord 4 0
  | .halted => stateWord 5 0

/-- Data-path word of a memory channel. -/
def chanData (s : State) (n : Nat) : Nat :=
  stateWord (if chanState s n = 0 then 0x10 else if chanState s n = 2 then 0x11 else 0x12) 0

/-- Word of an Ethernet port that is up or down with lanes held. -/
def portWord (up : Bool) (lanes : Nat) : Nat := stateWord (if up then 0x21 else 0x20) (popcount 8 lanes)
/-- Data-path word of an Ethernet port. -/
def portData (s : State) (p : Nat) : Nat := portWord (ethOf s p).up (ethOf s p).lanes

/-- Word of a link that is up or down with a lane count. -/
def linkWord (up : Bool) (n : Nat) : Nat := stateWord (if up then 0x31 else 0x30) n
/-- Data-path word of a Cririk link. -/
def linkData (s : State) (k : Nat) : Nat := linkWord (linkOf s k).up (popcount 16 (linkOf s k).laneMap)

/-- Detail of a DisplayPort word. -/
def dpDetail (lanes rate : Nat) : Nat := lanes + shl rate 8
/-- Data-path word of a DisplayPort port. -/
def dpData (s : State) (p : Nat) : Nat :=
  let d := dpOf s p
  if !d.hpd then stateWord 0x40 0
  else stateWord (if d.trained then 0x42 else 0x41) (dpDetail d.tLanes d.tRate)

/-- An egress flow is SENDING (R374). -/
def flowSending (s : State) (f : Nat) : Bool :=
  let e := egressOf s f
  e.cfg.kind != 0 && (ethOf s e.cfg.port).up && !e.stopped
/-- Data-path word of an egress flow. -/
def flowData (s : State) (f : Nat) : Nat := stateWord (if flowSending s f then 0x51 else 0x50) 0

/-- Data-path state word of a unit. -/
def dataWord (s : State) (u : Nat) : Nat :=
  let i := unitIndex u
  match unitKind u with
  | 1 => rasterData s i
  | 2 => chanData s i
  | 3 => portData s i
  | 4 => linkData s i
  | 5 => dpData s i
  | _ => flowData s i

/-! ### Management view -/

/-- Whether the raster was last commanded to stop. -/
def commandedStop (x : Raster) : Bool := x.stopping || (x.st == .stopped && !x.waitingStart && !x.leadIn)

/-- The management view of a raster as last commanded: with COMMIT set, the scene that the commit will
take (R37, R44); after a readmission, its result (R43); in orphan hold the active scene (R552). -/
def rasterCommanded (s : State) (r : Nat) : Nat :=
  let x := rasterOf s r
  let c := sceneOf s r
  if commandedStop x then stateWord 0 0
  else if x.orphan then stateWord 2 c.active.scene
  else if x.commit then stateWord 1 c.shadow.scene
  else stateWord 1 (match c.readmit with
    | some m => m.1.scene
    | none => c.active.scene)

/-- Streams that are sent over a DisplayPort port in the management view. -/
def dpStreams (s : State) (p : Nat) : Nat :=
  (s.rg.rasters.filter fun e => match Tbl.find? e.2.sinks 0 with
    | some k => k.port == p
    | none => false).length

/-- The management view that a unit has before any command or adoption. -/
def mgmtReset (u : Nat) : Nat :=
  match unitKind u with
  | 2 => stateWord 0x10 0
  | 3 => stateWord 0x20 0
  | 4 => stateWord 0x30 0
  | 5 => stateWord 0x41 0
  | _ => stateWord 0x50 0

/-- The management view of a unit without its mark. A raster's follows its commands unless RECONCILE has
adopted another state; a DisplayPort port that is not enabled has nothing commanded, and its view
follows the data path (DEDUCED, notes/assumptions/16.md). -/
def mgmtView (s : State) (u : Nat) : Nat :=
  let stored := Tbl.find? s.un.mgmt u
  match unitKind u with
  | 1 => stored.getD (rasterCommanded s (unitIndex u))
  | 5 =>
    let i := unitIndex u
    let w := if (dpOf s i).enabled then stored.getD (mgmtReset u) else dpData s i
    if wordCode w = 0x40 then w else w + shl (dpStreams s i) 16
  | _ => stored.getD (mgmtReset u)

/-- A unit is marked DIVERGED. -/
def isMarked (s : State) (u : Nat) : Bool := (Tbl.find? s.un.marked u).isSome

/-- The management state word of a unit: frozen, with bit 31, while it is marked (R38, R44). -/
def mgmtWord (s : State) (u : Nat) : Nat :=
  match Tbl.find? s.un.marked u with
  | some w => w % 2 ^ 31 + 2 ^ 31
  | none => mgmtView s u

/-- Set the management view of a unit (a command, or firmware itself: R43). -/
def setMgmt (u w : Nat) (s : State) : State :=
  { s with un := { s.un with mgmt := Tbl.set s.un.mgmt u w } }
/-- A raster's management view follows its commands again. -/
def clearMgmt (u : Nat) (s : State) : State :=
  { s with un := { s.un with mgmt := Tbl.del s.un.mgmt u } }

/-! ### Comparison -/

/-- Two states agree (R97). -/
def agree (mgmt data : Nat) : Bool :=
  let c := wordCode mgmt
  if c = 2 then wordCode data == 1 && wordDetail mgmt == wordDetail data
  else if 0x40 ≤ c ∧ c ≤ 0x42 then c == wordCode data && wordDetail mgmt % 65536 == wordDetail data % 65536
  else mgmt == data

/-- A commanded change to a unit is pending (R37): for a raster a commit, a start or a stop; for a port
or a link the bring-up that its command began; for a channel its restart. -/
def changePending (s : State) (u : Nat) : Bool :=
  let i := unitIndex u
  match unitKind u with
  | 1 =>
    let x := rasterOf s i
    x.commit || (sceneOf s i).readmit.isSome || x.waitingStart || x.stopping || x.leadIn
  | 2 => chanState s i == 1
  | 3 => (ethOf s i).coming
  | 4 => (linkOf s i).bringup.isSome
  | 5 => (dpOf s i).training
  | _ => false

/-- The codes of a raster's two views agree, whatever the scene: what is compared while a change is
pending (R37). -/
def codesAgree (mgmt data : Nat) : Bool :=
  wordCode mgmt == wordCode data || (wordCode mgmt == 2 && wordCode data == 1)

/-- A comparison finds a difference (R36 to R38). While firmware re-homes a raster, RUNNING is the state
expected and nothing differs (R309, R43). -/
def differs (s : State) (u : Nat) : Bool :=
  let m := mgmtView s u
  let d := dataWord s u
  let x := rasterOf s (unitIndex u)
  if unitKind u = 1 ∧ (x.rehome = .lost ∨ x.rehome = .rebound) then false
  else if changePending s u then
    unitKind u == 1 && !x.waitingStart && !x.stopping && !x.leadIn && !codesAgree m d
  else !agree m d

/-- A unit is marked DIVERGED and its kind's device source is raised (R38, R509). -/
def markUnit (u : Nat) (s : State) : State :=
  raise (unitKind u) { s with un := { s.un with marked := Tbl.set s.un.marked u (mgmtView s u) } }

/-- Firmware compares a unit's two states; not from P2 entry until the return from P2 completes (R547). -/
def compareUnit (u : Nat) (s : State) : State :=
  if quiesced s || s.pmu.resuming || isMarked s u || !differs s u then s else markUnit u s

/-- Raise a source of a unit's own: firmware compares the unit (R36). -/
def raiseUnit (u n : Nat) (s : State) : State := compareUnit u (raise n s)

/-- Set the state of a memory channel and raise its source when it changes (R113). -/
def setChan (n v : Nat) (s : State) : State :=
  if chanState s n = v then s
  else raiseUnit (unitChan n) (256 + 4 * n) { s with mm := { s.mm with chan := Tbl.set s.mm.chan n v } }

/-- Clear a mark: source 7 (R509). -/
def clearMark (u : Nat) (s : State) : State :=
  if isMarked s u then raise 7 { s with un := { s.un with marked := Tbl.del s.un.marked u } } else s

/-- The management view becomes the data-path state and the mark clears (R41, R42). A raster's view
follows its commands again where they name the state its data path is in. -/
def adoptData (u : Nat) (s : State) : State :=
  let d := dataWord s u
  if unitKind u = 1 && codesAgree (rasterCommanded s (unitIndex u)) d then clearMark u (clearMgmt u s)
  else clearMark u (setMgmt u d s)

end Sys2Proof.Machine
end

