-- ==== Sys2Proof/Machine/Resolve.lean ====
section
/-! DEFINITION. Slot resolution (R222 to R226) with its pins and counters. -/
namespace Sys2Proof.Machine
open Sys2Proof

/-- The lead slice of a raster. -/
def leadSlice (s : State) (r : Nat) : Option Nat := (rasterOf s r).first

/-- Change the lead slice of a raster, when it is bound. -/
def onLead (r : Nat) (f : Slice → Slice) (s : State) : State :=
  match leadSlice s r with
  | some c => putSlice c (f (sliceOf s c)) s
  | none => s

/-- Set a bit of CS_STAT of the lead slice. -/
def setCsStat (r i : Nat) (s : State) : State :=
  match leadSlice s r with
  | some c => noteSet (csStatKey c) i (putSlice c { sliceOf s c with stat := setBit (sliceOf s c).stat i true } s)
  | none => s

/-- Raise source 128 + 4s + k of the lead slice (R237). -/
def raiseSlice (r k : Nat) (s : State) : State :=
  match leadSlice s r with
  | some c => raiseUnit (unitRaster r) (128 + 4 * c + k) s
  | none => s

/-- Slots a resolution may choose: readable before the publishes and claims of this very cycle (R136). -/
def candidates (s : State) (x : Surface) : List Nat :=
  if !x.valid || x.lost then []
  else (slotNums x).filter fun k =>
    (slotReadable (slotOf x k) || claimedNow s x k) && (slotOf x k).pubTick != s.clk.ticks

/-- Age of a slot among the candidates (R223). -/
def slotAge (x : Surface) (l : List Nat) (k : Nat) : Nat :=
  (maxOf (l.map fun j => (slotOf x j).seq) + 2 ^ 32 - (slotOf x k).seq) % 2 ^ 32

/-- The element with the least key, the first of equals. -/
def leastBy (key : Nat → Nat) : List Nat → Option Nat
  | [] => none
  | k :: t => match leastBy key t with
    | some j => if key j < key k then some j else some k
    | none => some k

/-- The latest capture at or below a target, else the earliest with a miss; the smaller age among equal
times (R223). -/
def byCapture (x : Surface) (l : List Nat) (target : Nat) : Option (Nat × Bool) :=
  let key := fun up k =>
    (if up then (slotOf x k).capture else 2 ^ 64 - 1 - (slotOf x k).capture) * 2 ^ 32 + slotAge x l k
  match leastBy (key false) (l.filter fun k => decide ((slotOf x k).capture ≤ target)) with
  | some k => some (k, false)
  | none => (leastBy (key true) l).map fun k => (k, true)

/-- The replay target (R224). -/
def replayTarget (d : Desc) (ft ft0 : Nat) : Nat := min (2 ^ 64 - 1) (dSlotParam d + (ft - ft0) * dRate d / 256)

/-- The slot a descriptor chooses and whether it counts a miss; none when there is no candidate. -/
def chooseSlot (s : State) (d : Desc) (ft ft0 : Nat) : Option (Nat × Bool) :=
  let x := surfOf s (dSurface d)
  let l := candidates s x
  match dSlotMode d with
  | 0 => (leastBy (slotAge x l) l).map fun k => (k, false)
  | 1 =>
    match leastBy (slotAge x l) (l.filter fun k => decide (dSlotParam d ≤ slotAge x l k)) with
    | some k => some (k, false)
    | none => (leastBy (fun k => 2 ^ 32 - slotAge x l k) l).map fun k => (k, true)
  | 2 => byCapture x l (ft - dSlotParam d)
  | _ => byCapture x l (replayTarget d ft ft0)

/-- The newest slot of a surface as a resolution sees it: before a publish of this very cycle (R136). -/
def newestSeen (s : State) (x : Surface) : Option Nat :=
  if x.newest = noSlot then none
  else if (slotOf x x.newest).pubTick != s.clk.ticks then some x.newest
  else leastBy (slotAge x (candidates s x)) (candidates s x)

/-- A pane is stale (R226). -/
def isStale (s : State) (d : Desc) (ft : Nat) : Bool :=
  let x := surfOf s (dSurface d)
  match newestSeen s x with
  | some k => dStaleLimit d != 0 && decide (dStaleLimit d * 1000000 < ft - (slotOf x k).pubTime)
  | none => false

/-- Add n to a 32-bit saturating count. -/
def sat32 (v n : Nat) : Nat := sat 32 (v + n)

/-- Resolve one pane for the frame at FT (R222 to R226, R233); a chosen slot is pinned. -/
def resolvePane (r ft id : Nat) (d : Desc) (s : State) : State :=
  let x := paneRun s id
  if !descValid s id d then putRun id { x with use := .backdrop, stale := false, miss := sat32 x.miss 1 } s
  else if isFill d then putRun id { x with use := .none, stale := false } s
  else
    let replay := dSlotMode d == 3
    let ft0 := x.ft0.getD ft
    let x := { x with ft0 := if replay then some ft0 else x.ft0 }
    match chooseSlot s d ft ft0 with
    | none => putRun id { x with use := .backdrop, stale := false, miss := sat32 x.miss 1 } s
    | some (k, miss) =>
      let stale := isStale s d ft
      let x := { x with miss := sat32 x.miss (b2n miss), staleCnt := sat32 x.staleCnt (b2n stale) }
      let s := if stale && !x.stale then raiseSlice r 3 (setCsStat r 4 s) else s
      if stale && dStaleAct d then putRun id { x with use := .backdrop, stale := true } s
      else pinResolved (dSurface d) k (pinPane id) (putRun id { x with use := .slot k, stale := stale } s)

/-- Pins that the panes of a raster hold: pane, surface and slot. -/
def heldPins (s : State) (r : Nat) : List (Nat × Nat × Nat) :=
  (sceneMembers s.pn.active r).filterMap fun e => match (paneRun s e.1).use with
    | .slot k => some (e.1, dSurface e.2, k)
    | _ => none

/-- Release pins. -/
def releasePins (l : List (Nat × Nat × Nat)) (s : State) : State :=
  forAll l (fun e s => unpinSlot e.2.1 e.2.2 (pinPane e.1) s) s

/-- Forget what the panes of a raster use. -/
def clearUses (ids : List Nat) (s : State) : State :=
  forAll ids (fun id s => putRun id { paneRun s id with use := .none } s) s

/-- Resolve every visible member of a raster's active scene (R222). `old` are the pins of the frame
before, released once the new slots are pinned. -/
def resolveAll (r ft : Nat) (old : List (Nat × Nat × Nat)) (s : State) : State :=
  let s := clearUses (old.map (·.1)) s
  releasePins old (forAll (activeVisible s r) (fun e s => resolvePane r ft e.1 e.2 s) s)

end Sys2Proof.Machine
end

