-- ==== Sys2Proof/Machine/Compose.lean ====
section
/-! DEFINITION. Composing one line of a raster (R188 to R192, R206 to R220, R263) and the crystal's check
(R286 to R291). -/
namespace Sys2Proof.Machine
open Sys2Proof

/-! ### Content of the panes -/

/-- The raster record that holds the tile of scene line y: the raster, or its follower (R305). -/
def tileRec (s : State) (r y : Nat) : Nat := if y < (planTim (rasterOf s r)).vact then r else r + 1

/-- The pipeline of a pane of a raster. -/
def paneCtx (s : State) (r : Nat) (p : LinePane) : PaneCtx :=
  { st := s, r := r, d := p.desc, sf := surfOf s (dSurface p.desc), slot := (paneSlot s p.id).getD 0,
    taps := p.taps, wtf := (outSetOf s r).wtf, lin := (sceneOf s r).active.domain, itf := dItf p.desc }

/-- What a pane contributes to a line: its pixels over its clipped columns, and whether they are
substitutes. -/
structure Content where
  id    : Nat
  px    : List Px
  subst : Bool
  deriving DecidableEq, Repr

/-- A pane's BACKDROP colour over its columns. -/
def backdropRow (s : State) (r n : Nat) (d : Desc) : List Px :=
  List.replicate n (wordPx (sceneOf s r).active.domain (outSetOf s r).wtf (dBackdrop d))

/-- The substitute of R189: the previous line's contribution, or the backdrop colour. -/
def substRow (s : State) (r n : Nat) (d : Desc) (prev : Option (List Px)) : List Px :=
  match prev with
  | some l => if dSubst d then backdropRow s r n d else l
  | none => backdropRow s r n d

/-- The content of a pane on line y; none when it is clipped at every pixel it covers (R219). -/
def formPane (s : State) (r y : Nat) (l : List LinePane) (p : LinePane) : Option Content :=
  let w := (planTim (rasterOf s r)).hact
  let d := p.desc
  let cc := clipCols w d
  let n := cc.2 - cc.1
  if p.bd || isFill d then some ⟨p.id, backdropRow s r n d, false⟩
  else if fullyClipped w l p then none
  else if rowsArrived s r p.id d (lineRows p y) && !(fsOf s r).parity.contains (p.id, y) then
    let c := paneCtx s r p
    let y' := ((y : Int) - dY d).toNat
    some ⟨p.id, (List.range n).map fun (i : Nat) => c.pixel (((cc.1 + i : Nat) : Int) - dX d).toNat y', false⟩
  else
    some ⟨p.id, substRow s r n d (Tbl.find? (rasterOf s (tileRec s r y)).prev p.id), true⟩

/-- The pixel of a pane at column x, its border included (R210). -/
def panePixel (s : State) (r y x : Nat) (d : Desc) (c : Content) : Px :=
  let w := (planTim (rasterOf s r)).hact
  let h := (sceneOf s r).active
  if inBorder d ((x : Int) - dX d).toNat ((y : Int) - dY d).toNat then
    wordPx h.domain (outSetOf s r).wtf (borderWord h d)
  else c.px.getD (x - (clipCols w d).1) ⟨0, 0, 0, 0⟩

/-- Blend the panes of a line at column x over the raster backdrop (R209, R219). -/
def blendColumn (s : State) (r y x : Nat) (l : List LinePane) (cs : List Content) : Px :=
  let h := (sceneOf s r).active
  (blendedAt (planTim (rasterOf s r)).hact x l).foldl (fun dst p =>
    match cs.find? fun c => c.id == p.id with
    | some c => blendOver (dAlphaMode p.desc == 2 && !p.bd && !isFill p.desc) (globalAlpha p.desc)
        (panePixel s r y x p.desc c) dst
    | none => dst) (wordPx h.domain (outSetOf s r).wtf h.backdrop)

/-! ### The crystal -/

/-- The crystal's content on line y (R279, R281): its pixels, and whether they are substitutes. -/
def formCrystal (s : State) (r y : Nat) (d : Desc) : Content :=
  let id := dId d
  let y' := ((y : Int) - dY d).toNat
  match (crystalOf s r).slot with
  | some (sf, k) =>
    if rowsArrived s r id d [y'] && !(fsOf s r).parity.contains (id, y) then
      let o := outSetOf s r
      let c : PaneCtx := { st := s, r := r, d := d, sf := surfOf s sf, slot := k, taps := 1, wtf := o.wtf,
                           lin := (sceneOf s r).active.domain, itf := o.wtf }
      ⟨id, (List.range (dW d)).map fun x => c.pixel x y', false⟩
    else ⟨id, substRow s r (dW d) d (rasterOf s (tileRec s r y)).cryPrev, true⟩
  | none => ⟨id, substRow s r (dW d) d (rasterOf s (tileRec s r y)).cryPrev, true⟩

/-- The effective alphas of a crystal line for the region of R286: of a substituted line those of the
substitute, which are 1.0 where it is the backdrop colour, whatever GALPHA. The blending itself keeps GALPHA,
for R189 leaves a pane's alpha unchanged by substitution (DEDUCED, notes/assumptions/86.md). -/
def cryAlphas (x : Raster) (d : Desc) (c : Content) : List Nat :=
  if !c.subst then c.px.map fun p => hMul (globalAlpha d) p.a
  else if dSubst d || x.cryPrev.isNone then List.replicate (dW d) one16
  else x.cryAlpha

/-- The crystal lies in both tiles. -/
def crySpans (t : Timing) (d : Desc) : Bool := decide (dY d < t.vact ∧ (t.vact : Int) < dY d + dH d)

/-- Start a CRC register at the first line of its part of the rectangle. -/
def cryBegin (s : State) (r y : Nat) (d : Desc) (c : Crystal) : Crystal :=
  let t := (planTim (rasterOf s r))
  let second := crySpans t d && decide (t.vact ≤ y)
  if second then (if y = t.vact then { c with crc := 0, crcLen := 0, crcAny := false, crcSubst := false } else c)
  else if (y : Int) = dY d then { c with crc := 0xFFFFFFFF, crcLen := 0, crcAny := false, crcSubst := false }
  else c

/-- Take the codes of a crystal line into its CRC register (R286). `alphas` are effective alphas. -/
def cryLine (s : State) (r y : Nat) (d : Desc) (subst : Bool) (alphas : List Nat) (codes : List (List Nat)) :
    State :=
  let t := (planTim (rasterOf s r))
  let at_ := if crySpans t d && decide (t.vact ≤ y) then r + 1 else r
  let c := cryBegin s r y d (crystalOf s at_)
  let bytes := (List.range (dW d)).flatMap fun i =>
    if alphas.getD i 0 = one16 then ((codes.getD ((dX d).toNat + i) []).take 3).flatMap (leBytes 2) else []
  putCrystal at_ { c with crc := crcRun c.crc bytes, crcLen := c.crcLen + bytes.length,
                          crcAny := c.crcAny || !bytes.isEmpty, crcSubst := c.crcSubst || subst } s

/-- The CRC of the frame over both parts (R286, R287). -/
def cryValue (s : State) (r : Nat) (spans : Bool) : Nat × Bool :=
  let a := crystalOf s r
  if spans then
    let b := crystalOf s (r + 1)
    let v := Nat.xor (crcRun a.crc (List.replicate b.crcLen 0#8)) b.crc
    (if a.crcAny || b.crcAny then Nat.xor v 0xFFFFFFFF else 0, a.crcSubst || b.crcSubst)
  else (if a.crcAny then Nat.xor a.crc 0xFFFFFFFF else 0, a.crcSubst)

/-- The comparison at the end of the crystal rectangle (R288, R289, R291). -/
def cryCompare (r v : Nat) (subst : Bool) (s : State) : State :=
  let c := { crystalOf s r with last := v }
  if c.learn then
    putCrystal r { c with expect := v, armed := true, learn := false, unchk := sat32 c.unchk 1 } s
  else if !c.armed then putCrystal r { c with unchk := sat32 c.unchk 1 } s
  else if c.action ≠ 0 && v ≠ c.expect then
    let s := noteSet (cryStatKey r) 5 (if subst then noteSet (cryStatKey r) 6 s else s)
    raiseUnit (unitRaster r) (64 + 4 * r + 3) (ltrAdd (0x1000 + 64 * r + 40) 1
      (putCrystal r { c with mismatch := true, mismatched := true, misCnt := sat32 c.misCnt 1,
                             subst := c.subst || subst } s))
  else putCrystal r c s

/-- The comparison is due after tile line y has been composed. -/
def cryDue (t : Timing) (d : Desc) (y : Nat) : Bool :=
  let last := dY d + dH d - 1
  if crySpans t d then y + 1 == t.vact
  else decide ((y : Int) = last ∨ (t.tiles2 ∧ ((y + t.vact : Nat) : Int) = last))

/-- A frame that is not compared because the check is disarmed (R289). -/
def cryUnchecked (r : Nat) (s : State) : State :=
  let c := crystalOf s r
  if c.armed then s else putCrystal r { c with unchk := sat32 c.unchk 1 } s

/-- End the crystal's frame when tile line y was its last (R288). Without a crystal the frame ends with the
raster's last active line, and is not compared (R289; DEDUCED, notes/assumptions/86.md). -/
def cryFinish (r y : Nat) (s : State) : State :=
  let t := (planTim (rasterOf s r))
  match (crystalOf s r).pane with
  | none => if y + 1 = t.vact then cryUnchecked r s else s
  | some id =>
    let d := activeDesc s id
    if (rasterOf s r).st = .halted then (if cryDue t d y then cryUnchecked r s else s)
    else if cryDue t d y then
      let v := cryValue s r (crySpans t d)
      cryCompare r v.1 v.2 s
    else s

/-! ### Counters of a line -/

/-- Note a condition of a line: its CS_STAT bit, and its source at the first such line of the frame
(R221). -/
def noteCond (r bit src : Nat) (s : State) : State :=
  match leadSlice s r with
  | none => s
  | some c =>
    let x := sliceOf s c
    let s := noteSet (csStatKey c) bit s
    let s := putSlice c { x with stat := setBit x.stat bit true, seen := setBit x.seen bit true } s
    if tbit x.seen bit then s else raiseUnit (unitRaster r) (128 + 4 * c + src) s

/-- Change the run record of each listed pane. -/
def eachRun (ids : List Nat) (f : PaneRun → PaneRun) (s : State) : State :=
  forAll ids (fun id s => putRun id (f (paneRun s id)) s) s

/-- Count substituted pane-lines (R191). -/
def countSubst (r : Nat) (ids : List Nat) (s : State) : State :=
  if ids.isEmpty then s
  else
    let f := fsOf s r
    let s := eachRun ids (fun x => { x with subst := sat32 x.subst 1 }) s
    let s := putFs r { f with subst := (f.subst + ids.length) % 2 ^ 64, substSeen := true } s
    let s := ltrAdd (0x1000 + 64 * r) ids.length s
    if f.substSeen then s else raiseUnit (unitRaster r) (224 + r) s

/-- Count what R216 to R219 decided for a line. -/
def countLine (r : Nat) (l : List LinePane) (skipped : List Nat) (s : State) : State :=
  let w := (planTim (rasterOf s r)).hact
  let shed := (l.filter fun p => !p.bd && decide (p.taps < p.full)).map (·.id)
  let deep := (l.filter fun p => depthClipped w l p).map (·.id)
  let pool := (l.filter (·.pool)).map (·.id)
  let s := if shed.isEmpty then s else
    ltrAdd (0x1000 + 64 * r + 8) 1 (noteCond r 0 0 (onLead r (fun x => { x with shed := (x.shed + 1) % 2 ^ 64 })
      (eachRun shed (fun x => { x with tapShed := sat32 x.tapShed 1 }) s)))
  let s := if skipped.isEmpty then s else
    noteCond r 2 1 (onLead r (fun x => { x with fclip := (x.fclip + 1) % 2 ^ 64 })
      (eachRun skipped (fun x => { x with fanout := sat32 x.fanout 1 }) s))
  let s := if pool.isEmpty then s else
    noteCond r 3 2 (onLead r (fun x => { x with lbbd := (x.lbbd + 1) % 2 ^ 64 })
      (eachRun pool (fun x => { x with lbBack := sat32 x.lbBack 1 }) s))
  if deep.isEmpty then s else
    ltrAdd (0x1000 + 64 * r + 16) 1 (noteCond r 1 1 (onLead r (fun x => { x with dclip := (x.dclip + 1) % 2 ^ 64 })
      (eachRun deep (fun x => { x with depth := sat32 x.depth 1 }) s)))

/-- CS_FANOUT and CS_POOL follow a line (R236). -/
def noteFanout (r y : Nat) (s : State) : State :=
  let x := rasterOf s r
  if !composesScene s r then s
  else
    let n := (linePanes s r y).length
    let full := sumOf ((keptPanes s r y).1.map fun p => paneNeed s { p with taps := p.full })
    onLead r (fun c =>
      let c := { c with poolHwm := max c.poolHwm (min full (2 ^ 22 - 1)) }
      if c.frameFanMax < n then { c with frameFanMax := n, frameFanLine := y % (planTim x).vact } else c) s

/-- A new frame's composition begins: the fan-out of the last frame is reported, conditions are forgotten, and
no line of the frame has been composed that REPEAT could repeat (R189). -/
def beginFrame (r : Nat) (s : State) : State :=
  let recs := if (planTim (rasterOf s r)).tiles2 then [r, r + 1] else [r]
  let s := forAll recs (fun k s => putRaster k { rasterOf s k with prev := [], cryPrev := none } s) s
  let s := onLead r (fun c => { c with fanMax := c.frameFanMax, fanLine := c.frameFanLine,
                                       frameFanMax := 0, frameFanLine := 0, seen := 0 }) s
  putFs r { fsOf s r with substSeen := false } s

/-! ### A whole line -/

/-- Compose scene line y of frame n into the output FIFO (R220, R263, R302). -/
def composeLine (r y n : Nat) (s : State) : State :=
  let x := rasterOf s r
  let w := (planTim x).hact
  let tr := tileRec s r y
  if x.st = .halted then putRaster tr { rasterOf s tr with ready := none, prev := [], cryPrev := none } s
  else
    let dl := decideLine s r y
    let l := dl.1
    let cs := l.filterMap (formPane s r y l)
    let px := (List.range w).map fun c => blendColumn s r y c l cs
    let cry := (crystalOn s r y).map fun d => (d, formCrystal s r y d)
    let alphas := match cry with
      | none => []
      | some (d, c) => cryAlphas (rasterOf s tr) d c
    let px := match cry with
      | none => px
      | some (d, c) => (List.range w).map fun i =>
          let below := px.getD i ⟨0, 0, 0, 0⟩
          if onColumn w d i then
            blendOver (dAlphaMode d == 2) (globalAlpha d) (c.px.getD (i - (dX d).toNat) ⟨0, 0, 0, 0⟩) below
          else below
    let o := outSetOf s r
    let lut := (copyInUse s r (tblKey 4 r)).map (·.data)
    let lin := (sceneOf s r).active.domain
    let codes := (List.range w).map fun i => outCodes o lut lin i y n (px.getD i ⟨0, 0, 0, 0⟩)
    let s1 := putRaster tr { rasterOf s tr with
      ready := some codes,
      prev := cs.foldl (fun t c => Tbl.set t c.id c.px) [],
      cryPrev := cry.map fun e => e.2.px, cryAlpha := alphas } s
    let s1 := match cry with
      | some (d, c) => cryLine s1 r y d c.subst alphas codes
      | none => s1
    let s1 := noteFanout r y s1
    let s1 := countLine r l dl.2 s1
    let late := (cs.filter (·.subst)).map (·.id) ++
      (match cry with
        | some (_, c) => if c.subst then [c.id] else []
        | none => [])
    let f := fsOf s1 r
    countSubst r late (putFs r { f with parity := f.parity.filter fun e => e.2 != y } s1)

/-- Compose line y of the tile, or of both tiles (R305), of frame n. -/
def composeTiles (r y n : Nat) (s : State) : State :=
  let t := (planTim (rasterOf s r))
  let s := if y = 0 then beginFrame r s else s
  let s := composeLine r y n s
  let s := if t.tiles2 then composeLine r (y + t.vact) n s else s
  cryFinish r y s

end Sys2Proof.Machine
end

