-- ==== Sys2Proof/Machine/Escapement.lean ====
section
/-! DEFINITION. The commands of the escapement (chapter 04): group 0x02 but ADMIT_CHECK, the fetch
scheduler's service slots, arrival of data, and the gate lists. -/
namespace Sys2Proof.Machine
open Sys2Proof

/-! ### Gate lists -/

/-- A channel whose pending takeover time has come. -/
def takeoverDue (s : State) (n : Nat) : Bool :=
  (chanFsOf s n).arm == .pending && decide ((chanFsOf s n).armT ≤ now s)

/-- Index of the entry that holds a position in ns. -/
def indexAt : List GateEntry → Nat → Nat
  | [], _ => 0
  | e :: t, pos => if pos < 4 * e.dur then 0 else indexAt t (pos - 4 * e.dur) + 1

/-- The armed list of a channel becomes its running list at the pending time (R166). -/
def takeOver (n : Nat) (s : State) : State :=
  let c := chanFsOf s n
  let c := { c with running := c.armed, armed := [], arm := .empty, swT := c.armT, taken := some c.armT,
                    start := c.armT }
  putChanFs n { c with entry := indexAt c.running (gatePos s c) } s

/-- Every channel whose time has come takes over; source 240 is raised once for them (R166, R197). -/
def takeOverDue (s : State) : State :=
  let due := (List.range 16).filter (takeoverDue s)
  if due.isEmpty then s else raise 240 (writeGaps (forAll due takeOver s))

/-- GATE_SWITCH: channel n's takeover time has come (R166). -/
def execGateSwitch (t : Ticks) (n : Nat) (s : State) : Host.Outcome State Fault Refusal :=
  whenRunning t (fun s => if n < 16 && takeoverDue s n then takeOverDue s else s) s

/-- MCG_ENTRY_ADVANCE: ENTRY of MCG_STAT follows the running list (R161, R195). -/
def execMcgEntryAdvance (t : Ticks) (n : Nat) (s : State) : Host.Outcome State Fault Refusal :=
  whenRunning t (fun s =>
    let c := chanFsOf s n
    if n < 16 then putChanFs n { c with entry := indexAt c.running (gatePos s c) } s else s) s

/-- The channels a CHMASK of bytes 0 and 1 names. -/
def chMask (p : Packet) : List Nat := bitList 16 (prm p 0 2)
/-- The channels of CHMASK as units. -/
def chUnits (p : Packet) (_ : State) : List Nat := (chMask p).map unitChan

/-- CHMASK names a live channel (R198). -/
def namesLive (p : Packet) (s : State) : Bool := Nat.land (prm p 0 2) (liveMask s) != 0

/-- The entries a load names, entry i at byte `base` + 4i. -/
def loadEntries (p : Packet) (base count : Nat) : List (GateEntry × Nat) :=
  (List.range count).map fun i =>
    (⟨prm p (base + 4 * i) 2, prm p (base + 4 * i + 2) 1⟩, prm p (base + 4 * i + 3) 1)

/-- GATELIST_LOAD (R162, R168, R198). -/
def gatelistLoadBody (p : Packet) (s0 : State) : Res :=
  let s := takeOverDue s0
  let es := loadEntries p 16 (prmb p 2 2 8 0)
  let l := es.map (·.1)
  require (namesLive p s && es.all (fun e => e.2 == 0) && gateListOk l) badParam <|
  require ((chMask p).all fun n => (chanFsOf s n).arm != .pending) busy <|
  .ok (some (cycleOf l)) (some (openTime 1 l))
    (writeGaps (forAll (chMask p) (fun n s =>
      putChanFs n { chanFsOf s n with armed := l, arm := .loaded, taken := none } s) s))

def specGatelistLoad : CmdSpec := { opcode := 0x200, units := chUnits, body := gatelistLoadBody }
/-- GATELIST_LOAD. -/
def execGatelistLoad (t : Ticks) (p : Packet) (s : State) := runPacket specGatelistLoad t p s

/-- The takeover time of a channel that bars an arm: nothing was loaded since (R168). -/
def takenTime (s : State) (n : Nat) : Option Nat :=
  let c := chanFsOf s n
  if takeoverDue s n then some c.armT else c.taken

/-- BUSY with the takeover time of the lowest channel that bars the arm. -/
def armBusy (t : Nat) : Res := .fail 0x107 (some t) (some (t / 2 ^ 32))

/-- The time at which a late arm takes over: the first boundary of the lowest named channel's running
list at least 1 µs away (R167). -/
def lateTime (s : State) (c : ChanFs) : Nat :=
  let cyc := 4 * cycleOf c.running
  c.start + cdiv (now s + 1000 - c.start) cyc * cyc

/-- A channel's gate page with its armed list pending. -/
def armedAt (time : Nat) (late : Bool) (c : ChanFs) : ChanFs :=
  { c with arm := .pending, armT := time, late := late }

/-- GATELIST_ARM (R166 to R168, R176). -/
def gatelistArmBody (p : Packet) (s : State) : Res :=
  let ns := chMask p
  let time := prm p 8 8
  let disarm := prmbit p 2 0
  let barred := ns.filterMap (takenTime s)
  require (namesLive p s) badParam <|
  require (disarm || ns.all fun n => (chanFsOf s n).arm != .empty || (takenTime s n).isSome) badParam <|
  match barred with
  | b :: _ => armBusy b
  | [] =>
    if disarm then
      .ok none none (writeGaps (forAll ns (fun n s =>
        let c := chanFsOf s n
        putChanFs n { c with arm := if c.arm = .pending then .loaded else c.arm } s) s))
    else
      let late := decide (time < now s + 1000)
      let t := if late then lateTime s (chanFsOf s (ns.headD 0)) else time
      let chan := fun n => if ns.contains n then armedAt t late (chanFsOf s n) else chanFsOf s n
      match admitLists s chan with
      | some v => .fail v.1 (some v.2.1) v.2.2
      | none =>
        .done (if late then 0x10B else 0) (some t) (some (t / 2 ^ 32))
          (writeGaps (forAll ns (fun n s => putChanFs n (armedAt t late (chanFsOf s n)) s) s))

def specGatelistArm : CmdSpec := { opcode := 0x201, units := chUnits, body := gatelistArmBody }
/-- GATELIST_ARM. -/
def execGatelistArm (t : Ticks) (p : Packet) (s : State) := runPacket specGatelistArm t p s

/-- ARMED of MCG_STAT. -/
def armCode : ArmState → Nat
  | .empty => 0
  | .loaded => 1
  | .pending => 2

/-- The takeover time that is shown as pending: 0 when none is. -/
def armTime (a : ArmState) (t : Nat) : Nat := if a = .pending then t else 0

/-- An entry in the layout of R161. -/
def entryWord (e : GateEntry) : Nat := e.dur + shl e.mask 16

/-- The record of GATELIST_QUERY (R200). -/
def gateRecord (time : Nat) (arm : ArmState) (late : Bool) (l : List GateEntry) : List Byte :=
  fitBytes 1040 (leBytes 8 time ++ leBytes 2 l.length ++ leBytes 1 (armCode arm + shl (b2n late) 2)
    ++ [0#8] ++ leBytes 4 (cycleOf l) ++ l.flatMap fun e => leBytes 4 (entryWord e))

/-- GATELIST_QUERY (R198, R200). -/
def gatelistQueryBody (p : Packet) (s : State) : Res :=
  let c := chanFsOf s (prmb p 0 1 3 0)
  let armed := prmbit p 1 0
  let l := if armed then c.armed else c.running
  withBuf p s (prm p 8 8) 16 true (gateRecord (if armed then armTime c.arm c.armT else c.swT) c.arm c.late l) fun w =>
    .ok (some (cycleOf l)) (some (openTime 1 l)) (w s)

def specGatelistQuery : CmdSpec :=
  { opcode := 0x202, exempt := fun _ => true, owns := fun _ _ => true, body := gatelistQueryBody }
/-- GATELIST_QUERY. -/
def execGatelistQuery (t : Ticks) (p : Packet) (s : State) := runPacket specGatelistQuery t p s

/-! ### Shapers and leads -/

/-- A burst size that SHAPER_SET takes (R181). -/
def burstOk (n : Nat) : Bool := n == 0 || (decide (256 ≤ n ∧ n ≤ 1048576) && n % 256 == 0)

/-- A raster is stopped: it has no fetch line. -/
def rasterStopped (s : State) (r : Nat) : Bool := (rasterOf s r).st == .stopped && !(rasterOf s r).leadIn

/-- The value of a parameter, or nothing for 0. -/
def nonzero (n : Nat) : Option Nat := if n = 0 then none else some n

/-- SHAPER_SET (R181, R198). -/
def shaperSetBody (p : Packet) (s : State) : Res :=
  let r := prmRaster p
  let m := prmb p 1 1 5 0
  let cbs := prmb p 4 4 20 0
  let pbs := prmb p 8 4 20 0
  let f := fsOf s r
  require (!(rasterOf s r).orphan) busy <|
  require ((m == 0 || decide (16 ≤ m ∧ m ≤ 32)) && burstOk cbs && burstOk pbs) badParam <|
    let f := { f with stPeak := (nonzero m).or f.stPeak, stCbs := (nonzero cbs).or f.stCbs,
                      stPbs := (nonzero pbs).or f.stPbs }
    okay (putFs r (if rasterStopped s r then takeShaper f else f) s)

/-- A spec of an opcode that names one raster in byte 0 and needs it owned. -/
def rasterSpec (op : Nat) (body : Packet → State → Res) : CmdSpec :=
  { opcode := op, units := fun p _ => [unitRaster (prmRaster p)],
    owns := fun p s => ownsRaster p s (prmRaster p), body := body }

def specShaperSet : CmdSpec := rasterSpec 0x203 shaperSetBody
/-- SHAPER_SET. -/
def execShaperSet (t : Ticks) (p : Packet) (s : State) := runPacket specShaperSet t p s

/-- A refusal of admission as a packet's result (R175). -/
def verdictRes (v : Verdict) (k : Res) : Res :=
  match v with
  | some v => .fail v.1 (some v.2.1) v.2.2
  | none => k

/-- LEAD_SET (R187, R198, R199): the raster must fit under the LEAD_MIN in force and the new one (DESIGN CHOICE,
notes/assumptions/78.md). -/
def leadSetBody (p : Packet) (s : State) : Res :=
  let r := prmRaster p
  let lo := prmb p 1 1 4 0
  let hi := prmb p 2 1 4 0
  let f := fsOf s r
  require (!(rasterOf s r).orphan) busy <|
  require (decide (2 ≤ lo ∧ lo ≤ hi ∧ hi ≤ 16)) badParam <|
    verdictRes (admitClaim s [f.leadMin, lo] r (claimOf s r)) <|
      .ok (some f.cap) none (putFs r { f with stLead := some (lo, hi) } s)

def specLeadSet : CmdSpec := rasterSpec 0x204 leadSetBody
/-- LEAD_SET. -/
def execLeadSet (t : Ticks) (p : Packet) (s : State) := runPacket specLeadSet t p s

/-! ### Queries -/

/-- The band rate F in millibands per second (R159, R200). -/
def milliBands (t : Timing) : Nat := 1200000000 * t.n * 1000 / (t.d * 16 * hTotal t)

/-- The record of DEMAND_QUERY (R200). -/
def demandRecord (s : State) (r : Nat) (t : Timing) (ds cry : List Desc) : List Byte :=
  let b0 := bandDemand s r t ds
  let b1 := bandDemand s r t cry
  leBytes 2 b0.length ++ leBytes 2 (liveMask s) ++ leBytes 4 (milliBands t) ++ List.replicate 8 0#8
    ++ (List.range b0.length).flatMap fun b =>
      let e := b0.getD b (0, 0)
      leBytes 4 e.1 ++ leBytes 4 (b1.getD b (0, 0)).1 ++ leBytes 4 (cirOf t e.1) ++ leBytes 4 (cdiv e.2 16)

/-- DEMAND_QUERY (R198 to R200). -/
def demandQueryBody (p : Packet) (s : State) : Res :=
  let r := prmRaster p
  let pend := pendingScenes s r
  let which := prmbit p 1 0
  require (!which || !pend.isEmpty) badParam <|
    let ds := if which then pend.headD [] else committedScene s r
    let cry := crystalsOf s r
    let cry := if which then cry.drop (cry.length - 1) else (activeCrystal s r).toList
    let t := (timingsOf (rasterOf s r)).headD {}
    let d0 := (bandDemand s r t ds).map fun b => channelRate t (liveCount s) b.1
    withBuf p s (prm p 8 8) 16 false (demandRecord s r t ds cry) fun w =>
      .ok (some (worstBand d0)) (some (mbps (maxOf d0))) (w s)

def specDemandQuery : CmdSpec := { rasterSpec 0x206 demandQueryBody with
  exempt := fun _ => true, owns := fun p s => mayQuery p (rasterOwner s (prmRaster p)) }
/-- DEMAND_QUERY. -/
def execDemandQuery (t : Ticks) (p : Packet) (s : State) := runPacket specDemandQuery t p s

/-- The block of one channel (R200): bins, then the largest latency. -/
def latencyBlock (c : ChanFs) : List Byte := (c.hist ++ [c.histMax]).flatMap (leBytes 4)

/-- LATENCY_HIST_READ (R193, R198). -/
def latencyHistReadBody (p : Packet) (s : State) : Res :=
  let ns := chMask p
  require (namesLive p s) badParam <|
    withBuf p s (prm p 8 8) 1 false (ns.flatMap fun n => latencyBlock (chanFsOf s n)) fun w =>
      let s := w s
      okay (if prmbit p 2 0 then forAll ns (fun n s => putChanFs n
        { chanFsOf s n with hist := List.replicate 16 0, histMax := 0 } s) s else s)

def specLatencyHistRead : CmdSpec :=
  { opcode := 0x207, exempt := fun p => !prmbit p 2 0, units := chUnits,
    owns := fun p _ => p.func == 0 || !prmbit p 2 0, body := latencyHistReadBody }
/-- LATENCY_HIST_READ. -/
def execLatencyHistRead (t : Ticks) (p : Packet) (s : State) := runPacket specLatencyHistRead t p s

/-! ### Fetching -/

/-- FETCH_DATA_ARRIVE: the data of a request arrive, or `ok` false, it ends without (R183, R188). A
request waits while its channel restarts (R112). -/
def execFetchDataArrive (t : Ticks) (r pane row k : Nat) (ok : Bool) (s : State) :
    Host.Outcome State Fault Refusal :=
  whenRunning t (fun s =>
    let q : FetchReq := ⟨pane, row, k⟩
    let restarting := match s.fs.flights.find? fun x => x.raster == r && x.req == q with
      | some x => chanState s x.channel == 1
      | none => false
    if restarting then s else arrive r q ok s) s

end Sys2Proof.Machine
end

