-- ==== Sys2Proof/Machine/Frames.lean ====
section
/-! DEFINITION. Ethernet frames: parsing what is received (R349, R352) and building what is sent (R364,
R367), with the checksums of IEEE 802.3, RFC 1071 and the header fields that the spec fixes. -/
namespace Sys2Proof.Machine
open Sys2Proof

/-! ### Checksums -/

/-- Sum of 16-bit big-endian words; an odd last byte is the high byte of its word. -/
def sum16 : List Byte → Nat
  | [] => 0
  | [a] => a.toNat * 256
  | a :: b :: t => a.toNat * 256 + b.toNat + sum16 t

/-- Fold carries into 16 bits: enough rounds for any frame. -/
def fold16 (n : Nat) : Nat :=
  let a := n % 65536 + n / 65536
  let b := a % 65536 + a / 65536
  b % 65536 + b / 65536

/-- The Internet checksum of bytes. -/
def inetSum (b : List Byte) : Nat := 0xFFFF - fold16 (sum16 b)

/-- The pseudo-header sum of UDP for IPv4 or IPv6 addresses. -/
def pseudoSum (ipv6 : Bool) (src dst len : Nat) : Nat :=
  let n := if ipv6 then 16 else 4
  sum16 (beBytes n src) + sum16 (beBytes n dst) + 17 + len

/-- The UDP checksum to send: never 0. -/
def udpSum (ipv6 : Bool) (src dst : Nat) (udp : List Byte) : Nat :=
  let v := 0xFFFF - fold16 (pseudoSum ipv6 src dst udp.length + sum16 udp)
  if v = 0 then 0xFFFF else v

/-- The frame check sequence: CRC-32, least significant byte first. -/
def fcs (b : List Byte) : List Byte := leBytes 4 (crc32 b)

/-! ### Receiving -/

/-- A UDP packet as the ingest engine sees it. -/
structure UdpRx where
  vid     : Option Nat           -- none: untagged, or VID 0 (R349)
  ipv6    : Bool
  src     : Nat
  dst     : Nat
  dscp    : Nat
  dport   : Nat
  payload : List Byte
  deriving DecidableEq, Repr

/-- What a received frame is. -/
inductive RxKind where
  /-- Dropped and counted in NE_RXERR. -/
  | error
  /-- For Movement firmware or the timekeeper: taken out. -/
  | control
  | udp (u : UdpRx)
  deriving DecidableEq, Repr

/-- EtherType of an untagged frame. -/
def etherType (b : List Byte) : Nat := rdBE b 12 2

/-- Step 1 of R356: FCS, length, PAUSE and tags (R349). -/
def frameOk (mtu : Nat) (b : List Byte) : Bool :=
  let n := b.length
  let ty := etherType b
  let inner := rdBE b 16 2
  decide (64 ≤ n ∧ n ≤ mtu) && b.drop (n - 4) == fcs (b.take (n - 4))
    && ty != 0x8808
    && !((ty == 0x8100 && (inner == 0x8100 || inner == 0x88A8)) || ty == 0x88A8)

/-- Parse the UDP part at the end of the IP header. -/
def parseUdp (vid : Option Nat) (ipv6 : Bool) (src dst dscp : Nat) (b : List Byte) : RxKind :=
  let len := rdBE b 4 2
  let sum := rdBE b 6 2
  let udp := b.take len
  if len < 8 || b.length < len then .error
  else if ipv6 && sum == 0 then .error
  else if sum != 0 && fold16 (pseudoSum ipv6 src dst len + sum16 udp) != 0xFFFF then .error
  else .udp ⟨vid, ipv6, src, dst, dscp, rdBE b 2 2, udp.drop 8⟩

/-- A UDP header is that of PTP. -/
def isPtp (udp : List Byte) : Bool := rdBE udp 2 2 == 319 || rdBE udp 2 2 == 320

/-- Traffic for Movement firmware or the timekeeper, which the checks of R352 do not touch: ARP, ICMP, IGMP, ICMPv6
(MLD behind a hop-by-hop header too) and PTP. `ty` is the EtherType of what `p` begins with. -/
def isControl (ty : Nat) (p : List Byte) : Bool :=
  if ty = 0x0806 ∨ ty = 0x88F7 then true
  else if ty = 0x0800 then
    let proto := rdBE p 9 1
    proto == 1 || proto == 2 || (proto == 17 && isPtp (p.drop (4 * (rdBE p 0 1 % 16))))
  else if ty = 0x86DD then
    let next := rdBE p 6 1
    next == 58 || (next == 0 && rdBE p 40 1 == 58) || (next == 17 && isPtp (p.drop 40))
  else false

/-- Step 2 of R356: IP and UDP checks (R352); control traffic is taken out (R351). -/
def parseFrame (b : List Byte) : RxKind :=
  let tagged := etherType b == 0x8100
  let off := if tagged then 18 else 14
  let vid := if tagged && rdBE b 14 2 % 4096 != 0 then some (rdBE b 14 2 % 4096) else none
  let ty := if tagged then rdBE b 16 2 else etherType b
  let p := (b.take (b.length - 4)).drop off
  if isControl ty p then .control
  else if ty = 0x0800 then
    let hdr := p.take 20
    let tot := rdBE p 2 2
    let proto := rdBE p 9 1
    if rdBE p 0 1 != 0x45 || fold16 (sum16 hdr) != 0xFFFF || tot < 20 || p.length < tot then .error
    else if proto != 17 || rdBE p 6 2 % 16384 != 0 then .error
    else parseUdp vid false (rdBE p 12 4) (rdBE p 16 4) (rdBE p 1 1 / 4) ((p.take tot).drop 20)
  else if ty = 0x86DD then
    let len := rdBE p 4 2
    let next := rdBE p 6 1
    if rdBE p 0 1 / 16 != 6 || p.length < 40 + len then .error
    else if next != 17 then .error
    else parseUdp vid true (rdBE p 8 16) (rdBE p 24 16) ((rdBE p 0 2 / 64) % 64) ((p.drop 40).take len)
  else .error

/-! ### Sending -/

/-- What the headers of a sent UDP packet hold. -/
structure UdpTx where
  smac : Nat
  dmac : Nat
  vlan : Option (Nat × Nat)      -- PCP and VID
  ipv6 : Bool
  src  : Nat
  dst  : Nat
  dscp : Nat
  ttl  : Nat
  sport : Nat
  dport : Nat

/-- The multicast MAC address of an IP address (RFC 1112, RFC 2464). -/
def multicastMac (ipv6 : Bool) (ip : Nat) : Nat :=
  if ipv6 then 0x333300000000 + ip % 2 ^ 32 else 0x01005E000000 + ip % 2 ^ 23

/-- Whether an address is multicast. -/
def isMulticast (ipv6 : Bool) (ip : Nat) : Bool :=
  if ipv6 then ip / 2 ^ 120 == 0xFF else ip / 2 ^ 28 == 0xE

/-- Bytes of the headers before the UDP payload, and the FCS (R365 example). -/
def udpOverhead (vlan ipv6 : Bool) : Nat := 14 + (if vlan then 4 else 0) + (if ipv6 then 40 else 20) + 8 + 4

/-- A whole frame around a UDP payload (R352, R364). -/
def buildUdp (h : UdpTx) (payload : List Byte) : List Byte :=
  let udpLen := 8 + payload.length
  let ports := beBytes 2 h.sport ++ beBytes 2 h.dport ++ beBytes 2 udpLen
  let sum := udpSum h.ipv6 h.src h.dst (ports ++ [0#8, 0#8] ++ payload)
  let udp := ports ++ beBytes 2 sum ++ payload
  let ip :=
    if h.ipv6 then
      beBytes 4 (0x60000000 + h.dscp * 2 ^ 22) ++ beBytes 2 udpLen ++ beBytes 1 17 ++ beBytes 1 h.ttl
        ++ beBytes 16 h.src ++ beBytes 16 h.dst
    else
      let a := beBytes 1 0x45 ++ beBytes 1 (h.dscp * 4) ++ beBytes 2 (20 + udpLen) ++ beBytes 2 0
        ++ beBytes 2 0x4000 ++ beBytes 1 h.ttl ++ beBytes 1 17
      let z := beBytes 4 h.src ++ beBytes 4 h.dst
      a ++ beBytes 2 (inetSum (a ++ z)) ++ z
  let ty := beBytes 2 (if h.ipv6 then 0x86DD else 0x0800)
  let tag := match h.vlan with
    | some (pcp, vid) => beBytes 2 0x8100 ++ beBytes 2 (pcp * 8192 + vid)
    | none => []
  let b := beBytes 6 h.dmac ++ beBytes 6 h.smac ++ tag ++ ty ++ ip ++ udp
  let b := fitBytes (max 60 b.length) b
  b ++ fcs b

/-! ### RTP packets of ST 2110-20 (R358, R364, R365) -/

/-- Bytes and pixels of a pgroup of formats 0x20 to 0x28 (R116). -/
def pgroup (f : Nat) : Nat × Nat :=
  match f with
  | 0x20 => (4, 2) | 0x21 => (5, 2) | 0x22 => (6, 2)
  | 0x23 => (3, 1) | 0x24 => (15, 4) | 0x25 => (9, 2)
  | 0x26 => (3, 1) | 0x27 => (15, 4) | _ => (9, 2)

/-- One sample row data segment: length, row, offset in pixels. -/
structure Srd where
  len : Nat
  row : Nat
  off : Nat
  deriving DecidableEq, Repr

/-- The six bytes of an SRD header. -/
def srdBytes (d : Srd) (more : Bool) : List Byte :=
  beBytes 2 d.len ++ beBytes 2 d.row ++ beBytes 2 (b2n more * 32768 + d.off)

/-- The segments of `len` bytes from byte `start` of a frame of lines of L bytes: one or two (R365). -/
def segments (f lineLen start len : Nat) : List Srd :=
  let pg := pgroup f
  let row := start / lineLen
  let off := start % lineLen
  let n := min len (lineLen - off)
  let a : Srd := ⟨n, row, off / pg.1 * pg.2⟩
  if n < len then [a, ⟨len - n, row + 1, 0⟩] else [a]

/-- The RTP packet and payload header with data (R364). -/
def rtpPacket (marker : Bool) (pt seq ts ssrc : Nat) (srds : List Srd) (data : List Byte) : List Byte :=
  beBytes 1 0x80 ++ beBytes 1 (b2n marker * 128 + pt) ++ beBytes 2 (seq % 65536) ++ beBytes 4 ts
    ++ beBytes 4 ssrc ++ beBytes 2 (seq / 65536)
    ++ (match srds with
      | [a, b] => srdBytes a true ++ srdBytes b false
      | l => l.flatMap fun d => srdBytes d false)
    ++ data

/-- Read at most four SRD headers; none when the fourth is followed by another or F is 1. -/
def readSrds : Nat → List Byte → Option (List Srd × List Byte)
  | 0, _ => none
  | n + 1, b =>
    let row := rdBE b 2 2
    let off := rdBE b 4 2
    if b.length < 6 || 32768 ≤ row then none
    else
      let d : Srd := ⟨rdBE b 0 2, row, off % 32768⟩
      if off < 32768 then some ([d], b.drop 6)
      else (readSrds n (b.drop 6)).map fun r => (d :: r.1, r.2)

/-! ### FST (R367) -/

/-- The 36-byte header of an FST packet. -/
structure FstHdr where
  version : Nat
  ty      : Nat
  last    : Bool
  tcount  : Nat
  handle  : Nat
  pseq    : Nat
  slotSeq : Nat
  capture : Nat
  format  : Nat
  budget  : Nat
  widthM1 : Nat
  heightM1 : Nat
  first   : Nat
  deriving DecidableEq, Repr

/-- Write an FST header. -/
def fstBytes (h : FstHdr) : List Byte :=
  beBytes 1 (h.version * 16 + h.ty) ++ beBytes 1 (b2n h.last) ++ beBytes 2 h.tcount ++ beBytes 4 h.handle
    ++ beBytes 4 h.pseq ++ beBytes 4 h.slotSeq ++ beBytes 8 h.capture ++ beBytes 1 h.format
    ++ beBytes 1 h.budget ++ beBytes 2 h.widthM1 ++ beBytes 2 h.heightM1 ++ beBytes 2 0 ++ beBytes 4 h.first

/-- Read an FST header. -/
def readFst (b : List Byte) : FstHdr :=
  { version := rdBE b 0 1 / 16, ty := rdBE b 0 1 % 16, last := rdBE b 1 1 % 2 == 1, tcount := rdBE b 2 2,
    handle := rdBE b 4 4, pseq := rdBE b 8 4, slotSeq := rdBE b 12 4, capture := rdBE b 16 8,
    format := rdBE b 24 1, budget := rdBE b 25 1 % 4, widthM1 := rdBE b 26 2 % 16384,
    heightM1 := rdBE b 28 2 % 16384, first := rdBE b 32 4 % 2 ^ 20 }

end Sys2Proof.Machine
end

