-- ==== Sys2Proof/Machine/CfOps.lean ====
section
/-! DEFINITION. The start of surface transfers (R434, R435). -/
namespace Sys2Proof.Machine
open Sys2Proof

/-- A handle of this device (R4). -/
def ownHandle (s : State) (surf : Nat) : Nat := s.cf.devid * 16384 + surf

/-! ### Surface transfers -/

/-- The unit of a packet that waits for a transfer context. -/
def xferUnit (ctx : Nat) : Nat := unitRef 0x81 ctx

/-- A transfer context of this device. -/
def xferOf (s : State) (ctx : Nat) : Option Xfer := Tbl.find? s.cf.xfers ctx
/-- Store a transfer context. -/
def putXfer (ctx : Nat) (x : Xfer) (s : State) : State :=
  { s with cf := { s.cf with xfers := Tbl.set s.cf.xfers ctx x } }
/-- End a transfer context. -/
def dropXfer (ctx : Nat) (s : State) : State :=
  { s with cf := { s.cf with xfers := Tbl.del s.cf.xfers ctx } }

/-- Chunks of 240 bytes in a slot. -/
def slotChunks (x : Surface) : Nat := cdiv (x.stride * 4096) 240

/-- The XFER_HDR of a transfer (R435). -/
def xferHdr (s : State) (ctx : Nat) (x : Xfer) (k : Nat) : Flit :=
  let sf := surfOf s x.surface
  { vc := vcSurf, ty := 4, tagw := ctx * 2 ^ 26,
    payload := beBytes 3 s.cf.devid ++ [0#8] ++ beBytes 4 (ownHandle s x.surface) ++ beBytes 4 x.handle
      ++ beBytes 8 (slotOf sf k).capture ++ beBytes 4 (slotChunks sf) ++ [0#8] }

/-- Begin to send a slot: it is pinned, and XFER_HDR goes to the destination (R434). -/
def startXfer (ctx k : Nat) (x : Xfer) (s : State) : State :=
  let v := slotOf (surfOf s x.surface) k
  let f := xferHdr s ctx x k
  let x := { x with slot := some k, seq := v.seq, started := false, chunk := 0, ended := false }
  sendTo (x.handle / 16384) f (pinSlot x.surface k (pinXfer ctx) (putXfer ctx x s))

/-- Slots published and superseded between the last one sent and this one (R368, R435). -/
def skippedBetween (last : Option Nat) (seq : Nat) : Nat :=
  match last with
  | some l => (seq + 2 ^ 32 - l - 1) % 2 ^ 32
  | none => 0

/-- An idle FOLLOW transfer sends NEWEST if it has not sent it (R435). -/
def followNext (ctx : Nat) (s : State) : State :=
  match xferOf s ctx with
  | none => s
  | some x =>
    let sf := surfOf s x.surface
    let seq := (slotOf sf sf.newest).seq
    if quiesced s || !x.follow || x.slot.isSome || x.stop || sf.newest == noSlot || sf.lost || x.lastSent == some seq then s
    else startXfer ctx sf.newest
      { x with skipped := sat 32 (x.skipped + skippedBetween x.lastSent seq) } s

/-- The slot of a transfer is no longer read: its pin goes. -/
def releaseXfer (ctx : Nat) (s : State) : State :=
  match xferOf s ctx with
  | some x =>
    match x.slot with
    | some k => unpinSlot x.surface k (pinXfer ctx) (putXfer ctx { x with slot := none } s)
    | none => s
  | none => s

/-- A send has ended: the slot is released; FOLLOW goes on with NEWEST, or ends after STOP. -/
def endXferSlot (ctx : Nat) (s : State) : State :=
  match xferOf s ctx with
  | none => s
  | some x =>
    let s := releaseXfer ctx (putXfer ctx { x with lastSent := some x.seq, ended := true } s)
    if !x.follow then s
    else if x.stop then dropXfer ctx s
    else followNext ctx s

end Sys2Proof.Machine
end

