-- ==== Sys2Proof/Machine/TsOps.lean ====
section
/-! DEFINITION. The traffic scheduler (chapter 10): buckets, gates, the choice of a frame, port
admission, statistics and meters. -/
namespace Sys2Proof.Machine
open Sys2Proof

/-! ### Alert bits -/

/-- Set bit i of the alert word whose registers have a key; the source is raised when it went from 0 to 1. -/
def alertBit (key word i src : Nat) (store : Nat → State → State) (s : State) : State :=
  let s := noteSet key i s
  if tbit word i then s else raise src (store (setBit word i true) s)

/-- The alert bit of a queue (R413, R414). -/
def queueAlert (q : Nat) (s : State) : State :=
  alertBit 0x73000 s.ts.qalert q 464 (fun w s => { s with ts := { s.ts with qalert := w } }) s
/-- The alert bit of a meter. -/
def meterAlert (f : Nat) (s : State) : State :=
  alertBit 0x73100 s.ts.malert f 465 (fun w s => { s with ts := { s.ts with malert := w } }) s
/-- The alert bit of an ingest flow (R377, R378). -/
def ingestAlert (f : Nat) (s : State) : State :=
  alertBit 0x69000 s.ne.alertI f 416 (fun w s => { s with ne := { s.ne with alertI := w } }) s
/-- The alert bit of an egress flow. -/
def egressAlert (f : Nat) (s : State) : State :=
  alertBit 0x69200 s.ne.alertE f 417 (fun w s => { s with ne := { s.ne with alertE := w } }) s

/-- Re-evaluate SENDING of an egress flow: one that stops sending while enabled sets its alert bit (R377) and is
compared. -/
def settleSending (f : Nat) (s : State) : State :=
  let e := egressOf s f
  let v := flowSending s f
  let s1 := putEgress f { e with sending := v } s
  if e.sending && !v then compareUnit (unitFlow f) (egressAlert f s1) else s1

/-! ### Ports and queues -/

/-- Rate of a MODE in Gbit/s (R347). -/
def modeRate (m : Nat) : Nat := if m = 1 then 100 else if m = 2 then 200 else if m = 3 then 400 else if m = 4 then 800 else 0

/-- Rate of a port in use. -/
def portRate (s : State) (p : Nat) : Nat := modeRate (ethOf s p).mode

/-- A queue is enabled while its flow is enabled (R384). -/
def queueOn (s : State) (q : Nat) : Bool := (egressOf s q).cfg.kind != 0

/-- Enabled queues of a port, ascending. -/
def queuesOf (s : State) (p : Nat) : List Nat :=
  (s.ne.egress.filter fun e => e.2.cfg.kind != 0 && e.2.cfg.port == p).map (·.1)

/-- Bytes queued in a queue (R404). -/
def queueDepth (x : TsQueue) : Nat := sumOf (x.frames.map fun f => f.data.length)

/-- Bytes in the egress buffer (R390). -/
def bufferBytes (s : State) : Nat := sumOf (s.ts.queues.map fun e => queueDepth e.2)

/-- Counted length of a frame on a port (R385). -/
def countedLen (s : State) (p len : Nat) : Nat := len + (tsPortOf s p).ovh

/-- Add to a flow's DROPPED count. -/
def countDropped (q n : Nat) (s : State) : State :=
  let e := egressOf s q
  putEgress q { e with dropped := sat 32 (e.dropped + n) } s

/-- Discard the frames of a queue, counted in DROPPED (R384). -/
def discardQueue (q : Nat) (s : State) : State :=
  let x := queueOf s q
  countDropped q x.frames.length (putQueue q { x with frames := [], guarded := none } s)

/-! ### Buckets (R386, R407) -/

/-- Increment of a bucket per 8 ns in 2^-32 bytes. -/
def bucketInc (rate : Nat) : Nat := cdiv (rate * 2 ^ 32) 1000000

/-- 8 ns updates between two ticks. -/
def updates (a b : Ticks) : Nat := b / 10 - a / 10

/-- A bucket after n updates. -/
def bucketRun (n rate cap v : Nat) : Nat := min (cap * 2 ^ 32) (v + n * bucketInc rate)

/-- The buckets of a queue brought up to the present. -/
def refillQueue (s : State) (x : TsQueue) : TsQueue :=
  let n := updates x.at_ s.clk.ticks
  { x with bc := bucketRun n x.cir x.cbs x.bc, bp := bucketRun n x.pir x.pbs x.bp, at_ := s.clk.ticks }

/-- The buckets of a meter brought up to the present. -/
def refillMeter (s : State) (x : Meter) : Meter :=
  let n := updates x.at_ s.clk.ticks
  { x with tc := bucketRun n x.cir x.cbs x.tc, tp := bucketRun n x.pir x.pbs x.tp, at_ := s.clk.ticks }

/-! ### Gates (R392 to R399) -/

/-- Sum of DUR in ns. -/
def portCycle (l : List GateEntry) : Nat := cycleOf l

/-- ns that consecutive open entries add. -/
def openSpan (x : Nat) : List GateEntry → Nat
  | [] => 0
  | e :: t => if opens x e then e.dur + openSpan x t else 0

/-- The list turned so that the entry at a position in ns comes first, and the ns left of it. -/
def portEntryAt : List GateEntry → List GateEntry → Nat → List GateEntry × Nat
  | seen, [], _ => (seen.reverse, 0)
  | seen, e :: t, pos =>
    if pos < e.dur then (e :: t ++ seen.reverse, e.dur - pos) else portEntryAt (e :: seen) t (pos - e.dur)

/-- Position of the present in a port's running cycle. -/
def portPos (s : State) (p : TsPort) : Nat := (((now s : Int) - p.start) % (portCycle p.running : Int)).toNat

/-- ns for which a class set stays open from now; none: closed (R394). -/
def portOpenLeft (s : State) (p : TsPort) (x : Nat) : Option Nat :=
  let e := portEntryAt [] p.running (portPos s p)
  match e.1 with
  | [] => none
  | h :: t =>
    if !opens x h then none
    else
      let n := if p.running.all (opens x) then 2 ^ 64 else e.2 + openSpan x t
      some (if p.arm = .pending then min n (p.armT - now s) else n)

/-- The longest open run of a class set in ns; none: unbounded (R395). -/
def longestRun (x : Nat) (l : List GateEntry) : Option Nat :=
  if l.all (opens x) then none else some (maxOf (openRuns x l))

/-- Transmission time in ps of a frame of n bytes at a rate in Gbit/s (R394). -/
def txTime (rate n : Nat) : Nat := (n + 20) * 8000 / rate

/-- OX in ps (R399). -/
def openPs (x m : Nat) (l : List GateEntry) : Nat :=
  if l.all (opens x) then portCycle l * 1000 else sumOf ((openRuns x l).map fun n => n * 1000 - m)

/-- Capacity of a class set in 1,000 bit/s (R399). -/
def portCapacity (rate mtu x : Nat) (l : List GateEntry) : Nat :=
  rate * 1000000 * openPs x (txTime rate mtu) l / (portCycle l * 1000)

/-- The lists of a port that admission must satisfy (R400). -/
def portLists (p : TsPort) : List (List GateEntry) :=
  p.running :: (if p.arm = .pending then [p.armed] else [])

/-- CIR of the queues of a class, or of all classes. -/
def sumCir (s : State) (p : Nat) (cls : Option Nat) : Nat :=
  sumOf ((queuesOf s p).map fun q =>
    let x := queueOf s q
    match cls with
    | none => x.cir
    | some c => if x.cls = c then x.cir else 0)

/-- R400 on one port with its lists given. -/
def checkPort (s : State) (p : Nat) (tp : TsPort) : Verdict :=
  let rate := portRate s p
  let mtu := (ethOf s p).mtu
  let refuse := fun (code cls sum : Nat) => (some (0x103, code + shl p 8 + shl cls 16, some (cdiv sum 1000)) : Verdict)
  let one := fun (code cls x sum : Nat) =>
    if (portLists tp).all fun l => decide (sum ≤ portCapacity rate mtu x l) then none else refuse code cls sum
  if (queuesOf s p).isEmpty then none
  else firstOf ((List.range 8).map (fun c => one 0x10 c (2 ^ c) (sumCir s p (some c)))
    ++ [one 0x11 0 0xFF (sumCir s p none)])

/-- TS_PCIR: the summed CIR of a port in Mbit/s, rounded up. -/
def portCir (s : State) (p : Nat) : Nat := cdiv (sumCir s p none) 1000

/-! ### Entering a queue (R384, R390) -/

/-- Record the buffer's high-water mark. -/
def noteBuffer (s : State) : State :=
  { s with ts := { s.ts with ebufHwm := max s.ts.ebufHwm (bufferBytes s / 1024) } }

/-- There is room for a frame of n bytes in a queue. -/
def queueRoom (s : State) (q n : Nat) : Bool :=
  decide (queueDepth (queueOf s q) + n ≤ (queueOf s q).qlimit) && decide (bufferBytes s + n ≤ 8388608)

/-- Put a frame into a queue. -/
def enqueue (q : Nat) (data : List Byte) (s : State) : State :=
  let x := queueOf s q
  noteBuffer (putQueue q { x with frames := x.frames ++ [⟨data, s.clk.ticks⟩] } s)

/-- A sender's packet enters its queue, or is dropped (R390). -/
def enqueueOrDrop (q : Nat) (data : List Byte) (s : State) : State :=
  if queueRoom s q data.length then enqueue q data s else queueAlert q (countDropped q 1 s)

/-! ### Transmission (R389 to R395) -/

/-- Why a head frame must be dropped: it exceeds PBS (R387), or fits no run (R395). -/
def headFault (s : State) (p q : Nat) : Option Bool :=
  let x := queueOf s q
  match x.frames with
  | [] => none
  | f :: _ =>
    if x.pir ≠ 0 && x.pbs < countedLen s p f.data.length then some false
    else match longestRun (2 ^ x.cls) (tsPortOf s p).running with
      | some n => if n * 1000 < txTime (portRate s p) f.data.length then some true else none
      | none => none

/-- Drop the head frame of a queue. -/
def dropHead (q : Nat) (s : State) : State :=
  let x := queueOf s q
  queueAlert q (countDropped q 1 (putQueue q { x with frames := x.frames.drop 1, guarded := none } s))

/-- Drop the head frames of a queue that can never go. -/
def dropHeads (p q : Nat) : Nat → State → State
  | 0, s => s
  | n + 1, s =>
    match headFault s p q with
    | none => s
    | some false => dropHeads p q n (dropHead q s)
    | some true =>
      let tp := tsPortOf s p
      dropHeads p q n (raiseUnit (unitPort p) (456 + p) (dropHead q (putTsPort p { tp with nofit := sat 32 (tp.nofit + 1) } s)))

/-- What a queue offers: its class, whether green, and whether the gate lets it start now; none when it
may not be offered (R386). -/
def queueOffer (s : State) (p q : Nat) : Option (Nat × Bool × Bool) :=
  let x := refillQueue s (queueOf s q)
  match x.frames with
  | [] => none
  | f :: _ =>
    let l := countedLen s p f.data.length * 2 ^ 32
    if x.pir ≠ 0 && x.bp < l then none
    else match portOpenLeft s (tsPortOf s p) (2 ^ x.cls) with
      | none => none
      | some n => some (x.cls, decide (0 < x.cir) && decide (l ≤ x.bc),
          decide (txTime (portRate s p) f.data.length ≤ n * 1000))

/-- Queues of a class in round robin from the one after the last served. -/
def inTurn (turn : Nat) (l : List Nat) : List Nat :=
  (l.filter fun q => decide (turn ≤ q)) ++ l.filter fun q => decide (q < turn)

/-- The queue that sends next, and whether its frame is green (R389). -/
def chooseQueue (s : State) (p : Nat) : Option (Nat × Bool) :=
  let offers := (queuesOf s p).filterMap fun q => match queueOffer s p q with
    | some (c, g, true) => some (q, c, g)
    | _ => none
  let pick := fun (g : Bool) (c : Nat) =>
    (inTurn (Tbl.get (tsPortOf s p).turns 0 c)
      ((offers.filter fun o => o.2.1 == c && o.2.2 == g).map (·.1))).head?.map fun q => (q, g)
  ([true, false].flatMap fun g => [7, 6, 5, 4, 3, 2, 1, 0].map fun c => pick g c).findSome? id

/-- The end (ns) of the open run in which a queue's frame waits now. -/
def runEndOf (s : State) (p q : Nat) : Nat :=
  now s + (portOpenLeft s (tsPortOf s p) (2 ^ (queueOf s q).cls)).getD 0

/-- Count the waits under the gate guard, one for each open run that a head frame misses (R394). -/
def countGuards (p : Nat) (s : State) : State :=
  forAll (queuesOf s p) (fun q s =>
    match queueOffer s p q with
    | some (_, _, false) =>
      let x := queueOf s q
      if x.guarded == some (runEndOf s p q) then s
      else
        let tp := tsPortOf s p
        putQueue q { x with guarded := some (runEndOf s p q) } (putTsPort p { tp with guard := (tp.guard + 1) % 2 ^ 64 } s)
    | _ => s) s

/-- The link of a port carries frames. -/
def portCarries (s : State) (p : Nat) : Bool := (ethOf s p).up && !(ethOf s p).retraining

/-- Start the head frame of a queue on its port (R386, R389, R391). -/
def sendHead (p q : Nat) (green : Bool) (s : State) : State :=
  let x := refillQueue s (queueOf s q)
  match x.frames with
  | [] => s
  | f :: rest =>
    let n := f.data.length
    let l := countedLen s p n * 2 ^ 32
    let s := putQueue q { x with frames := rest, guarded := none,
                                 bp := if x.pir = 0 then x.bp else x.bp - l,
                                 bc := if green then x.bc - l else x.bc } s
    let tp := tsPortOf s p
    let s := putTsPort p { tp with
      freeAt := now s * 1000 + txTime (portRate s p) n, turns := Tbl.set tp.turns x.cls (q + 1) } s
    let e := ethOf s p
    if portCarries s p then
      let g := egressOf s q
      let s := putEgress q { g with packets := (g.packets + 1) % 2 ^ 64, octets := (g.octets + n) % 2 ^ 64 } s
      emit (.frame p f.data) (putEth p { e with txfr := (e.txfr + 1) % 2 ^ 64, txoct := (e.txoct + n) % 2 ^ 64 } s)
    else putEth p { e with txdrop := sat 32 (e.txdrop + 1) } s

/-- One choice of a free port (R389). -/
def portSelect (p : Nat) (s : State) : State :=
  if portRate s p = 0 || now s * 1000 < (tsPortOf s p).freeAt then s
  else
    let s := forAll (queuesOf s p) (fun q s => dropHeads p q (queueOf s q).frames.length s) s
    let s := countGuards p s
    match chooseQueue s p with
    | some (q, g) => sendHead p q g s
    | none => s

/-! ### Statistics (R404, R405) -/

/-- Upper edges of the depth bins. -/
def depthEdges : List Nat :=
  [1, 1024, 2048, 4096, 8192, 16384, 32768, 65536, 131072, 262144, 524288, 1048576, 2097152, 4194304, 8388608]
/-- Upper edges of the delay bins. -/
def delayEdges : List Nat :=
  [250, 500, 1000, 2000, 4000, 8000, 16000, 32000, 64000, 128000, 256000, 512000, 1000000, 2000000, 4000000]

/-- The bin of a value. -/
def binOf (edges : List Nat) (v : Nat) : Nat := (edges.filter fun e => decide (e ≤ v)).length

/-- Add 1 to a saturating bin. -/
def addBin (l : List Nat) (i : Nat) : List Nat := l.set i (sat 32 (l.getD i 0 + 1))

/-- Sample one queue as it stood before this cycle (R404). -/
def sampleQueue (q : Nat) (s : State) : State :=
  let x := queueOf s q
  let x0 : TsQueue := Tbl.get s.prior.ts.queues {} q
  let depth := queueDepth x0
  let delay := match x0.frames with
    | [] => 0
    | f :: _ => (s.clk.ticks - f.enter) * 4 / 5
  let alarming := x.alarm ≠ 0 && decide (x.alarm * 1000 < delay)
  let s := putQueue q { x with
    depthHist := addBin x.depthHist (binOf depthEdges depth),
    delayHist := addBin x.delayHist (binOf delayEdges delay),
    depthHwm := max x.depthHwm depth, delayHwm := max x.delayHwm (sat 32 delay),
    alarms := if alarming then sat 32 (x.alarms + 1) else x.alarms } s
  if alarming then queueAlert q s else s

/-! ### Meters (R406 to R409) -/

/-- Colours. -/
inductive Colour where
  | green | yellow | red
  deriving DecidableEq, Repr

/-- Pre-colour of a DSCP (R408). -/
def preColour (s : State) (dscp : Nat) : Colour :=
  match bits (Tbl.get s.ts.dscpcol 0 (dscp / 16)) (2 * (dscp % 16) + 1) (2 * (dscp % 16)) with
  | 1 => .yellow
  | 2 => .red
  | _ => .green

/-- Colour a packet of b bytes (R407). -/
def meterColour (x : Meter) (pre : Colour) (b : Nat) : Colour × Meter :=
  let l := b * 2 ^ 32
  if x.aware && pre = .red then (.red, x)
  else if x.tp < l then (.red, x)
  else if (x.aware && pre = .yellow) || x.tc < l then (.yellow, { x with tp := x.tp - l })
  else (.green, { x with tp := x.tp - l, tc := x.tc - l })

/-- Meter a packet of a flow (R406 to R409): whether it continues. `level` is NE_IBUF.LEVEL. -/
def meterPacket (f dscp len level : Nat) (s : State) : Bool × State :=
  let x := meterOf s f
  if !x.en then (true, putMeter f { x with green := sat 32 (x.green + 1), greenOct := (x.greenOct + len) % 2 ^ 64 } s)
  else
    let c := meterColour (refillMeter s x) (preColour s dscp) len
    let m := c.2
    match c.1 with
    | .green => (true, putMeter f { m with green := sat 32 (m.green + 1), greenOct := (m.greenOct + len) % 2 ^ 64 } s)
    | .yellow =>
      if s.ts.ythresh < level then
        (false, meterAlert f (putMeter f { m with yellowDrop := sat 32 (m.yellowDrop + 1) } s))
      else (true, putMeter f { m with yellow := sat 32 (m.yellow + 1), yellowOct := (m.yellowOct + len) % 2 ^ 64 } s)
    | .red => (false, meterAlert f (putMeter f { m with red := sat 32 (m.red + 1) } s))

end Sys2Proof.Machine
end

