-- ==== Sys2Proof/Machine/Publish.lean ====
section
/-! DEFINITION. Publishing a slot and what it starts: FST senders and FOLLOW transfers (R131, R134,
R135, R368, R435). -/
namespace Sys2Proof.Machine
open Sys2Proof

/-- The parameters of an egress flow with a staged change taken; of another surface it has sent nothing yet. -/
def takeStaged (e : Egress) : Egress :=
  let c := e.staged.getD e.cfg
  { e with cfg := c, staged := none, lastSent := if c.surface = e.cfg.surface then e.lastSent else none }

/-- A staged change of a flow takes effect (R381). -/
def takeChange (f : Nat) (s : State) : State :=
  let e := egressOf s f
  if e.staged.isNone then s else settleSending f (putEgress f (takeStaged e) s)

/-- An idle FST sender sends NEWEST if it has not sent it (R368). A staged change of the flow is taken
before its next slot (R381). -/
def fstNext (f : Nat) (s0 : State) : State :=
  let e0 := egressOf s0 f
  let s := if e0.cfg.kind = 2 && e0.fst.isNone then takeChange f s0 else s0
  let e := egressOf s f
  let sf := surfOf s e.cfg.surface
  let seq := (slotOf sf sf.newest).seq
  if quiesced s || e.cfg.kind != 2 || e.stopped || e.fst.isSome || !sf.valid || sf.lost || sf.newest == noSlot
      || e.lastSent == some seq then s
  else
    let n := skippedBetween e.lastSent seq
    let s := putEgress f { e with fst := some { slot := sf.newest, seq := seq },
                                  skipped := sat 32 (e.skipped + n) } s
    let s := pinSlot e.cfg.surface sf.newest (pinFst f) s
    if n = 0 then s else compareUnit (unitFlow f) (egressAlert f s)

/-- What a publish of a surface starts. -/
def afterPublish (i : Nat) (s : State) : State :=
  let fs := (s.ne.egress.filter fun e => e.2.cfg.kind == 2 && e.2.cfg.surface == i).map (·.1)
  let xs := (s.cf.xfers.filter fun e => e.2.surface == i).map (·.1)
  forAll xs followNext (forAll fs fstNext s)

/-- An automatic writer publishes its write slot and claims another (R131, R132, R135). -/
def publishAuto (i capture : Nat) (incomplete : Bool) (loss : Nat) (s : State) : State :=
  let x := surfOf s i
  if x.wslot == noSlot then s
  else
    let c := clampCapture x capture
    let x := publishSlot c.1 (now s) s.clk.ticks incomplete loss x
    let x := if c.2 then { x with clamps := sat 32 (x.clamps + 1) } else x
    let s := putSurf i (if sSlots x = 1 then x else claimAuto s.clk.ticks x) s
    afterPublish i (if c.2 then raise 326 s else s)

/-- An automatic writer finds no write slot at the start of a frame (R134). -/
def noWriteSlot (i : Nat) (s : State) : State :=
  let x := surfOf s i
  raise 324 (putSurf i { x with noWrite := sat 32 (x.noWrite + 1) } s)

/-- Bytes of a slot copied from the NEWEST slot into the write slot, both in class C3. -/
def copyFromNewest (x : Surface) (off n : Nat) (s : State) : State :=
  let a := slotAddr x x.newest + off
  if x.wslot = noSlot then s else memWrite (slotAddr x x.wslot + off) (memRead s a n) (countRead a n s)

/-- Write into the write slot of a surface. -/
def writeSlot (x : Surface) (off : Nat) (b : List Byte) (s : State) : State :=
  if x.wslot = noSlot then s else memWrite (slotAddr x x.wslot + off) b s

end Sys2Proof.Machine
end

