-- ==== Sys2Proof/Machine/NeOps.lean ====
section
/-! DEFINITION. The network engine's shared operations (chapter 09): ports and lanes, multicast
membership, ingest legs, the sequence window and frame assignment. -/
namespace Sys2Proof.Machine
open Sys2Proof

/-! ### Ports (R347, R374) -/

/-- Lanes of a port and MODE of R347; none where the pair is not in the table. -/
def modeLanes (p m : Nat) : Option Nat :=
  match m with
  | 0 => some 0
  | 1 => some (shl 1 p)
  | 2 => if p % 2 = 0 then some (shl 3 p) else none
  | 3 => if p % 4 = 0 then some (shl 0xF p) else none
  | 4 => if p = 0 then some 0xFF else none
  | _ => none

/-- Ethernet lanes: those of the quads strapped to Ethernet (R346). -/
def etherLanes (s : State) : Nat := (if s.ne.q0eth then 0xF else 0) + (if s.ne.q1eth then 0xF0 else 0)

/-- A port is enabled. -/
def portOn (s : State) (p : Nat) : Bool := (ethOf s p).mode != 0

/-- Re-evaluate SENDING of the enabled flows of a port. -/
def settleFlows (p : Nat) (s : State) : State := forAll (queuesOf s p) settleSending s

/-- UP of a port changes: source 384 + 4p (R378), its flows follow, and the port is compared. -/
def setPortUp (p : Nat) (v : Bool) (s : State) : State :=
  let e := ethOf s p
  if e.up = v then settleFlows p s
  else compareUnit (unitPort p) (settleFlows p (raise (384 + 4 * p) (putEth p { e with up := v } s)))

/-- Count an error frame; source 384 + 4p + 3 when the count leaves zero. -/
def rxError (p : Nat) (s : State) : State :=
  let e := ethOf s p
  let s1 := putEth p { e with rxerr := sat 32 (e.rxerr + 1) } s
  if e.rxerr = 0 then raiseUnit (unitPort p) (384 + 4 * p + 3) s1 else s1

/-! ### Multicast membership (R353, R354) -/

/-- The entry a leg holds when its destination is multicast. -/
def legEntry (l : Leg) : Option Join :=
  if l.valid && isMulticast l.ipv6 l.dst then some ⟨l.port, l.ipv6, l.ssm, l.dst, if l.ssm then l.src else 0⟩
  else none

/-- The legs of an ingest flow that are in use. -/
def legsOf (x : Ingest) : List Leg :=
  if x.kind = 0 then [] else if x.merge then [x.legA, x.legB] else [x.legA]

/-- Entries of a port, without repeats. -/
def membership (s : State) (p : Nat) : List Join :=
  ((s.ne.ingress.flatMap fun e => (legsOf e.2).filterMap legEntry) ++ s.ne.joins).eraseDups.filter
    fun j => j.port == p

/-- The IPv6 link-local address of a port: modified EUI-64 of its MAC address; 0 without one (R350). -/
def llAddress (mac : Nat) : Nat :=
  if mac = 0 then 0
  else
    let hi := bits mac 47 24
    let lo := bits mac 23 0
    shl 0xFE80 112 + shl (Nat.xor hi 0x20000) 40 + shl 0xFFFE 24 + lo

/-- Kinds of `Out.fwFrame`. -/
inductive FwKind where
  | report | arpReply | advertise | echoReply | gratuitousArp | unsolicited
  deriving DecidableEq, Repr

/-- The number of a kind. -/
def FwKind.num : FwKind → Nat
  | .report => 1 | .arpReply => 2 | .advertise => 3 | .echoReply => 4 | .gratuitousArp => 5 | .unsolicited => 6

/-- Bytes of a firmware frame, destination address through FCS: the RFCs lay the frames out, and the model counts the
frame that holds its words with no padding beyond the least length (PRESUMED, notes/assumptions/82.md). -/
def fwFrameLen (ipv6 : Bool) (body : Nat) : Nat := max 64 (14 + (if ipv6 then 40 else 20) + body + 4)

/-- Firmware sends a frame on a port: it is counted as sent, or where the link carries nothing dropped and counted
(R371, R375). -/
def sendFw (p len kind : Nat) (words : List Nat) (s : State) : State :=
  let e := ethOf s p
  if e.up && !e.retraining then
    emit (.fwFrame p kind words) (putEth p { e with txfr := (e.txfr + 1) % 2 ^ 64, txoct := (e.txoct + len) % 2 ^ 64 } s)
  else putEth p { e with txdrop := sat 32 (e.txdrop + 1) } s

/-- The membership version in force on a port: that of an older querier heard within 260 s, else IGMPv3 and MLDv2
(R353; RFC 3376 and RFC 3810, PRESUMED, notes/assumptions/82.md). -/
def memberVersion (s : State) (p : Nat) (ipv6 : Bool) : Nat :=
  match (if ipv6 then (ethOf s p).mldOld else (ethOf s p).igmpOld) with
  | some (v, at_) => if s.clk.ticks < at_ + secTicks 260 then v else if ipv6 then 2 else 3
  | none => if ipv6 then 2 else 3

/-- Source filters are signalled in this version. -/
def signalsSources (ipv6 : Bool) (v : Nat) : Bool := v == if ipv6 then 2 else 3

/-- A report of some entries of a port's membership set: version, then per entry group, filter and source; in a
compatibility mode the groups alone (R353). -/
def sendReport (p : Nat) (ipv6 : Bool) (l : List Join) (s : State) : State :=
  let v := memberVersion s p ipv6
  let l := l.filter fun j => j.ipv6 == ipv6
  let words := if signalsSources ipv6 v then l.flatMap fun j => [j.group, b2n j.ssm, j.source]
    else (l.map (·.group)).eraseDups
  if l.isEmpty then s else sendFw p (fwFrameLen ipv6 (8 + 4 * words.length)) FwKind.report.num (b2n ipv6 :: v :: words) s

/-- Membership of a port changed: firmware reports what was added, and what is left as an entry no more (R353). -/
def reportChange (p : Nat) (old : List Join) (s : State) : State :=
  let new := membership s p
  let diff := (new.filter fun j => !old.contains j) ++ old.filter fun j => !new.contains j
  sendReport p true diff (sendReport p false diff s)

/-- Report on every port whose membership a change altered. -/
def reportChanges (before : State) (s : State) : State :=
  forAll (List.range 8) (fun p s => reportChange p (membership before p) s) s

/-- Address filter of R350; control traffic is addressed to firmware or the timekeeper. -/
def acceptsAddress (s : State) (p : Nat) (b : List Byte) : Bool :=
  let da := rdBE b 0 6
  (da == (ethOf s p).mac && da != 0) || da == 0xFFFFFFFFFFFF
    || (membership s p).any (fun j => multicastMac j.ipv6 j.group == da)
    || (rdBE b 0 1 % 2 == 1 && parseFrame b == .control)

/-! ### Legs (R355) -/

/-- A packet matches a leg of a port. -/
def legMatches (p : Nat) (u : UdpRx) (l : Leg) : Bool :=
  l.valid && l.port == p && (if l.vlan then u.vid == some l.vid else u.vid.isNone)
    && l.ipv6 == u.ipv6 && l.dst == u.dst && l.udp == u.dport && (!l.ssm || l.src == u.src)

/-- The flow and leg (false: A) that a packet takes: SSM first. -/
def matchLeg (s : State) (p : Nat) (u : UdpRx) : Option (Nat × Bool) :=
  let hits := s.ne.ingress.flatMap fun e =>
    ((legsOf e.2).zip [false, true]).filterMap fun l =>
      if legMatches p u l.1 then some (e.1, l.2, l.1.ssm) else none
  let pick := (hits.find? fun h => h.2.2).or hits.head?
  pick.map fun h => (h.1, h.2.1)

/-- Two legs have identical match fields. -/
def sameMatch (a b : Leg) : Bool :=
  a.port == b.port && a.ipv6 == b.ipv6 && a.vlan == b.vlan && (!a.vlan || a.vid == b.vid)
    && a.udp == b.udp && a.dst == b.dst && a.ssm == b.ssm && (!a.ssm || a.src == b.src)

/-! ### The sequence window (R359, R361) -/

/-- a is newer than b modulo 2^32 (R360). -/
def newer (a b : Nat) : Bool :=
  let d := (a + 2 ^ 32 - b) % 2 ^ 32
  decide (1 ≤ d ∧ d < 2 ^ 31)

/-- What the window says of a sequence number. -/
inductive WinRes where
  | used | dup | late
  deriving DecidableEq, Repr

/-- Pass a sequence number through the window: LOST counts the numbers skipped and is taken back when one
of them comes. -/
def window (q : Nat) (x : Ingest) : WinRes × Ingest :=
  match x.highest with
  | none => (.used, { x with highest := some q, recv := [q], first := q, lossBase := (q + 2 ^ 32 - 1) % 2 ^ 32 })
  | some h =>
    if newer q h then
      let near := fun (n : Nat) => decide ((q + 2 ^ 32 - n) % 2 ^ 32 ≤ 32767)
      (.used, { x with highest := some q, recv := q :: x.recv.filter near,
                       lostCnt := sat 32 (x.lostCnt + ((q + 2 ^ 32 - h) % 2 ^ 32 - 1)) })
    else if 32767 < (h + 2 ^ 32 - q) % 2 ^ 32 then (.late, { x with late := sat 32 (x.late + 1) })
    else if x.recv.contains q then (.dup, { x with dup := sat 32 (x.dup + 1) })
    else (.used, { x with recv := q :: x.recv,
                          lostCnt := if newer q x.first then x.lostCnt - 1 else x.lostCnt })

/-! ### Frames (R360 to R362, R370) -/

/-- Capture time of R362. -/
def rtpCapture (a ts : Nat) : Nat :=
  let a90 := a * 9 / 100000
  let k := (((a90 : Int) - ts) % ((2 ^ 32 : Nat) : Int)).toNat
  let c := if k < 2 ^ 31 then a90 - k else a90 + (2 ^ 32 - k)
  cdiv (c * 100000) 9

/-- Bytes of one line of a pgroup surface. -/
def wireLine (x : Surface) : Nat := sWidth x / (pgroup x.format).2 * (pgroup x.format).1

/-- Whether spans cover [pos, n). -/
def covers (spans : List (Nat × Nat)) (n : Nat) : Nat → Nat → Bool
  | 0, pos => decide (n ≤ pos)
  | k + 1, pos =>
    if n ≤ pos then true
    else
      let far := maxOf ((spans.filter fun e => decide (e.1 ≤ pos)).map (·.2))
      if far ≤ pos then false else covers spans n k far

/-- A line of the open frame received all its bytes. -/
def lineFull (x : Ingest) (n y : Nat) : Bool :=
  let l := Tbl.get x.lineSegs [] y
  covers l n (l.length + 1) 0

/-- Sequence numbers of the frame that were not received (R361). -/
def frameLoss (x : Ingest) : Nat := (x.frHigh + 2 ^ 32 - x.lossBase) % 2 ^ 32 - x.used

/-- The flow has no open frame any more. -/
def closedFlow (x : Ingest) : Ingest :=
  { x with st := .idle, last := some x.cur, lossBase := x.frHigh, used := 0, lineSegs := [], tiles := [] }

/-- Publish the frame of a flow and count it. -/
def publishFlow (f : Nat) (incomplete : Bool) (loss : Nat) (s : State) : State :=
  let x := ingestOf s f
  let s := publishAuto x.surface x.capture incomplete loss s
  let s := putIngest f { x with frames := sat 32 (x.frames + 1), lastCap := ((surfOf s x.surface).lastCap).getD 0,
                                incomplete := if incomplete then sat 32 (x.incomplete + 1) else x.incomplete } s
  if incomplete then ingestAlert f s else s

/-- Count a discarded frame. -/
def discardFrame (f : Nat) (s : State) : State :=
  let x := ingestOf s f
  ingestAlert f (putIngest f { x with discarded := sat 32 (x.discarded + 1) } s)

/-- Close an open ST 2110-20 frame: publish, fill or discard (R361). -/
def closeVideo (f : Nat) (marker : Bool) (s : State) : State :=
  let x := ingestOf s f
  let sf := surfOf s x.surface
  let n := wireLine sf
  let loss := frameLoss x
  let short := (List.range (sHeight sf)).filter fun y => !lineFull x n y
  if marker && short.isEmpty && loss == 0 then publishFlow f false 0 s
  else if x.fill = 2 then discardFrame f s
  else
    let s := if x.fill = 0 && sf.newest != noSlot then
        forAll short (fun y s => copyFromNewest sf (sf.pitch * 256 * y) n s) s
      else s
    publishFlow f true loss s

/-- Slot offset of an FTC-F tile by its index. -/
def tileOffset (x : Surface) (i : Nat) : Nat :=
  i / tilesX (sWidth x) * (x.pitch * 256) + i % tilesX (sWidth x) * tileBytes x.budget

/-- Close an open FST frame: missing tiles are copied or zeroed (R370). -/
def closeFst (f : Nat) (s : State) : State :=
  let x := ingestOf s f
  let sf := surfOf s x.surface
  let n := tileBytes sf.budget
  let missing := (List.range (tilesX (sWidth sf) * tilesY (sHeight sf))).filter fun i => !x.tiles.contains i
  let s := forAll missing (fun i s =>
    if sf.newest = noSlot then writeSlot sf (tileOffset sf i) (List.replicate n 0#8) s
    else copyFromNewest sf (tileOffset sf i) n s) s
  publishFlow f (0 < missing.length) missing.length s

/-- close(cur, marker) of R360. A frame being discarded was counted when it began. -/
def closeFrame (f : Nat) (marker : Bool) (s : State) : State :=
  let x := ingestOf s f
  let s := match x.st with
    | .opened => if x.kind = 2 then closeFst f s else closeVideo f marker s
    | _ => s
  putIngest f (closedFlow (ingestOf s f)) s

/-- The packets of a flow that wait are dropped with its open frame. -/
def dropWaiting (f : Nat) (s : State) : State :=
  { s with ne := { s.ne with ibuf := s.ne.ibuf.filter fun q => q.flow != f } }

/-- An open frame is closed without publishing (R363). -/
def abandonFrame (f : Nat) (s : State) : State :=
  let x := ingestOf s f
  let s := if x.st = .opened then putIngest f { x with discarded := sat 32 (x.discarded + 1) } s else s
  dropWaiting f (putIngest f (closedFlow (ingestOf s f)) s)

/-- What the open frame has received of a packet. -/
def notePacket (q : FlowPkt) (x : Ingest) : Ingest :=
  { x with lineSegs := q.segs.foldl (fun l e => Tbl.upd l [] e.1 ((e.2.1, e.2.2) :: ·)) x.lineSegs,
           tiles := q.ids.foldl (fun l i => if l.contains i then l else i :: l) x.tiles }

/-- Begin a frame (R360): without a write slot it is discarded (R134), and so it is in P2 (R545). -/
def beginFlow (f : Nat) (q : FlowPkt) (s : State) : State :=
  let x := ingestOf s f
  let x := { x with cur := q.key, capture := q.capture, frHigh := q.seq, lineSegs := [], tiles := [] }
  if quiesced s then discardFrame f (putIngest f { x with st := .discarding } s)
  else if (surfOf s x.surface).wslot = noSlot then
    discardFrame f (noWriteSlot x.surface (putIngest f { x with st := .discarding } s))
  else useSlot x.surface (putIngest f { x with st := .opened } s)

/-- Write a packet of the open frame and close the frame on its marker. -/
def writePacket (f : Nat) (q : FlowPkt) (s : State) : State :=
  let x := ingestOf s f
  let x := { x with frHigh := if newer q.seq x.frHigh then q.seq else x.frHigh }
  if x.st = .opened then
    let sf := surfOf s x.surface
    let s := forAll q.parts (fun e s => writeSlot sf e.1 e.2 s) (putIngest f (notePacket q x) s)
    if q.marker then closeFrame f true s else s
  else putIngest f x s

/-- Count a packet as late for its frame. -/
def lateFrame (f : Nat) (s : State) : State :=
  let x := ingestOf s f
  putIngest f { x with late := sat 32 (x.late + 1) } s

/-- A packet of a later frame closes the open one (R360). -/
def closesOpen (x : Ingest) (q : FlowPkt) : Bool :=
  x.st != .idle && q.key != x.cur && newer q.key x.cur && !q.isEnd

/-- Frame assignment (R360). -/
def assignPacket (f : Nat) (q : FlowPkt) (s : State) : State :=
  let s := if closesOpen (ingestOf s f) q then closeFrame f false s else s
  let x := ingestOf s f
  let s := if newer q.seq x.lossBase then putIngest f { x with used := x.used + 1 } s else s
  if x.st != .idle && q.key == x.cur then writePacket f q s
  else if q.isEnd then s
  else if x.st != .idle then lateFrame f s
  else if (match x.last with
      | some l => !newer q.key l
      | none => false) then lateFrame f s
  else writePacket f q (beginFlow f q s)

/-! ### The ingest buffer (R356) -/

/-- KiB that the packets in the buffer take. -/
def ibufKib (s : State) : Nat := cdiv (sumOf (s.ne.ibuf.map (·.len))) 1024

/-- Memory serves what a packet asks of it in class C3: its own writes, and as it closes a frame the copies and the
publish, which follow every write (R361; DEDUCED, notes/assumptions/87.md). -/
def packetServed (s : State) (q : IngestPkt) : Bool :=
  let x := ingestOf s q.flow
  let sf := surfOf s x.surface
  if q.pkt.marker || closesOpen x q.pkt then servedAll s 3
  else sf.wslot == noSlot || q.pkt.parts.all fun e => served s 3 (slotAddr sf sf.wslot + e.1) e.2.length

/-- Steps 8 and 9 for a packet in the buffer: it waits behind earlier packets of its flow, and while memory does not
serve it. -/
def takePacket (q : IngestPkt) (s : State) : State :=
  if s.ne.ibuf.any (fun y => y.flow == q.flow) || !packetServed s q then
    { s with ne := { s.ne with ibuf := s.ne.ibuf ++ [q] } }
  else assignPacket q.flow q.pkt s

/-- The packets of the buffer go on where memory serves them. -/
def drainIngest (s : State) : State := forAll s.ne.ibuf takePacket { s with ne := { s.ne with ibuf := [] } }

/-- A packet enters the buffer (step 7): the time of the flow's last packet is noted. -/
def bufferPacket (q : IngestPkt) (s : State) : State :=
  let s1 := drainIngest s
  takePacket q (putIngest q.flow { ingestOf s1 q.flow with lastPkt := s.clk.ticks } s1)

end Sys2Proof.Machine
end

