-- ==== Sys2Proof/Machine/Ingest.lean ====
section
/-! DEFINITION. Receiving (R356 to R362, R369, R370): ETH_FRAME_RX, INGEST_FRAME_TIMEOUT and firmware's
answers. -/
namespace Sys2Proof.Machine
open Sys2Proof

/-! ### Header checks -/

/-- Step 4 for ST 2110-20 (R358): the packet, or nothing when it is malformed. -/
def rtpCheck (x : Ingest) (sf : Surface) (arrival : Nat) (b : List Byte) : Option FlowPkt :=
  let pg := pgroup sf.format
  let ok := decide (14 ≤ b.length) && rdBE b 0 1 / 64 == 2 && rdBE b 0 1 % 16 == 0
    && rdBE b 1 1 % 128 == x.pt && (!x.ssrcEn || rdBE b 8 4 == x.ssrc)
  match (if ok then readSrds 4 (b.drop 14) else none) with
  | none => none
  | some (srds, data) =>
    let good := srds.all fun d =>
      decide (d.row < sHeight sf) && d.off % pg.2 == 0 && d.len % pg.1 == 0
        && decide (d.off + d.len / pg.1 * pg.2 ≤ sWidth sf)
    if !good || sumOf (srds.map (·.len)) != data.length then none
    else
      let starts := (List.range srds.length).map fun i => sumOf ((srds.take i).map (·.len))
      let parts := srds.zip starts
      some { seq := rdBE b 12 2 * 65536 + rdBE b 2 2, key := rdBE b 4 4, marker := tbit (rdBE b 1 1) 7,
             isEnd := false, capture := rtpCapture arrival (rdBE b 4 4),
             parts := parts.map fun e =>
               (sf.pitch * 256 * e.1.row + e.1.off / pg.2 * pg.1, (data.drop e.2).take e.1.len),
             segs := parts.map fun e => (e.1.row, e.1.off / pg.2 * pg.1, e.1.off / pg.2 * pg.1 + e.1.len),
             ids := [] }

/-- Step 4 for FST (R369). -/
inductive FstCheck where
  | malformed | mismatch
  | ok (q : FlowPkt)

/-- Check an FST packet. -/
def fstCheck (x : Ingest) (sf : Surface) (b : List Byte) : FstCheck :=
  let h := readFst b
  let n := tileBytes h.budget
  let tiles := tilesX (sWidth sf) * tilesY (sHeight sf)
  if b.length < 36 || h.version != 1 || 1 < h.ty || tiles < h.first + h.tcount
      || b.length != 36 + h.tcount * n then .malformed
  else if h.handle != x.handle || h.format != sf.format || h.budget != sf.budget
      || h.widthM1 != sf.widthM1 || h.heightM1 != sf.heightM1 then .mismatch
  else
    let ids := (List.range h.tcount).map (h.first + ·)
    .ok { seq := h.pseq, key := h.slotSeq, marker := h.last || h.ty == 1, isEnd := h.ty == 1,
          capture := h.capture,
          parts := ids.map fun i => (tileOffset sf i, (b.drop (36 + (i - h.first) * n)).take n), segs := [], ids := ids }

/-! ### A frame arrives (R356) -/

/-- Steps 5 to 9 for a packet of a flow that passed its header checks. `len` is the frame's length and `level` the KiB
that packets take whose writes are on their way to memory; packets that wait because memory does not serve them are
held in the buffer (DESIGN CHOICE, notes/assumptions/80.md). -/
def flowPacket (f : Nat) (legB : Bool) (dscp len level : Nat) (q : FlowPkt) (s : State) : State :=
  let w := window q.seq (ingestOf s f)
  match w.1 with
  | .used =>
    let x := w.2
    let s := putIngest f { x with packets := (x.packets + 1) % 2 ^ 64,
                                  cntA := if legB then x.cntA else sat 32 (x.cntA + 1),
                                  cntB := if legB then sat 32 (x.cntB + 1) else x.cntB } s
    let m := meterPacket f dscp len level s
    if !m.1 then m.2
    else
      let s := m.2
      let held := max (level * 1024) (sumOf (s.ne.ibuf.map (·.len)))
      if 4194304 < held + len then
        let s1 := { s with ne := { s.ne with ibovf := sat 32 (s.ne.ibovf + 1) } }
        if s.ne.ibovf = 0 then raise 418 s1 else s1
      else bufferPacket ⟨f, len, q⟩ { s with ne := { s.ne with ibufHwm := max s.ne.ibufHwm (cdiv (held + len) 1024) } }
  | _ => putIngest f w.2 s

/-- Steps 3 to 9 for a UDP packet. -/
def udpPacket (p len level : Nat) (u : UdpRx) (s : State) : State :=
  match matchLeg s p u with
  | none =>
    let e := ethOf s p
    putEth p { e with rxnoflow := sat 32 (e.rxnoflow + 1) } s
  | some (f, legB) =>
    let x := ingestOf s f
    let sf := surfOf s x.surface
    let bump := fun (s : State) => putIngest f { x with malformed := sat 32 (x.malformed + 1) } s
    if x.kind = 2 then
      match fstCheck x sf u.payload with
      | .malformed => bump s
      | .mismatch => ingestAlert f (putIngest f { x with mismatch := sat 32 (x.mismatch + 1) } s)
      | .ok q => flowPacket f legB u.dscp len level q s
    else
      match rtpCheck x sf (now s) u.payload with
      | none => bump s
      | some q => flowPacket f legB u.dscp len level q s

/-- A frame received on a port (R349, R350, R356). -/
def frameRx (p level : Nat) (b : List Byte) (s : State) : State :=
  let e := ethOf s p
  if !portCarries s p then s
  else if !frameOk e.mtu b then rxError p s
  else
    let s := putEth p { e with rxfr := (e.rxfr + 1) % 2 ^ 64, rxoct := (e.rxoct + b.length) % 2 ^ 64 } s
    if !acceptsAddress s p b then s
    else match parseFrame b with
      | .error => rxError p s
      | .control => s
      | .udp u => udpPacket p b.length level u s

/-- Count codewords that FEC corrected on a port that is up. -/
def countFixed (p n : Nat) (s : State) : State :=
  let e := ethOf s p
  if e.up then putEth p { e with feccor := (e.feccor + n) % 2 ^ 64 } s else s

/-- ETH_FRAME_RX: `frame` runs from destination address through FCS; `level` is the occupancy of the
ingest buffer in KiB at that moment by packets whose writes memory is taking, which depends on how fast it does; `fixed` is how many
FEC codewords the port has corrected since the frame before. Control traffic is taken out;
FW_FRAME_SERVICE and PTP_MESSAGE_RX say what becomes of it. -/
def execEthFrameRx (t : Ticks) (port level fixed : Nat) (frame : List Byte) (s : State) :
    Host.Outcome State Fault Refusal :=
  whenRunning t (fun s => if port < 8 then frameRx port level frame (countFixed port fixed s) else s) s

/-- An address of a port's own: its IPv4 address, or its IPv6 global or link-local address (R350). -/
def ownAddress (s : State) (p : Nat) (ipv6 : Bool) (a : Nat) : Bool :=
  let e := ethOf s p
  a != 0 && (if ipv6 then a == e.ipv6 || a == llAddress e.mac else a == e.ipv4)

/-- A querier of an older version has been heard. -/
def noteQuerier (p : Nat) (ipv6 : Bool) (v : Nat) (s : State) : State :=
  let e := ethOf s p
  let old := some (min v (memberVersion s p ipv6), s.clk.ticks)
  if signalsSources ipv6 v then s
  else putEth p (if ipv6 then { e with mldOld := old } else { e with igmpOld := old }) s

/-- What firmware answers for a port's own addresses (R351, R353). -/
def fwAnswer (p : Nat) (x : FwRequest) (s : State) : State :=
  let e := ethOf s p
  match x with
  | .arp a => if ownAddress s p false a then sendFw p 64 FwKind.arpReply.num [e.mac, a] s else s
  | .solicit a => if ownAddress s p true a then sendFw p (fwFrameLen true 32) FwKind.advertise.num [e.mac, a] s else s
  | .echo ipv6 a data =>
    if ownAddress s p ipv6 a then
      sendFw p (fwFrameLen ipv6 (4 + data.length)) FwKind.echoReply.num (b2n ipv6 :: a :: data.map (·.toNat)) s
    else s
  | .query ipv6 v g =>
    let s := noteQuerier p ipv6 v s
    sendReport p ipv6 ((membership s p).filter fun j => g == 0 || j.group == g) s
  | .other => s

/-- FW_FRAME_SERVICE: firmware takes a frame of a port and answers it (R351), at most 10,000 in a second
of device time. -/
def execFwFrameService (t : Ticks) (port : Nat) (x : FwRequest) (s : State) :
    Host.Outcome State Fault Refusal :=
  whenRunning t (fun s =>
    if !(port < 8 && portCarries s port) then s
    else
      let e := ethOf s port
      let sec := now s / 1000000000
      let n := if e.fwSecond = sec then e.fwCount else 0
      if 10000 ≤ n then putEth port { e with fwdrop := sat 32 (e.fwdrop + 1) } s
      else
        fwAnswer port x (putEth port { e with fwSecond := sec, fwCount := n + 1 } s)) s

/-- INGEST_FRAME_TIMEOUT: no packet for 100 ms while a frame is open or being discarded (R360). -/
def execIngestFrameTimeout (t : Ticks) (flow : Nat) (s : State) : Host.Outcome State Fault Refusal :=
  whenRunning t (fun s =>
    let x := ingestOf s flow
    if flow < 4096 && x.st != .idle && decide (x.lastPkt + msTicks 100 ≤ s.clk.ticks)
      && !s.ne.ibuf.any (fun q => q.flow == flow) && servedAll s 3
    then closeFrame flow false s else s) s

end Sys2Proof.Machine
end

