-- ==== Sys2Proof/Machine/Network.lean ====
section
/-! DEFINITION. The network engine's commands (group 0x07), its links, FST senders and the degrade of a
port (R348, R363 to R374, R379 to R382). -/
namespace Sys2Proof.Machine
open Sys2Proof

/-! ### PORT_CONFIG (R348, R379, R381) -/

/-- An enabled ingest leg or egress flow names a port. -/
def portNamed (s : State) (p : Nat) : Bool :=
  s.ne.ingress.any (fun e => (legsOf e.2).any fun l => l.port == p)
    || s.ne.egress.any fun e => e.2.cfg.kind != 0 && e.2.cfg.port == p

/-- Fields of PORT_CONFIG. -/
def portConfigBits : Fields :=
  [(0, 1, 7), (1, 1, 0x17), (2, 2, 0x3FFF), allBits 4 6, allBits 12 4, allBits 16 16]

/-- The port as PORT_CONFIG sets it; the link restarts. -/
def configuredPort (p : Packet) (mode lanes : Nat) (e : EthPort) : EthPort :=
  { e with cfgMode := mode, mode := mode, cr := prmbit p 1 4, mtu := prmb p 2 2 13 0, mac := prm p 4 6,
           ipv4 := prm p 12 4, ipv6 := prm p 16 16, lanes := lanes, coming := mode != 0,
           retraining := false, degraded := false, attempts := 0, adopt := false }

/-- PORT_CONFIG. -/
def portConfigBody (p : Packet) (s : State) : Res :=
  let i := prmb p 0 1 2 0
  let mode := prmb p 1 1 2 0
  let mtu := prmb p 2 2 13 0
  let e := ethOf s i
  require (onlyBits p portConfigBits && decide (1518 ≤ mtu ∧ mtu ≤ 9216)) badParam <|
  match modeLanes i mode with
  | none => badParam
  | some lanes =>
    require (Nat.land lanes (etherLanes s) == lanes) badParam <|
    require ((List.range 8).all fun q => q == i || Nat.land lanes (ethOf s q).lanes == 0) busy <|
    require (Nat.land lanes s.ne.deadLanes == 0) retired <|
    require (mode != 0 || !portNamed s i) busy <|
      let s1 := putEth i (configuredPort p mode lanes e) s
      let check := e.mode != 0 && (e.mode != mode || e.mtu != mtu)
      verdictRes (if check then checkPort s1 i (tsPortOf s1 i) else none) <|
        let s2 := setMgmt (unitPort i) (portWord (mode != 0) lanes) s1
        let s3 := reportChanges s (setPortUp i false s2)
        .ok (some (portData s3 i)) none s3

def specPortConfig : CmdSpec :=
  { opcode := 0x700, units := fun p _ => [unitPort (prmb p 0 1 2 0)], body := portConfigBody }
/-- PORT_CONFIG. -/
def execPortConfig (t : Ticks) (p : Packet) (s : State) := runPacket specPortConfig t p s

/-! ### Ingest flows -/

/-- Bits of a leg at an offset (R380). -/
def legBits (o : Nat) : Fields :=
  [(o, 1, 0x7F), (o + 2, 2, 0xFFF), allBits (o + 4) 2, allBits (o + 8) 16, allBits (o + 24) 16]

/-- An address field: IPv6, or IPv4 in its last four bytes (R379). -/
def prmAddr (p : Packet) (ipv6 : Bool) (off : Nat) : Nat :=
  if ipv6 then prm p off 16 else prm p (off + 12) 4
/-- The bytes an IPv4 address leaves are zero. -/
def addrOk (p : Packet) (ipv6 : Bool) (off : Nat) : Bool := ipv6 || prm p off 12 == 0

/-- Read a leg. -/
def prmLeg (p : Packet) (o : Nat) : Leg :=
  let ipv6 := prmbit p o 4
  { port := prmb p o 1 2 0, valid := prmbit p o 3, ipv6 := ipv6, ssm := prmbit p o 5, vlan := prmbit p o 6,
    vid := prmb p (o + 2) 2 11 0, udp := prm p (o + 4) 2, dst := prmAddr p ipv6 (o + 8),
    src := prmAddr p ipv6 (o + 24) }

/-- The leg is VALID, its addresses are well formed and its port is enabled. -/
def legOk (p : Packet) (s : State) (o : Nat) : Bool :=
  let l := prmLeg p o
  l.valid && addrOk p l.ipv6 (o + 8) && addrOk p l.ipv6 (o + 24) && portOn s l.port

/-- No other enabled leg has the same match fields. -/
def legsUnique (s : State) (f : Nat) (ls : List Leg) : Bool :=
  let others := s.ne.ingress.flatMap fun e => if e.1 = f then [] else legsOf e.2
  ls.all (fun l => !others.any (sameMatch l))
    && (match ls with
      | [a, b] => !sameMatch a b
      | _ => true)

/-- Every port holds at most 1,024 entries (R354). -/
def membershipFits (s : State) : Bool := (List.range 8).all fun p => (membership s p).length ≤ 1024

/-- Another ingest flow is bound to a surface. -/
def boundElsewhere (s : State) (f surf : Nat) : Bool :=
  s.ne.ingress.any fun e => e.1 != f && e.2.kind != 0 && e.2.surface == surf

/-- A flow as it starts receiving: the window and the frame state are new, the counters too when it was
not enabled (R361, R363, R382). -/
def startIngest (old : Ingest) (x : Ingest) : Ingest :=
  if old.kind = 0 then x
  else { x with packets := old.packets, lostCnt := old.lostCnt, dup := old.dup, late := old.late,
                malformed := old.malformed, mismatch := old.mismatch, frames := old.frames,
                incomplete := old.incomplete, discarded := old.discarded, cntA := old.cntA, cntB := old.cntB,
                lastCap := old.lastCap }

/-- Disable an ingest flow (R363). -/
def stopIngest (f : Nat) (s : State) : State :=
  let s1 := abandonFrame f s
  let x := ingestOf s1 f
  reportChanges s (putIngest f { x with kind := 0, enabled := false, surface := 0, merge := false } s1)

/-- Enable or change an ingest flow. -/
def setIngest (f : Nat) (x : Ingest) (s : State) : State :=
  let s1 := if (ingestOf s f).kind = 0 then s else abandonFrame f s
  reportChanges s (putIngest f (startIngest (ingestOf s1 f) x) s1)

/-- Shared checks of the two commands that bind an ingest flow to a surface. -/
def bindIngest (p : Packet) (s : State) (f : Nat) (x : Ingest) (offs : List Nat) (surfOk : Bool) : Res :=
  require (!(surfOf s x.surface).valid || !(surfOf s x.surface).crystal) (bad 0x10E) <|
  require (surfOk && offs.all (legOk p s)) badParam <|
  require (!boundElsewhere s f x.surface) busy <|
  require (legsUnique s f (legsOf x)) busy <|
    let s1 := setIngest f x s
    require (membershipFits s1) noResource <| okay s1

/-- INGEST_FLOW_SET (R358, R379, R381). -/
def ingestFlowSetBody (p : Packet) (s : State) : Res :=
  let f := prmb p 0 2 11 0
  let old := ingestOf s f
  let merge := prmbit p 2 1
  let surf := prmb p 4 2 13 0
  let sf := surfOf s surf
  let fields : Fields := [(0, 2, 0xFFF), (2, 1, 0xF), (3, 1, 0x7F), (4, 2, 0x3FFF), allBits 8 4, (12, 1, 1)]
    ++ legBits 16 ++ (if merge then legBits 64 else [allBits 64 48])
  require (onlyBits p fields) badParam <|
  if !prmbit p 2 0 then okay (stopIngest f s)
  else
    require (old.kind != 2) busy <|
    require (prmb p 2 1 3 2 != 3) badParam <|
      bindIngest p s f
        { kind := 1, enabled := true, merge := merge, fill := prmb p 2 1 3 2, pt := prmb p 3 1 6 0,
          surface := surf, ssrc := prm p 8 4, ssrcEn := prmbit p 12 0, legA := prmLeg p 16,
          legB := if merge then prmLeg p 64 else {} }
        (if merge then [16, 64] else [16])
        (sf.valid && sf.writer == 1 && decide (0x20 ≤ sf.format ∧ sf.format ≤ 0x28) && sf.comp == 0)

def specIngestFlowSet : CmdSpec :=
  { opcode := 0x701,
    owns := fun p s => ingestOwner s (prmb p 0 2 11 0) == p.func
      && (!prmbit p 2 0 || surfOwner s (prmb p 4 2 13 0) == p.func),
    body := ingestFlowSetBody }
/-- INGEST_FLOW_SET. -/
def execIngestFlowSet (t : Ticks) (p : Packet) (s : State) := runPacket specIngestFlowSet t p s

/-- FST_SUBSCRIBE (R369, R379, R381). -/
def fstSubscribeBody (p : Packet) (s : State) : Res :=
  let f := prmb p 0 2 11 0
  let surf := prmb p 4 2 13 0
  let sf := surfOf s surf
  require (onlyBits p ([(0, 2, 0xFFF), (4, 2, 0x3FFF), allBits 8 4] ++ legBits 16)) badParam <|
  require ((ingestOf s f).kind != 1) busy <|
    bindIngest p s f
      { kind := 2, enabled := true, surface := surf, handle := prm p 8 4, legA := prmLeg p 16 } [16]
      (sf.valid && sf.writer == 2 && sf.comp == 2)

def specFstSubscribe : CmdSpec :=
  { opcode := 0x705,
    owns := fun p s => ingestOwner s (prmb p 0 2 11 0) == p.func && surfOwner s (prmb p 4 2 13 0) == p.func,
    body := fstSubscribeBody }
/-- FST_SUBSCRIBE. -/
def execFstSubscribe (t : Ticks) (p : Packet) (s : State) := runPacket specFstSubscribe t p s

/-- FST_UNSUBSCRIBE (R381). -/
def fstUnsubscribeBody (p : Packet) (s : State) : Res :=
  let f := prmb p 0 2 11 0
  require (onlyBits p [(0, 2, 0xFFF)] && (ingestOf s f).kind == 2) badParam <| okay (stopIngest f s)

def specFstUnsubscribe : CmdSpec :=
  { opcode := 0x706, owns := fun p s => ingestOwner s (prmb p 0 2 11 0) == p.func, body := fstUnsubscribeBody }
/-- FST_UNSUBSCRIBE. -/
def execFstUnsubscribe (t : Ticks) (p : Packet) (s : State) := runPacket specFstUnsubscribe t p s

/-! ### Multicast joins (R354, R381) -/

/-- The entry a join or leave names. -/
def prmJoin (p : Packet) : Join :=
  let ipv6 := prmbit p 0 4
  let ssm := prmbit p 0 5
  ⟨prmb p 0 1 2 0, ipv6, ssm, prmAddr p ipv6 8, if ssm then prmAddr p ipv6 24 else 0⟩

/-- Bits of a join or leave, and its addresses. -/
def joinOk (p : Packet) : Bool :=
  let j := prmJoin p
  onlyBits p [(0, 1, 0x37), allBits 8 16, allBits 24 16] && addrOk p j.ipv6 8 && addrOk p j.ipv6 24
    && isMulticast j.ipv6 j.group

/-- MCAST_JOIN. -/
def mcastJoinBody (p : Packet) (s : State) : Res :=
  let j := prmJoin p
  require (joinOk p) badParam <|
  if s.ne.joins.contains j then okay s
  else
    let s1 := reportChanges s { s with ne := { s.ne with joins := s.ne.joins ++ [j] } }
    require (membershipFits s1) noResource <| okay s1

def specMcastJoin : CmdSpec :=
  { opcode := 0x703, units := fun p _ => [unitPort (prmb p 0 1 2 0)], body := mcastJoinBody }
/-- MCAST_JOIN. -/
def execMcastJoin (t : Ticks) (p : Packet) (s : State) := runPacket specMcastJoin t p s

/-- MCAST_LEAVE. -/
def mcastLeaveBody (p : Packet) (s : State) : Res :=
  let j := prmJoin p
  require (joinOk p && s.ne.joins.contains j) badParam <|
    okay (reportChanges s { s with ne := { s.ne with joins := s.ne.joins.erase j } })

def specMcastLeave : CmdSpec :=
  { opcode := 0x704, units := fun p _ => [unitPort (prmb p 0 1 2 0)], body := mcastLeaveBody }
/-- MCAST_LEAVE. -/
def execMcastLeave (t : Ticks) (p : Packet) (s : State) := runPacket specMcastLeave t p s

/-! ### Egress flows (R364 to R368, R379, R381) -/

/-- Largest packet of a flow in bytes (R366, R368). -/
def largestPacket (s : State) (c : EgressCfg) : Nat :=
  udpOverhead c.vlan c.ipv6
    + (if c.kind = 1 then 12 + 2 + 12 + c.blocks * 180
       else 36 + c.blocks * tileBytes (surfOf s c.surface).budget)

/-- Fields of EGRESS_FLOW_SET. -/
def egressBits : Fields :=
  [(0, 2, 0x3FF), (2, 1, 0xF), (3, 1, 7), (4, 2, 0xEFFF), (6, 1, 0x3F), allBits 7 1, allBits 8 6,
   allBits 16 2, allBits 18 2, allBits 20 16, (36, 1, 0x7F), (37, 1, 0x1F), (38, 2, 0x3FFF), allBits 40 4,
   allBits 44 4]

/-- The parameters EGRESS_FLOW_SET gives. -/
def prmEgress (p : Packet) : EgressCfg :=
  let ipv6 := prmbit p 2 2
  { kind := prmb p 2 1 1 0, ipv6 := ipv6, vlan := prmbit p 2 3, port := prmb p 3 1 2 0, vid := prmb p 4 2 11 0,
    pcp := prmb p 4 2 15 13, dscp := prmb p 6 1 5 0, ttl := prm p 7 1, dmac := prm p 8 6, sudp := prm p 16 2,
    dudp := prm p 18 2, dip := prmAddr p ipv6 20, pt := prmb p 36 1 6 0, blocks := prmb p 37 1 4 0,
    surface := prmb p 38 2 13 0, ssrc := prm p 40 4, seq0 := prm p 44 4 }

/-- An FST sender lets go of the slot it sends. -/
def dropFst (f : Nat) (s : State) : State :=
  let e := egressOf s f
  match e.fst with
  | some x => unpinSlot e.cfg.surface x.slot (pinFst f) (putEgress f { e with fst := none } s)
  | none => s

/-- Disable an egress flow: its queue is discarded (R384). -/
def stopEgress (f : Nat) (s : State) : State :=
  let s := discardQueue f (dropFst f s)
  let e := egressOf s f
  setMgmt (unitFlow f) (stateWord 0x50 0)
    (putEgress f { e with cfg := { e.cfg with kind := 0 }, staged := none, stopped := false, sending := false,
                          frames := [], lastSent := none } s)

/-- A flow with new parameters: fresh when it was disabled; else from the next frame or slot (R381). -/
def newEgress (c : EgressCfg) (e : Egress) : Egress :=
  if e.cfg.kind = 0 then { cfg := c, nextSeq := c.seq0 }
  else if (e.cfg.kind = 1 && e.sender.isSome) || e.fst.isSome then { e with staged := some c, stopped := false }
  else { e with cfg := c, staged := none, stopped := false,
                lastSent := if c.surface = e.cfg.surface then e.lastSent else none }

/-- Enable or change an egress flow. An FST sender sends from the next publish on (R368). -/
def setEgress (f : Nat) (c : EgressCfg) (s : State) : State :=
  settleSending f (setMgmt (unitFlow f) (stateWord 0x51 0) (putEgress f (newEgress c (egressOf s f)) s))

/-- Checks of EGRESS_FLOW_SET with a kind. -/
def egressCheck (p : Packet) (s : State) (c : EgressCfg) (k : Res) : Res :=
  let sf := surfOf s c.surface
  require (onlyBits p egressBits && addrOk p c.ipv6 20 && c.ttl != 0 && portOn s c.port
    && decide (1 ≤ c.blocks ∧ c.blocks ≤ if c.kind = 1 then 8 else 16)
    && (c.dmac != 0 || isMulticast c.ipv6 c.dip)) badParam <|
  require (c.kind != 2 || sf.valid) badParam <|
  require (c.kind != 2 || !sf.crystal) (bad 0x10E) <|
  require ((c.kind != 2 || sf.comp == 2) && decide (largestPacket s c ≤ (ethOf s c.port).mtu)) badParam k

/-- EGRESS_FLOW_SET. -/
def egressFlowSetBody (p : Packet) (s : State) : Res :=
  let f := prmb p 0 2 9 0
  let e := egressOf s f
  let c := prmEgress p
  if c.kind = 0 then
    require (onlyBits p egressBits) badParam <| require e.sender.isNone busy <| okay (stopEgress f s)
  else
    require (c.kind != 3) badParam <|
    require (e.cfg.kind == 0 || e.cfg.kind == c.kind) busy <|
    egressCheck p s c <|
      let s1 := putEgress f { e with cfg := c } s
      let gains := e.cfg.kind = 0 || e.stopped || e.cfg.port ≠ c.port
      verdictRes (if gains then checkPort s1 c.port (tsPortOf s1 c.port) else none) <|
        .ok (some (largestPacket s c)) none (setEgress f c s)

def specEgressFlowSet : CmdSpec :=
  { opcode := 0x702, units := fun p _ => [unitFlow (prmb p 0 2 9 0)],
    owns := fun p s => egressOwner s (prmb p 0 2 9 0) == p.func
      && (prmb p 2 1 1 0 != 2 || surfOwner s (prmb p 38 2 13 0) == p.func),
    body := egressFlowSetBody }
/-- EGRESS_FLOW_SET. -/
def execEgressFlowSet (t : Ticks) (p : Packet) (s : State) := runPacket specEgressFlowSet t p s

/-! ### FLOW_QUERY (R379, R382) -/

/-- The 64-byte record of an ingest flow. -/
def ingestRecord (x : Ingest) : List Byte :=
  leBytes 8 x.packets ++ leBytes 4 x.lostCnt ++ leBytes 4 x.dup ++ leBytes 4 x.late ++ leBytes 4 x.malformed
    ++ leBytes 4 x.mismatch ++ leBytes 4 x.frames ++ leBytes 4 x.incomplete ++ leBytes 4 x.discarded
    ++ leBytes 4 x.cntA ++ leBytes 4 x.cntB ++ leBytes 8 x.lastCap ++ leBytes 4 (x.highest.getD 0)
    ++ leBytes 4 0

/-- The 64-byte record of an egress flow. -/
def egressRecord (s : State) (f : Nat) : List Byte :=
  let e := egressOf s f
  fitBytes 64 (leBytes 8 e.packets ++ leBytes 8 e.octets ++ leBytes 4 e.frameCnt ++ leBytes 4 e.skipped
    ++ leBytes 4 e.dropped ++ leBytes 4 e.nextSeq ++ leBytes 4 (flowData s f))

/-- FLOW_QUERY. -/
def flowQueryBody (p : Packet) (s : State) : Res :=
  let egress := prmbit p 0 0
  let f := prmb p 2 2 11 0
  require (onlyBits p [(0, 1, 1), (2, 2, 0xFFF), allBits 8 8] && (!egress || decide (f < 1024))) badParam <|
    let kind := if egress then (egressOf s f).cfg.kind else (ingestOf s f).kind
    let count := if egress then (egressOf s f).frameCnt else (ingestOf s f).frames
    withBuf p s (prm p 8 8) 64 true (if egress then egressRecord s f else ingestRecord (ingestOf s f)) fun w =>
      .ok (some (kind + shl (b2n (kind != 0)) 2)) (some count) (w s)

def specFlowQuery : CmdSpec :=
  { opcode := 0x707, exempt := fun _ => true,
    units := fun p _ => if prmbit p 0 0 then [unitFlow (prmb p 2 2 11 0)] else [],
    owns := fun p s => mayQuery p
      (if prmbit p 0 0 then egressOwner s (prmb p 2 2 11 0) else ingestOwner s (prmb p 2 2 11 0)),
    body := flowQueryBody }
/-- FLOW_QUERY. -/
def execFlowQuery (t : Ticks) (p : Packet) (s : State) := runPacket specFlowQuery t p s

/-! ### FST senders (R367, R368) -/

/-- The UDP headers of a flow's packets. -/
def flowUdp (s : State) (c : EgressCfg) : UdpTx :=
  let e := ethOf s c.port
  { smac := e.mac, dmac := if c.dmac = 0 then multicastMac c.ipv6 c.dip else c.dmac,
    vlan := if c.vlan then some (c.pcp, c.vid) else none, ipv6 := c.ipv6,
    src := if c.ipv6 then e.ipv6 else e.ipv4, dst := c.dip, dscp := c.dscp, ttl := c.ttl,
    sport := c.sudp, dport := c.dudp }

/-- Send the next packet of the slot in progress: TILES, then END. Tiles that cannot be read are not sent
(R571). -/
def fstSend (f : Nat) (s : State) : State :=
  let e := egressOf s f
  match e.fst with
  | none => s
  | some x =>
    let sf := surfOf s e.cfg.surface
    let total := tilesX (sWidth sf) * tilesY (sHeight sf)
    let len := tileBytes sf.budget
    let good := fun (i : Nat) => readable s (slotAddr sf x.slot + tileOffset sf i) len
    let left := (List.range (total - x.tile)).map (x.tile + ·)
    let sent := ((left.dropWhile fun i => !good i).take e.cfg.blocks).takeWhile good
    let waits := sent.any fun i => !served s 3 (slotAddr sf x.slot + tileOffset sf i) len
    let x := { x with tile := sent.headD total }
    let n := sent.length
    let ended := total ≤ x.tile
    let h : FstHdr :=
      { version := 1, ty := if ended then 1 else 0, last := !ended && x.tile + n == total, tcount := n,
        handle := ownHandle s e.cfg.surface, pseq := e.nextSeq, slotSeq := x.seq,
        capture := (slotOf sf x.slot).capture, format := sf.format, budget := sf.budget,
        widthM1 := sf.widthM1, heightM1 := sf.heightM1, first := if ended then 0 else x.tile }
    let addr := fun (i : Nat) => slotAddr sf x.slot + tileOffset sf (x.tile + i)
    let data := (List.range n).flatMap fun i => memRead s (addr i) len
    let frame := buildUdp (flowUdp s e.cfg) (fstBytes h ++ data)
    if e.cfg.kind != 2 || e.stopped || waits || !queueRoom s f frame.length then s
    else
      let s := forAll (List.range n) (fun i s => countRead (addr i) len s) s
      let e := { e with nextSeq := (e.nextSeq + 1) % 2 ^ 32, fst := some { x with tile := x.tile + n } }
      if ended then
        let s := enqueue f frame (putEgress f { e with frameCnt := sat 32 (e.frameCnt + 1),
                                                       lastSent := some x.seq } s)
        fstNext f (dropFst f s)
      else enqueue f frame (putEgress f e s)

/-- FST_PACKET_SEND: the sender of a flow sends its next packet, when its queue has room (R390). -/
def execFstPacketSend (t : Ticks) (flow : Nat) (s : State) : Host.Outcome State Fault Refusal :=
  whenRunning t (fun s => if flow < 1024 then fstSend flow s else s) s

/-! ### Links and degrade (R351, R371 to R374) -/

/-- A gratuitous ARP and unsolicited neighbour advertisements for the addresses a port has (R350, R351). -/
def announceAddresses (p : Nat) (s : State) : State :=
  let e := ethOf s p
  let s := if e.ipv4 = 0 then s else sendFw p 64 FwKind.gratuitousArp.num [e.mac, e.ipv4] s
  forAll ([llAddress e.mac, e.ipv6].filter (· != 0)) (fun a s =>
    sendFw p (fwFrameLen true 32) FwKind.unsolicited.num [e.mac, a] s) s

/-- ETH_LINK_UP: an enabled port's link comes up; firmware announces its addresses (R351). -/
def execEthLinkUp (t : Ticks) (port : Nat) (s : State) : Host.Outcome State Fault Refusal :=
  whenRunning t (fun s =>
    let e := ethOf s port
    if !(port < 8 && portOn s port) || e.up then s
    else
      let s := if e.adopt then setMgmt (unitPort port) (portWord true e.lanes) s else s
      let s := trainLanes e.lanes (setPortUp port true (putEth port { e with coming := false, adopt := false } s))
      announceAddresses port s) s

/-- ETH_LINK_DOWN: a port loses its link for a cause other than a retrain (R374). -/
def execEthLinkDown (t : Ticks) (port : Nat) (s : State) : Host.Outcome State Fault Refusal :=
  whenRunning t (fun s =>
    let e := ethOf s port
    if port < 8 && e.up then setPortUp port false (putEth port { e with retraining := false } s) else s) s

/-- FEC_UNCORRECTABLE: n codewords of a port could not be corrected; the burst starts a retrain (R371). -/
def execFecUncorrectable (t : Ticks) (port n : Nat) (s : State) : Host.Outcome State Fault Refusal :=
  whenRunning t (fun s =>
    let e := ethOf s port
    if !(port < 8 && e.up) || n = 0 then s
    else
      let e := { e with fecunc := sat 32 (e.fecunc + n) }
      if e.retraining then putEth port e s
      else raiseUnit (unitPort port) (384 + 4 * port + 2)
        (putEth port { e with retraining := true, attempts := 0, retrain := sat 32 (e.retrain + 1) } s)) s

/-- Firmware stops an egress flow (R373). -/
def haltFlow (f : Nat) (s : State) : State :=
  let s := discardQueue f (dropFst f s)
  let e := egressOf s f
  let s := putEgress f { e with stopped := true, sending := false, frames := [] } s
  compareUnit (unitFlow f) (if e.sending then egressAlert f s else s)

/-- Stop flows of a port, highest first, until the rest fits (R373). -/
def stopUntilFits (p : Nat) : List Nat → State → State
  | [], s => s
  | f :: fs, s =>
    let live := (queuesOf s p).filter fun q => !(egressOf s q).stopped
    let sum := fun (c : Option Nat) => sumOf (live.map fun q =>
      let x := queueOf s q
      if c = none ∨ c = some x.cls then x.cir else 0)
    let fits := (portLists (tsPortOf s p)).all fun l =>
      decide (sum none ≤ portCapacity (portRate s p) (ethOf s p).mtu 0xFF l)
        && (List.range 8).all fun c => decide (sum (some c) ≤ portCapacity (portRate s p) (ethOf s p).mtu (2 ^ c) l)
    if portOn s p && fits then s else stopUntilFits p fs (haltFlow f s)

/-- The mode and lanes that a port gets when lane i is retired (R372). -/
def degradedMode (s : State) (p : Nat) : Nat × Nat :=
  let e := ethOf s p
  let live := fun (m : Nat) => Nat.land m s.ne.deadLanes == 0
  let pairs := ((List.range 4).map fun j => shl 3 (2 * j)).filter fun m => Nat.land m e.lanes == m
  if e.mode < 3 then (0, 0)
  else match pairs.find? live with
    | some m => (2, m)
    | none => (0, 0)

/-- A lane of an enabled port was retired: firmware reconfigures the port, setting its management view
first (R372, R373, R43). -/
def degradePort (p : Nat) (s : State) : State :=
  let e := ethOf s p
  let d := degradedMode s p
  let s := setMgmt (unitPort p) (portWord (d.1 != 0) d.2) s
  let s := putEth p { e with mode := d.1, lanes := d.2, degraded := d.1 != 0, coming := false,
                             retraining := false } s
  let s := if d.1 = 0 then setPortUp p false s else raiseUnit (unitPort p) (384 + 4 * p + 1) s
  stopUntilFits p (queuesOf s p).reverse s

end Sys2Proof.Machine
end

