-- ==== Sys2Proof/Machine/Fabric.lean ====
section
/-! DEFINITION. Cririk links (R419 to R429): LINK_CONFIG, bring-up, flits sent and received, the beat
tree (R442) and ROUTE_QUERY. -/
namespace Sys2Proof.Machine
open Sys2Proof

/-! ### LINK_CONFIG (R419, R426, R456) -/

/-- The fabric lanes: those of the quads in fabric mode (R418). Q2 and Q3 always are. -/
def fabricLanes (s : State) : Nat :=
  (if s.ne.q0eth then 0 else 0xF) + (if s.ne.q1eth then 0 else 0xF0) + 0xFF00

/-- Lanes of a link's configuration. -/
def linkMask (first width : Nat) : Nat := shl (2 ^ width - 1) first

/-- Lanes held by an enabled link. -/
def heldLanes (s : State) (k : Nat) : Nat :=
  let l := linkOf s k
  if l.enabled then linkMask l.first l.width else 0

/-- The HELLO this device sends on a link (R426). Beyond TAGW the layout of its payload is not given:
the unique ID and the lane count follow each other (DESIGN CHOICE, notes/assumptions/22.md). -/
def helloFlit (s : State) (k : Nat) : Flit :=
  { vc := vcSync, ty := 0x10, tagw := k, payload := beBytes 8 s.rel.uid ++ beBytes 1 (linkOf s k).width }

/-- A link as bring-up begins: fresh numbers, buffers and credits. -/
def freshLink (s : State) (l : CfLink) : CfLink :=
  { l with up := false, laneMap := 0, retraining := false, bringup := some s.clk.ticks, attempts := 0,
           peer := none, calibrated := false, miswired := false, fseq := 0, expect := 0, replay := [],
           waiting := [], credits := fullCredits, owed := [], calCount := 0, calSum := 0 }

/-- Begin a bring-up: a HELLO waits to be sent. -/
def startBringup (k : Nat) (s : State) : State :=
  let s := forgetBuffers k (discardWaiting k s)
  queueFlit k (helloFlit s k) (putLink k (freshLink s (linkOf s k)) s)

/-- UP of a link changes: source 640 + k, the link is compared (R426) and the other members of the node hear of its
lanes (R433; DESIGN CHOICE, notes/assumptions/69.md). -/
def setLinkUp (k : Nat) (v : Bool) (s : State) : State :=
  let l := linkOf s k
  if l.up = v then s
  else announceLinks (compareUnit (unitLink k) (raise (640 + k) (putLink k { l with up := v } s)))

/-- LINK_CONFIG. -/
def linkConfigBody (p : Packet) (s : State) : Res :=
  let k := prmb p 0 1 1 0
  let en := prmbit p 0 2
  let first := prmb p 1 1 3 0
  let width := prmb p 2 1 2 0
  let m := linkMask first width
  require (onlyBits p [(0, 1, 7), (1, 1, 0xF), (2, 1, 7)]) badParam <|
  if !en then
    let s0 := discardWaiting k s
    let s1 := setLinkUp k false (setMgmt (unitLink k) (linkWord false 0)
      (putLink k { linkOf s0 k with enabled := false, laneMap := 0, bringup := none, retraining := false, replay := [],
                                    degraded := false } s0))
    .ok (some (linkData s1 k)) none s1
  else
    require ([1, 2, 4].contains width && first % width == 0 && first / 4 == (first + width - 1) / 4
      && Nat.land m (fabricLanes s) == m) badParam <|
    require ((List.range 4).all fun j => j == k || Nat.land m (heldLanes s j) == 0) busy <|
    require (Nat.land m s.ne.deadLanes == 0) retired <|
      let s1 := setMgmt (unitLink k) (linkWord true width) (setLinkUp k false s)
      let l1 := linkOf s1 k
      let s2 := startBringup k (putLink k { l1 with enabled := true, first := first, width := width,
                                                    degraded := false, adopt := false } s1)
      .ok (some (linkData s2 k)) none s2

def specLinkConfig : CmdSpec :=
  { opcode := 0x900, units := fun p _ => [unitLink (prmb p 0 1 1 0)], body := linkConfigBody }
/-- LINK_CONFIG. -/
def execLinkConfig (t : Ticks) (p : Packet) (s : State) := runPacket specLinkConfig t p s

/-- The link number opposite to k (R420). -/
def opposite (k : Nat) : Nat := if k % 2 = 0 then k + 1 else k - 1

/-! ### The beat tree (R442) -/

/-- The member over link k from member m, if the topology has it. -/
def neighbour (s : State) (m k : Nat) : Option Nat :=
  let w := nodeW s
  let h := nodeH s
  let x := m % w
  let y := m / w
  let wrapX := s.cf.topo == 2 || s.cf.topo == 3
  let wrapY := s.cf.topo == 3
  let ok := if k = 0 then decide (x + 1 < w) || wrapX else if k = 1 then decide (0 < x) || wrapX
    else if k = 2 then decide (y + 1 < h) || wrapY else decide (0 < y) || wrapY
  if ok && decide (1 < nodeSize s) then
    let r := hopsAlong w h k 1 x y
    some (r.2.2 * w + r.2.1)
  else none

/-- One round of the search from the anchor: members found so far as (member, parent, link). -/
def treeRound (s : State) (found : List (Nat × Nat × Nat)) : List Nat → List (Nat × Nat × Nat)
  | [] => found
  | m :: rest =>
    let found := (List.range 4).foldl (fun acc k =>
      match neighbour s m k with
      | some n => if n = 0 || acc.any (fun e => e.1 == n) || memberLanes s m k == 0 then acc
                  else acc ++ [(n, m, k)]
      | none => acc) found
    treeRound s found rest

/-- Rounds of the search, each over the members that the last one found. -/
def treeRounds (s : State) : Nat → List Nat → List (Nat × Nat × Nat) → List (Nat × Nat × Nat)
  | 0, _, found => found
  | n + 1, frontier, found =>
    let next := treeRound s found frontier
    treeRounds s n ((next.drop found.length).map (·.1)) next

/-- The beat tree: every other member with its parent and the parent's link to it. -/
def beatTree (s : State) : List (Nat × Nat × Nat) := treeRounds s (nodeSize s) [0] []

/-- Links on which this device sends beats on. -/
def treeLinks (s : State) : List Nat :=
  ((beatTree s).filter fun e => e.2.1 == ownMember s).map (·.2.2)

/-- The link over which this device's parent sends it beats. -/
def beatParent (s : State) : Option Nat :=
  ((beatTree s).find? fun e => e.1 == ownMember s).map fun e => opposite e.2.2

/-! ### Bring-up -/

/-- Begin a delay calibration (R443): the first CAL_REQ waits to be sent. -/
def startCalibration (k : Nat) (s : State) : State :=
  let l := linkOf s k
  queueFlit k { vc := vcSync, ty := 0xD } (putLink k { l with calCount := 0, calSum := 0 } s)

/-- CF_BRINGUP_TIMEOUT: bring-up has not finished within 500 ms (R426). -/
def execCfBringupTimeout (t : Ticks) (k : Nat) (s : State) : Host.Outcome State Fault Refusal :=
  whenRunning t (fun s =>
    let l := linkOf s k
    match l.bringup with
    | some b =>
      if k < 4 && decide (b + msTicks 500 ≤ s.clk.ticks) then
        let s := discardWaiting k s
        compareUnit (unitLink k) (putLink k { linkOf s k with bringup := none, downAt := s.clk.ticks } s)
      else s
    | none => s) s

/-- CF_BRINGUP_RETRY: an enabled link that is down is tried again after 1 s (R426). -/
def execCfBringupRetry (t : Ticks) (k : Nat) (s : State) : Host.Outcome State Fault Refusal :=
  whenRunning t (fun s =>
    let l := linkOf s k
    if k < 4 && l.enabled && !l.up && l.bringup.isNone && decide (l.downAt + secTicks 1 ≤ s.clk.ticks)
    then startBringup k s else s) s

/-- CF_LINK_UP: the bring-up ends: HELLO has named the link opposite, the calibration is done, and the
link comes up on `lanes` of its configuration, those that passed training at both ends (R426). -/
def execCfLinkUp (t : Ticks) (k lanes : Nat) (s : State) : Host.Outcome State Fault Refusal :=
  whenRunning t (fun s =>
    let l := linkOf s k
    let m := maskOf ((bitList 16 (Nat.land lanes (linkMask l.first l.width))).filter fun i => !tbit s.ne.deadLanes i)
    let wired := match l.peer with
      | some p => p.2.1 == opposite k
      | none => false
    if !(k < 4 && l.enabled && l.bringup.isSome && wired && l.calibrated) || m = 0 then s
    else
      let s := if l.adopt then setMgmt (unitLink k) (linkWord true (popcount 16 m)) s else s
      let s := trainLanes m (setLinkUp k true (putLink k { l with bringup := none, laneMap := m, adopt := false } s))
      if !s.cf.anchor && beatParent s == some k then { s with tk := { s.tk with beatSeen := false } } else s) s

/-! ### Receiving flits (R421 to R425) -/

/-- Drop acknowledged flits from a replay buffer. -/
def acknowledged (ack : Nat) (l : List (Nat × Flit)) : List (Nat × Flit) :=
  l.filter fun e =>
    let d := (ack + 65536 - e.1) % 65536
    d == 0 || decide (1024 < d)

/-- What every flit brings: acknowledgements and credits. -/
def takeHeader (x : FlitRx) (l : CfLink) : CfLink :=
  { l with replay := acknowledged x.ackseq l.replay, feccor := (l.feccor + x.fixed) % 2 ^ 64,
           credits := Tbl.upd l.credits 0 (halfKey x.cvc x.creditB) (· + x.ccount) }

/-- The bit DL of a flit that is sent on over a link: 1 once it has crossed the wrap link of the
dimension it travels in, from 0 again in the next dimension. -/
def forwardDl (s : State) (inLink out : Nat) (dl : Bool) : Bool :=
  let m := ownMember s
  let x := m % nodeW s
  let y := m / nodeW s
  let sameDim := inLink / 2 == out / 2
  let wrapped := if out = 0 then x == 0 else if out = 1 then x + 1 == nodeW s
    else if out = 2 then y == 0 else y + 1 == nodeH s
  sameDim && (dl || wrapped)

/-- Flits that stay on their link: they concern its two ends, or travel the beat tree. -/
def linkLocal (ty : Nat) : Bool := ty == 0 || [0xC, 0xD, 0xE, 0x10].contains ty

/-- A flit is for this device: one of the link itself, one with its device ID, or a command flit while it has none yet
(R431, R432). -/
def staysHere (s : State) (x : FlitRx) : Bool :=
  linkLocal x.ty || (s.cf.valid && x.dst == s.cf.devid) || (!s.cf.valid && x.vc == vcCmd)

/-- The credit of a flit that keeps its place in the receive buffer is not returned yet (R425). -/
def keepCredit (k vc : Nat) (s : State) : State :=
  putLink k { linkOf s k with owed := Tbl.upd (linkOf s k).owed 0 vc (· - 1) } s

/-- A flit arrives: header, sequence, type, credits, then forwarding or the action `f` of this device
(R421 to R425). `types` are the types of the command; another valid type is another command. -/
def flitRx (x : FlitRx) (types : List Nat) (f : State → State) (s : State) : State :=
  let k := x.link
  let l := linkOf s k
  let early := linkLocal x.ty && l.bringup.isSome
  if !(k < 4 && l.enabled && (l.up || early) && !l.retraining) then s
  else if flitTypeOk x.vc x.ty && !types.contains x.ty then s
  else
    let l := takeHeader x l
    if x.ty = 0 then putLink k l s
    else if x.fseq ≠ l.expect then putLink k l s
    else
      let l := { l with expect := (l.expect + 1) % 65536, rxflit := (l.rxflit + 1) % 2 ^ 64,
                        owed := Tbl.upd l.owed 0 x.vc (· + 1) }   -- the credit, unless the flit is kept
      if !flitTypeOk x.vc x.ty then putLink k { l with badflit := sat 32 (l.badflit + 1) } s
      else
        let s := putLink k l s
        if staysHere s x then f s
        else match firstHop s x.dst with
          | some j => queueFlit j { vc := x.vc, dl := forwardDl s k j x.dl, ty := x.ty, dst := x.dst,
                                    tagw := x.tagw, payload := x.payload, via := some k } (keepCredit k x.vc s)
          | none => s

/-- Count a flit discarded under R422 or R436. -/
def badFlit (k : Nat) (s : State) : State :=
  let l := linkOf s k
  putLink k { l with badflit := sat 32 (l.badflit + 1) } s

/-- IDLE_FLIT_RX: an IDLE flit carries credits and ACKSEQ only; a flit whose TYPE is not valid for its
virtual channel is discarded and counted here too. -/
def execIdleFlitRx (t : Ticks) (x : FlitRx) (s : State) : Host.Outcome State Fault Refusal :=
  whenRunning t (flitRx x [0] id) s

/-- What the anchor tells a member of its node: its device ID, the topology and what enumeration found (R431). -/
def placeMsg (s : State) (dev : Nat) : CmdMsg :=
  .assignId dev s.cf.topo s.cf.wM1 s.cf.hM1
    ((s.rel.uid, 1 :: (List.range 4).map (linkLanes s)) ::
      s.cf.members.map fun e => (e.2.uid, b2n e.2.pcie :: e.2.links))

/-- The device ID that the anchor gives back to a member whose HELLO arrives at its position (R543). -/
def restoreMember (k uid : Nat) (s : State) : State :=
  if !(s.cf.valid && s.cf.anchor) then s
  else
    let w := nodeW s
    let h := nodeH s
    let r := hopsAlong w h k 1 0 0
    let m := r.2.2 * w + r.2.1
    match Tbl.find? s.cf.members m with
    | some x =>
      if x.uid = uid then
        raise 658 (sendOn k (placeMsg s (s.cf.devid + m)) s)
      else s
    | none => s

/-- HELLO_RX: the peer's unique ID, link number (TAGW) and lane count (R426). A link number that is not
the opposite one leaves the link down, MISWIRED. -/
def execHelloRx (t : Ticks) (x : FlitRx) (uid lanes : Nat) (s : State) : Host.Outcome State Fault Refusal :=
  whenRunning t (flitRx x [0x10] fun s =>
    let k := x.link
    let l := linkOf s k
    let good := x.tagw == opposite k
    let first := l.peer.isNone
    let s := putLink k { l with peer := some (uid, x.tagw, lanes), miswired := !good } s
    if !good || !first then s else restoreMember k uid (startCalibration k s)) s

/-- CAL_REQ_RX: the responder answers with its receive and transmit timestamps. -/
def execCalReqRx (t : Ticks) (x : FlitRx) (s : State) : Host.Outcome State Fault Refusal :=
  whenRunning t (flitRx x [0xD] fun s =>
    queueFlit x.link { vc := vcSync, ty := 0xE, tagw := x.tagw,
                       payload := beBytes 8 (stamp s) ++ beBytes 8 (stamp s) } s) s

/-- The one-way delay in 1/16 ns of a calibration, rounded to nearest. -/
def oneWayDelay (sum : Int) (n : Nat) : Nat := ((sum + (n : Int)) / (2 * n : Int)).toNat % 2 ^ 24

/-- CAL_RESP_RX: n round trips end here, their (t4 − t1) − (t3 − t2) adding up to `sum` in 1/16 ns; after
65,536 the link is calibrated, and until then the next CAL_REQ is sent (R443). -/
def execCalRespRx (t : Ticks) (x : FlitRx) (n : Nat) (sum : Int) (s : State) :
    Host.Outcome State Fault Refusal :=
  whenRunning t (flitRx x [0xE] fun s =>
    let l := linkOf s x.link
    let n := min n (65536 - l.calCount)
    let l := { l with calCount := l.calCount + n, calSum := l.calSum + sum }
    if n = 0 then s
    else if l.calCount = 65536 then
      putLink x.link { l with calibrated := true, ldelay := oneWayDelay l.calSum 65536 } s
    else queueFlit x.link { vc := vcSync, ty := 0xD, tagw := l.calCount } (putLink x.link l s)) s

/-! ### Sending flits (R423 to R425) -/

/-- Chunk i of a transfer's slot. -/
def xferChunk (s : State) (ctx i : Nat) (x : Xfer) (slot : Nat) : Flit :=
  let sf := surfOf s x.surface
  let n := min 240 (sf.stride * 4096 - 240 * i)
  { vc := vcSurf, ty := 5, dst := x.handle / 16384, tagw := ctx * 2 ^ 26 + i,
    payload := memRead s (slotAddr sf slot + 240 * i) n }

/-- The transfer whose chunk goes next over a link: the lowest context that has started (R434). -/
def nextXfer (s : State) (k : Nat) : Option (Nat × Xfer × Nat) :=
  (s.cf.xfers.filterMap fun e =>
    match e.2.slot with
    | some v => if e.2.started && !e.2.ended && firstHop s (e.2.handle / 16384) == some k
        then some (e.1, e.2, v) else none
    | none => none).head?

/-- The first chunk from i on that can be read: others are not sent (R571). -/
def goodChunk (s : State) (sf : Surface) (slot : Nat) : Nat → Nat → Nat
  | 0, i => i
  | k + 1, i =>
    if readable s (slotAddr sf slot + 240 * i) (min 240 (sf.stride * 4096 - 240 * i)) then i
    else goodChunk s sf slot k (i + 1)

/-- The next flit that a transfer makes for a link, and the state in which it has been made. -/
def makeXferFlit (k : Nat) (s : State) : Option (Flit × State) :=
  match nextXfer s k with
  | none => none
  | some (ctx, x, v) =>
    let sf := surfOf s x.surface
    let i := goodChunk s sf v (slotChunks sf - x.chunk) x.chunk
    if i < slotChunks sf && !served s 3 (slotAddr sf v + 240 * i) (min 240 (sf.stride * 4096 - 240 * i)) then none
    else if i < slotChunks sf then
      let f := xferChunk s ctx i x v
      some (f, putXfer ctx { x with chunk := i + 1 } (countRead (slotAddr sf v + 240 * i) f.payload.length s))
    else some ({ vc := vcSurf, ty := 6, dst := x.handle / 16384, tagw := ctx * 2 ^ 26 },
      endXferSlot ctx s)

/-- Virtual channels in priority order (R425). -/
def vcOrder : List Nat := [3, 0, 2, 1]

/-- The waiting flit that goes next: the oldest with a credit of the first virtual channel that has one. A half without
credits does not hold up the other (R425). -/
def nextWaiting (l : CfLink) : Option Flit :=
  vcOrder.findSome? fun vc =>
    l.waiting.find? fun f => f.vc == vc && decide (0 < Tbl.get l.credits 0 (halfKey f.vc f.dl))

/-- Send a flit with the credits owed to the peer, those of the first virtual channel in priority order. -/
def transmit (k : Nat) (f : Flit) (idle : Bool) (s : State) : State :=
  let l := linkOf s k
  let cvc := (vcOrder.find? fun vc => decide (0 < Tbl.get l.owed 0 vc)).getD 0
  let n := min 255 (Tbl.get l.owed 0 cvc)
  let g := if f.ty = 0xC then
      { f with payload := f.payload.take 8 ++ beBytes 8 (stamp s) ++ f.payload.drop 16 }
    else f
  let s := emit (.flit k (flitImage g l.fseq l.expect cvc n)) s
  let l := { l with owed := Tbl.upd l.owed 0 cvc (· - n) }
  if idle then putLink k l s
  else giveBack f (putLink k
    { l with fseq := (l.fseq + 1) % 65536, replay := l.replay ++ [(l.fseq, g)],
             txflit := (l.txflit + 1) % 2 ^ 64, waiting := l.waiting.erase f,
             credits := Tbl.upd l.credits 0 (halfKey f.vc f.dl) (· - 1) } s)

/-- Send one flit on a link: none while 1,024 are unacknowledged (R424); IDLE when none can go. -/
def sendFlit (k : Nat) (s : State) : State :=
  let l := linkOf s k
  let room := decide (l.replay.length < 1024)
  match (if room then nextWaiting l else none) with
  | some f => transmit k f false s
  | none =>
    let can := room && l.up && decide (0 < Tbl.get l.credits 0 (halfKey vcSurf false))
      && !(l.waiting.any fun f => f.vc == vcSurf)
    match (if can then makeXferFlit k s else none) with
    | some (f, s) => transmit k f false s
    | none => transmit k { vc := vcSync, ty := 0 } true s

/-- CF_FLIT_TX: a link sends its next flit. -/
def execCfFlitTx (t : Ticks) (k : Nat) (s : State) : Host.Outcome State Fault Refusal :=
  whenRunning t (fun s =>
    let l := linkOf s k
    if k < 4 && l.enabled && (l.up || l.bringup.isSome) && !l.retraining then sendFlit k s else s) s

/-! ### Retrains and loss (R424, R427, R429, R434) -/

/-- CF_BLOCK_DECODE_FAIL: n blocks of a link failed to decode, and a retrain starts (R427). -/
def execCfBlockDecodeFail (t : Ticks) (k n : Nat) (s : State) : Host.Outcome State Fault Refusal :=
  whenRunning t (fun s =>
    let l := linkOf s k
    if !(k < 4 && l.up) || n = 0 then s
    else
      let l := { l with fecunc := sat 32 (l.fecunc + n) }
      if l.retraining then putLink k l s
      else raiseUnit (unitLink k) (648 + k) (putLink k
        { l with retraining := true, attempts := 0, retrain := sat 32 (l.retrain + 1) } s)) s

/-- A transfer this device sends has lost its route (R434): ONCE completes with UNREACHABLE; FOLLOW lets
go of the slot and waits for the next publish. A transfer whose XFER_END has been sent is not lost. -/
def loseXfer (ctx : Nat) (s : State) : State :=
  match xferOf s ctx with
  | none => s
  | some x =>
    if x.slot.isNone || (firstHop s (x.handle / 16384)).isSome then s
    else
      let s := releaseXfer ctx s
      let s := finishUnit (xferUnit ctx) 0x109 none none s
      if x.follow then s else dropXfer ctx s

/-- A transfer this device receives has lost its route: discarded, source 657 (R434). -/
def loseXferIn (key : Nat) (s : State) : State :=
  if (firstHop s (key / 64)).isSome then s
  else
    let left := s.cf.inbuf.filter fun f => !([4, 5, 6].contains f.flit.ty && f.device * 64 + f.flit.tagw / 2 ^ 26 == key)
    raise 657 { s with cf := { s.cf with xfersIn := Tbl.del s.cf.xfersIn key, inbuf := left } }

/-- What follows a change of the routes. -/
def afterRouteChange (s : State) : State :=
  sendOwed (forAll s.cf.xfersIn.keys loseXferIn (forAll s.cf.xfers.keys loseXfer s))

/-- A member of the node reports the live lanes of its links: routes are computed with them from now on (R433). -/
def takeLinks (device : Nat) (lanes : List Nat) (s : State) : State :=
  match Tbl.find? s.cf.members (device % 64) with
  | some m =>
    if s.cf.valid && device / 64 == s.cf.devid / 64 then
      afterRouteChange { s with cf := { s.cf with members := Tbl.set s.cf.members (device % 64) { m with links := lanes } } }
    else s
  | none => s

/-- A link goes down: its replay buffers are discarded (R429). -/
def dropLink (k : Nat) (s : State) : State :=
  let s := discardWaiting k s
  let l := linkOf s k
  afterRouteChange (setLinkUp k false
    (putLink k { l with replay := [], laneMap := 0, retraining := false, bringup := none,
                        downAt := s.clk.ticks } s))

/-- CF_LINK_DOWN: loss of signal, a failed retrain or a reset of the peer. -/
def execCfLinkDown (t : Ticks) (k : Nat) (s : State) : Host.Outcome State Fault Refusal :=
  whenRunning t (fun s => if k < 4 && (linkOf s k).up then dropLink k s else s) s

/-- A link's retrain is done: each side resends what the other has not acknowledged (R424, R427). -/
def endRetrain (k : Nat) (s : State) : State :=
  let l := linkOf s k
  let s := forAll l.replay (fun e s => emit (.flit k (flitImage e.2 e.1 l.expect 0 0)) s) s
  putLink k { l with retraining := false, replayCnt := sat 32 (l.replayCnt + l.replay.length) } s

/-! ### ROUTE_QUERY (R456) -/

/-- ROUTE_QUERY. -/
def routeQueryBody (p : Packet) (s : State) : Res :=
  let dev := prmb p 0 4 17 0
  require (onlyBits p [(0, 4, 0x3FFFF)]) badParam <|
  if s.cf.valid && dev == s.cf.devid then .ok (some (shl 1 8)) none s
  else match routeTo s dev with
    | none => .ok (some 0) none s
    | some r =>
      let lanes := (r.map fun h => memberLanes s h.1 h.2)
      .ok (some (r.length + shl ((r.head?.map (·.2)).getD 0) 6 + shl 1 8)) (some (lanes.foldl min 4)) s

def specRouteQuery : CmdSpec :=
  { opcode := 0x906, exempt := fun _ => true, owns := fun _ _ => true, body := routeQueryBody }
/-- ROUTE_QUERY. -/
def execRouteQuery (t : Ticks) (p : Packet) (s : State) := runPacket specRouteQuery t p s

end Sys2Proof.Machine
end

