-- ==== Sys2Proof/Machine/NodeTime.lean ====
section
/-! DEFINITION. Nodes (R430 to R432), PTP (R437 to R441), the beat (R442 to R444), frame alignment (R446,
R448) and the commands of group 0x09 that act on them. -/
namespace Sys2Proof.Machine
open Sys2Proof

/-! ### NODE_ENUMERATE -/

/-- TOPO, W and H are a row of R430. -/
def topoOk (topo w h : Nat) : Bool :=
  match topo with
  | 0 => w == 1 && h == 1
  | 1 => decide (2 ≤ w ∧ w ≤ 64) && h == 1
  | 2 => decide (3 ≤ w ∧ w ≤ 64) && h == 1
  | _ => decide (2 ≤ w ∧ w ≤ 8 ∧ 2 ≤ h ∧ h ≤ 8)

/-- Links of the anchor that a topology uses. -/
def topoLinks (topo : Nat) : List Nat := match topo with
  | 0 => [] | 1 => [0] | 2 => [0, 1] | _ => [0, 1, 2, 3]

/-- What enumeration found of members 1 on: per member the unique ID, whether it has a PCIe link, and the
live lanes of links 0 to 3. -/
def foundMembers : Nat → List Nat → Tbl NodeMember
  | m, u :: p :: a :: b :: c :: d :: rest => (m, ⟨u, p != 0, [a, b, c, d]⟩) :: foundMembers (m + 1) rest
  | _, _ => []

/-- The first member at fault: as enumeration reports it, or a neighbour of the anchor whose link is not
up. -/
def enumFault (s : State) (topo w h fault : Nat) : Option Nat :=
  let down := (topoLinks topo).filterMap fun k =>
    if (linkOf s k).up then none else
      let r := hopsAlong w h k 1 0 0
      some (r.2.2 * w + r.2.1)
  let all := (if fault = 0 then [] else [fault]) ++ down
  match all with
  | [] => none
  | x :: xs => some (xs.foldl min x)

/-- A raster of this device runs. -/
def anyRunning (s : State) : Bool :=
  (List.range 16).any fun r => (rasterOf s r).st != .stopped || (rasterOf s r).waitingStart

/-- Reference rate values after enumeration (R442). -/
def defaultRate (k : TkSt) : TkSt := { k with refN := 60, refD := 1, stRef := none }

/-- The anchor gives each other member its place (R431). -/
def placeMembers (s : State) : State := forAll (otherMembers s) (fun d s => sendMsg d (placeMsg s d) s) s

/-- NODE_ENUMERATE (R431, R432). `aux` holds what enumeration meets on the other devices: whether a raster
or a routed packet is open there, the first member at fault (0: none), then the members. -/
def nodeEnumerateBody (p : Packet) (s : State) : Res :=
  let topo := prmb p 0 1 1 0
  let node := prmb p 2 2 11 0
  let w := prmb p 4 1 6 0
  let h := prmb p 5 1 3 0
  let members := foundMembers 1 (p.env.aux.drop 2)
  let fail := fun (m : Nat) => Res.fail 0x101 none (some m)
  require (onlyBits p [(0, 1, 3), (2, 2, 0xFFF), (4, 1, 0x7F), (5, 1, 0xF)] && topoOk topo w h
    && p.dest == 0x3FFFF && p.origin.isNone) (fail 0xFFFFFFFF) <|
  require (!(s.cf.valid && (anyRunning s || !s.cp.routed.isEmpty || p.env.aux.headD 0 != 0))) busy <|
  match enumFault s topo w h (p.env.aux.getD 1 0) with
  | some m => fail m
  | none =>
    let last := match Tbl.find? members 63 with
      | some x => x.pcie
      | none => false
    require (!(node == 4095 && w * h == 64 && !last)) (fail 63) <|
      let s1 := { s with cf := { s.cf with devid := node * 64, valid := true, anchor := true, topo := topo,
                                           wM1 := w - 1, hM1 := h - 1, members := members } }
      .ok (some (w * h)) (some 0xFFFFFFFF) (raise 658 (placeMembers { s1 with tk := defaultRate s1.tk }))

def specNodeEnumerate : CmdSpec := { opcode := 0x901, body := nodeEnumerateBody }
/-- NODE_ENUMERATE. -/
def execNodeEnumerate (t : Ticks) (p : Packet) (s : State) := runPacket specNodeEnumerate t p s

/-- The anchor gives this device its place in the node (R431, R543). -/
def takeId (devid topo wM1 hM1 : Nat) (members : List (Nat × List Nat)) (s : State) : State :=
  let ms : Tbl NodeMember := (List.range members.length).map fun i =>
    let m := members.getD i (0, [])
    (i, ⟨m.1, m.2.headD 0 != 0, m.2.drop 1⟩)
  let changed := !s.cf.valid || s.cf.devid != devid
  let s := { s with cf := { s.cf with devid := devid, valid := true, anchor := devid % 64 == 0, topo := topo,
                                      wM1 := wM1, hM1 := hM1, members := ms }, tk := defaultRate s.tk }
  if changed then raise 658 s else s

/-! ### PTP (R437 to R441) -/

/-- A change of TK_STAT.STATE raises source 652. -/
def setTkState (v : Nat) (s : State) : State :=
  if s.tk.state = v then s else raise 652 { s with tk := { s.tk with state := v } }

/-- PTP_CONFIG (R438, R456). -/
def ptpConfigBody (p : Packet) (s : State) : Res :=
  let role := prmb p 1 1 1 0
  let fields : Fields := [(0, 1, 0x7F), (1, 1, 0xF), allBits 2 6, (8, 1, 1), (9, 1, 0x7F)]
  require (onlyBits p fields && role != 3 && s.cf.valid && s.cf.anchor) badParam <|
    let c : PtpCfg :=
      { port := prmb p 0 1 2 0, backupEn := prmbit p 0 3, backup := prmb p 0 1 6 4, role := role,
        twoStep := prmbit p 1 2, ipv6 := prmbit p 1 3, prio1 := prm p 3 1, prio2 := prm p 4 1,
        logAnn := sint 8 (prm p 5 1), logSync := sint 8 (prm p 6 1), logDreq := sint 8 (prm p 7 1),
        steer := prmbit p 8 0, dco := prmb p 9 1 6 0 }
    let k := { s.tk with ptp := c, domain := prm p 2 1, lastAnn := s.clk.ticks }
    okay (setTkState (if role = 0 then 0 else 1) { s with tk := k })

def specPtpConfig : CmdSpec := { opcode := 0x902, body := ptpConfigBody }
/-- PTP_CONFIG. -/
def execPtpConfig (t : Ticks) (p : Packet) (s : State) := runPacket specPtpConfig t p s

/-- This device runs PTP (R438). -/
def runsPtp (s : State) : Bool := s.cf.valid && s.cf.anchor && s.tk.ptp.role != 0

/-- A port on which the BMCA runs. -/
def ptpPort (s : State) (p : Nat) : Bool := p == s.tk.ptp.port || (s.tk.ptp.backupEn && p == s.tk.ptp.backup)

/-- A step of more than 1 µs is made only in LISTENING and UNCALIBRATED, and none once the clock has reached
LOCKED (R440). -/
def stepAllowed (s : State) (d : Int) : Bool :=
  !s.tk.reachedLocked && (decide (d.natAbs ≤ 10000) || s.tk.state == 1 || s.tk.state == 2)

/-- The rate that the servo sets: within 100 ppm once the clock has reached LOCKED (R440). -/
def servoRate (s : State) (r : Int) : Int :=
  let lim : Int := 100000 * 65536
  if s.tk.reachedLocked then max (-lim) (min lim r) else r

/-- Hold a value to 32-bit two's complement by saturation. -/
def satInt (v : Int) : Int := max (-(2 ^ 31 : Nat)) (min ((2 ^ 31 - 1 : Nat)) v)

/-- Firmware sends a PTP message on a port: Announce (10), Sync (11), Delay_Req (12), Follow_Up (13) or
Delay_Resp (14). -/
def sendPtp (port kind : Nat) (s : State) : State :=
  let c := s.tk.ptp
  let body := if kind = 10 then 64 else if kind = 14 then 54 else 44
  sendFw port (fwFrameLen c.ipv6 (8 + body)) kind
    [s.tk.domain, c.prio1, c.prio2, b2n c.twoStep, b2n c.ipv6, now s] s

/-- The timekeeper takes a PTP message on a port. A master answers a Delay_Req (R437). -/
def ptpMessage (port : Nat) (x : PtpResult) (s : State) : State :=
  let legal := decide (1 ≤ x.state ∧ x.state ≤ 4) && (x.state != 4 || s.tk.ptp.role == 2)
  if !(runsPtp s && ptpPort s port && portCarries s port) then s
  else if x.delayReq then (if s.tk.state = 4 then sendPtp port 14 s else s)
  else if !legal then s
  else
    let s := if stepAllowed s x.step then slewTenths x.step s else s
    let s := setRate (servoRate s x.rate) s
    let k := s.tk
    let k := { k with offset := satInt x.offset, fofs := satInt x.fofs, gmId := x.gmId, tlv := x.tlv,
                      port := if x.state = 4 then k.port else port,
                      lastAnn := if x.master then s.clk.ticks else k.lastAnn }
    let s := setTkState x.state { s with tk := k }
    { s with tk := { s.tk with reachedLocked := s.tk.reachedLocked || x.state == 3 } }

/-- PTP_MESSAGE_RX: a PTP message on a port, with what the servo and the best master algorithm make of it
(DESIGN CHOICE, notes/assumptions/23.md). -/
def execPtpMessageRx (t : Ticks) (port : Nat) (x : PtpResult) (s : State) :
    Host.Outcome State Fault Refusal :=
  whenRunning t (fun s => if port < 8 then ptpMessage port x s else s) s

/-- A log2 interval in ticks. -/
def logTicks (i : Int) : Nat := if 0 ≤ i then secTicks (2 ^ i.toNat) else secTicks 1 / 2 ^ (-i).toNat

/-- PTP_ANNOUNCE_TIMEOUT: no master has been heard for three announce intervals: HOLDOVER at the last rate
(R440), or a master-capable clock becomes master by the BMCA. -/
def execPtpAnnounceTimeout (t : Ticks) (becomesMaster : Bool) (s : State) :
    Host.Outcome State Fault Refusal :=
  whenRunning t (fun s =>
    if !(runsPtp s && [1, 2, 3].contains s.tk.state
        && decide (s.tk.lastAnn + 3 * logTicks s.tk.ptp.logAnn ≤ s.clk.ticks)) then s
    else setTkState (if becomesMaster && s.tk.ptp.role == 2 then 4 else 5) s) s

/-- The configured interval of a kind of PTP message. -/
def ptpInterval (c : PtpCfg) (kind : Nat) : Nat :=
  logTicks (if kind = 0 then c.logAnn else if kind = 1 then c.logSync else c.logDreq)

/-- A kind of message is due on a port: the clock's state sends it, and its interval has passed since the last one. -/
def ptpDue (s : State) (port kind : Nat) : Bool :=
  (if kind = 2 then [1, 2, 3].contains s.tk.state else kind < 2 && s.tk.state == 4)
    && (match Tbl.find? s.tk.lastMsg (4 * port + kind) with
      | some u => decide (u + ptpInterval s.tk.ptp kind ≤ s.clk.ticks)
      | none => true)

/-- PTP_MESSAGE_INTERVAL: a message goes out on a port: Announce (0) and Sync (1) of a master, Delay_Req
(2) of a slave. A two-step Sync is followed by its Follow_Up (R437). -/
def execPtpMessageInterval (t : Ticks) (port kind : Nat) (s : State) : Host.Outcome State Fault Refusal :=
  whenRunning t (fun s =>
    if port < 8 && runsPtp s && ptpPort s port && portCarries s port && ptpDue s port kind then
      let s := sendPtp port (10 + kind)
        { s with tk := { s.tk with lastMsg := Tbl.set s.tk.lastMsg (4 * port + kind) s.clk.ticks } }
      if kind = 1 && s.tk.ptp.twoStep then sendPtp port 13 s else s
    else s) s

/-- DCO_STEER: once per second the measured offset, negated, is written to the oscillator (R441). -/
def execDcoSteer (t : Ticks) (s : State) : Host.Outcome State Fault Refusal :=
  whenRunning t (fun s =>
    if runsPtp s && s.tk.ptp.steer && decide (s.tk.lastDco + secTicks 1 ≤ s.clk.ticks) then
      emit (.i2c s.tk.ptp.dco 0 (beBytes 4 (uint 32 (-s.tk.fofs)))) { s with tk := { s.tk with lastDco := s.clk.ticks } }
    else s) s

/-- The 64-byte record of TIME_QUERY: the fields in the order the table names them, each at its natural
alignment (DESIGN CHOICE, notes/assumptions/19.md). -/
def timeRecord (s : State) : List Byte :=
  leBytes 8 (now s) ++ leBytes 1 (tenths s) ++ leBytes 1 s.tk.state ++ leBytes 2 0
    ++ leBytes 4 (uint 32 s.tk.offset) ++ leBytes 4 (uint 32 s.tk.fofs) ++ leBytes 4 0
    ++ leBytes 8 s.tk.gmId ++ fitBytes 32 s.tk.tlv

/-- TIME_QUERY. -/
def timeQueryBody (p : Packet) (s : State) : Res :=
  require (onlyBits p [allBits 8 8]) badParam <|
    withBuf p s (prm p 8 8) 64 false (timeRecord s) fun w =>
      .ok (some (now s)) (some (now s / 2 ^ 32)) (w s)

def specTimeQuery : CmdSpec :=
  { opcode := 0x903, exempt := fun _ => true, owns := fun _ _ => true, body := timeQueryBody }
/-- TIME_QUERY. -/
def execTimeQuery (t : Ticks) (p : Packet) (s : State) := runPacket specTimeQuery t p s

/-! ### Frame alignment (R446, R448) -/

/-- The frame period of a raster as a numerator and a denominator in ns. -/
def framePeriod (m : Timing) : Nat × Nat :=
  (5 * m.d * tileCount m * hTotal m * vTotal m, 6 * m.n)

/-- The nominal frame start ceil(k P). -/
def nominalStart (pd : Nat × Nat) (k : Nat) : Nat := cdiv (k * pd.1) pd.2

/-- Distance in ns of a time from the nearest nominal frame start. -/
def alignDiff (pd : Nat × Nat) (ft : Nat) : Nat :=
  let k := ft * pd.2 / pd.1
  let d := fun (v : Nat) => max v ft - min v ft
  min (d (nominalStart pd k)) (min (d (nominalStart pd (k + 1))) (d (nominalStart pd (k - 1))))

/-- One raster's FT is compared at a beat. -/
def alignRaster (r : Nat) (s : State) : State :=
  let x := rasterOf s r
  if !x.aligned || x.st == .stopped || x.leadIn || x.tim.n = 0 || !x.tim.set then s
  else
    let d := 10 * alignDiff (framePeriod x.tim) x.ft
    let s := { s with tk := { s.tk with alignErr := max s.tk.alignErr (sat 32 d) } }
    if s.tk.alignThr < d && !tbit s.tk.alignSeen r then
      raise 655 { s with tk := { s.tk with alignSeen := setBit s.tk.alignSeen r true } }
    else s

/-- Every raster is compared at a beat (R448). -/
def alignAll (s : State) : State := forAll (List.range 16) alignRaster s

/-! ### The beat (R442 to R444) -/

/-- A reference rate is staged from a time on, and every link of this device that is up is measured again (R442,
R443). -/
def stageRate (n d start : Nat) (s : State) : State :=
  let up := (List.range 4).filter fun k => (linkOf s k).up
  forAll up startCalibration { s with tk := { s.tk with stRef := some (n, d, start) } }

/-- BEAT_CALIBRATE (R442, R456): a rate of 1 to 480 frames per second, for the whole node. RESULT0 is taken over the
links of the anchor, the delays it holds (DESIGN CHOICE, notes/assumptions/69.md). -/
def beatCalibrateBody (p : Packet) (s : State) : Res :=
  let n := prmb p 0 4 23 0
  let d := prmb p 4 4 23 0
  require (onlyBits p [(0, 4, 0xFFFFFF), (4, 4, 0xFFFFFF)] && s.cf.valid && s.cf.anchor && d != 0
    && decide (d ≤ n ∧ n ≤ 480 * d)) badParam <|
    let start := now s + 1000000000
    let up := (List.range 4).filter fun k => (linkOf s k).up
    .ok (some (maxOf (up.map fun k => (linkOf s k).ldelay))) none
      (forAll (otherMembers s) (fun dev s => sendMsg dev (.refRate n d start) s) (stageRate n d start s))

def specBeatCalibrate : CmdSpec := { opcode := 0x904, body := beatCalibrateBody }
/-- BEAT_CALIBRATE. -/
def execBeatCalibrate (t : Ticks) (p : Packet) (s : State) := runPacket specBeatCalibrate t p s

/-- A BEAT payload (R442); the transmit time is put in as the flit is sent. -/
def beatFlit (no : Nat) (rate : Int) : Flit :=
  { vc := vcSync, ty := 0xC, payload := beBytes 8 no ++ beBytes 8 0 ++ beBytes 4 (uint 32 rate) }

/-- Send a beat on this device's tree links. -/
def sendBeats (no : Nat) (rate : Int) (s : State) : State :=
  forAll (treeLinks s) (fun k s => queueFlit k (beatFlit no rate) s) s

/-- A staged reference rate takes effect at a beat at least 1 s ahead. -/
def takeRef (s : State) : State :=
  match s.tk.stRef with
  | some (n, d, from_) =>
    if from_ ≤ now s then { s with tk := { s.tk with refN := n, refD := d, stRef := none,
                                                     beatNo := (now s * n / (1000000000 * d)) - 1 } }
    else s
  | none => s

/-- The number of the latest beat at or before now: k with ceil(k · 10^9 · D / N) ≤ now. -/
def beatNow (s : State) : Nat := now s * s.tk.refN / (1000000000 * s.tk.refD)

/-- BEAT_EMIT: the anchor emits beat k at ceil(k · 10^9 · REF_D / REF_N) ns (R442). -/
def execBeatEmit (t : Ticks) (s : State) : Host.Outcome State Fault Refusal :=
  whenRunning t (fun s =>
    if !(s.cf.valid && s.cf.anchor) || beatNow s ≤ s.tk.beatNo then s
    else
      let s := takeRef s
      let k := beatNow s
      if k ≤ s.tk.beatNo then s
      else alignAll (sendBeats k s.clk.rate { s with tk := { s.tk with beatNo := k } })) s

/-- The mean of the filter's offsets, towards zero. -/
def filtered (l : List Int) : Int := if l.isEmpty then 0 else (l.foldl (· + ·) 0).tdiv l.length

/-- Offset O of a beat in 0.1 ns: receive time minus transmit time minus the link delay (R444). -/
def beatOffset (s : State) (k tx : Nat) : Int :=
  (((stamp s : Int) - tx) * 80 - ((linkOf s k).ldelay : Int) * 10 * 10 / 16) / 10

/-- A beat from the parent: number, transmit time and the anchor's rate. -/
def takeBeat (k no tx : Nat) (rate : Int) (s : State) : State :=
  let s := takeRef s
  let o := beatOffset s k tx
  let s := setRate rate s
  let first := !s.tk.beatSeen || s.tk.state == 5
  let l := if first then [o] else (o :: s.tk.filter).take 64
  let locked := !first && (s.tk.locked || l.length == 64)
  let v := filtered l
  let big := first && decide (1000 < o.natAbs)
  let move : Int := if big then -o else if v = 0 then 0 else if 0 < v then -1 else 1
  let s := slewTenths move s
  let skew := locked && decide (10 < v.natAbs)
  let k' := { s.tk with beatSeen := true, filter := if big then [] else l, locked := locked,
                        lastBeat := now s, beatNo := no, beatErr := satInt v,
                        steps := if skew then sat 32 (s.tk.steps + 1) else s.tk.steps }
  let s := setTkState 6 { s with tk := k' }
  alignAll (sendBeats no rate (if skew then raise 654 s else s))

/-- BEAT_RX: a device other than the anchor takes a beat from its parent in the tree (R444). -/
def execBeatRx (t : Ticks) (x : FlitRx) (s : State) : Host.Outcome State Fault Refusal :=
  whenRunning t (flitRx x [0xC] fun s =>
    if s.cf.valid && !s.cf.anchor && beatParent s == some x.link then
      takeBeat x.link (rdBE x.payload 0 8) (rdBE x.payload 8 8) (sint 32 (rdBE x.payload 16 4)) s
    else s) s

/-- BEAT_LOSS: three consecutive beats are missing (R444). -/
def execBeatLoss (t : Ticks) (s : State) : Host.Outcome State Fault Refusal :=
  whenRunning t (fun s =>
    let due := s.tk.lastBeat + cdiv (3 * 1000000000 * s.tk.refD) s.tk.refN
    if s.cf.valid && !s.cf.anchor && s.tk.state == 6 && decide (due ≤ now s) then
      setTkState 5 (raise 653 s)
    else s) s

end Sys2Proof.Machine
end

