-- ==== Sys2Proof/Machine/Packing.lean ====
section
/-! DEFINITION. Lines of components packed into the bytes of a format, for senders, exports, imports and
writeback (R116, R118, R332, R333). -/
namespace Sys2Proof.Machine
open Sys2Proof

/-- The ENCODING that a writeback format fixes (R333): 0 RGB, 1 YCbCr 4:4:4, 2 YCbCr 4:2:2. -/
def fmtEncoding (f : Nat) : Option Nat :=
  if [1, 2, 3, 4, 0x26, 0x27, 0x28].contains f then some 0
  else if [0x14, 0x15, 0x23, 0x24, 0x25].contains f then some 1
  else if [0x11, 0x13, 0x20, 0x21, 0x22].contains f then some 2
  else none

/-- A format fits an encoding and a depth of s bits under R333. -/
def formatFits (f enc s : Nat) : Bool :=
  fmtEncoding f == some enc && (if f = 0x13 then s == 10 || s == 12 else fmtDepth f == s)

/-- The wire format of an encoding at 8, 10 or 12 bits. -/
def wireFormat (enc s : Nat) : Nat :=
  (if enc = 0 then 0x26 else if enc = 1 then 0x23 else 0x20) + (s - 8) / 2

/-- Bytes of a wire line of w pixels: whole pgroups. -/
def wireBytes (f w : Nat) : Nat := cdiv (w * fmtBpp f) 8

/-- Values of d bits packed most significant first. -/
def packBE (d : Nat) (vs : List Nat) : List Byte :=
  beBytes (cdiv (vs.length * d) 8) (vs.foldl (fun n v => n * 2 ^ d + v % 2 ^ d) 0)

/-- The components of a group of pixels in wire order (R116). -/
def wireOrder (enc : Nat) (g : List (List Nat)) : List Nat :=
  if enc = 0 then g.flatMap fun p => [p.getD 0 0, p.getD 1 0, p.getD 2 0]
  else if enc = 1 then g.flatMap fun p => [p.getD 1 0, p.getD 0 0, p.getD 2 0]
  else
    let a := g.getD 0 []
    [a.getD 1 0, a.getD 0 0, a.getD 2 0, (g.getD 1 []).getD 0 0]

/-- Pixels of a pgroup (R116). -/
def pgPixels (f : Nat) : Nat := max 1 (widthUnit f)

/-- A line packed into planes 0 and 1 of a format; s is the depth of the components. -/
def packLine (f s : Nat) (line : List (List Nat)) : List Byte × List Byte :=
  let c := fun (p : List Nat) i => p.getD i 0
  let by4 := fun (g : List Nat → List Nat) => (line.flatMap fun p => (g p).flatMap (leBytes 1), [])
  if f = 1 then by4 fun p => [c p 0, c p 1, c p 2, 0xFF]
  else if f = 2 then by4 fun p => [c p 2, c p 1, c p 0, 0xFF]
  else if f = 3 ∨ f = 0x14 then by4 fun p => [c p 0, c p 1, c p 2, 0xFF]
  else if f = 4 then (line.flatMap fun p => leBytes 4 (c p 0 + shl (c p 1) 10 + shl (c p 2) 20 + shl 3 30), [])
  else if f = 0x15 then (line.flatMap fun p => leBytes 4 (c p 0 + shl (c p 1) 10 + shl (c p 2) 20), [])
  else if f = 0x11 then
    (line.flatMap fun p => leBytes 1 (c p 0),
     (chunks 2 line).flatMap fun g => leBytes 1 (c (g.getD 0 []) 1) ++ leBytes 1 (c (g.getD 0 []) 2))
  else if f = 0x13 then
    let w := fun v => leBytes 2 (v * 2 ^ (16 - s))
    (line.flatMap fun p => w (c p 0), (chunks 2 line).flatMap fun g => w (c (g.getD 0 []) 1) ++ w (c (g.getD 0 []) 2))
  else
    ((chunks (pgPixels f) line).flatMap fun g => packBE s (wireOrder ((fmtEncoding f).getD 0) g), [])

/-- The components of a line of wire bytes of w pixels. -/
def unpackWire (f w : Nat) (b : List Byte) : List (List Nat) :=
  let one := fun c x =>
    let l := sampleLoc f 0 0 c x 0
    locRead l ((b.drop l.off).take (locSpan l))
  (List.range w).map fun x =>
    if is422 f then (if x % 2 = 1 then [one 0 x] else [one 0 x, one 1 (x / 2), one 2 (x / 2)])
    else [one 0 x, one 1 x, one 2 x]

/-! ### The FTC-F encoder (R120 to R122) -/

/-- The 8-bit endpoint of a value of a depth: its top eight bits (DESIGN CHOICE, notes/assumptions/33.md). -/
def endpoint8 (d v : Nat) : Nat := if 8 ≤ d then v / 2 ^ (d - 8) else v * 2 ^ (8 - d)

/-- The sample of component i at (sx, sy) of its own grid, from lines of w pixels: the last column and
the last line are repeated; alpha is at its maximum. -/
def lineSample (f s w i sx sy : Nat) (lines : List (List (List Nat))) : Nat :=
  let c := (fmtComps f).getD i ⟨8, 0⟩
  let line := lines.getD (min sy (lines.length - 1)) []
  if i = 3 then 2 ^ c.depth - 1
  else
    let x := if c.grid = 0 then min sx (w - 1) else 2 * min sx (w / 2 - 1)
    (line.getD x []).getD i 0 * 2 ^ (c.depth - s)

/-- Samples of component i in block (bx, by) of tile tx, in raster order. -/
def blockOf (f s w tx bx b i : Nat) (lines : List (List (List Nat))) : List Nat :=
  let c := (fmtComps f).getD i ⟨8, 0⟩
  let across := if c.grid = 0 then 4 else 2
  (List.range 4).flatMap fun y => (List.range across).map fun x =>
    lineSample f s w i (tx * 8 * across + bx * across + x) (b * 4 + y) lines

/-- One component of a block: endpoints and indices. -/
def encodeComp (d n : Nat) (vs : List Nat) : List (Nat × Nat) :=
  let lo := endpoint8 d (vs.foldl min (2 ^ d - 1))
  let hi := endpoint8 d (maxOf vs)
  (lo, 8) :: (hi, 8) :: vs.map fun v => (Config.ftcIndex d n lo hi v % 2 ^ n, n)

/-- A block of P bits, most significant first. -/
def encodeBlock (f budget s w tx bx b : Nat) (lines : List (List (List Nat))) : List Byte :=
  let cs := fmtComps f
  let parts := (List.range cs.length).flatMap fun i =>
    let c := cs.getD i ⟨8, 0⟩
    encodeComp c.depth (indexBits cs budget c) (blockOf f s w tx bx b i lines)
  let used := sumOf (parts.map (·.2))
  let v := parts.foldl (fun n e => n * 2 ^ e.2 + e.1) 0
  let p := 16 * budgetBits budget
  beBytes (p / 8) (v * 2 ^ (p - used))

/-- An FTC-F tile of a tile row; formats without 4:2:0 chroma. -/
def encodeTile (f budget s w tx : Nat) (lines : List (List (List Nat))) : List Byte :=
  (List.range 4).flatMap fun b => (List.range 8).flatMap fun bx => encodeBlock f budget s w tx bx b lines

end Sys2Proof.Machine
end

