-- ==== Sys2Proof/Machine/RasterOps.lean ====
section
/-! DEFINITION. Raster generators (chapter 08): the pixel pace, followers, COMMIT and index builds, what a
latch takes, the lead reserve's target, and the end of a run. -/
namespace Sys2Proof.Machine
open Sys2Proof

/-! ### Pace (R300) -/

/-- The tick in which the pixel position, counted since the accumulator restarted, reaches P: that of the
first CCLK cycle c with pos0 + floor(n c / d) at least P, truncated as every timestamp is (R9). -/
def posTick (x : Raster) (p : Nat) : Ticks := x.accAt + cdiv ((p - x.pos0) * x.tim.d) x.tim.n * 25 / 24

/-- Pixels of pace that one line takes (R305). -/
def linePixels (t : Timing) : Nat := tileCount t * hTotal t

/-- The tick at which line y of the frame in progress begins. -/
def lineTick (x : Raster) (y : Nat) : Ticks := posTick x (x.starts * frameTotal x.tim + y * linePixels x.tim)

/-- The tick of the next frame start. -/
def frameTick (x : Raster) : Ticks := posTick x ((x.starts + 1) * frameTotal x.tim)

/-- Ticks of a lead-in: from the beginning of line LATCH to the end of the vertical total (R639). -/
def leadTicks (t : Timing) : Ticks := cdiv ((vTotal t - t.latch) * linePixels t * t.d) t.n * 25 / 24

/-- The earliest nominal frame start of a period at or after a time (R446). -/
def firstStart (pd : Nat × Nat) (time : Nat) : Nat :=
  if time = 0 then 0 else nominalStart pd ((time - 1) * pd.2 / pd.1 + 1)

/-- A raster has been started and has not stopped. -/
def isStarted (x : Raster) : Bool := x.st != .stopped || x.waitingStart || x.leadIn

/-! ### Followers (R305, R306) -/

/-- A raster is set up as two tiles, now or by a staged timing, and holds its slices. -/
def holdsFollower (x : Raster) : Bool :=
  (x.tim.tiles2 || (x.nextTim.map (·.tiles2)).getD false || (x.stTim.map (·.tiles2)).getD false)
    && (x.first.isSome || x.rehome != .none)

/-- RG k is the follower of raster k − 1. -/
def isFollower (s : State) (k : Nat) : Bool := k % 2 == 1 && holdsFollower (rasterOf s (k - 1))

/-- The RGs that emit a raster's tiles. -/
def tilesOf (s : State) (r : Nat) : List Nat := if (rasterOf s r).tim.tiles2 then [r, r + 1] else [r]

/-! ### Alerts and events (R339, R342) -/

/-- Raise event k of raster r; firmware compares its views (R36). -/
def raiseRaster (r k : Nat) (s : State) : State := raiseUnit (unitRaster r) (64 + 4 * r + k) s

/-- Set a bit of RG_ALERT and raise RASTER_ALERT. -/
def rasterAlert (r bit : Nat) (s : State) : State :=
  let x := rasterOf s r
  raiseRaster r 2 (noteSet (rgAlertKey r) bit (putRaster r { x with alert := setBit x.alert bit true } s))

/-- Bits of RG_ALERT. -/
def alState : Nat := 0
def alDp : Nat := 1
def alDrop : Nat := 2
def alMoved : Nat := 3
def alCancelled : Nat := 4
def alWb : Nat := 5
def alExport : Nat := 6

/-- Change the data-path state of a raster (R336, R339). -/
def setDpState (r : Nat) (v : DpState) (s : State) : State :=
  let x := rasterOf s r
  if x.st = v then s else rasterAlert r alState (putRaster r { x with st := v } s)

/-! ### COMMIT and index builds (R213, R313) -/

/-- The strike that holds a raster. -/
def strikeOf (s : State) (r : Nat) : Option Strike := s.rg.strikes.find? fun k => tbit k.members r

/-- A struck strike locks the raster's shadow set (R320). -/
def strikeLocked (s : State) (r : Nat) : Bool :=
  match strikeOf s r with
  | some k => k.struck
  | none => false

/-- A build of the band index starts. -/
def startBuild (r : Nat) (s : State) : State :=
  putScene r { sceneOf s r with building := true, built := false, buildAt := s.clk.ticks } s

/-- A build has had the 65 µs that it takes at most (R213). -/
def buildTimeUp (s : State) (r : Nat) : Bool :=
  (sceneOf s r).building && decide ((sceneOf s r).buildAt + usTicks 65 ≤ s.clk.ticks)

/-- The build of the shadow set is complete. -/
def buildDone (s : State) (r : Nat) : Bool := (sceneOf s r).built || buildTimeUp s r

/-- Entries that the index of a raster's shadow scene needs under the timing of its next frame (R211). -/
def shadowEntries (s : State) (r : Nat) : Nat :=
  let x := rasterOf s r
  let t := x.stTim.getD (planTim x)
  let h := activeHeight t
  sumOf ((sceneMembers s.pn.shadow r).map fun e =>
    let c := clipLines h e.2
    if dVisible e.2 && onWidth t.hact e.2 && decide (c.1 < c.2) then (c.2 - 1) / 16 - c.1 / 16 + 1 else 0)

/-- A build completes: INDEX_FULL when the store is too small (R212, R213). What it built can be taken while
COMMIT is set or a strike holds the raster. -/
def finishBuild (r : Nat) (s : State) : State :=
  let used := (rasterOf s r).commit || (strikeOf s r).isSome
  let s := putScene r { sceneOf s r with building := false, built := used } s
  if 147456 < shadowEntries s r then setCsStat r 5 s else s

/-- Complete a build whose 65 µs have run out. -/
def settleBuild (r : Nat) (s : State) : State := if buildTimeUp s r then finishBuild r s else s

/-- Count a deferral (R316). -/
def countDefer (r : Nat) (s : State) : State :=
  let x := rasterOf s r
  raiseRaster r 1 (ltrAdd (0x1000 + 64 * r + 24) 1
    (putRaster r { x with cdefer := sat32 x.cdefer 1, cdeferLife := (x.cdeferLife + 1) % 2 ^ 32 } s))

/-- Clear COMMIT: a build in progress is abandoned (R213). -/
def clearCommit (r : Nat) (s : State) : State :=
  let s := putScene r { sceneOf s r with building := false, built := false } s
  putRaster r { rasterOf s r with commit := false } s

/-- Set COMMIT: a build starts when it was 0. Set in the latch cycle itself it waits for the next latch
and is counted, unless a strike or orphan hold keeps the set (R313, R316). -/
def setCommit (r : Nat) (s : State) : State :=
  let x := rasterOf s r
  let s' := putRaster r { x with commit := true, commitAt := s.clk.ticks } s
  if x.commit then s'
  else
    let s := startBuild r s'
    if x.latchAt == some s.clk.ticks && !x.orphan && (strikeOf s r).isNone then countDefer r s else s

/-- The latch has taken or declined the shadow set: COMMIT clears, except that a set of it in this very cycle
leaves it at 1, deferred, with a build of the shadow set as it now stands (R213, R313, R316). -/
def latchCommit (r : Nat) (s : State) : State :=
  let x := rasterOf s r
  if x.commit && x.commitAt == s.clk.ticks then countDefer r (startBuild r s) else clearCommit r s

/-! ### Scenes -/

/-- The header of the empty scene that follows one: its colours and domain are kept (R177, R201). -/
def emptyHdr (h : SceneHdr) : SceneHdr := { h with scene := 0xFFFFFF }

/-- Clear MEMBER of the scene's panes of a raster in a table. -/
def clearMembers (r : Nat) (t : Tbl (List Byte)) : Tbl (List Byte) :=
  t.map fun e => if dMember e.2 && dRaster e.2 == r && !isCrystalDesc e.2 then (e.1, setMember false e.2) else e

/-- A descriptor as a member of a raster's scene. -/
def memberDesc (r : Nat) (d : Desc) : Desc :=
  setMember true (putBytes d 2 (leBytes 1 (bits (rd d 2 1) 3 0 + shl r 4)))

/-- The descriptors of a scene put into a table, as members of the raster. -/
def putMembers (r : Nat) (ds : List Desc) (t : Tbl (List Byte)) : Tbl (List Byte) :=
  ds.foldl (fun t d => Tbl.set t (dId d) (memberDesc r d)) t

/-- Write a scene into the shadow table (R227). -/
def writeShadow (r : Nat) (h : SceneHdr) (ds : List Desc) (s : State) : State :=
  let s := { s with pn := { s.pn with shadow := putMembers r ds (clearMembers r s.pn.shadow) } }
  putScene r { sceneOf s r with shadow := h } s

/-- Both scenes of a raster become the empty scene (R311). -/
def discardScenes (r : Nat) (s : State) : State :=
  let s := { s with pn := { s.pn with shadow := clearMembers r s.pn.shadow,
                                      active := clearMembers r s.pn.active } }
  let c := sceneOf s r
  let s := putScene r { c with active := emptyHdr c.active, shadow := emptyHdr c.shadow, pending := false,
                               readmit := none, entries := 0, built := false, building := false } s
  if (rasterOf s r).commit then startBuild r s else s

/-- A raster has a committed or a pending scene (R307). -/
def hasScene (s : State) (r : Nat) : Bool :=
  let c := sceneOf s r
  c.active.scene != 0xFFFFFF || c.pending || c.readmit.isSome
    || !(committedScene s r).isEmpty || !(shadowScene s r).isEmpty

/-- Panes that a latch copies: the shadow or the active RASTER names the raster; a crystal has its own
commit (R234, R285). `p` is the state whose shadow set is copied. -/
def latchedPanes (p s : State) (r : Nat) : List Nat :=
  let crystal := fun (d : Desc) => isCrystalDesc d && dMember d
  ((s.pn.active.map (·.1) ++ p.pn.shadow.map (·.1)).eraseDups).filter fun id =>
    let d := shadowDesc p id
    let a := activeDesc s id
    (dRaster d == r || dRaster a == r) && !crystal d && !crystal a

/-- A descriptor becomes active at a latch of raster r: a new member's counters are zeroed (R234), a new replay
starts (R224). -/
def installPane (r id : Nat) (d : Desc) (s : State) : State :=
  let a := activeDesc s id
  let member := fun (d : Desc) => dMember d && dRaster d == r
  let s := putActive id d s
  if member d && !member a then putRun id {} s
  else if dSlotMode d != dSlotMode a || dSlotParam d != dSlotParam a || dRate d != dRate a then
    putRun id { paneRun s id with ft0 := none } s
  else s

/-- The latch takes the shadow set as it stood at the end of the previous cycle (R234, R313, R314): `p`. What
has been written in this cycle is a new change, and a scene submitted in it stays pending. -/
def takeShadow (p : State) (r : Nat) (s : State) : State :=
  let s := forAll (latchedPanes p s r) (fun id s => installPane r id (shadowDesc p id) s) s
  let c := sceneOf s r
  let new := c.shadow != (sceneOf p r).shadow || shadowScene s r != shadowScene p r
  let s := putScene r { c with
    active := (sceneOf p r).shadow, pending := c.pending && new,
    readmit := if c.readmit == (sceneOf p r).readmit then none else c.readmit } s
  clearMgmt (unitRaster r) (latchCommit r s)

/-- The latch takes the result of a readmission (R177): it becomes the active scene. The shadow scene has held
it since the readmission, unless the host has submitted another. -/
def takeReadmit (r : Nat) (m : SceneHdr × List Desc) (s : State) : State :=
  let stays := fun id => m.2.any fun d => dId d == id
  let gone := (s.pn.active.filter fun e =>
    dMember e.2 && dRaster e.2 == r && !isCrystalDesc e.2 && !stays e.1).map (·.1)
  let s := forAll gone (fun id s => putActive id (setMember false (activeDesc s id)) s) s
  let s := forAll m.2 (fun d s => installPane r (dId d) (memberDesc r d) s) s
  putScene r { sceneOf s r with active := m.1, readmit := none } s

/-- The active index of a raster follows its active scene and the timing of its next frame (R211, R236). -/
def settleIndex (r : Nat) (s : State) : State :=
  putScene r { sceneOf s r with entries := indexEntries s r } s

/-! ### The crystal's latch (R280, R284, R285, R289, R292, R293) -/

/-- A pane ID is no longer a crystal: both descriptors get MEMBER 0. -/
def dropCrystalPane (id : Nat) (s : State) : State :=
  let s := putActive id (setMember false (activeDesc s id)) s
  putShadow id (setMember false (shadowDesc s id)) s

/-- A surface's CRYSTAL bit follows the active and staged crystals (R280). -/
def settleCrystalBit (surf : Nat) (s : State) : State :=
  let used := (List.range 16).any fun r => (crystalsOf s r).any fun d => dSurface d == surf
  if (surfOf s surf).valid && (surfOf s surf).crystal != used then
    putSurf surf { surfOf s surf with crystal := used } s
  else s

/-- Release the slot that a raster's crystal shows. -/
def unpinCrystal (r : Nat) (s : State) : State :=
  match (crystalOf s r).slot with
  | some (sf, k) => unpinSlot sf k (pinCrystal r) s
  | none => s

/-- Take the crystal or removal staged in `p` into the active state; a stage of this very cycle stays staged
(R314). -/
def takeStagedCrystal (p : State) (r : Nat) (s : State) : State :=
  let c := crystalOf s r
  let staged := (crystalOf p r).staged
  match staged with
  | none => s
  | some n =>
    let old := c.pane
    let oldSurf := old.map fun id => dSurface (activeDesc s id)
    let s := putCrystal r { c with pane := n, staged := if c.staged == staged then none else c.staged } s
    let s := match old with
      | some id => if n = some id then s else dropCrystalPane id s
      | none => s
    let s := match n with
      | some id => installPane r id (shadowDesc p id) s
      | none => s
    match oldSurf with
    | some sf => settleCrystalBit sf s
    | none => s

/-- A commit of this very cycle has replaced the one that the latch takes, whose pin it released: the slot is
pinned again. -/
def repinCommit (r : Nat) (k : CryCommit) (s : State) : State :=
  if (crystalOf s r).commit != some k && k.pinned then pinSlot k.surface k.slot (pinCrystal r) s else s

/-- Take a crystal commit: crystal, slot and expectation together, as they stood in `p`. -/
def takeCrystal (p : State) (r : Nat) (k : CryCommit) (s : State) : State :=
  let s := takeStagedCrystal p r (unpinCrystal r (repinCommit r k s))
  let c := crystalOf s r
  let gone := c.pane.isNone
  let c := { c with commit := c.commit.filter (fun x => x.at_ == s.clk.ticks), slot := if gone then none else some (k.surface, k.slot),
                    seq := if gone then 0 else k.seq, action := k.action, learn := k.learn && !gone,
                    armed := !k.learn && !gone, expect := if k.learn || gone then c.expect else k.expect,
                    forced := c.forced && !k.release }
  putCrystal r c s

/-- Item 2 of R315, and the forced state (R292): whether a crystal commit was taken. What is taken was set
before this cycle; a commit of this cycle is deferred and counted (R285). -/
def latchCrystal (r : Nat) (s : State) : Bool × State :=
  let p := lastCycle s
  let c := crystalOf s r
  let force := c.mismatched && c.action == 2
  let s := putCrystal r { c with forced := c.forced || force, mismatched := false } s
  let new := c.commit.any fun k => k.at_ == s.clk.ticks
  let late := fun (s : State) => if new then countDefer r s else s
  match (crystalOf p r).commit with
  | none => (false, late s)
  | some k => (true, late (takeCrystal p r k s))

/-- Item 3 of R315: table copies are taken; without a new expectation they disarm the check (R289). -/
def latchTables (r : Nat) (expectation : Bool) (s : State) : State :=
  if !tablesWaiting s r then s
  else
    let c := crystalOf s r
    takeTables r (if expectation then s else putCrystal r { c with armed := false, learn := false } s)

/-! ### The lead reserve (R184 to R187) -/

/-- The target lead of worst latency w. -/
def targetLead (t : Timing) (w g : Nat) : Nat := cdiv ((w + g) * 12 * t.n) (10 * linePixels t * t.d) + 1

/-- Item 5 of R315: a pending LEAD_SET, and the retarget. -/
def retarget (r : Nat) (s : State) : State :=
  let f := fsOf s r
  let lo := (f.stLead.map (·.1)).getD f.leadMin
  let hi := (f.stLead.map (·.2)).getD f.leadMax
  let cap := capOf s r (committedScene s r)
  let tl := targetLead ((timingsOf (rasterOf s r)).headD {}) f.frameWorst f.gap
  let top := min hi cap
  let below := decide (cap < lo)
  let want := max lo (min top tl)
  let lead := if below then max 1 cap else min top (if f.lead ≤ want then want else max want (f.lead - 1))
  let atMax := decide (top < tl)
  let atMin := below || decide (tl < lo)
  let s := putFs r { f with leadMin := lo, leadMax := hi, stLead := none, cap := cap, lead := lead,
                            worst := f.frameWorst, frameWorst := 0, atMax := atMax, atMin := atMin,
                            belowMin := below } s
  let s := if atMax && !f.atMax then raiseUnit (unitRaster r) (192 + r) s else s
  if atMin && !f.atMin then raiseUnit (unitRaster r) (208 + r) s else s

/-- The fetch of the next frame begins (R303): nothing of it has issued. Requests still on their way
belong to lines already composed (R190). -/
def beginFetch (r : Nat) (s : State) : State :=
  let fl := s.fs.flights.map fun x => if x.raster = r then { x with old := true } else x
  let s := { s with fs := { s.fs with flights := fl } }
  let f := enterBand s r 0 { fsOf s r with line := 0, opened := [] }
  settleLine r (putFs r { f with issued := [], arrived := [], active := true } s)

/-! ### States at a frame start (R309, R336) -/

/-- The first aligned set of g live slices that no other raster holds (R309). -/
def freeSet (s : State) (r g : Nat) : Option Nat :=
  (List.range 16).find? fun c => g != 0 && c % g == 0 &&
    (List.range g).all fun i =>
      let x := sliceOf s (c + i)
      !x.retired && (!x.bound || x.raster == r)

/-- The data-path state that the causes of R336 give a raster that runs. -/
def upcoming (s : State) (r : Nat) : DpState :=
  let x := rasterOf s r
  if x.rehome = .lost ∨ x.rehome = .stuck then .halted
  else if x.rehome = .rebound ∧ (sceneOf s r).building ∧ !buildTimeUp s r then .halted
  else if s.pmu.blank then .blanked
  else if (crystalOf s r).forced then .forced
  else .running

/-- A data-path event of this frame halts or blanks the raster and will mark it: it overtakes a commit
(R44). -/
def overtaken (s : State) (r : Nat) : Bool :=
  let x := rasterOf s r
  if x.rehome = .lost then (freeSet s r x.g).isNone
  else s.pmu.blank && x.st != .blanked && x.rehome == .none

/-- A raster between the loss of a slice and its return takes no shadow set, and its COMMIT stays. -/
def awaitsHome (x : Raster) : Bool := x.rehome != .none

/-! ### Slices -/

/-- The owner of a slice's event sources (R507): that of the raster it serves. -/
def sliceOwner (s : State) (c : Nat) : Nat :=
  let x := sliceOf s c
  if x.bound then rasterOwner s x.raster else 0

/-- The event sources of slices whose owner changed lose their routes (R511). -/
def rehomeSlices (before s : State) : State :=
  forAll (List.range 16) (fun c s =>
    if sliceOwner before c = sliceOwner s c then s
    else forAll (List.range 4) (fun k s => evcRehomeSrc (128 + 4 * c + k) s) s) s

/-- Free the slices of a raster: the binding is lost. -/
def unbindSlices (r : Nat) (s : State) : State :=
  let mine := (List.range 16).filter fun c => (sliceOf s c).bound && (sliceOf s c).raster == r
  let s1 := forAll mine (fun c s => putSlice c
    { sliceOf s c with raster := 0, bound := false, gang := 0, leads := false } s) s
  rehomeSlices s (putRaster r { rasterOf s1 r with first := none } s1)

/-- Code of GANG. -/
def gangCode (g : Nat) : Nat := if g = 4 then 2 else if g = 2 then 1 else 0

/-- Bind g slices from slice c to a raster. -/
def bindSlices (r c g : Nat) (s : State) : State :=
  let s1 := forAll (List.range g) (fun i s => putSlice (c + i)
    { sliceOf s (c + i) with raster := r, bound := true, gang := gangCode g, leads := i == 0 } s) s
  rehomeSlices s (putRaster r { rasterOf s1 r with first := some c, g := g } s1)

/-- Mask of the slices bound to a raster. -/
def sliceMask (s : State) (r : Nat) : Nat :=
  maskOf ((List.range 16).filter fun c => (sliceOf s c).bound && (sliceOf s c).raster == r)

end Sys2Proof.Machine
end

