-- ==== Sys2Proof/Machine/Events.lean ====
section
/-! DEFINITION. The event concentrator (chapter 14): who owns a source, claims, completes, holds,
delivery with its moderation, MSI-X messages, the fallback of NOWAKE sources, and group 0x0C. -/
namespace Sys2Proof.Machine
open Sys2Proof

/-! ### Owners (R507) -/

/-- The function that may route a source; 16 stands for Movement firmware. -/
def srcOwner (s : State) (n : Nat) : Nat :=
  if 64 ≤ n ∧ n < 128 then (if n % 4 = 3 then 0 else rasterOwner s ((n - 64) / 4))
  else if 128 ≤ n ∧ n < 192 then sliceOwner s ((n - 128) / 4)
  else if 192 ≤ n ∧ n < 240 then rasterOwner s ((n - 192) % 16)
  else if 816 ≤ n ∧ n < 832 then 16
  else if 832 ≤ n ∧ n < 960 then (n - 832) / 8
  else if 1008 ≤ n then n - 1008
  else 0

/-- The sources of raster r that its owner routes. -/
def rasterSources (r : Nat) : List Nat :=
  [64 + 4 * r, 65 + 4 * r, 66 + 4 * r, 192 + r, 208 + r, 224 + r]

/-- A raster changes owner: its sources and those of its slices lose their routes (R27, R511). -/
def setRasterOwner (r f : Nat) (s : State) : State :=
  if rasterOwner s r = f then s
  else
    let s1 := { s with own := { s.own with raster := Tbl.set s.own.raster r f } }
    rehomeSlices s (forAll (rasterSources r) evcRehomeSrc s1)

/-- The sources routed to a target lose their routes when it changes owner (R511). -/
def rehomeTarget (tg : Nat) (s : State) : State :=
  forAll ((s.evc.src.filter fun e => e.2.target == tg).map (·.1)) evcRehomeSrc s

/-- A VF comes to hold its four host targets, or PF0 does again. -/
def setTargetOwner (f : Nat) (held : Bool) (s : State) : State :=
  if Tbl.get s.own.targets false f = held then s
  else
    forAll (List.range 4) (fun v s => rehomeTarget (4 + 4 * f + v) s)
      { s with own := { s.own with targets := Tbl.set s.own.targets f held } }

/-! ### Claim and complete (R514 to R516) -/

/-- End a claim (R515): a level that is still asserted is pending again. -/
def endClaim (n : Nat) (s : State) : State :=
  let x := srcOf s n
  let lvl := isLevelSource n
  let x' : EvcSrc := { x with claimed := false, claimer := 0, since := none,
                              pending := if lvl then x.asserted else x.pending }
  wakeFor n (putSrc n (if lvl then { x' with pendAt := s.clk.ticks } else x') s)

/-- A claim read of the target's own register (R514, R519, R521): the value returned and the state. It
arms the target; a core whose claim reads 0 waits for its next event (DEDUCED, notes/assumptions/12.md). -/
def claimRead (tg : Nat) (s : State) : Nat × State :=
  let n := claimTop s tg
  let g := { tgtOf s tg with armed := true, request := false }
  if n = 0 then
    (0, putTgt tg (if tg < 4 then { g with waiting := true, awake := false } else g) s)
  else
    let s := putTgt tg { g with idle := false, waiting := false, tookAt := some s.clk.ticks } s
    (n, putSrc n { srcOf s n with pending := false, claimed := true, claimer := tg, moved := none,
                                  since := none } s)

/-- A read of EVC_TCLAIM of target tg by function f: of a target it does not hold it reads 0 (R528). -/
def claimBy (f tg : Nat) (s : State) : State :=
  if 68 ≤ tg then s
  else if tgtHolder s tg = f then
    let r := claimRead tg s
    emit (.readData f r.1) r.2
  else emit (.readData f 0) s

/-- EVC_CLAIM. -/
def execEvcClaim (t : Ticks) (f tg : Nat) (s : State) :=
  regAccess t f (claimBy f tg) (emit (.readData f 0)) s

/-- A write of EVC_TCOMPLETE (R515). -/
def completeBy (f tg v : Nat) (s : State) : State :=
  let n := bits v 9 0
  if 68 ≤ tg ∨ tgtHolder s tg ≠ f then s
  else
    let x := srcOf s n
    if x.claimed && x.claimer == tg then endClaim n (putTgt tg { tgtOf s tg with armed := true } s)
    else noteSet (tstatKey tg) 13 (putTgt tg { tgtOf s tg with badcomp := true } s)

/-- EVC_COMPLETE. -/
def execEvcComplete (t : Ticks) (f tg v : Nat) (s : State) := regAccess t f (completeBy f tg v) id s

/-! ### Hold and idle (R518, R521) -/

/-- A write of EVC_TCTL. IDLE ends at 0 in the arbitration cycle of a claim read that returned a source (R516). -/
def writeTctl (f tg v : Nat) (s : State) : State :=
  if 68 ≤ tg ∨ tgtHolder s tg ≠ f then s
  else
    let g := tgtOf s tg
    putTgt tg { g with hold := tbit v 0, idle := g.idle || (tbit v 1 && decide (4 ≤ tg) && !inThisArb s g.tookAt) } s

/-- EVC_TARGET_HOLD: EVC_TCTL is written with v. -/
def execEvcTargetHold (t : Ticks) (f tg v : Nat) (s : State) := regAccess t f (writeTctl f tg v) id s

/-- EVC_TARGET_IDLE: EVC_TCTL is written with v. -/
def execEvcTargetIdle (t : Ticks) (f tg v : Nat) (s : State) := regAccess t f (writeTctl f tg v) id s

/-- A write of EVC_GCTL: PF0's only (R518). -/
def writeGctl (f v : Nat) (s : State) : State :=
  if f = 0 then { s with evc := { s.evc with ghold := tbit v 0 } } else s

/-- EVC_GLOBAL_HOLD. -/
def execEvcGlobalHold (t : Ticks) (f v : Nat) (s : State) := regAccess t f (writeGctl f v) id s

/-- A write of EVC_SWSET (R526). -/
def writeSwset (f v : Nat) (s : State) : State :=
  if f = 0 then forAll (bitList 16 v) (fun b s => raise (1008 + b) s) s else s

/-- EVC_SWSET_WRITE. -/
def execEvcSwsetWrite (t : Ticks) (f v : Nat) (s : State) := regAccess t f (writeSwset f v) id s

/-! ### Edges and levels (R512) -/

/-- EVC_EDGE: an edge of a source whose unit's own commands do not raise it reaches the EVC. -/
def execEvcEdge (t : Ticks) (src : Nat) (s : State) := whenRunning t (raise src) s

/-- EVC_LEVEL_CHANGE. -/
def execEvcLevelChange (t : Ticks) (src : Nat) (level : Bool) (s : State) :=
  whenRunning t (fun s => if isLevelSource src then evcLevel src level s else s) s

/-! ### Delivery (R519 to R522, R601, R609) -/

/-- MSI-X entry v of function f. -/
def msixOf (s : State) (f v : Nat) : MsixEntry := Tbl.get s.host.msix {} (4 * f + v)
/-- Store an MSI-X entry. -/
def putMsix (f v : Nat) (x : MsixEntry) (s : State) : State :=
  { s with host := { s.host with msix := Tbl.set s.host.msix (4 * f + v) x } }

/-- A message of an entry can be sent: the entry is not masked, MSI-X is enabled and the function may
issue requests. -/
def msixReady (s : State) (f v : Nat) : Bool :=
  !(msixOf s f v).mask && tbit s.host.msixEn f && bmeOf s f

/-- A message falls due: it is sent, or its pending bit is set. -/
def msixDue (f v : Nat) (s : State) : State :=
  let x := msixOf s f v
  if msixReady s f v then emit (.msix f v x.addr x.data) s else putMsix f v { x with pend := true } s

/-- Send the messages of a function that are pending and can be sent now. -/
def msixFlush (f : Nat) (s : State) : State :=
  forAll (List.range 4) (fun v s =>
    let x := msixOf s f v
    if x.pend && msixReady s f v then emit (.msix f v x.addr x.data) (putMsix f v { x with pend := false } s)
    else s) s

/-- A delivery is due at a target (R520), as the EVC stood at the end of the previous arbitration cycle (R516); one
at most is made in a cycle. -/
def deliveryDue (s : State) (tg : Nat) : Bool :=
  let p := lastArb s
  let g := tgtOf p tg
  let d := deliverables p tg
  let iv := usTicks g.interval
  let free := (tgtOf s tg).armed && !inThisArb s (tgtOf s tg).last
  free && g.armed && !tgtHeld p tg && !d.isEmpty && !coreAsleep s tg &&
    (tgtIdle p tg || iv == 0
      || ((match g.last with | none => true | some l => decide (l + iv ≤ s.clk.ticks))
          && (decide (max 1 g.count ≤ d.length)
              || d.any fun e => match e.2.since with
                | some a => decide (a + iv ≤ s.clk.ticks)
                | none => false)))

/-- Deliver to a target. -/
def deliver (tg : Nat) (s : State) : State :=
  if 68 ≤ tg || !deliveryDue s tg then s
  else
    let g := tgtOf s tg
    let g : EvcTgt := { g with armed := false, idle := false, waiting := false, awake := false,
                               last := some s.clk.ticks, deliv := sat 32 (g.deliv + 1) }
    if tg < 4 then emit (.coreRequest tg) (putTgt tg { g with request := true } s)
    else msixDue ((tg - 4) / 4) ((tg - 4) % 4) (putTgt tg g s)

/-- EVC_DELIVERY. -/
def execEvcDelivery (t : Ticks) (tg : Nat) (s : State) := whenRunning t (deliver tg) s

/-- A write of an MSI-X entry's vector control (R522). -/
def writeMsixCtl (f v c : Nat) (s : State) : State :=
  msixFlush f (putMsix f v { msixOf s f v with mask := tbit c 0 } s)

/-- MSIX_ENTRY_UNMASK: the vector control of entry v of function f is written with 0. -/
def execMsixEntryUnmask (t : Ticks) (f v : Nat) (s : State) :=
  regAccess t f (fun s => if v < 4 ∧ f < 16 then writeMsixCtl f v 0 s else s) id s

/-! ### NOWAKE (R524) -/

/-- The fallback target of a core target. -/
def fallbackOf (s : State) (tg : Nat) : Nat := (tgtOf s tg).fallback.getD ((tg + 1) % 4)

/-- The pending instance of a NOWAKE source moves to the fallback target of a core that has slept on for
50 µs. -/
def nowakeFallback (n : Nat) (s : State) : State :=
  let x := srcOf s n
  if x.pending && !x.claimed && x.nowake && x.moved.isNone && coreAsleep s x.target
      && decide (x.pendAt + usTicks 50 ≤ s.clk.ticks) then
    wakeFor n (putSrc n { x with moved := some (fallbackOf s x.target), since := none } s)
  else s

/-- EVC_NOWAKE_FALLBACK. -/
def execEvcNowakeFallback (t : Ticks) (src : Nat) (s : State) := whenRunning t (nowakeFallback src) s

/-! ### FLR (R525) -/

/-- The pending instance of a source is cleared; a level still asserted is pending again. -/
def dropPending (n : Nat) (s : State) : State :=
  let x := srcOf s n
  if x.claimed then putSrc n { x with pending := false } s
  else putSrc n { x with pending := pendingDropped n x, pendAt := s.clk.ticks, moved := none, since := none } s

/-- What an FLR does at one target. -/
def resetTarget (tg : Nat) (s : State) : State :=
  let claims := (s.evc.src.filter fun e => e.2.claimed && e.2.claimer == tg).map (·.1)
  let there := (s.evc.src.filter fun e => srcTarget e.2 == tg && e.2.pending).map (·.1)
  let s := forAll claims endClaim (forAll there dropPending s)
  let g := tgtOf s tg
  putTgt tg { g with thresh := 0, hold := false, idle := false, interval := 0, count := 1, armed := true } s

/-- The event concentrator's part of an FLR of function f. -/
def evcFlr (f : Nat) (s : State) : State :=
  let own := (List.range 68).filter fun tg => decide (4 ≤ tg) && tgtHolder s tg == f
  let s := forAll own resetTarget s
  let x := srcOf s (1008 + f)
  putSrc (1008 + f) { x with pending := false, moved := none, since := none } s

/-! ### Group 0x0C (R529, R530) -/

/-- FIRST or SOURCE as a 16-bit value; a value that no source has. -/
def badSource (n : Nat) : Bool := decide (n = 0 ∨ 1023 < n)

/-- The sources of EVENT_ROUTE's range. -/
def routeRange (p : Packet) : List Nat :=
  (List.range (min 1023 (prm p 2 2))).map fun i => prm p 0 2 + i

/-- Change a route (R517): a pending unclaimed instance moves with it. -/
def setRoute (tg prio : Nat) (nowake : Bool) (n : Nat) (s : State) : State :=
  let x := srcOf s n
  let stays := srcTarget x == tg
  let x' : EvcSrc := { x with target := tg, prio := prio, nowake := nowake, moved := none,
                              since := if stays then x.since else none }
  wakeFor n (putSrc n x' s)

/-- EVENT_ROUTE. -/
def eventRouteBody (p : Packet) (s : State) : Res :=
  let first := prm p 0 2
  let count := prm p 2 2
  let tg := prm p 4 1
  require (onlyBits p [(0, 2, 0x3FF), (2, 2, 0x7FF), (4, 1, 0x7F), (5, 1, 0xF), (6, 1, 1)]
    && !badSource first && decide (1 ≤ count ∧ count ≤ 1023 ∧ first + count ≤ 1024 ∧ tg ≤ 67)) badParam <|
    .ok (some (srcWord s first)) none
      (forAll (routeRange p) (setRoute tg (prm p 5 1) (prmbit p 6 0)) s)

/-- EVENT_ROUTE's owners: of every source of the range, and of the target. -/
def eventRouteOwns (p : Packet) (s : State) : Bool :=
  ((routeRange p).all fun n => badSource n || srcOwner s n == p.func)
    && (decide (67 < prm p 4 1) || tgtHolder s (prm p 4 1) == p.func)

def specEventRoute : CmdSpec :=
  { opcode := 0xC00, owns := eventRouteOwns, body := eventRouteBody }
/-- EVENT_ROUTE. -/
def execEventRoute (t : Ticks) (p : Packet) (s : State) := runPacket specEventRoute t p s

/-- EVENT_QUERY. -/
def eventQueryBody (p : Packet) (s : State) : Res :=
  let n := prm p 0 2
  require (onlyBits p [(0, 2, 0x3FF)] && !badSource n) badParam <|
    .ok (some (srcWord s n)) (some (tstatWord (lastArb s) (srcOf s n).target)) s

def specEventQuery : CmdSpec :=
  { opcode := 0xC01, exempt := fun _ => true,
    owns := fun p s => badSource (prm p 0 2) || mayQuery p (srcOwner s (prm p 0 2)), body := eventQueryBody }
/-- EVENT_QUERY. -/
def execEventQuery (t : Ticks) (p : Packet) (s : State) := runPacket specEventQuery t p s

/-- EVENT_SOFT_SET. -/
def eventSoftSetBody (p : Packet) (s : State) : Res :=
  let n := prm p 0 2
  require (onlyBits p [(0, 2, 0x3FF)] && decide (1008 ≤ n ∧ n ≤ 1023)) badParam <| okay (raise n s)

def specEventSoftSet : CmdSpec :=
  { opcode := 0xC02,
    owns := fun p _ => p.func == 0 || badSource (prm p 0 2) || prm p 0 2 == 1008 + p.func,
    body := eventSoftSetBody }
/-- EVENT_SOFT_SET. -/
def execEventSoftSet (t : Ticks) (p : Packet) (s : State) := runPacket specEventSoftSet t p s

end Sys2Proof.Machine
end

