-- ==== Sys2Proof/Machine/BlOps.lean ====
section
/-! DEFINITION. The blitter's blocks (R460 to R463): fields, validity, operands, extents and overlap
(R466, R467), and what each operation writes (R464, R465). -/
namespace Sys2Proof.Machine
open Sys2Proof

/-! ### Blocks and operands -/

/-- OP of a block. -/
def bOp (b : List Byte) : Nat := rdb b 0 1 3 0
/-- Operation width. -/
def bW (b : List Byte) : Nat := rdb b 8 2 13 0 + 1
/-- Operation height. -/
def bH (b : List Byte) : Nat := rdb b 10 2 13 0 + 1
/-- Clip rectangles used. -/
def bClips (b : List Byte) : Nat := rdb b 1 1 4 0

/-- An operand (R461): a surface with the slot chosen, or a RAW extent seen as a surface of one slot. -/
structure Opnd where
  raw  : Bool
  surf : Nat
  sel  : Nat
  x    : Nat
  y    : Nat
  sf   : Surface
  slot : Option Nat
  deriving DecidableEq, Repr

/-- The slot that SLOTSEL chooses. -/
def chosenSlot (x : Surface) (sel seq : Nat) : Option Nat :=
  match sel with
  | 0 => (readableSlots x).find? fun k => k == x.newest
  | 1 => (readableSlots x).find? fun k => (slotOf x k).seq == seq
  | _ => if x.wslot = noSlot then none else some x.wslot

/-- The operand at an offset of a block. -/
def opnd (s : State) (b : List Byte) (o : Nat) : Opnd :=
  let raw := rdb b o 1 1 0 == 1
  let i := rdb b (o + 2) 2 13 0
  let sel := rdb b o 1 3 2
  let sf : Surface :=
    if raw then { base := rd b (o + 16) 5, format := rd b (o + 21) 1, pitch := rd b (o + 22) 2, valid := true,
                  widthM1 := rdb b (o + 24) 2 13 0, heightM1 := rdb b (o + 26) 2 13 0 }
    else surfOf s i
  ⟨raw, i, sel, rdb b (o + 8) 2 13 0, rdb b (o + 10) 2 13 0, sf,
    if raw then some 0 else chosenSlot sf sel (rd b (o + 4) 4)⟩

/-- Offset of the source operand. -/
def oSrc : Nat := 16
/-- Offset of the destination operand. -/
def oDst : Nat := 48
/-- An operation reads a source. -/
def hasSrc (op : Nat) : Bool := op != 1
/-- The operands that an operation uses. -/
def usedOpnds (op : Nat) : List Nat := if hasSrc op then [oSrc, oDst] else [oDst]

/-- An operand names a surface. -/
def opndNames (b : List Byte) (o surf : Nat) : Bool := rdb b o 1 1 0 == 0 && rdb b (o + 2) 2 13 0 == surf

/-- A block references a surface. -/
def blockRefers (b : List Byte) (surf : Nat) : Bool := (usedOpnds (bOp b)).any fun o => opndNames b o surf

/-- A job of the queue, or the operation in progress, references a surface (R458). -/
def blRefers (s : State) (surf : Nat) : Bool :=
  (s.bl.queue.any fun j => j.ent.opcode < 0xA05 && blockRefers (prms j.ent.pkt) surf)
    || match s.bl.op with
      | some o => blockRefers o.block surf
      | none => false

/-! ### Check 1 of R468 -/

/-- A format that an operation takes on a side (R462), given the other operand's format. -/
def formatOk (op : Nat) (dst : Bool) (x : Surface) (other : Nat) : Bool :=
  let rgb := decide (1 ≤ x.format ∧ x.format ≤ 5)
  if dst then x.comp == 0 && (if op = 2 then rgb else x.format != 9)
  else if op = 0 then x.format == other
  else if op = 2 then rgb
  else if op = 4 then x.format == 9
  else x.format != 9

/-- Invalid fields of the operand at o. -/
def opndFaults (s : State) (op : Nat) (b : List Byte) (o : Nat) : List (Nat × Bool) :=
  let p := opnd s b o
  let dst := o == oDst
  let kind := rdb b o 1 1 0
  let f := p.sf.format
  let known := p.sf.valid && validFormat f
  let u := if f = 9 then 1 else widthUnit f
  let bad := known && !formatOk op dst p.sf (opnd s b oDst).sf.format
  let top := fun i => rdb b (o + i) 2 15 14 != 0
  [ (o, decide (1 < kind) || rdb b o 1 7 4 != 0 || (kind == 0 && (p.sel == 3 || (dst && p.sel != 2)))),
    (o + 1, rd b (o + 1) 1 != 0),
    (o + 2, top 2 || (!p.raw && bad)),
    (o + 8, top 8 || (known && (decide (sWidth p.sf < p.x + bW b) || p.x % u != 0))),
    (o + 10, top 10 || (known && (decide (sHeight p.sf < p.y + bH b) || (is420 f && p.y % 2 != 0)))),
    (o + 12, !zeroBytes b (o + 12) (o + 16)),
    (o + 16, p.raw && p.sf.base % 256 != 0),
    (o + 21, p.raw && (!validFormat f || bad)),
    (o + 22, p.raw && known && decide (p.sf.pitch < minPitch f 0 0 (sWidth p.sf))),
    (o + 24, top 24 || (p.raw && known && sWidth p.sf % widthUnit f != 0)),
    (o + 26, top 26 || (p.raw && is420 f && sHeight p.sf % 2 != 0)),
    (o + 28, !zeroBytes b (o + 28) (o + 32)) ]

/-- The width or the height suits the operands' formats. -/
def sizeOk (s : State) (op : Nat) (b : List Byte) (height : Bool) : Bool :=
  (usedOpnds op).all fun o =>
    let x := (opnd s b o).sf
    !x.valid || x.format == 9 ||
      (if height then !is420 x.format || bH b % 2 == 0 else bW b % widthUnit x.format == 0)

/-- Fields of a block that are invalid for operation `op`, by offset. -/
def blockFaults (s : State) (op : Nat) (b : List Byte) : List (Nat × Bool) :=
  [ (0, bOp b != op || decide (4 < op) || rdb b 0 1 7 4 != 0),
    (1, decide (16 < bClips b) || rdb b 1 1 7 5 != 0),
    (2, rdbit b 2 7 || (op == 2 && rdb b 2 1 1 0 == 3)),
    (3, rdb b 3 1 7 6 != 0),
    (4, rdb b 4 1 7 2 != 0 || (op == 3 && isYcc (opnd s b oDst).sf.format && rdb b 4 1 1 0 == 3)),
    (8, rdb b 8 2 15 14 != 0 || !sizeOk s op b false),
    (10, rdb b 10 2 15 14 != 0 || !sizeOk s op b true),
    (12, !zeroBytes b 12 16) ]
  ++ (if hasSrc op then opndFaults s op b oSrc else []) ++ opndFaults s op b oDst
  ++ [(104, !zeroBytes b 104 128)]
  ++ (List.range (4 * bClips b)).map fun i => (128 + 2 * i, rdb b (128 + 2 * i) 2 15 14 != 0)

/-- The first invalid field. -/
def blockFault (s : State) (op : Nat) (b : List Byte) : Option Nat :=
  ((blockFaults s op b).find? (·.2)).map (·.1)

/-! ### Extents (R466, R467) -/

/-- Device address of the slot of an operand. -/
def opndAddr (p : Opnd) : Nat := slotAddr p.sf (p.slot.getD 0)

/-- Bytes of a chroma pair of a semi-planar format. -/
def pairBytes (f : Nat) : Nat := fmtDepth f / 4

/-- Lines of plane 1 under h lines of plane 0. -/
def chromaRows (f h : Nat) : Nat := if is420 f then h / 2 else h

/-- Byte ranges [lo, hi) that w × h pixels of an operand cover: by plane and line, or by tile row. -/
def extentOf (p : Opnd) (w h : Nat) : List (Nat × Nat) :=
  let x := p.sf
  let f := x.format
  let a := opndAddr p
  let pb := x.pitch * 256
  if x.comp = 0 then
    ((List.range h).map fun l =>
      let r := a + pb * (p.y + l)
      (r + p.x * plane0Bits f / 8, r + cdiv ((p.x + w) * plane0Bits f) 8))
    ++ (if isPlanar f then (List.range (chromaRows f h)).map fun l =>
          let r := a + plane1 x.pitch (sHeight x) + pb * (chromaRows f p.y + l)
          (r + p.x / 2 * pairBytes f, r + (p.x + w) / 2 * pairBytes f)
        else [])
  else
    let t0 := p.x / 32
    let n := (p.x + w - 1) / 32 + 1 - t0
    let rows := (List.range ((p.y + h - 1) / 16 + 1 - p.y / 16)).map (p.y / 16 + ·)
    let tb := if x.comp = 2 then tileBytes x.budget else uMax f * 256
    let d := if x.comp = 2 then 0 else ftclData (sWidth x) (sHeight x)
    (rows.map fun ty => (a + d + ty * pb + t0 * tb, a + d + ty * pb + (t0 + n) * tb))
    ++ (if x.comp = 1 then rows.map fun ty =>
          let i := ty * tilesX (sWidth x) + t0
          (a + 16 * i, a + 16 * (i + n))
        else [])

/-- Lowest and highest address of ranges. -/
def hull (l : List (Nat × Nat)) : Nat × Nat :=
  ((l.map (·.1)).foldl min ((l.map (·.1)).headD 0), maxOf (l.map (·.2)))

/-- Two ranges share a byte. -/
def rangesMeet (a b : Nat × Nat) : Bool := decide (a.1 < b.2 ∧ b.1 < a.2)

/-- Two extents share a byte. -/
def extentsMeet (a b : List (Nat × Nat)) : Bool :=
  rangesMeet (hull a) (hull b) && a.any fun x => b.any (rangesMeet x)

/-- An extent meets the slots of a surface whose CRYSTAL bit is set. -/
def meetsCrystal (s : State) (l : List (Nat × Nat)) : Bool :=
  s.mm.surfs.any fun e => e.2.valid && e.2.crystal && extentsMeet l [(e.2.base, e.2.base + extentBytes e.2)]

/-- An overlap that the walk can serve (R466). -/
def overlapServed (op : Nat) (a b : Opnd) : Bool :=
  (op == 0 || op == 2) && a.sf.comp == 0 && b.sf.comp == 0 && opndAddr a == opndAddr b
    && a.sf.pitch == b.sf.pitch && a.sf.format == b.sf.format

/-- Check 6. -/
def overlapOk (s : State) (op : Nat) (b : List Byte) : Bool :=
  let p := opnd s b oSrc
  let q := opnd s b oDst
  !hasSrc op || overlapServed op p q
    || !extentsMeet (extentOf p (bW b) (bH b)) (extentOf q (bW b) (bH b))

/-- Every FTC-L header of the source extent is valid (check 7). -/
def headersOk (s : State) (p : Opnd) (w h : Nat) : Bool :=
  let x := p.sf
  x.comp != 1 ||
    (List.range ((p.y + h - 1) / 16 + 1 - p.y / 16)).all fun i =>
      (List.range ((p.x + w - 1) / 32 + 1 - p.x / 32)).all fun j =>
        ftclHeaderOk x.format
          (memRead s (opndAddr p + 16 * ((p.y / 16 + i) * tilesX (sWidth x) + p.x / 32 + j)) 16)

/-! ### Clips (R464) -/

/-- A destination pixel lies inside the clips. -/
def inClips (b : List Byte) (px py : Nat) : Bool :=
  bClips b == 0 || (List.range (bClips b)).any fun i =>
    let f := fun j => rdb b (128 + 8 * i + 2 * j) 2 13 0
    decide (f 0 ≤ px ∧ px ≤ f 0 + f 2 ∧ f 1 ≤ py ∧ py ≤ f 1 + f 3)

/-- Destination pixels inside the rectangle and the clips: RESULT0 (R469). -/
def pixelCount (b : List Byte) : Nat :=
  let x := rdb b (oDst + 8) 2 13 0
  let y := rdb b (oDst + 10) 2 13 0
  if bClips b = 0 then bW b * bH b
  else sumOf ((List.range (bH b)).map fun j =>
    ((List.range (bW b)).filter fun i => inClips b (x + i) (y + j)).length)

/-! ### Reading the source -/

/-- An operation with its operands resolved: what a burst computes from. -/
structure Blit where
  st  : State
  b   : List Byte
  src : Opnd
  dst : Opnd

/-- Byte ranges (address, length) that one sample of an operand is read from. -/
def sampleSpans (p : Opnd) (k sx sy : Nat) : List (Nat × Nat) :=
  let x := p.sf
  let f := x.format
  let a := opndAddr p
  let g := tileGrid ((fmtComps f).getD k ⟨8, 0⟩)
  let tx := sx / g.1
  let ty := sy / g.2
  if x.comp = 0 then
    let l := sampleLoc f (x.pitch * 256) (plane1 x.pitch (sHeight x)) k sx sy
    [(a + l.off, locSpan l)]
  else if x.comp = 2 then [(a + ty * x.pitch * 256 + tx * tileBytes x.budget, tileBytes x.budget)]
  else [(a + (ty * tilesX (sWidth x) + tx) * 16, 16),
        (a + ftclData (sWidth x) (sHeight x) + ty * x.pitch * 256 + tx * uMax f * 256, uMax f * 256)]

/-- The operand's slot has become INVALID: every read of it fails (R145). -/
def Opnd.gone (p : Opnd) : Bool := !p.raw && (slotOf p.sf (p.slot.getD 0)).invalid

/-- A sample in its component's own grid; none: an access fails or a tile does not decode (R469). -/
def Blit.sample (c : Blit) (p : Opnd) (k sx sy : Nat) : Option Nat :=
  if !p.gone && (sampleSpans p k sx sy).all fun e => readable c.st e.1 e.2 then
    sampleAt (slotGet c.st p.sf (p.slot.getD 0)) p.sf k sx sy
  else none

/-- Whether a component lies on a chroma grid, across and down. -/
def subX (f k : Nat) : Bool := ((fmtComps f).getD k ⟨8, 0⟩).grid != 0
/-- Down. -/
def subY (f k : Nat) : Bool := ((fmtComps f).getD k ⟨8, 0⟩).grid == 2

/-- Component k of the pixel at column dx and line dy of an operand's rectangle, as stored. -/
def Blit.stored (c : Blit) (p : Opnd) (k dx dy : Nat) : Option Nat :=
  let f := p.sf.format
  let x := p.x + dx
  let y := p.y + dy
  c.sample p k (if subX f k then x / 2 else x) (if subY f k then y / 2 else y)

/-- A stored component as binary16 (R245). -/
def asHalf (f k : Nat) (narrow : Bool) (v : Nat) : Nat := if f = 5 then v else normalise f k narrow ⟨v, 1⟩

/-- Alpha of a pixel of an operand; 1.0 where the format has none. -/
def Blit.alpha (c : Blit) (p : Opnd) (dx dy : Nat) : Option Nat :=
  if hasAlpha p.sf.format then (c.stored p 3 dx dy).map (asHalf p.sf.format 3 false) else some one16

/-! ### Codes of the destination -/

/-- A binary16 value as a full-range code of d bits. -/
def fullCode (d v : Nat) : Nat :=
  match halfVal v with
  | .fin x => min (2 ^ d - 1) (x.mul ⟨(2 ^ d - 1 : Nat), 1⟩).round.toNat
  | .inf neg => if neg then 0 else 2 ^ d - 1
  | .nan => Config.nanCode d % 2 ^ d

/-- A code of component k of a format: RGBA16F keeps the value. -/
def codeOf (f k v : Nat) : Nat := if f = 5 then v else fullCode ((fmtComps f).getD k ⟨8, 0⟩).depth v

/-- Component k of a BL colour in a format (R463). -/
def colourCode (b : List Byte) (o f k : Nat) : Nat :=
  rd b (o + 2 * k) 2 / 2 ^ (16 - ((fmtComps f).getD k ⟨8, 0⟩).depth)

/-! ### BLEND (R465) -/

/-- The blended codes of the pixel at (dx, dy), for component k. -/
def Blit.blend (c : Blit) (k dx dy : Nat) : Option Nat :=
  let fs := c.src.sf.format
  let fd := c.dst.sf.format
  let mode := rdb c.b 2 1 1 0
  let g := toHalf ⟨rd c.b 5 1, 255⟩
  match (if mode = 0 then some one16 else c.alpha c.src dx dy), c.alpha c.dst dx dy with
  | some a, some ad =>
    let alpha := hMul g a
    let inv := hOneMinus alpha
    let out := hAdd alpha (hMul ad inv)
    if k = 3 then some (codeOf fd 3 out)
    else match c.stored c.src k dx dy, c.stored c.dst k dx dy with
      | some v, some w =>
        let sc := hMul (asHalf fs k false v) (if mode = 2 then g else alpha)
        let d := asHalf fd k false w
        some (codeOf fd k (if rdbit c.b 2 2 then hAdd sc (hMul d inv)
          else unmultiply (hAdd sc (hMul (hMul d ad) inv)) out))
      | _, _ => none
  | _, _ => none

/-! ### CONVERT (R465) -/

/-- Chroma sample i of line dy, its index clamped to the samples of the source rectangle (R249). -/
def Blit.chroma (c : Blit) (k dy : Nat) (i : Int) : Option Nat :=
  let p := c.src
  let f := p.sf.format
  let lo : Int := (p.x / 2 : Nat)
  let hi : Int := ((p.x + bW c.b - 1) / 2 : Nat)
  let y := p.y + dy
  (c.sample p k (max lo (min hi i)).toNat (if subY f k then y / 2 else y)).map
    (asHalf f k (rdbit c.b 2 5))

/-- Component k of a source pixel as binary16, its chroma upsampled co-sited. -/
def Blit.upsampled (c : Blit) (k dx dy : Nat) : Option Nat :=
  let f := c.src.sf.format
  if subX f k then
    let x := c.src.x + dx
    let h : Int := (x / 2 : Nat)
    if x % 2 = 0 then c.chroma k dy h
    else match c.chroma k dy h, c.chroma k dy (h + 1) with
      | some a, some b => some (mix 1 a 1 b)
      | _, _ => none
  else (c.stored c.src k dx dy).map (asHalf f k (rdbit c.b 2 5))

/-- R', G' and B' of a source pixel: stage 8 with the A part of INMATRIX, its newest copy. -/
def Blit.rgb (c : Blit) (dx dy : Nat) : Option (List Nat) :=
  let i := rdb c.b 3 1 5 0
  let m := match newestCopy c.st (tblKey 2 i) with
    | some t => t.data
    | none => builtinMatrix i
  match c.upsampled 0 dx dy, c.upsampled 1 dx dy, c.upsampled 2 dx dy with
  | some a, some b, some d =>
    some ((List.range 3).map fun i =>
      matRow (fun j => coef m (8 * i + 2 * j)) (some (coef m (8 * i + 6))) [a, b, d])
  | _, _, _ => none

/-- A value as an RGB code of d bits, full or narrow. -/
def rangeCode (d : Nat) (narrow : Bool) (v : Nat) : Nat :=
  if narrow then
    match halfVal v with
    | .fin x => min (2 ^ d - 1) ((x.mul ⟨(219 * 2 ^ (d - 8) : Nat), 1⟩).add ⟨(16 * 2 ^ (d - 8) : Nat), 1⟩).round.toNat
    | .inf neg => if neg then 0 else 2 ^ d - 1
    | .nan => Config.nanCode d % 2 ^ d
  else fullCode d v

/-- Y, Cb and Cr of a source pixel, scaled to d bits (R325); no number gives none. -/
def Blit.ycc (c : Blit) (d dx dy : Nat) : Option (Option (List Fr)) :=
  (c.rgb dx dy).map fun v =>
    match v.map halfVal with
    | [.fin r, .fin g, .fin b] =>
      let t := toYcc (rdb c.b 4 1 1 0) [r, g, b]
      let n := rdbit c.b 2 6
      some [scaleLuma n d (t.getD 0 ⟨0, 1⟩), scaleChroma n d (t.getD 1 ⟨0, 1⟩), scaleChroma n d (t.getD 2 ⟨0, 1⟩)]
    | _ => none

/-- Co-sited 4:2:2 chroma at an even column of a line of the rectangle, before rounding. -/
def Blit.chroma422 (c : Blit) (d k dx dy : Nat) : Option (Option Fr) :=
  let n := bW c.b
  match c.ycc d (dx - 1) dy, c.ycc d dx dy, c.ycc d (min (dx + 1) (n - 1)) dy with
  | some a, some b, some e =>
    match a, b, e with
    | some a, some b, some e =>
      let z : Fr := ⟨0, 1⟩
      some (some (fDiv (fAdd (fAdd (a.getD k z) (fMul ⟨2, 1⟩ (b.getD k z))) (e.getD k z)) ⟨4, 1⟩))
    | _, _, _ => some none
  | _, _, _ => none

/-- A rounded code, or the free code of what is no number. -/
def roundCode (d : Nat) (v : Option Fr) : Nat :=
  match v with
  | some x => sinkRound d x
  | none => Config.nanCode d % 2 ^ d

/-- Component k of the converted pixel at (dx, dy); at a chroma site, of its anchor. -/
def Blit.convert (c : Blit) (k dx dy : Nat) : Option Nat :=
  let f := c.dst.sf.format
  let d := ((fmtComps f).getD k ⟨8, 0⟩).depth
  if k = 3 then (c.alpha c.src dx dy).map (codeOf f 3)
  else if !isYcc f then
    (c.rgb dx dy).map fun v =>
      if f = 5 then v.getD k 0 else rangeCode d (rdbit c.b 2 6) (v.getD k 0)
  else if k = 0 || !subX f k then (c.ycc d dx dy).map fun v => roundCode d (v.map fun l => l.getD k ⟨0, 1⟩)
  else if subY f k then
    match c.chroma422 d k dx dy, c.chroma422 d k dx (dy + 1) with
    | some a, some b => some (roundCode d (match a, b with
      | some a, some b => some (fDiv (fAdd a b) ⟨2, 1⟩)
      | _, _ => none))
    | _, _ => none
  else (c.chroma422 d k dx dy).map (roundCode d)

/-! ### Units (R464) -/

/-- Pixels across a unit of a plane. -/
def unitPixels (f plane : Nat) : Nat := if plane = 1 then 2 else if isPlanar f then 1 else widthUnit f

/-- Bytes of a unit of a plane. -/
def unitBytes (f plane : Nat) : Nat := if plane = 1 then pairBytes f else unitPixels f 0 * plane0Bits f / 8

/-- Lines of the operation: those of plane 0, then those of plane 1. -/
def lineCountOf (f h : Nat) : Nat := h + if isPlanar f then chromaRows f h else 0

/-- Plane and line of the rectangle of line index i. -/
def planeLine (h i : Nat) : Nat × Nat := if i < h then (0, i) else (1, i - h)

/-- Column and line, in the rectangle, of the anchor of unit u. -/
def anchorOf_ (f plane line u : Nat) : Nat × Nat :=
  (u * unitPixels f plane, if plane = 1 ∧ is420 f then 2 * line else line)

/-- Slot offset of unit u of a line of an operand. -/
def unitOff (p : Opnd) (plane line u : Nat) : Nat :=
  let x := p.sf
  let f := x.format
  if plane = 1 then
    plane1 x.pitch (sHeight x) + x.pitch * 256 * (chromaRows f p.y + line) + (p.x / 2 + u) * pairBytes f
  else x.pitch * 256 * (p.y + line) + (p.x + u * unitPixels f 0) * plane0Bits f / 8

/-- The samples of a unit: component and column within it. -/
def unitSamples (f plane : Nat) : List (Nat × Nat) :=
  if plane = 1 then [(1, 0), (2, 0)]
  else if isPlanar f then [(0, 0)]
  else if is422 f then [(0, 0), (0, 1), (1, 0), (2, 0)]
  else (List.range (widthUnit f)).flatMap fun j => (List.range (fmtComps f).length).map fun k => (k, j)

/-- Put a sample into the bytes of a unit that begin at a slot offset. -/
def putSample (f pitch p1 off : Nat) (b : List Byte) (k sx sy v : Nat) : List Byte :=
  let l := sampleLoc f pitch p1 k sx sy
  let i := l.off - off
  putBytes b i (locWrite l v ((b.drop i).take (locSpan l)))

/-- The mask bit at a unit's anchor; none where the read fails. -/
def Blit.maskBit (c : Blit) (dx dy : Nat) : Option Bool := (c.stored c.src 0 dx dy).map fun v => v == 1

/-- The value of one sample of the destination, for the anchor at (dx, dy) plus j columns. -/
def Blit.value (c : Blit) (k dx dy : Nat) : Option Nat :=
  let f := c.dst.sf.format
  match bOp c.b with
  | 0 => c.stored c.src k dx dy
  | 1 => some (colourCode c.b 80 f k)
  | 2 => c.blend k dx dy
  | 3 => c.convert k dx dy
  | _ => none

/-- Bits that no component of a format holds: what they are written with is not stated, but for a decoded
X of a COPY (R116). -/
def spareBytes (copy : Bool) (f n free : Nat) : List Byte :=
  if copy ∧ (f = 3 ∨ f = 0x14) then List.replicate n 0xFF#8 else leBytes n free

/-- What unit u of a line is written with. None: it is not written; the flag says whether an access
failed. -/
def Blit.unit (c : Blit) (plane line free u : Nat) : Option (List Byte) × Bool :=
  let p := c.dst
  let f := p.sf.format
  let n := unitBytes f plane
  let op := bOp c.b
  let a := anchorOf_ f plane line u
  let off := unitOff p plane line u
  let pitch := p.sf.pitch * 256
  let p1 := plane1 p.sf.pitch (sHeight p.sf)
  let put := fun (val : Nat → Nat → Option Nat) =>
    (unitSamples f plane).foldl (fun (acc : Option (List Byte)) e =>
      match acc, val e.1 e.2 with
      | some b, some v =>
        let x := p.x + a.1 + e.2
        let y := p.y + a.2
        some (putSample f pitch p1 off b e.1 (if subX f e.1 then x / 2 else x) (if subY f e.1 then y / 2 else y) v)
      | _, _ => none) (some (spareBytes (op == 0) f n (free / 256 ^ (n * u))))
  if !inClips c.b (p.x + a.1) (p.y + a.2) then (none, false)
  else if op = 0 ∧ c.src.sf.comp = 0 then
    let s := opndAddr c.src + unitOff c.src plane line u
    if !c.src.gone && readable c.st s n then (some (memRead c.st s n), false) else (none, true)
  else if op = 4 then
    match c.maskBit a.1 a.2 with
    | none => (none, true)
    | some bit =>
      if (if bit then rdbit c.b 2 3 else rdbit c.b 2 4) then
        (put fun k _ => some (colourCode c.b (if bit then 80 else 88) f k), false)
      else (none, false)
  else
    let r := put fun k j => c.value k (a.1 + j) a.2
    (r, r.isNone)

/-- The units of a run whose anchors lie inside the clips: only they are read, written and counted (R464). -/
def Blit.written (c : Blit) (plane line : Nat) (us : List Nat) : List Nat :=
  us.filter fun u =>
    let a := anchorOf_ c.dst.sf.format plane line u
    inClips c.b (c.dst.x + a.1) (c.dst.y + a.2)

/-- The FTC-L tiles of the source that a run of units reads and that fail to decode (R126). -/
def Blit.failedTiles (c : Blit) (plane line : Nat) (us : List Nat) : List (Nat × Nat) :=
  let f := c.dst.sf.format
  let at_ := fun (u i : Nat) =>
    let a := anchorOf_ f plane line u
    ((c.src.x + a.1 + i) / 32, (c.src.y + a.2) / 16)
  if !hasSrc (bOp c.b) || c.src.sf.comp != 1 then []
  else ((us.flatMap fun u => [at_ u 0, at_ u (unitPixels f plane - 1)]).eraseDups).filter fun t =>
    !tileDecodes c.st c.src.sf (c.src.slot.getD 0) t.1 t.2

end Sys2Proof.Machine
end

