-- ==== Sys2Proof/Machine/Pst.lean ====
section
/-! DEFINITION. PST records held as two copies, each closed by a CRC-32 (R582 to R584). -/
namespace Sys2Proof.Machine
open Sys2Proof

/-! ### The bytes of a record -/

/-- The 32 bytes of a retirement record (R584). -/
def retireBytes (x : Retire) : List Byte :=
  leBytes 1 x.kind ++ leBytes 1 x.index ++ leBytes 1 x.cause ++ leBytes 1 (b2n x.active + shl (b2n x.clearPending) 1)
    ++ leBytes 4 x.count ++ leBytes 8 x.time ++ leBytes 8 x.on ++ leBytes 8 0

/-- The bytes of a list of rows. -/
def repairBytes (l : List RowRef) : List Byte :=
  leBytes 4 l.length ++ l.flatMap fun w => leBytes 1 w.chan ++ leBytes 1 w.die ++ leBytes 1 w.bank ++ leBytes 4 w.row

/-- The bytes of a record. Only those of a retirement record are given (R584); the rest are the model's
(DESIGN CHOICE, notes/assumptions/76.md). -/
def PstRecord.bytes : PstRecord → List Byte
  | .boot e => leBytes 1 (b2n e)
  | .key k => leBytes 16 k
  | .retirements l => l.flatMap retireBytes
  | .repairs p d x => repairBytes p ++ repairBytes d ++ repairBytes x

/-- The area of PST that holds a record, in KiB (R582). -/
def PstRecord.area : PstRecord → Nat
  | .boot _ => 0 | .key _ => 4 | .retirements _ => 8 | .repairs .. => 64

/-! ### Copies (R583) -/

/-- The CRC-32 that closes a copy. -/
def copyCrc (r : PstRecord) (count : Nat) : Nat := crc32 (leBytes 4 count ++ r.bytes)

/-- A copy whose CRC matches. -/
def PstCopy.valid (c : PstCopy) : Bool := c.crc == copyCrc c.val c.count

/-- The copy that a boot uses: the valid one, of two the one with the higher update count. -/
def PstSlot.chosen (x : PstSlot) : Option PstCopy :=
  if x.first.valid && (!x.second.valid || decide (x.second.count ≤ x.first.count)) then some x.first
  else if x.second.valid then some x.second else none

/-- The present values of the records. -/
def pstNow (s : State) : List PstRecord :=
  [.boot s.rel.eccSel, .key s.key.key, .retirements s.rel.retired,
   .repairs s.rel.pprPending s.rel.pprDone s.rel.pprExhausted]

/-- What an area holds as the part is made. -/
def factoryRecord : PstRecord → PstRecord
  | .boot _ => .boot true | .key _ => .key 0 | .retirements _ => .retirements [] | .repairs .. => .repairs [] [] []

/-- A copy of a record with its CRC. -/
def sealCopy (r : PstRecord) (n : Nat) : PstCopy := ⟨r, n, copyCrc r n⟩

/-- The copies of a record. -/
def pstSlot (s : State) (r : PstRecord) : PstSlot :=
  (Tbl.find? s.rel.pst r.area).getD ⟨sealCopy (factoryRecord r) 0, sealCopy (factoryRecord r) 0, 0⟩

/-- Firmware updates a record: the first copy takes it; until the tick is over the second is still to be written
(DESIGN CHOICE, notes/assumptions/76.md). -/
def writePst (r : PstRecord) (s : State) : State :=
  let x := pstSlot s r
  if x.first.val = r then s
  else
    let y : PstSlot := ⟨sealCopy r (max x.first.count x.second.count + 1),
      if x.at_ = s.clk.ticks then x.second else x.first, s.clk.ticks⟩
    { s with rel := { s.rel with pst := Tbl.set s.rel.pst r.area y } }

/-- Each record that differs from its newest copy is written. -/
def savePst (s : State) : State := forAll (pstNow s) writePst s

/-- Power is lost: an update of this tick is cut off while its first copy is written. -/
def cutPst (s : State) : State :=
  { s with rel := { s.rel with pst := s.rel.pst.map fun e =>
      if e.2.at_ = s.clk.ticks ∧ e.2.first ≠ e.2.second then
        (e.1, { e.2 with first := { e.2.first with crc := copyCrc e.2.first.val e.2.first.count + 1 } })
      else (e.1, { e.2 with second := e.2.first }) } }

/-- A record that a boot has read takes effect. -/
def loadRecord (r : PstRecord) (s : State) : State :=
  match r with
  | .boot e => { s with rel := { s.rel with eccSel := e } }
  | .key k => { s with key := { s.key with key := k } }
  | .retirements l => { s with rel := { s.rel with retired := l } }
  | .repairs p d x => { s with rel := { s.rel with pprPending := p, pprDone := d, pprExhausted := x } }

/-- A boot reads PST: of each record the copy that is valid and newest. -/
def loadPst (s : State) : State :=
  forAll (s.rel.pst.filterMap fun e => e.2.chosen) (fun c s => loadRecord c.val s) s

end Sys2Proof.Machine
end

