-- ==== Sys2Proof/Machine/Lifetime.lean ====
section
/-! DEFINITION. The lifetime recorder and its checkpoints (R585 to R588, R591), retirement records (R584),
the ECC log's layout (R590) and the query opcodes of group 0x0E (R593). -/
namespace Sys2Proof.Machine
open Sys2Proof

/-- n bytes that the spec leaves open. -/
def freeBytes (n : Nat) (s : State) : List Byte × State :=
  ((List.range n).map fun i => BitVec.ofNat 8 (Config.freeValue (s.fresh + i)), { s with fresh := s.fresh + n })

/-! ### The record (R587) -/

/-- A counter of the record: 8-byte ones wrap, the others saturate. -/
def ltrField (l : Tbl Nat) (off n : Nat) : List Byte :=
  let v := Tbl.get l 0 off
  leBytes n (if n = 8 then v else sat (8 * n) v)

/-- n counters of k bytes one after another. -/
def ltrRun (l : Tbl Nat) (off k n : Nat) : List Byte := (List.range n).flatMap fun i => ltrField l (off + k * i) k

/-- The 64 bytes of a memory channel. -/
def ltrChannel (l : Tbl Nat) (n : Nat) : List Byte :=
  let o := 0x200 + 64 * n
  ltrRun l o 8 2 ++ ltrRun l (o + 16) 2 3 ++ leBytes 2 0 ++ ltrField l (o + 24) 4 ++ ltrField l (o + 28) 8 ++ leBytes 28 0

/-- Everything of a record but its closing CRC. -/
def ltrBody (uid trigger seq : Nat) (x : LtrSnap) : List Byte :=
  let l := x.live
  leBytes 2 1 ++ leBytes 1 trigger ++ leBytes 1 0 ++ leBytes 4 seq ++ leBytes 8 x.time ++ leBytes 8 uid ++ leBytes 40 0
    ++ leBytes 8 x.on ++ ltrRun l 0x48 4 2
    ++ ltrRun l 0x50 4 32 ++ ltrRun l 0xD0 4 32 ++ ltrRun l 0x150 4 15 ++ leBytes 4 0 ++ leBytes 112 0
    ++ (List.range 16).flatMap (ltrChannel l)
    ++ ltrRun l 0x600 8 256 ++ ltrRun l 0xE00 4 128
    ++ (List.range 16).flatMap (fun r => ltrRun l (0x1000 + 64 * r) 8 6 ++ leBytes 16 0)
    ++ (List.range 64).flatMap (fun i => fitBytes 32 (Tbl.get x.boots [] i)) ++ leBytes 1020 0

/-- A record of 8,192 bytes, closed by its CRC. -/
def ltrRecord (uid trigger seq : Nat) (x : LtrSnap) : List Byte :=
  let b := ltrBody uid trigger seq x
  b ++ leBytes 4 (crc32 b)

/-- The counts as they stand: what is derived from other state is filled in. -/
def ltrNow (s : State) : LtrSnap :=
  let l := (List.range 16).foldl (fun l n =>
    Tbl.set l (0x200 + 64 * n + 18) (s.rel.pprPending.filter fun x => x.chan == n).length) s.rel.live
  { time := now s, on := powerOn s, live := l, boots := s.rel.boots, bootNo := s.rel.bootNo }

/-! ### Checkpoints (R585, R586, R591) -/

/-- Unit reference under which LTR_CHECKPOINT is in flight. -/
def ltrUnit : Nat := unitRef 0x86 0

/-- A checkpoint is being written. -/
def ltrBusy (s : State) : Bool := s.rel.ltrPend.isSome

/-- Begin to write a checkpoint of a sequence number: it counts itself. Its bank holds no complete record until it is
done (R586). -/
def writeCheckpoint (trigger seq : Nat) (s : State) : State :=
  let x := ltrNow s
  let x : LtrSnap := { x with live := Tbl.upd x.live 0 0x48 (· + 1) }
  { s with rel := { s.rel with ltrPend := some x, ltrTrigger := trigger, ltrBank := seq % 16, ltrWSeq := seq,
                               banks := Tbl.del s.rel.banks (seq % 16) } }

/-- Begin the next checkpoint (R586). -/
def startCheckpoint (trigger : Nat) (s : State) : State :=
  writeCheckpoint trigger ((s.rel.ltrSeq + 1) % 2 ^ 32)
    { s with rel := { s.rel with ltrRetry := false, lastCkpt := s.clk.onTicks } }

/-- A checkpoint is complete: source 966. -/
def checkpointGood (x : LtrSnap) (s : State) : State :=
  let y := s.rel
  let b := ltrRecord y.uid y.ltrTrigger y.ltrWSeq x
  let s := { s with rel := { y with ltrPend := none, ltrRetry := false, ltrSeq := y.ltrWSeq, ltrSnap := x,
                                    banks := Tbl.set y.banks y.ltrBank b,
                                    live := Tbl.upd y.live 0 0x48 (· + 1) } }
  finishUnit ltrUnit 0 (some y.ltrWSeq) (some y.ltrBank) (raise 966 s)

/-- A checkpoint failed its read-back: it is retried once in the next bank (R591). -/
def checkpointBad (s : State) : State :=
  let y := s.rel
  let s := raise 967 (noteSet 0xB0000 8 { s with rel := { y with ltrFault := true, banks := Tbl.del y.banks y.ltrBank } })
  if y.ltrRetry then
    finishUnit ltrUnit 0x110 none none { s with rel := { s.rel with ltrPend := none, ltrRetry := false } }
  else
    let s := writeCheckpoint y.ltrTrigger ((y.ltrWSeq + 1) % 2 ^ 32) s
    { s with rel := { s.rel with ltrRetry := true } }

/-- A checkpoint write ends. -/
def checkpointDone (ok : Bool) (s : State) : State :=
  match s.rel.ltrPend with
  | none => s
  | some x => if ok then checkpointGood x s else checkpointBad s

/-- A checkpoint written whole before the step ends: before a reset or a power-down (R536, R548). -/
def checkpointNow (trigger : Nat) (s : State) : State :=
  checkpointDone true (startCheckpoint trigger (checkpointDone true s))

/-- LTR_CHECKPOINT_DONE. -/
def execLtrCheckpointDone (t : Ticks) (ok : Bool) (s : State) := whenRunning t (checkpointDone ok) s

/-- LTR_PERIODIC: 10 minutes of power-on time have passed since the last checkpoint. -/
def execLtrPeriodic (t : Ticks) (s : State) :=
  whenRunning t (fun s =>
    if ltrBusy s || decide (s.clk.onTicks < s.rel.lastCkpt + secTicks 600) then s else startCheckpoint 1 s) s

/-- PFW: PFW_N falls outside P3: source 999, and a POWER_FAIL checkpoint that takes the bank and SEQ of one
in progress (R564, R586). -/
def execPfw (t : Ticks) (s : State) :=
  whenRunning t (fun s =>
    let s := raise 999 s
    if ltrBusy s then writeCheckpoint 3 s.rel.ltrWSeq s else startCheckpoint 3 s) s

/-- Bin of a temperature in 1/8 °C. -/
def tjBin (tj : Int) : Nat := min 31 ((tj + 320) / 40).toNat
/-- Bin of `PMU_VCORE.SET`, in whole mV, of a supply in 0.1 mV. -/
def voltBin (v : Nat) : Nat := min 31 ((v / 10 - 650) * 100 / 625)

/-- LTR_SECOND_SAMPLE: a power-on second has passed. `ber` lists, for lanes that were up in the hour just
ended, the bin of their bit error rate (R587). -/
def execLtrSecondSample (t : Ticks) (ber : List (Nat × Nat)) (s : State) :=
  whenRunning t (fun s =>
    let n := powerOn s
    if n ≤ s.rel.lastSec then s
    else
      let s := ltrAdd (0xD0 + 4 * voltBin s.pmu.vset) 1 (ltrAdd (0x50 + 4 * tjBin s.pmu.tj) 1 s)
      let s := { s with rel := { s.rel with lastSec := n } }
      if n / 3600 ≤ s.rel.berAt then s
      else
        let s := forAll ((List.range 16).filterMap fun l => (ber.find? fun e => e.1 == l && decide (e.2 < 8)))
          (fun e s => ltrAdd (0xE00 + 32 * e.1 + 4 * e.2) 1 s) s
        { s with rel := { s.rel with berAt := n / 3600 } }) s

/-! ### Retirement records (R584) -/

/-- An active record of an item. -/
def isRetired (s : State) (kind index : Nat) : Bool :=
  s.rel.retired.any fun x => x.active && x.kind == kind && x.index == index

/-- Write a retirement record; a full log loses its oldest record that is not active. -/
def recordRetirement (kind index cause count : Nat) (s : State) : State :=
  let x : Retire := { kind := kind, index := index, cause := cause, count := count, time := now s, on := powerOn s }
  let l := s.rel.retired
  let l := if l.length < 1792 then l ++ [x]
    else match findPos (fun (y : Retire) => !y.active) l with
      | some i => l.set i x
      | none => l
  savePst { s with rel := { s.rel with retired := l } }

/-- Items of a kind with an active record, as a mask: REL_RETIRED and REL_LANES. -/
def retiredMask (s : State) (kind : Nat) : Nat := maskOf ((List.range 16).filter fun i => isRetired s kind i)

/-- REL_RETIRED. -/
def relRetired (s : State) : Nat := retiredMask s 1 + shl (retiredMask s 3) 16

/-- RETIREMENT_QUERY: positions past the last record read as empty. -/
def retirementQueryBody (p : Packet) (s : State) : Res :=
  let first := prm p 0 2
  let n := prm p 2 2
  require (onlyBits p [(0, 2, 0x7FF), (2, 2, 0x7FF), allBits 8 8] && decide (n ≤ 1792)) badParam <|
    let recs := (List.range n).flatMap fun i => match s.rel.retired[first + i]? with
      | some x => retireBytes x
      | none => List.replicate 32 0#8
    withBuf p s (prm p 8 8) 32 true recs fun w =>
      .ok (some (relRetired s)) (some (retiredMask s 2 + shl s.rel.retired.length 16)) (w s)

def specRetirementQuery : CmdSpec :=
  { opcode := 0xE00, exempt := fun _ => true, owns := fun _ _ => true, body := retirementQueryBody }
/-- RETIREMENT_QUERY. -/
def execRetirementQuery (t : Ticks) (p : Packet) (s : State) := runPacket specRetirementQuery t p s

/-! ### LTR_READ, LTR_CHECKPOINT and ECC_LOG_READ -/

/-- The record LTR_READ returns with its SEQ and whether its CRC is valid; an empty bank holds nothing that
the spec states. The trigger of a record not yet written is a free value. -/
def ltrReadRecord (source bank : Nat) (s : State) : (List Byte × Option Nat × Bool) × State :=
  if source = 0 then
    let f := takeFree s
    let seq := (s.rel.ltrSeq + 1) % 2 ^ 32
    ((ltrRecord s.rel.uid (f.1 % 256) seq (ltrNow s), some seq, true), f.2)
  else
    match Tbl.find? s.rel.banks (if source = 1 then s.rel.ltrSeq % 16 else bank) with
    | some b => ((b, some (rd b 4 4), rd b 0x1FFC 4 == crc32 (b.take 0x1FFC)), s)
    | none =>
      let f := freeBytes 8192 s
      ((f.1, none, false), f.2)

/-- LTR_READ. -/
def ltrReadBody (p : Packet) (s : State) : Res :=
  let src := prmb p 0 1 1 0
  require (onlyBits p [(0, 1, 3), (1, 1, 0xF), allBits 8 8] && src != 3) badParam <|
    let r := ltrReadRecord src (prmb p 1 1 3 0) s
    withBuf p s (prm p 8 8) 64 false r.1.1 fun w => .ok r.1.2.1 (some (b2n r.1.2.2)) (w r.2)

def specLtrRead : CmdSpec :=
  { opcode := 0xE02, exempt := fun _ => true, body := ltrReadBody }
/-- LTR_READ. -/
def execLtrRead (t : Ticks) (p : Packet) (s : State) := runPacket specLtrRead t p s

/-- LTR_CHECKPOINT. -/
def ltrCheckpointBody (p : Packet) (s : State) : Res :=
  require (onlyBits p []) badParam <| require (!ltrBusy s) busy <| .pend ltrUnit (startCheckpoint 4 s)

def specLtrCheckpoint : CmdSpec := { opcode := 0xE03, body := ltrCheckpointBody }
/-- LTR_CHECKPOINT. -/
def execLtrCheckpoint (t : Ticks) (p : Packet) (s : State) := runPacket specLtrCheckpoint t p s

/-- The 16 bytes of an ECC log entry (R590). -/
def eccBytes (x : EccEntry) : List Byte :=
  leBytes 8 x.time ++ leBytes 3 (x.row % 2 ^ 18) ++ leBytes 1 (x.bank % 16 + shl (x.die % 4) 4) ++ leBytes 1 x.kind
    ++ leBytes 1 (x.cls % 8 + shl (b2n x.repaired) 3) ++ leBytes 2 (sat 16 x.count)

/-- ECC_LOG_READ: entries newest first; what follows the last one is left open. -/
def eccLogReadBody (p : Packet) (s : State) : Res :=
  let n := prmb p 0 1 3 0
  let l := Tbl.get s.rel.ecc [] n
  require (onlyBits p [(0, 1, 0xF), (1, 1, 1), allBits 8 8]) badParam <|
    let f := freeBytes (1024 - 16 * l.length) s
    withBuf p s (prm p 8 8) 16 false (l.flatMap eccBytes ++ f.1) fun w =>
      let s := if prmbit p 1 0 then { f.2 with rel := { f.2.rel with ecc := Tbl.set f.2.rel.ecc n [] } } else f.2
      .ok (some l.length) none (w s)

def specEccLogRead : CmdSpec :=
  { opcode := 0xE04, exempt := fun p => !prmbit p 1 0, units := fun p _ => [unitChan (prmb p 0 1 3 0)],
    body := eccLogReadBody }
/-- ECC_LOG_READ. -/
def execEccLogRead (t : Ticks) (p : Packet) (s : State) := runPacket specEccLogRead t p s

end Sys2Proof.Machine
end

