-- ==== Sys2Proof/Machine/Repairs.lean ====
section
/-! DEFINITION. Post-package repair (R572). -/
namespace Sys2Proof.Machine
open Sys2Proof

/-- A row's bank has used its repair. -/
def bankUsed (s : State) (w : RowRef) : Bool :=
  s.rel.pprDone.any fun y => y.chan == w.chan && y.die == w.die && y.bank == w.bank

/-- A row stays in service although it crossed the threshold: source 965. -/
def exhaustRow (w : RowRef) (s : State) : State :=
  let s := ltrAdd (0x200 + 64 * w.chan + 20) 1 (ltrAdd 0x4C 1 s)
  raise 965 (savePst { s with rel := { s.rel with pprExhausted := s.rel.pprExhausted ++ [w] } })

/-- Run one pending repair. -/
def repairRow (w : RowRef) (s : State) : State :=
  let s := { s with rel := { s.rel with pprPending := s.rel.pprPending.filter (· != w) } }
  if bankUsed s w then exhaustRow w s
  else
    let fixed := (Tbl.get s.rel.ecc [] w.chan).map fun e =>
      if e.row == w.row && e.bank == w.bank && e.die == w.die then { e with repaired := true } else e
    let s := { s with rel := { s.rel with pprDone := s.rel.pprDone ++ [w], ecc := Tbl.set s.rel.ecc w.chan fixed } }
    raise 964 (ltrAdd (0x200 + 64 * w.chan + 16) 1 (savePst s))

/-- Run the pending repairs (R572): each completes (DEDUCED, notes/assumptions/43.md). -/
def runRepairs (s : State) : State := forAll s.rel.pprPending repairRow s

end Sys2Proof.Machine
end

