-- ==== Sys2Proof/Machine/Sinks.lean ====
section
/-! DEFINITION. Sinks of the raster generators (R304, R323 to R335): DisplayPort streams, ST 2110-20
senders, writeback surfaces and Cririk exports; the DisplayPort ports. A two-tile raster's tiles have
sinks of their own (R305): `k` names an RG, which may be a follower. -/
namespace Sys2Proof.Machine
open Sys2Proof

/-! ### Sinks of an RG -/

/-- The raster that drives RG k: itself, or the raster it follows. -/
def leaderOf (s : State) (k : Nat) : Nat := if isFollower s k then k - 1 else k

/-- The timing under which RG k runs. -/
def tileTiming (s : State) (k : Nat) : Timing := (rasterOf s (leaderOf s k)).tim

/-- The sink of a kind: 0 DP, 1 ST 2110-20, 2 writeback, 3 export. -/
def sinkOf (s : State) (k kind : Nat) : Option Sink := Tbl.find? (rasterOf s k).sinks kind

/-- Store a sink. -/
def putSink (k kind : Nat) (x : Sink) (s : State) : State :=
  let r := rasterOf s k
  putRaster k { r with sinks := Tbl.set r.sinks kind x } s

/-- Bits per component of a sink. -/
def sinkBits (x : Sink) : Nat := 8 + 2 * x.depth

/-- Remove a sink: a sender leaves its flow, whose packets already due still go; the authentication of a stream ends
with it. -/
def dropSink (k kind : Nat) (s : State) : State :=
  match sinkOf s k kind with
  | none => s
  | some x =>
    let r := rasterOf s k
    let r := if kind = 2 then { r with wbSlot := none, wbBuf := [], wbEnd := none } else r
    let s := putRaster k { r with sinks := Tbl.del r.sinks kind } s
    let d := dpOf s x.port
    let s := if kind = 0 then putDp x.port { d with auth := setBit d.auth x.stream false } s else s
    if kind = 1 then putEgress x.flow { egressOf s x.flow with sender := none } s else s

/-- A line that a sink cannot accept (R304). -/
def dropLine (k : Nat) (s : State) : State :=
  let x := rasterOf s k
  rasterAlert k alDrop (putRaster k { x with sdrop := sat32 x.sdrop 1 } s)

/-! ### DisplayPort streams (R328 to R331) -/

/-- Streams attached to a port: RG and sink, in descending stream index. -/
def portStreams (s : State) (p : Nat) : List (Nat × Sink) :=
  [3, 2, 1, 0].flatMap fun i => (List.range 16).filterMap fun k =>
    match sinkOf s k 0 with
    | some x => if x.port = p && x.stream = i then some (k, x) else none
    | none => none

/-- Lane rate of a RATE in bit/s. -/
def laneRate (rate : Nat) : Nat :=
  if rate = 1 then 10000000000 else if rate = 2 then 13500000000 else if rate = 3 then 20000000000 else 0

/-- Bits a pixel, in sixteenths: 3 s or 2 s, or BPP with DSC. -/
def streamBits (x : Sink) : Nat := if x.dsc then x.bpp else 16 * ((if x.enc = 2 then 2 else 3) * sinkBits x)

/-- Slots of a stream of an RG over a link (R328). -/
def streamSlots (t : Timing) (x : Sink) (rate lanes : Nat) : Nat :=
  cdiv (64 * 1006 * 1200000000 * t.n * streamBits x * 132)
    (1000 * t.d * tileCount t * 16 * laneRate rate * 128 * lanes)

/-- The rate and lanes that a port's capacity is counted with: as trained, or as configured. -/
def portLink (d : DpPort) : Nat × Nat := if d.trained then (d.tRate, d.tLanes) else (d.rate, d.lanes)

/-- Streams of these slots fit a port. -/
def slotsFit (mst : Bool) (l : List Nat) : Bool :=
  if mst then decide (sumOf l ≤ 63) else decide (l.length ≤ 1 ∧ sumOf l ≤ 64)

/-- The largest divisor of VACT from 8 to 256 (R329). -/
def sliceHeight (vact : Nat) : Option Nat :=
  ((List.range 249).map (256 - ·)).find? fun h => vact % h == 0

/-- The DSC parameters are in range, and the display takes them (`aux`, R329). -/
def dscOk (p : Packet) (t : Timing) (x : Sink) : Bool :=
  !x.dsc || (decide (128 ≤ x.bpp) && [1, 2, 4, 8, 16].contains x.slices && decide (cdiv t.hact x.slices ≤ 5120)
    && (sliceHeight t.vact).isSome && p.env.aux.headD 0 == 0)

/-- The tile rates of DSC streams come to at most 4.8 Gpix/s: N / (D T) to at most 4. -/
def dscFits (l : List Timing) : Bool :=
  let v := l.foldl (fun (a : Nat × Nat) t => (a.1 * (t.d * tileCount t) + t.n * a.2, a.2 * (t.d * tileCount t))) (0, 1)
  decide (v.1 ≤ 4 * v.2)

/-- Every stream of a port alerts its raster. -/
def alertStreams (p : Nat) (s : State) : State :=
  forAll (portStreams s p) (fun e s => rasterAlert e.1 alDp s) s

/-- Stop streams in descending index until the rest fit (R330). -/
def stopStreams (p : Nat) : List (Nat × Sink) → State → State
  | [], s => s
  | e :: t, s =>
    if slotsFit (dpOf s p).mst ((e :: t).map (·.2.slots)) then s
    else stopStreams p t (rasterAlert e.1 alDp (putSink e.1 0 { e.2 with stopped := true } s))

/-- Every stream's slots are counted anew; all of them resume. -/
def recountStreams (p : Nat) (s : State) : State :=
  let l := portLink (dpOf s p)
  forAll (portStreams s p) (fun e s =>
    putSink e.1 0 { e.2 with slots := streamSlots (tileTiming s e.1) e.2 l.1 l.2, stopped := false } s) s

/-- After raster r has a new timing its streams' slots are counted anew, and streams of their ports that no longer fit
stop (R328, R330; DESIGN CHOICE, notes/assumptions/83.md). -/
def recountRaster (r : Nat) (s : State) : State :=
  forAll (tilesOf s r) (fun k s => match sinkOf s k 0 with
    | none => s
    | some x =>
      let l := portLink (dpOf s x.port)
      let s := putSink k 0 { x with slots := streamSlots (tileTiming s k) x l.1 l.2 } s
      stopStreams x.port ((portStreams s x.port).filter fun e => !e.2.stopped) s) s

/-- A stream sends: its link is trained, and firmware has not stopped it (R330). -/
def streamSends (s : State) (x : Sink) : Bool := (dpOf s x.port).trained && !x.stopped

/-- The stream of a stopped raster carries the no-video indication (R312). -/
def idleVideo (k : Nat) (s : State) : State :=
  match sinkOf s k 0 with
  | some x => if (rasterOf s (leaderOf s k)).st == .stopped && streamSends s x then emit (.noVideo k) s else s
  | none => s

/-- The colorimetry and metadata that a stream carries with each frame (R326). -/
def sendSdp (k : Nat) (x : Sink) (s : State) : State :=
  if streamSends s x then
    emit (.sdp k [x.enc, x.mat, b2n x.narrow, sinkBits x, (outSetOf s (leaderOf s k)).otf]) s
  else s

/-- The codes that a stream carries (R325, R331). -/
def dpLine (s : State) (d : Nat) (x : Sink) (codes : List (List Nat)) : List (List Nat) :=
  let l := sinkLine x.enc x.mat x.narrow d (sinkBits x) codes
  if x.hdcp && !tbit (dpOf s x.port).auth x.stream then l.map fun p => p.map fun _ => 0 else l

/-- A stream takes a line (R330). -/
def dpTake (k y d : Nat) (x : Sink) (codes : List (List Nat)) (s : State) : State :=
  if streamSends s x then emit (.line k 0 y (dpLine s d x codes)) s else s

/-! ### ST 2110-20 senders (R332, R365, R402, R403) -/

/-- Bytes of a line of a sender or an export. -/
def sinkBytes (t : Timing) (x : Sink) : Nat := wireBytes (wireFormat x.enc (sinkBits x)) t.hact

/-- Packets of a frame. -/
def packetCount (t : Timing) (x : Sink) (c : EgressCfg) : Nat := cdiv (t.vact * sinkBytes t x) (c.blocks * 180)

/-- Lines over which a sender spreads a frame: VACT for type N, VTOTAL for type W. -/
def spreadLines (t : Timing) (x : Sink) : Nat := if x.wide then vTotal t else t.vact

/-- The frame that a sender begins to send. -/
def newSend (t : Timing) (x : Sink) (c : EgressCfg) (ft : Nat) : SendFrame :=
  let n := packetCount t x c
  let line := 5 * t.d * linePixels t
  { ft := ft, cfg := c, format := wireFormat x.enc (sinkBits x), lineLen := sinkBytes t x,
    total := t.vact * sinkBytes t x, npkt := n, ra := 3 * line * n, rb := line * spreadLines t x,
    rc := 6 * t.n * n }

/-- A sender's flow begins a frame at FT: a staged change of the flow is taken (R381). -/
def beginSend (k ft : Nat) (x : Sink) (s : State) : State :=
  let s := takeChange x.flow s
  let e := egressOf s x.flow
  putEgress x.flow (if e.cfg.kind = 1 && !e.stopped then
    { e with frames := e.frames ++ [newSend (tileTiming s k) x e.cfg ft] } else e) s

/-- A sender takes a line into the newest frame; without an open frame it cannot accept the line (R304). -/
def sendTake (k d : Nat) (x : Sink) (codes : List (List Nat)) (s : State) : State :=
  let e := egressOf s x.flow
  match (e.frames.getLast?).filter fun g => g.data.length < g.total with
  | none => dropLine k s
  | some g =>
    let b := (packLine g.format (sinkBits x) (sinkLine x.enc x.mat x.narrow d (sinkBits x) codes)).1
    putEgress x.flow { e with frames := e.frames.dropLast ++ [{ g with data := g.data ++ b }] } s

/-- The counted packet of a flow (R403). -/
def countedPacket (s : State) (c : EgressCfg) : Nat := largestPacket s c + (tsPortOf s c.port).ovh

/-- CIR of a sender in 1,000 bit/s: counted packet × 8 / TRS, rounded up. -/
def senderCir (s : State) (t : Timing) (x : Sink) (c : EgressCfg) : Nat :=
  cdiv (countedPacket s c * 8000000 * (6 * t.n * packetCount t x c)) (5 * t.d * linePixels t * spreadLines t x)

/-- The queue of a sender (R403). -/
def senderQueue (s : State) (t : Timing) (x : Sink) (c : EgressCfg) (q : TsQueue) : TsQueue :=
  let q := refillQueue s q
  let cbs := (if x.wide then 16 else 4) * countedPacket s c
  let pbs := (ethOf s c.port).mtu + (tsPortOf s c.port).ovh
  { q with cir := senderCir s t x c, pir := portRate s c.port * 1000000, cbs := cbs, pbs := pbs,
           bc := min q.bc (cbs * 2 ^ 32), bp := min q.bp (pbs * 2 ^ 32) }

/-- Release packet j of a frame into the flow's queue (R364, R365, R402). -/
def releasePacket (f : Nat) (g : SendFrame) (rest : List SendFrame) (s : State) : State :=
  let e := egressOf s f
  let len := g.cfg.blocks * 180
  let start := g.next * len
  let n := min len (g.total - start)
  let last := g.next + 1 == g.npkt
  let pkt := rtpPacket last g.cfg.pt e.nextSeq (g.ft * 9 / 100000 % 2 ^ 32) g.cfg.ssrc
    (segments g.format g.lineLen start n) ((g.data.drop start).take n)
  let e := { e with nextSeq := (e.nextSeq + 1) % 2 ^ 32,
                    frameCnt := if last then sat 32 (e.frameCnt + 1) else e.frameCnt,
                    frames := if last then rest else { g with next := g.next + 1 } :: rest }
  enqueueOrDrop f (buildUdp (flowUdp s g.cfg) pkt) (putEgress f e s)

/-- ST2110_PACKET_RELEASE: the next packet of a flow's oldest frame enters its queue at its release time. -/
def execSt2110PacketRelease (t : Ticks) (flow : Nat) (s : State) : Host.Outcome State Fault Refusal :=
  whenRunning t (fun s =>
    let e := egressOf s flow
    match e.frames with
    | [] => s
    | g :: rest =>
      let due := g.ft + (g.ra + g.next * g.rb) / g.rc
      let have_ := decide (min g.total ((g.next + 1) * g.cfg.blocks * 180) ≤ g.data.length)
      if flow < 1024 && e.cfg.kind = 1 && !e.stopped && have_ && decide (due ≤ now s) then
        releasePacket flow g rest s
      else s) s

/-! ### Writeback (R333, R334) -/

/-- The surface takes lines of this RG. -/
def wbFits (s : State) (k : Nat) (x : Sink) : Bool :=
  let sf := surfOf s x.surface
  let t := tileTiming s k
  sf.valid && sWidth sf == t.hact && sHeight sf == t.vact

/-- A frame of a writeback sink begins: it takes the write slot, or is discarded (R134), as it is while the frame before
it still waits for memory with the slot. -/
def beginWb (k : Nat) (x : Sink) (s : State) : State :=
  let sf := surfOf s x.surface
  let r := rasterOf s k
  let go := wbFits s k x && sf.wslot != noSlot && r.wbEnd.isNone
  let s1 := if r.wbEnd.isSome then s
    else putRaster k { r with wbSlot := if go then some sf.wslot else none, wbLost := 0, wbTiles := [],
                              wbBuf := [], wbRowLost := false } s
  if go then useSlot x.surface s1 else if wbFits s k x then noWriteSlot x.surface s1 else s1

/-- The surface still has the slot of the frame. -/
def wbWritable (s : State) (k : Nat) (x : Sink) : Bool := (rasterOf s k).wbSlot == some (surfOf s x.surface).wslot

/-- Write one line of an uncompressed surface. -/
def wbWriteLine (k y : Nat) (x : Sink) (line : List (List Nat)) (s : State) : State :=
  let sf := surfOf s x.surface
  if !wbWritable s k x then s
  else
    let b := packLine sf.format (sinkBits x) line
    let s := writeSlot sf (sf.pitch * 256 * y) b.1 s
    if b.2.isEmpty then s else writeSlot sf (plane1 sf.pitch (sHeight sf) + sf.pitch * 256 * y) b.2 s

/-- Write the tile row that line y ends, unless one of its lines was lost. -/
def wbTileRow (k y : Nat) (x : Sink) (s : State) : State :=
  let r := rasterOf s k
  let sf := surfOf s x.surface
  let w := sWidth sf
  let n := tilesX w
  let s1 := putRaster k { r with wbTiles := [], wbRowLost := false,
                                 wbLost := if r.wbRowLost then r.wbLost + n else r.wbLost } s
  if r.wbRowLost || !wbWritable s k x then s1
  else forAll (List.range n) (fun tx s =>
    writeSlot sf (y / 16 * sf.pitch * 256 + tx * tileBytes sf.budget)
      (encodeTile sf.format sf.budget (sinkBits x) w tx r.wbTiles) s) s1

/-- A line leaves the writeback buffer: it is written, or was lost. -/
def wbDrainOne (k : Nat) (x : Sink) (e : Nat × Option (List (List Nat))) (s : State) : State :=
  let sf := surfOf s x.surface
  let r := rasterOf s k
  if sf.comp = 2 then
    let s1 := putRaster k { r with wbTiles := r.wbTiles ++ [e.2.getD []],
                                   wbRowLost := r.wbRowLost || e.2.isNone } s
    if e.1 % 16 = 15 || e.1 + 1 = sHeight sf then wbTileRow k e.1 x s1 else s1
  else match e.2 with
    | some l => wbWriteLine k e.1 x l s
    | none => putRaster k { r with wbLost := r.wbLost + 1 } s

/-- Memory serves what line y of a writeback asks of it in class C2: its bytes, or those of its tile row. -/
def wbServed (s : State) (x : Sink) (y : Nat) : Bool :=
  let sf := surfOf s x.surface
  let pitch := sf.pitch * 256
  let at_ := fun off => served s 2 (slotAddr sf sf.wslot + off) pitch
  sf.wslot == noSlot ||
    (if sf.comp = 2 then at_ (y / 16 * pitch)
    else at_ (pitch * y) && (!isPlanar sf.format || at_ (plane1 sf.pitch (sHeight sf) + pitch * y)))

/-- A line leaves the buffer, unless an earlier one waits or memory does not serve it. -/
def wbStep (k : Nat) (x : Sink) (e : Nat × Option (List (List Nat))) (s : State) : State :=
  let r := rasterOf s k
  if !r.wbBuf.isEmpty || !wbServed s x e.1 then putRaster k { r with wbBuf := r.wbBuf ++ [e] } s
  else wbDrainOne k x e s

/-- The buffer drains in order, as far as memory serves it. -/
def wbDrain (k : Nat) (x : Sink) (s : State) : State :=
  let l := (rasterOf s k).wbBuf
  forAll l (wbStep k x) (putRaster k { rasterOf s k with wbBuf := [] } s)

/-- A writeback sink takes a line into its buffer of 32 lines; a line that finds it full is lost. -/
def wbTake (k y d : Nat) (x : Sink) (codes : List (List Nat)) (s : State) : State :=
  let r := rasterOf s k
  if !wbFits s k x then dropLine k s
  else if r.wbSlot.isNone || r.wbEnd.isSome then s
  else
    let full := decide (32 ≤ (r.wbBuf.filter (·.2.isSome)).length)
    let line := sinkLine x.enc x.mat x.narrow d (sinkBits x) codes
    let s := putRaster k { r with wbBuf := r.wbBuf ++ [(y, if full then none else some line)] } s
    wbDrain k x (if full then dropLine k s else s)

/-- A writeback frame that has ended is published once its lines are written (R134, R334). -/
def publishWb (k : Nat) (x : Sink) (s : State) : State :=
  let s := wbDrain k x s
  let r := rasterOf s k
  match r.wbEnd with
  | none => s
  | some ft =>
    if !r.wbBuf.isEmpty then s
    else
      let mine := wbWritable s k x
      let s := putRaster k { r with wbSlot := none, wbLost := 0, wbEnd := none } s
      let s := if mine then publishAuto x.surface ft (decide (0 < r.wbLost)) r.wbLost s else s
      let s := if x.leaving then dropSink k 2 s else s
      if 0 < r.wbLost then rasterAlert k alWb s else s

/-- A writeback sink whose frame has ended and waits for memory. -/
def wbWaits (s : State) (k kind : Nat) : Bool := kind == 2 && (rasterOf s k).wbEnd.isSome

/-- A writeback frame ends (R334). -/
def endWb (k ft : Nat) (x : Sink) (s : State) : State :=
  let r := rasterOf s k
  if r.wbSlot.isNone || r.wbEnd.isSome then s
  else publishWb k x (putRaster k { r with wbEnd := some ft } s)

/-! ### Cririk exports (R335, R428, R435, R436) -/

/-- The route of an export is live and firmware has not stopped it. -/
def exportLive (s : State) (k : Nat) (x : Sink) : Bool := !tbit s.cf.expStop k && (firstHop s x.dest).isSome

/-- The payload of FRAME_START (R435). -/
def frameStartBytes (s : State) (k : Nat) (x : Sink) : List Byte :=
  let r := leaderOf s k
  let t := tileTiming s k
  beBytes 3 s.cf.devid ++ [0#8] ++ beBytes 4 (rasterOf s r).frame ++ beBytes 4 (t.hact + shl t.vact 16)
    ++ beBytes 8 (rasterOf s r).ft ++ beBytes 4 (sinkBytes t x)
    ++ beBytes 1 (x.enc + shl x.depth 2 + shl x.mat 4 + shl (b2n x.narrow) 6)

/-- An export announces a frame. -/
def beginExport (k : Nat) (x : Sink) (s : State) : State :=
  if exportLive s k x then
    sendTo x.dest { vc := vcRast, ty := 8, dst := x.dest, tagw := shl x.imp 28, payload := frameStartBytes s k x } s
  else s

/-- An export sends a line as LINE_DATA; without a live route it is discarded and alerted. -/
def exportTake (k y d : Nat) (x : Sink) (codes : List (List Nat)) (s : State) : State :=
  if !exportLive s k x then rasterAlert k alExport (dropLine k s)
  else
    let parity := (rasterOf s (leaderOf s k)).frame % 2
    let f := wireFormat x.enc (sinkBits x)
    let b := (packLine f (sinkBits x) (sinkLine x.enc x.mat x.narrow d (sinkBits x) codes)).1
    let cs := chunks 240 b
    forAll (List.range cs.length) (fun i s =>
      sendTo x.dest { vc := vcRast, ty := 9, dst := x.dest,
                      tagw := shl x.imp 28 + shl parity 27 + shl y 13 + i, payload := cs.getD i [] } s) s

/-- Flits per second that an export reserves on each link of its route, as a fraction. -/
def exportRate (t : Timing) (x : Sink) : Nat × Nat :=
  (cdiv (sinkBytes t x) 240 * 1200000000 * t.n, t.d * tileCount t * hTotal t)

/-- Exports whose route leaves this device over link j, descending: RG and sink. -/
def exportsOver (s : State) (j : Nat) : List (Nat × Sink) :=
  ((List.range 16).reverse).filterMap fun k => match sinkOf s k 3 with
    | some x => if !tbit s.cf.expStop k && firstHop s x.dest == some j then some (k, x) else none
    | none => none

/-- Flits per second of a link of some lanes (R423). -/
def linkFlits (lanes : Nat) : Nat := lanes * 875000000 / 17

/-- The reservations take at most 75 % of a link of some lanes. -/
def exportsFit (lanes : Nat) (l : List (Nat × Nat)) : Bool :=
  let v := l.foldl (fun (a : Nat × Nat) e => (a.1 * e.2 + e.1 * a.2, a.2 * e.2)) (0, 1)
  decide (4 * v.1 ≤ 3 * linkFlits lanes * v.2)

/-- The reservations of the exports over a link. -/
def exportLoad (s : State) (j : Nat) : List (Nat × Nat) :=
  (exportsOver s j).map fun e => exportRate (tileTiming s e.1) e.2

/-- Stop exports over a link, in descending raster index, until the rest fit (R428). -/
def stopExports (j : Nat) : List (Nat × Sink) → State → State
  | [], s => s
  | e :: t, s =>
    if exportsFit (linkLanes s j) (exportLoad s j) then s
    else stopExports j t (rasterAlert e.1 alExport
      { s with cf := { s.cf with expStop := setBit s.cf.expStop e.1 true } })

/-! ### Lines and frames -/

/-- The line that RG k emits, with its depth: the composed line, or the blank word in HALTED (R337). -/
def lineCodes (s : State) (k : Nat) : Option (Nat × List (List Nat)) :=
  let r := leaderOf s k
  if (rasterOf s r).st = .halted then
    let c := colourWord (rasterOf s r).blank
    some (10, List.replicate (tileTiming s k).hact [c.1, c.2.1, c.2.2])
  else (rasterOf s k).ready.map fun l => (depthBits (outSetOf s r).depth, l)

/-- One sink takes a line. -/
def sinkTake (k y d : Nat) (codes : List (List Nat)) (kind : Nat) (s : State) : State :=
  match sinkOf s k kind with
  | none => s
  | some x =>
    if !x.live then s
    else match kind with
      | 0 => dpTake k y d x codes s
      | 1 => sendTake k d x codes s
      | 2 => wbTake k y d x codes s
      | _ => exportTake k y d x codes s

/-- RG k emits active line y to its sinks (R304). -/
def emitLine (y k : Nat) (s : State) : State :=
  match lineCodes s k with
  | none => s
  | some (d, l) => forAll [0, 1, 2, 3] (sinkTake k y d l) s

/-- A sink begins a frame: an attachment made before it takes effect (R323). -/
def startSink (k kind : Nat) (s : State) : State :=
  match sinkOf s k kind with
  | none => s
  | some x =>
    let s := putSink k kind { x with live := true } s
    let ft := (rasterOf s (leaderOf s k)).ft
    match kind with
    | 0 => sendSdp k x s
    | 1 => beginSend k ft x s
    | 2 => beginWb k x s
    | _ => beginExport k x s

/-- The sinks of RG k begin a frame. -/
def startSinks (k : Nat) (s : State) : State := forAll [0, 1, 2, 3] (startSink k) s

/-- A frame of RG k ends: the writeback publishes, and detached sinks go (R323). -/
def endSinks (k : Nat) (s : State) : State :=
  let ft := (rasterOf s (leaderOf s k)).ft
  let s := match sinkOf s k 2 with
    | some x => if x.live then endWb k ft x s else s
    | none => s
  forAll [0, 1, 2, 3] (fun kind s => match sinkOf s k kind with
    | some x => if x.leaving && !wbWaits s k kind then dropSink k kind s else s
    | none => s) s

/-- A stopped RG's sinks carry nothing; a DP stream carries the no-video indication (R312). -/
def stopSinks (k : Nat) (s : State) : State :=
  idleVideo k (forAll [0, 1, 2, 3] (fun kind s => match sinkOf s k kind with
    | some x => putSink k kind { x with live := false } s
    | none => s) s)

/-! ### SINK_ATTACH and SINK_DETACH (R323, R324, R328 to R336, R343) -/

/-- KIND. -/
def prmKind (p : Packet) : Nat := prmb p 1 1 1 0

/-- Parameter fields of a kind. -/
def attachBits (kind : Nat) : Fields :=
  [(0, 1, 0xF), (1, 1, 3), (2, 1, 0x1F), (3, 1, 3)] ++ (match kind with
    | 0 => [(4, 1, 3), (5, 1, 3), (6, 1, 7), (8, 2, 0xFF), (10, 1, 0x1F)]
    | 1 => [(4, 2, 0x3FF), (6, 1, 1)]
    | 2 => [(4, 2, 0x3FFF)]
    | _ => [(4, 4, 0x3FFFF), (8, 1, 0xF)])

/-- The sink that SINK_ATTACH describes. -/
def prmSink (p : Packet) (s : State) : Sink :=
  let base : Sink := { enc := prmb p 2 1 1 0, mat := prmb p 2 1 3 2, narrow := prmbit p 2 4, depth := prmb p 3 1 1 0 }
  match prmKind p with
  | 0 => { base with port := prmb p 4 1 1 0, stream := prmb p 5 1 1 0, dsc := prmbit p 6 0, hdcp := prmbit p 6 1,
                     type1 := prmbit p 6 2, bpp := prmb p 8 2 7 0, slices := prmb p 10 1 4 0 }
  | 1 => { base with flow := prmb p 4 2 9 0, wide := prmbit p 6 0 }
  | 2 =>
    let f := (surfOf s (prmb p 4 2 13 0)).format
    { base with surface := prmb p 4 2 13 0, enc := (fmtEncoding f).getD 3,
                depth := if f = 0x13 then base.depth else (fmtDepth f - 8) / 2 }
  | _ => { base with dest := prmb p 4 4 17 0, imp := prmb p 8 1 3 0 }

/-- The sink becomes attached. -/
def attachSink (k : Nat) (p : Packet) (x : Sink) (r0 : Nat) (s : State) : Res :=
  .ok (some r0) none (putSink k (prmKind p) x s)

/-- Attach a DP stream: on a stopped raster it carries no video, and with its link down or untrained it sends nothing
and alerts (R312, R330). Under SST a second stream has no slots (R328). -/
def attachDp (k : Nat) (p : Packet) (x : Sink) (s : State) : Res :=
  let d := dpOf s x.port
  let t := tileTiming s k
  let l := portLink d
  let n := streamSlots t x l.1 l.2
  let on := portStreams s x.port
  let dsc := (on.filter (·.2.dsc)).map (fun e => tileTiming s e.1) ++ (if x.dsc then [t] else [])
  require (d.enabled && (d.mst || x.stream == 0 || !on.isEmpty) && dscOk p t x) badParam <|
  require (d.mst || on.isEmpty) noResource <|
  require (on.all fun e => e.2.stream != x.stream) busy <|
  require (slotsFit d.mst (n :: on.map (·.2.slots)) && dscFits dsc) noResource <|
    let s := putSink k 0 { x with slots := n } s
    .ok (some n) none (if d.trained then idleVideo k s else rasterAlert k alDp s)

/-- Attach an ST 2110-20 sender. -/
def attachSender (k : Nat) (p : Packet) (x : Sink) (s : State) : Res :=
  let e := egressOf s x.flow
  let c := e.staged.getD e.cfg
  let t := tileTiming s k
  let r := rasterOf s (leaderOf s k)
  require (isStarted r && r.aligned && c.kind == 1) badParam <|
  require e.sender.isNone busy <|
  require (decide (c.blocks * 180 ≤ sinkBytes t x)) badParam <|
    let s1 := putQueue x.flow (senderQueue s t x c (queueOf s x.flow)) s
    require ((checkPort s1 c.port (tsPortOf s1 c.port)).isNone) noResource <|
      attachSink k p x 0 (putEgress x.flow { e with sender := some k } s1)

/-- Attach a writeback surface. -/
def attachWb (k : Nat) (p : Packet) (x : Sink) (s : State) : Res :=
  let sf := surfOf s x.surface
  require sf.valid badParam <|
  require (!sf.crystal) (bad 0x10E) <|
  require (sf.writer == 4 && wbFits s k x && formatFits sf.format x.enc (sinkBits x)
    && (sf.comp == 0 || sf.comp == 2)) badParam <|
  require (!hasAutoWriter s x.surface) busy <|
    attachSink k p x 0 s

/-- Attach an export. `aux` says that a link beyond this device's own is fully reserved. -/
def attachExport (k : Nat) (p : Packet) (x : Sink) (s : State) : Res :=
  let t := tileTiming s k
  require (s.cf.valid && x.dest / 64 == s.cf.devid / 64 && decide (x.dest % 64 < nodeSize s)
    && x.dest != s.cf.devid) badParam <|
  require ((match firstHop s x.dest with
      | some j => exportsFit (linkLanes s j) (exportRate t x :: exportLoad s j)
      | none => true) && p.env.aux.headD 0 == 0) noResource <|
    attachSink k p x 0 { s with cf := { s.cf with expStop := setBit s.cf.expStop k false } }

/-- SINK_ATTACH. -/
def sinkAttachBody (p : Packet) (s : State) : Res :=
  let k := prmRaster p
  let kind := prmKind p
  let x := prmSink p s
  require (!(rasterOf s (leaderOf s k)).orphan) busy <|
  require (onlyBits p (attachBits kind) && (tileTiming s k).set && prmb p 2 1 1 0 != 3 && prmb p 2 1 3 2 != 3
    && prmb p 3 1 1 0 != 3) badParam <|
  require (sinkOf s k kind).isNone busy <|
  match kind with
  | 0 => attachDp k p x s
  | 1 => attachSender k p x s
  | 2 => attachWb k p x s
  | _ => attachExport k p x s

/-- Ownership of a sink command (R324). -/
def ownsSink (p : Packet) (s : State) (attach : Bool) : Bool :=
  let own := ownsRaster p s (prmRaster p)
  match prmKind p with
  | 1 => own && (!attach || egressOwner s (prmb p 4 2 9 0) == p.func)
  | 2 => own && (!attach || surfOwner s (prmb p 4 2 13 0) == p.func)
  | _ => own && p.func == 0

/-- The units of a sink command. -/
def sinkUnits (p : Packet) (s : State) (attach : Bool) : List Nat :=
  unitRaster (leaderOf s (prmRaster p)) :: (match attach, prmKind p with
    | true, 0 => [unitDp (prmb p 4 1 1 0)]
    | true, 1 => [unitFlow (prmb p 4 2 9 0)]
    | _, _ => [])

def specSinkAttach : CmdSpec :=
  { opcode := 0x503, units := fun p s => sinkUnits p s true, owns := fun p s => ownsSink p s true,
    body := sinkAttachBody }
/-- SINK_ATTACH. -/
def execSinkAttach (t : Ticks) (p : Packet) (s : State) := runPacket specSinkAttach t p s

/-- SINK_DETACH. -/
def sinkDetachBody (p : Packet) (s : State) : Res :=
  let k := prmRaster p
  let kind := prmKind p
  let r := rasterOf s (leaderOf s k)
  require (!r.orphan) busy <|
  require (onlyBits p [(0, 1, 0xF), (1, 1, 3)]) badParam <|
  match sinkOf s k kind with
  | none => badParam
  | some x => okay (if r.st = .stopped && !wbWaits s k kind then dropSink k kind s else putSink k kind { x with leaving := true } s)

def specSinkDetach : CmdSpec :=
  { opcode := 0x504, units := fun p s => sinkUnits p s false, owns := fun p s => ownsSink p s false,
    body := sinkDetachBody }
/-- SINK_DETACH. -/
def execSinkDetach (t : Ticks) (p : Packet) (s : State) := runPacket specSinkDetach t p s

/-! ### DisplayPort ports (R327, R330, R331, R344) -/

/-- The link of a port goes down or is trained anew: its streams send nothing and alert their rasters. -/
def dpDown (p : Nat) (d : DpPort) (s : State) : State :=
  let was := (dpOf s p).trained
  let s := putDp p { d with trained := false, tRate := 0, tLanes := 0, auth := 0 } s
  if was then alertStreams p s else s

/-- The configured word of a port. -/
def dpWanted (d : DpPort) : Nat := stateWord 0x42 (dpDetail d.lanes d.rate)

/-- DP_PORT_CONFIG (R327, R344). -/
def dpPortConfigBody (p : Packet) (s : State) : Res :=
  let i := prmb p 0 1 1 0
  let en := prmbit p 1 0
  let rate := prmb p 2 1 1 0
  let lanes := prmb p 3 1 2 0
  let d := dpOf s i
  let on := portStreams s i
  let fits := slotsFit (prmbit p 1 1) (on.map fun e => streamSlots (tileTiming s e.1) e.2 rate lanes)
    && (prmbit p 1 1 || on.all fun e => e.2.stream == 0)
  require (onlyBits p [(0, 1, 3), (1, 1, 3), (2, 1, 3), (3, 1, 7), (4, 1, 1)]
    && (!en || (rate != 0 && [1, 2, 4].contains lanes))) badParam <|
  require (on.isEmpty || (en && fits)) noResource <|
    let d := { d with enabled := en, mst := prmbit p 1 1, rate := rate, lanes := lanes, fallback := prmbit p 4 0,
                      training := en && d.hpd, hpdLost := false }
    let s1 := recountStreams i (dpDown i d s)
    let s2 := if en then setMgmt (unitDp i) (dpWanted d) s1 else clearMgmt (unitDp i) s1
    .ok (some (dpData s2 i)) none s2

def specDpPortConfig : CmdSpec :=
  { opcode := 0x507, units := fun p _ => [unitDp (prmb p 0 1 1 0)], body := dpPortConfigBody }
/-- DP_PORT_CONFIG. -/
def execDpPortConfig (t : Ticks) (p : Packet) (s : State) := runPacket specDpPortConfig t p s

/-- A result that training may have (R327): failure, the configured values, or with FALLBACK a lower rate
or fewer lanes. -/
def trainingResult (d : DpPort) (rate lanes : Nat) : Bool :=
  lanes == 0 || (rate == d.rate && lanes == d.lanes)
    || (d.fallback && decide (1 ≤ rate ∧ rate ≤ d.rate) && [d.lanes, d.lanes / 2, d.lanes / 4].contains lanes)

/-- After a change of a port: a unit reset in progress adopts its state (R554), else it is compared. -/
def settleDp (p : Nat) (s : State) : State :=
  if unitBusy s (unitDp p) then adoptData (unitDp p) s else compareUnit (unitDp p) s

/-- DP_TRAINING_DONE: training ended with a rate and lanes; lanes 0: it failed. -/
def execDpTrainingDone (t : Ticks) (port rate lanes : Nat) (s : State) : Host.Outcome State Fault Refusal :=
  whenRunning t (fun s =>
    let d := dpOf s port
    if !(port < 4 && d.enabled && d.hpd && d.training && trainingResult d rate lanes) then s
    else
      let ok := lanes != 0
      let s1 := putDp port { d with training := false, trained := ok, tRate := if ok then rate else 0,
                                    tLanes := lanes, retrain := if d.hpdLost then sat32 d.retrain 1 else d.retrain,
                                    hpdLost := false } s
      let s2 := recountStreams port s1
      let s3 := if ok then
          let s3 := stopStreams port (portStreams s2 port) s2
          forAll ((portStreams s3 port).map (·.1)) idleVideo s3
        else alertStreams port s2
      finishUnit (unitDp port) 0 (some (dpData s3 port)) none (settleDp port s3)) s

/-- DP_HPD_CHANGE: hot-plug detect changes. After a loss and a regain, firmware retrains (R327). -/
def execDpHpdChange (t : Ticks) (port : Nat) (level : Bool) (s : State) : Host.Outcome State Fault Refusal :=
  whenRunning t (fun s =>
    let d := dpOf s port
    if !(port < 4) || d.hpd == level then s
    else if level then
      compareUnit (unitDp port) (putDp port { d with hpd := true, training := d.enabled } s)
    else
      let s := dpDown port { d with hpd := false, training := false, hpdLost := d.enabled } s
      finishUnit (unitDp port) 0 (some (dpData s port)) none (settleDp port s)) s

/-- HDCP_AUTH_RESULT: the authentication of a stream succeeds with its receiver IDs, fails, or is lost
(R331). -/
def execHdcpAuthResult (t : Ticks) (port stream : Nat) (ok : Bool) (rxids : List Byte) (s : State) :
    Host.Outcome State Fault Refusal :=
  whenRunning t (fun s =>
    let d := dpOf s port
    match (portStreams s port).find? fun e => e.2.stream == stream with
    | none => s
    | some (k, x) =>
      if !(x.hdcp && (d.trained || !ok)) then s
      else
        let lost := tbit d.auth stream && !ok
        let s := putSink k 0 { x with rxids := if ok then fitBytes 20 rxids else [] } s
        let s := putDp port { d with auth := setBit d.auth stream ok } s
        if lost then rasterAlert k alDp s else s) s

end Sys2Proof.Machine
end

