-- ==== Sys2Proof/Machine/Strikes.lean ====
section
/-! DEFINITION. Strikes within a device (R318 to R322) and across the devices of a node (R449 to R452):
their boundaries, decisions, votes and cancellation. -/
namespace Sys2Proof.Machine
open Sys2Proof

/-! ### Boundaries (R318, R319, R446) -/

/-- The least common multiple of two rationals. -/
def lcmQ (a b : Nat × Nat) : Nat × Nat :=
  let n := Nat.lcm (a.1 * b.2) (b.1 * a.2)
  let d := a.2 * b.2
  let g := Nat.gcd n d
  (n / g, d / g)

/-- The common period of members. -/
def commonPeriod (l : List StrikeMember) : Nat × Nat :=
  match l with
  | [] => (1, 1)
  | m :: t => t.foldl (fun p x => lcmQ p (x.pnum, x.pden)) (m.pnum, m.pden)

/-- A raster as a member of a strike. -/
def strikeMember (t : Timing) : StrikeMember :=
  let p := framePeriod t
  { pnum := p.1, pden := p.2, lnum := 5 * t.d * linePixels t * (vTotal t - t.latch) }

/-- Members of a raster mask. -/
def strikeMembers (s : State) (mask : Nat) : List StrikeMember :=
  (bitList 16 mask).map fun r => strikeMember (rasterOf s r).tim

/-- Which multiple of the common period a boundary is. -/
def boundaryIndex (p : Nat × Nat) (c : Nat) : Nat := c * p.2 / p.1
/-- The boundary after C. -/
def nextBoundary (p : Nat × Nat) (c : Nat) : Nat := nominalStart p (boundaryIndex p c + 1)

/-- D of a boundary: the earliest nominal latch time of the frames that end there. -/
def decisionTime (p : Nat × Nat) (l : List StrikeMember) (c : Nat) : Nat :=
  let k := boundaryIndex p c
  let ts := l.map fun m => cdiv (k * p.1 * m.pden - m.lnum * p.2) (p.2 * m.pden)
  ts.foldl min (ts.headD 0)

/-- The first boundary at or after `c` whose time `lead` before D is still ahead. -/
def aheadBoundary (p : Nat × Nat) (l : List StrikeMember) (lead time : Nat) (c : Nat) : Nat :=
  if time < decisionTime p l c - lead then c
  else
    let far := maxOf (l.map fun m => cdiv m.lnum m.pden) + lead
    let c := max c (firstStart p (time + far))
    if time < decisionTime p l c - lead then c else nextBoundary p c

/-- The frame in progress of raster r ends at C: its next frame start lies nearest to C. -/
def endsAt (s : State) (r c : Nat) : Bool :=
  let x := rasterOf s r
  let p := framePeriod x.tim
  let ft := nsAt s (frameTick x)
  decide (2 * (max ft c - min ft c) * p.2 < p.1)

/-! ### The strikes of this device -/

/-- Change the strikes that satisfy a test. -/
def mapStrikes (p : Strike → Bool) (f : Strike → Strike) (s : State) : State :=
  { s with rg := { s.rg with strikes := s.rg.strikes.map fun k => if p k then f k else k } }
/-- Remove the strikes that satisfy a test. -/
def dropStrikes (p : Strike → Bool) (s : State) : State :=
  { s with rg := { s.rg with strikes := s.rg.strikes.filter fun k => !p k } }

/-- Alert every member of a strike. -/
def alertMembers (mask bit : Nat) (s : State) : State := forAll (bitList 16 mask) (fun r s => rasterAlert r bit s) s

/-- Arm a strike: each member's index build starts (R318). -/
def armStrike (k : Strike) (s : State) : State :=
  forAll (bitList 16 k.members) startBuild { s with rg := { s.rg with strikes := s.rg.strikes ++ [k] } }

/-- Every member is ready at D or V (R319): COMMIT as it stood at the end of the previous cycle. -/
def strikeReady (s : State) (mask : Nat) : Bool :=
  (bitList 16 mask).all fun r =>
    let p := lastCycle s
    (rasterOf p r).commit && buildDone p r && (rasterOf s r).st == .running && !isMarked s (unitRaster r)

/-- A strike moves to a boundary: STRIKE_MOVED on every member. -/
def moveStrike (k : Strike) (c d : Nat) (s : State) : State :=
  alertMembers k.members alMoved
    (mapStrikes (fun x => x.members == k.members) (fun x => { x with c := c, d := d, struck := false, voted := false }) s)

/-- A strike moves to the next common boundary of the period it knows, as far as this device can tell. -/
def moveOn (k : Strike) (s : State) : State :=
  let p := (k.pn, k.pd)
  let c := nextBoundary p k.c
  let shift := c - k.c
  moveStrike k c (if k.id = 0 then decisionTime p (strikeMembers s k.members) c else k.d + shift) s

/-- The decision of a strike on one device (R319). -/
def decideStrike (k : Strike) (s : State) : State :=
  if strikeReady s k.members then
    mapStrikes (fun x => x.members == k.members) (fun x => { x with struck := true }) s
  else moveOn k s

/-! ### Messages between a part and the anchor -/

/-- The strike number of a STRIKE_ID. -/
def strikeNum (id : Nat) : Nat := id % 1024

/-- The anchor of this node. -/
def anchorOf (s : State) : Nat := s.cf.devid / 64 * 64

/-- The unit of a STRIKE_ARM that waits for the anchor's answer. -/
def strikeUnit (num : Nat) : Nat := unitRef 0x82 num

/-- A STRIKE flit; the spec gives no layout of its payload (DESIGN CHOICE, notes/assumptions/24.md). -/
def strikeFlit (num kind : Nat) (words : List Nat) : Flit :=
  { vc := vcSync, ty := 0xF, tagw := num, payload := beBytes 1 kind ++ words.flatMap (beBytes 8) }

/-- Send what a part says. -/
def upFlit (num dev : Nat) (v : StrikeUp) : Flit :=
  match v with
  | .vote b => strikeFlit num 1 [dev, b2n b]
  | .cancel => strikeFlit num 2 [dev]
  | .kept => strikeFlit num 3 [dev]

/-- Send what the anchor says. -/
def downFlit (num : Nat) (w : StrikeDown) : Flit :=
  match w with
  | .answer st c => strikeFlit num 8 [st, c]
  | .fixed c d pn pd m => strikeFlit num 9 [c, d, pn, pd, b2n m]
  | .struck => strikeFlit num 10 []
  | .moved c d => strikeFlit num 11 [c, d]
  | .cancelled => strikeFlit num 12 []
  | .split => strikeFlit num 13 []

/-- The strike of this device with a number. -/
def partOf (s : State) (num : Nat) : Option Strike :=
  s.rg.strikes.find? fun k => k.id != 0 && strikeNum k.id == num

/-- The raster mask and T of a waiting STRIKE_ARM. -/
def waitingArm (s : State) (num : Nat) : Option Packet :=
  (s.cp.inflight.find? fun x => x.unit == strikeUnit num).map fun x => x.ent.pkt

/-- The strike that a STRIKE_ARM packet asks for. -/
def strikeFor (p : Packet) (c d : Nat) (period : Nat × Nat) : Strike :=
  { members := prm p 0 2, owner := p.func, id := prm p 2 2, c := c, t := prm p 8 8, pn := period.1, pd := period.2,
    d := d }

/-- The results of STRIKE_ARM: C. -/
def strikeResult (status c : Nat) (s : State) : Res := .done status (some c) (some (c / 2 ^ 32)) s

/-- A part takes the anchor's word. -/
def partWord (num : Nat) (w : StrikeDown) (s : State) : State :=
  match w with
  | .answer st c =>
    match waitingArm s num with
    | none => s
    | some p =>
      if st = 0 then finishUnit (strikeUnit num) 0 (some c) (some (c / 2 ^ 32)) (armStrike (strikeFor p 0 0 (1, 1)) s)
      else finishUnit (strikeUnit num) st none none s
  | .split => raise 656 s
  | _ =>
    match partOf s num with
    | none => s
    | some k =>
      match w with
      | .fixed c d pn pd m =>
        let s := mapStrikes (fun x => x.members == k.members) (fun x => { x with c := c, d := d, pn := pn, pd := pd }) s
        if m then alertMembers k.members alMoved s else s
      | .struck => if k.voted then
          mapStrikes (fun x => x.members == k.members) (fun x => { x with struck := true }) s else s
      | .moved c d => moveStrike k c d s
      | .cancelled => alertMembers k.members alCancelled (dropStrikes (fun x => x.members == k.members) s)
      | _ => s

/-! ### The anchor (R450, R451) -/

/-- Send a word to the parts of a strike; this device's own part takes it at once. -/
def tellParts (o : OpenStrike) (w : StrikeDown) (s : State) : State :=
  forAll (o.regs.map (·.1)) (fun dev s =>
    if dev = s.cf.devid then partWord o.num w s else sendTo dev (downFlit o.num w) s) s

/-- An open strike. -/
def openOf (s : State) (num : Nat) : Option OpenStrike := s.cf.strikes.find? fun o => o.num == num
/-- Store an open strike. -/
def putOpen (o : OpenStrike) (s : State) : State :=
  let rest := s.cf.strikes.filter fun x => x.num != o.num
  { s with cf := { s.cf with strikes := rest ++ [o] } }
/-- Close a strike. -/
def closeStrike (num : Nat) (s : State) : State :=
  { s with cf := { s.cf with strikes := s.cf.strikes.filter fun x => x.num != num } }

/-- All members of an open strike, and its common period. -/
def openMembers (o : OpenStrike) : List StrikeMember := o.regs.flatMap (·.2)

/-- A registration at the anchor (R450): status, C, and the state with the part registered. -/
def registerPart (reg : StrikeReg) (s : State) : Nat × Nat × State :=
  let num := strikeNum reg.id
  let parts := reg.id / 1024 + 1
  let ms := reg.members.map fun m => (⟨m.1, m.2.1, m.2.2⟩ : StrikeMember)
  let cur := (openOf s num).bind fun o => if o.struck && decide (o.c ≤ now s) then none else some o
  let o := cur.getD { num := num, t := reg.time, parts := parts, func := reg.func }
  let o' := { o with regs := o.regs ++ [(reg.device, ms)] }
  let full := o'.regs.length == o.parts
  let per := commonPeriod (openMembers o')
  let first := firstStart per o.t
  let c := aheadBoundary per (openMembers o') 100000 (now s) first
  if o.t ≠ reg.time ∨ o.parts ≠ parts ∨ o.func ≠ reg.func then (0x101, 0, s)
  else if o.struck || o.regs.any (fun r => r.1 == reg.device) || o.parts ≤ o.regs.length then (0x107, 0, s)
  else if cur.isNone && 64 ≤ (s.cf.strikes.filter fun x => !x.struck).length then (0x102, 0, s)
  else if full && o.t + 10000000000 < first then (0x101, 0, s)
  else if full then (0, c, putOpen { o' with c := c } s)
  else (0, 0, putOpen o' s)

/-- The anchor announces the boundary once every part is registered. -/
def announce (num : Nat) (s : State) : State :=
  match openOf s num with
  | none => s
  | some o =>
    if o.regs.length ≠ o.parts then s
    else
      let ms := openMembers o
      let per := commonPeriod ms
      tellParts o (.fixed o.c (decisionTime per ms o.c) per.1 per.2 (o.c != firstStart per o.t)) s

/-- The anchor takes what a part says. -/
def anchorTake (num dev : Nat) (v : StrikeUp) (s : State) : State :=
  match openOf s num with
  | none => s
  | some o =>
    match v with
    | .vote b =>
      let ms := openMembers o
      let d := decisionTime (commonPeriod ms) ms o.c
      if o.c = 0 ∨ o.struck ∨ d < now s + 50000 then s
      else putOpen { o with votes := (dev, b) :: o.votes.filter fun x => x.1 != dev } s
    | .cancel => tellParts o .cancelled (closeStrike num s)
    | .kept => if o.struck then tellParts o .split s else s

/-- A part says something to the anchor. -/
def sayUp (num : Nat) (v : StrikeUp) (s : State) : State :=
  if s.cf.anchor then anchorTake num s.cf.devid v s else sendTo (anchorOf s) (upFlit num s.cf.devid v) s

/-- The verdict at D − 50 µs (R451). -/
def giveVerdict (o : OpenStrike) (s : State) : State :=
  let ms := openMembers o
  let per := commonPeriod ms
  if o.regs.all fun r => o.votes.contains (r.1, true) then tellParts o .struck (putOpen { o with struck := true } s)
  else
    let c := nextBoundary per o.c
    tellParts o (.moved c (decisionTime per ms c)) (putOpen { o with c := c, votes := [] } s)

/-! ### Cancelling (R322) -/

/-- The strike that holds a raster is cancelled, here and on every device. -/
def cancelStrike (r : Nat) (s : State) : State :=
  match strikeOf s r with
  | none => s
  | some k =>
    let s := alertMembers k.members alCancelled (dropStrikes (fun x => x.members == k.members) s)
    if k.id = 0 then s else sayUp (strikeNum k.id) .cancel s

/-! ### At a member's latch (R315 item 6, R319, R452) -/

/-- The strike part of a latch of raster r: whether its shadow set is to be taken for C. -/
def latchStrike (r : Nat) (s : State) : Bool × State :=
  match strikeOf s r with
  | none => (false, s)
  | some k =>
    if k.c = 0 || !endsAt s r k.c then (false, s)
    else
      let s := if k.id = 0 && !k.struck then decideStrike k s else s
      match strikeOf s r with
      | none => (false, s)
      | some k' =>
        if k'.struck then
          let rest := setBit k'.members r false
          (true, if rest = 0 then dropStrikes (fun x => x.members == k'.members) s
            else mapStrikes (fun x => x.members == k'.members) (fun x => { x with members := rest }) s)
        else if k'.id = 0 then (false, s)
        else (false, sayUp (strikeNum k'.id) .kept (moveOn k' s))

/-! ### Commands -/

/-- Members of RMASK. -/
def armMembers (p : Packet) : List Nat := bitList 16 (prm p 0 2)

/-- STRIKE_ARM of a strike on this device (R318, R321). -/
def armLocal (p : Packet) (s : State) : Res :=
  let ms := strikeMembers s (prm p 0 2)
  let per := commonPeriod ms
  let time := prm p 8 8
  let first := firstStart per time
  let c := aheadBoundary per ms 0 (now s) first
  require (decide (first ≤ time + 10000000000)) badParam <|
    strikeResult (if c = first then 0 else 0x10B) c (armStrike (strikeFor p c (decisionTime per ms c) per) s)

/-- STRIKE_ARM of a part of a strike across devices (R449, R450). -/
def armPart (p : Packet) (s : State) : Res :=
  let id := prm p 2 2
  let num := strikeNum id
  let reg : StrikeReg :=
    { device := s.cf.devid, id := id, time := prm p 8 8, func := p.func,
      members := (strikeMembers s (prm p 0 2)).map fun m => (m.pnum, m.pden, m.lnum) }
  require (num != 0) badParam <|
  require s.cf.valid (bad 0x109) <|
    if s.cf.anchor then
      let a := registerPart reg s
      require (a.1 == 0) (bad a.1) <|
        strikeResult 0 a.2.1 (announce num (armStrike (strikeFor p 0 0 (1, 1)) a.2.2))
    else
      require ((routeTo s (anchorOf s)).isSome) (bad 0x109) <|
      require (!unitBusy s (strikeUnit num)) busy <|
        .pend (strikeUnit num) (sendTo (anchorOf s) (strikeFlit num 0
          ([reg.device, id, reg.time, reg.func] ++ reg.members.flatMap fun m => [m.1, m.2.1, m.2.2])) s)

/-- STRIKE_ARM (R318, R343). -/
def strikeArmBody (p : Packet) (s : State) : Res :=
  let rs := armMembers p
  require (onlyBits p [allBits 0 2, allBits 2 2, allBits 8 8] && !rs.isEmpty
    && rs.all fun r => !isFollower s r) badParam <|
  require (rs.all fun r => !(rasterOf s r).orphan) busy <|
  require (rs.all fun r => isStarted (rasterOf s r) && !(rasterOf s r).stopping && (rasterOf s r).aligned) badParam <|
  require (rs.all fun r => (strikeOf s r).isNone) busy <|
    if prm p 2 2 = 0 then armLocal p s else armPart p s

def specStrikeArm : CmdSpec :=
  { opcode := 0x505, units := fun p _ => (armMembers p).map unitRaster,
    owns := fun p s => (armMembers p).all (ownsRaster p s), body := strikeArmBody }
/-- STRIKE_ARM. -/
def execStrikeArm (t : Ticks) (p : Packet) (s : State) := runPacket specStrikeArm t p s

/-- The decision of a strike, or its vote, is past or due. -/
def strikeDecided (s : State) (k : Strike) : Bool :=
  k.struck || k.voted || (k.c != 0 && decide (k.d ≤ now s + if k.id = 0 then 0 else 100000))

/-- STRIKE_CANCEL (R322, R451): effective before the decision, or before the vote. -/
def strikeCancelBody (p : Packet) (s : State) : Res :=
  let r := prmRaster p
  require (onlyBits p [(0, 1, 0xF)]) badParam <|
  require (!(rasterOf s r).orphan) busy <|
  match strikeOf s r with
  | none => badParam
  | some k => require (!strikeDecided s k) busy <| okay (cancelStrike r s)

def specStrikeCancel : CmdSpec := rasterSpec 0x506 strikeCancelBody
/-- STRIKE_CANCEL. -/
def execStrikeCancel (t : Ticks) (p : Packet) (s : State) := runPacket specStrikeCancel t p s

/-! ### Events -/

/-- STRIKE_DECISION: D of the strike that holds raster r has come (R319). -/
def execStrikeDecision (t : Ticks) (r : Nat) (s : State) : Host.Outcome State Fault Refusal :=
  whenRunning t (fun s =>
    match strikeOf s r with
    | some k => if k.id == 0 && !k.struck && decide (k.d ≤ now s) then decideStrike k s else s
    | none => s) s

/-- STRIKE_VOTE_TIME: at V = D − 100 µs this device's part of a strike votes (R451). -/
def execStrikeVoteTime (t : Ticks) (num : Nat) (s : State) : Host.Outcome State Fault Refusal :=
  whenRunning t (fun s =>
    match partOf s num with
    | some k =>
      if k.c = 0 || k.voted || k.struck || now s + 100000 < k.d then s
      else
        let s1 := mapStrikes (fun x => x.members == k.members) (fun x => { x with voted := true }) s
        sayUp num (.vote (strikeReady s k.members)) s1
    | none => s) s

/-- STRIKE_VERDICT_DEADLINE: at D − 50 µs the anchor sends the verdict (R451). -/
def execStrikeVerdictDeadline (t : Ticks) (num : Nat) (s : State) : Host.Outcome State Fault Refusal :=
  whenRunning t (fun s =>
    match openOf s num with
    | some o =>
      let ms := openMembers o
      if !s.cf.anchor || o.c = 0 || o.struck
          || now s + 50000 < decisionTime (commonPeriod ms) ms o.c then s
      else giveVerdict o s
    | none => s) s

/-- STRIKE_REGISTRATION_RX: the anchor receives a part's registration (R450). -/
def execStrikeRegistrationRx (t : Ticks) (x : FlitRx) (reg : StrikeReg) (s : State) :
    Host.Outcome State Fault Refusal :=
  whenRunning t (flitRx x [0xF] fun s =>
    if !(s.cf.valid && s.cf.anchor) || strikeNum reg.id = 0 || reg.device = s.cf.devid then s
    else
      let a := registerPart reg s
      let num := strikeNum reg.id
      let s := sendTo reg.device (downFlit num (.answer a.1 a.2.1)) a.2.2
      if a.1 = 0 then announce num s else s) s

/-- STRIKE_VOTE_RX: the anchor receives what a part says (R451). -/
def execStrikeVoteRx (t : Ticks) (x : FlitRx) (device num : Nat) (v : StrikeUp) (s : State) :
    Host.Outcome State Fault Refusal :=
  whenRunning t (flitRx x [0xF] fun s => if s.cf.valid && s.cf.anchor then anchorTake num device v s else s) s

/-- STRIKE_VERDICT_RX: a part receives the anchor's word (R450 to R452). -/
def execStrikeVerdictRx (t : Ticks) (x : FlitRx) (num : Nat) (w : StrikeDown) (s : State) :
    Host.Outcome State Fault Refusal :=
  whenRunning t (flitRx x [0xF] fun s => partWord num w s) s

/-- STRIKE_REGISTRATION_TIMEOUT: parts are missing 10 s after T (R450). -/
def execStrikeRegistrationTimeout (t : Ticks) (num : Nat) (s : State) : Host.Outcome State Fault Refusal :=
  whenRunning t (fun s =>
    match openOf s num with
    | some o =>
      if s.cf.anchor && decide (o.regs.length < o.parts ∧ o.t + 10000000000 ≤ now s) then
        tellParts o .cancelled (closeStrike num s)
      else s
    | none => s) s

end Sys2Proof.Machine
end

