-- ==== Sys2Proof/Machine/Rasters.lean ====
section
/-! DEFINITION. Raster generators (chapter 08): timing, binding, starting and stopping, and the events of
a running raster: its start latch, lines, latch and frame starts. -/
namespace Sys2Proof.Machine
open Sys2Proof

/-! ### The end of a run (R311, R312, R554) -/

/-- Complete every packet in flight that satisfies a test. -/
def finishAll (p : Inflight → Bool) (status : Nat) (r0 r1 : Option Nat) (s : State) : State :=
  forAll (s.cp.inflight.filter p) (fun _ s => finishInflight p status r0 r1 s) s

/-- Both scenes become the empty scene with everything but the scene numbers zero (R554). -/
def emptyScenes (r : Nat) (s : State) : State :=
  let s := discardScenes r s
  putScene r { sceneOf s r with active := {}, shadow := {}, building := false, built := false } s

/-- A stopped raster is reset (R554): the crystal's descriptor, slot and ACTION are kept. -/
def resetRaster (r : Nat) (s : State) : State :=
  let s := unbindSlices r s
  let s := forAll (tilesOf s r) (fun k s => forAll [0, 1, 2, 3] (dropSink k) s) s
  let s := putRaster r {} s
  let s := emptyScenes r s
  let s := putFs r { ({} : RasterFs) with gap := (fsOf s r).gap } s
  let c := crystalOf s r
  let s := putCrystal r { c with armed := false, forced := false, mismatched := false, misCnt := 0, unchk := 0 } s
  adoptData (unitRaster r) s

/-- A part of the change to P2 or P3 that ends a raster's stop (R545): in flight on this unit until every
raster has stopped. -/
def pmuUnit : Nat := unitRef 0x83 0

/-- Every raster has stopped; one whose start latch is still awaited has emitted nothing. -/
def allStopped (s : State) : Bool :=
  (List.range 16).all fun r => (rasterOf s r).st == .stopped && !(rasterOf s r).leadIn

/-- A raster whose start latch is still awaited at the end of P2 entry starts at the return instead. -/
def deferStarts (s : State) : State :=
  forAll (List.range 16) (fun r s =>
    let x := rasterOf s r
    if x.waitingStart then putRaster r { x with waitingStart := false, restart := true } s else s) s

/-- The change to P3 ends (R548): a checkpoint, the reply, and power goes from everything outside the
always-on domain; the unlock ends. -/
def enterSleep (old : Nat) (s : State) : State :=
  let s := endUnlock (checkpointNow 2 s)
  let s := finishUnit pmuUnit 0 (some old) none (raise 992 s)
  let w := s.pmu.wakeAfter
  { s with pmu := { s.pmu with pstate := 3, entering := false, changing := false,
                               wakeAt := if w = 0 then none else some (s.clk.ticks + secTicks w) } }

/-- Steps 4 to 6 of R545: once every raster has stopped, pending repairs run (R572), channels enter
self-refresh and the change to P2 is complete. The change to P3 goes on. -/
def finishEntry (s : State) : State :=
  if s.pmu.entering && allStopped s then
    let old := s.pmu.pstate
    let s := runRepairs (deferStarts s)
    if s.pmu.target = 3 then enterSleep old s
    else
      finishUnit pmuUnit 0 (some old) none
        (raise 992 { s with pmu := { s.pmu with pstate := 2, entering := false, changing := false } })
  else s

/-- A raster stops: at the end of a frame, or in the lead-in or before it. -/
def stopRaster (r : Nat) (s : State) : State :=
  let x := rasterOf s r
  let tiles := tilesOf s r
  let pins := heldPins s r
  let s := releasePins pins (clearUses (pins.map (·.1)) s)
  let s := putRaster r { x with
    waitingStart := false, leadIn := false, latched := false, newFrame := false, stopping := false,
    discard := false, resetting := false, orphan := x.orphan && x.restart, rehome := .none, line := 0, latchAt := none,
    tim := x.stTim.getD (x.nextTim.getD x.tim), stTim := none, nextTim := none } s
  let s := setDpState r .stopped s
  let s := forAll tiles (fun k s => stopSinks k (putRaster k
    { rasterOf s k with ready := none, prev := [], cryPrev := none } s)) s
  let s := if x.stTim.isSome || x.nextTim.isSome then recountRaster r s else s
  let fl := s.fs.flights.map fun f => if f.raster = r then { f with old := true } else f
  let s := { s with fs := { s.fs with flights := fl } }
  let s := putFs r (takeShaper { fsOf s r with active := false, issued := [], arrived := [] }) s
  let s := if x.discard then discardScenes r s else s
  let s := takeTables r s
  let s := if x.rehome = .lost ∨ x.rehome = .stuck then unbindSlices r s else s
  let s := if x.resetting then resetRaster r s else s
  let t := x.lastEnd
  let s := finishAll (fun i => i.unit == unitRaster r && i.ent.opcode != 0xD01) 0 (some t) (some (t / 2 ^ 32)) s
  let s := finishAll (fun i => i.unit == unitRaster r) 0 (some (mgmtWord s (unitRaster r))) none s
  finishEntry s

/-! ### Latches (R314 to R317) -/

/-- Item 1 of R315, and a readmission's result, which its raster holds as its pending scene (R177): whether a
scene was taken. -/
def latchScene (r : Nat) (s : State) : Bool × State :=
  let p := lastCycle s
  let x := rasterOf s r
  let was := (rasterOf p r).commit
  let other := match (sceneOf s r).readmit with
    | some m => takeReadmit r m s
    | none => s
  let held := (sceneOf s r).readmit.isSome
  if x.orphan || (strikeOf s r).isSome || !(was || x.commit) || (awaitsHome x && !overtaken s r) then (held, other)
  else if !was then (held, countDefer r other)
  else if overtaken s r then
    (held, setMgmt (unitRaster r) (stateWord 1 (sceneOf p r).shadow.scene) (latchCommit r other))
  else if !buildDone p r then (held, countDefer r other)
  else (true, takeShadow p r s)

/-- Item 6 of R315. A data-path event of the frame overtakes this commit too (R44). -/
def latchStruck (r : Nat) (s : State) : Bool × State :=
  let p := lastCycle s
  let a := latchStrike r s
  if !a.1 then a
  else if overtaken a.2 r then
    (false, setMgmt (unitRaster r) (stateWord 1 (sceneOf p r).shadow.scene) (latchCommit r a.2))
  else (true, takeShadow p r a.2)

/-- The forced state follows the crystal at once (R292, R336). -/
def settleForced (r : Nat) (s : State) : State :=
  let x := rasterOf s r
  let f := (crystalOf s r).forced
  if x.st = .running ∧ f then setDpState r .forced s
  else if x.st = .forced ∧ !f then setDpState r .running s
  else s

/-- A latch at a tick (R315): the items in order, then slot resolution for the frame that follows, and its
fetch begins. -/
def takeLatch (r : Nat) (due : Ticks) (s : State) : State :=
  let old := heldPins s r
  let x := rasterOf s r
  let s := putRaster r { x with latched := true, latchAt := some s.clk.ticks, latchT := nsAt s due } s
  let a := latchScene r (settleBuild r s)
  let b := latchCrystal r a.2
  let s := settleForced r b.2
  let s := latchTables r b.1 s
  let x := rasterOf s r
  let s := putRaster r { x with nextTim := x.stTim.or x.nextTim, stTim := none } s
  let s := retarget r s
  let c := latchStruck r s
  let s := settleIndex r c.2
  let s := if a.1 || b.1 || c.1 then raiseRaster r 0 s else s
  let s := resolveAll r (nsAt s (frameTick (rasterOf s r))) old s
  beginFetch r s

/-- RASTER_LATCH: the latch cycle of the frame in progress, the beginning of line LATCH (R301). -/
def rasterLatch (r : Nat) (s : State) : State :=
  let x := rasterOf s r
  if x.st == .stopped || x.latched || x.newFrame || x.line + 1 < x.tim.latch
      || s.clk.ticks < lineTick x x.tim.latch then s
  else takeLatch r (lineTick x x.tim.latch) s

/-- RASTER_LATCH. -/
def execRasterLatch (t : Ticks) (r : Nat) (s : State) : Host.Outcome State Fault Refusal :=
  whenRunning t (fun s => if r < 16 then rasterLatch r s else s) s

/-- RASTER_START_LATCH: the start latch is placed so that the lead-in ends at the planned frame start
(R300, R639). A return from P2 is complete once every raster has started (R547). -/
def rasterStartLatch (r : Nat) (s : State) : State :=
  let x := rasterOf s r
  if !x.waitingStart || s.pmu.entering || nsAt s (s.clk.ticks + leadTicks x.tim) < x.startFt then s
  else
    let x := { x with waitingStart := false, leadIn := true, restart := false, line := x.tim.latch,
                      accAt := s.clk.ticks, pos0 := x.tim.latch * linePixels x.tim, starts := 0 }
    let s := takeLatch r s.clk.ticks (putRaster r x s)
    let waits := (List.range 16).any fun k => (rasterOf s k).restart
    if s.pmu.resuming && !waits then
      finishUnit pmuUnit 0 (some 2) none
        (raise 992 { s with pmu := { s.pmu with resuming := false, changing := false } })
    else s

/-- RASTER_START_LATCH. -/
def execRasterStartLatch (t : Ticks) (r : Nat) (s : State) : Host.Outcome State Fault Refusal :=
  whenRunning t (fun s => if r < 16 then rasterStartLatch r s else s) s

/-! ### Lines (R299, R302, R304) -/

/-- Compose line 0 of the next frame, in the state that the causes of R336 give that frame as they stand
(DEDUCED, notes/assumptions/34.md). -/
def composeNext (r : Nat) (s : State) : State :=
  let x := rasterOf s r
  if x.stopping then s
  else
    let s := composeTiles r 0 (x.frame + 1) (putRaster r { x with st := upcoming s r, leadIn := false } s)
    putRaster r { rasterOf s r with st := x.st, leadIn := x.leadIn } s

/-- The line is due: the next one of the frame, whose latch comes before the line after LATCH. -/
def lineDue (s : State) (x : Raster) (y : Nat) : Bool :=
  if y = 0 then x.newFrame
  else (x.st != .stopped || x.leadIn) && !x.newFrame && y == x.line + 1 && decide (y < vTotal x.tim)
    && decide (lineTick x y ≤ s.clk.ticks) && (x.latched || decide (y ≤ x.tim.latch))

/-- Line y begins: the RG emits it while the slices compose the next. -/
def lineStart (r y : Nat) (s : State) : State :=
  let x := rasterOf s r
  if !lineDue s x y then s
  else
    let s := putRaster r { x with line := y, newFrame := false } s
    let s := if y < x.tim.vact && !x.leadIn then forAll (tilesOf s r) (emitLine y) s else s
    if y + 1 < x.tim.vact then openLine r (composeTiles r (y + 1) x.frame s)
    else if y + 1 = vTotal x.tim then openLine r (composeNext r s)
    else s

/-- RASTER_LINE_START. -/
def execRasterLineStart (t : Ticks) (r y : Nat) (s : State) : Host.Outcome State Fault Refusal :=
  whenRunning t (fun s => if r < 16 then lineStart r y s else s) s

/-! ### Frame starts (R300, R309, R311, R323, R336) -/

/-- The frame in progress ends: its time is kept and its sinks finish it. -/
def endFrame (r : Nat) (due : Ticks) (s : State) : State :=
  let s := putRaster r { rasterOf s r with lastEnd := nsAt s due } s
  forAll (tilesOf s r) endSinks s

/-- The re-home of a raster that lost a slice (R309): at the first frame start it halts and takes a free
set, if there is one; it runs again from the frame start after its index is built. -/
def rehomeStep (r : Nat) (s : State) : State :=
  let x := rasterOf s r
  if x.rehome = .lost then
    let s := unbindSlices r s
    match freeSet s r x.g with
    | some c => startBuild r (putRaster r { rasterOf (bindSlices r c x.g s) r with rehome := .rebound }
        (bindSlices r c x.g s))
    | none => putRaster r { rasterOf s r with rehome := .stuck } s
  else if x.rehome = .rebound && (!(sceneOf s r).building || buildTimeUp s r) then
    let s := putScene r { sceneOf s r with building := false, built := x.commit } s
    putRaster r { x with rehome := .none } s
  else s

/-- The next frame begins at a tick. A timing taken at the latch is in force from here on, and the pace
accumulator restarts with it (R300). -/
def beginFrameAt (due : Ticks) (ft : Nat) (x : Raster) : Raster :=
  let x := { x with frame := (x.frame + 1) % 2 ^ 32, ft := ft, line := 0, newFrame := true, latched := false,
                    leadIn := false }
  match x.nextTim with
  | some t => { x with tim := t, nextTim := none, accAt := due, pos0 := 0, starts := 0 }
  | none => { x with starts := x.starts + 1 }

/-- A frame start. -/
def frameStart (r : Nat) (s : State) : State :=
  let x := rasterOf s r
  let due := frameTick x
  if !((x.st != .stopped || x.leadIn) && x.latched && !x.newFrame && x.line + 1 == vTotal x.tim)
      || s.clk.ticks < due then s
  else
    let s := if x.leadIn then s else endFrame r due s
    if x.stopping then stopRaster r s
    else
      let s := rehomeStep r s
      let changes := (rasterOf s r).nextTim.isSome
      let s := putRaster r (beginFrameAt due (nsAt s due) (rasterOf s r)) s
      let s := if changes then recountRaster r s else s
      let s := setDpState r (upcoming s r) s
      let y := rasterOf s r
      let s := if y.ready.isNone && y.st != .halted then composeTiles r 0 y.frame s else s
      compareUnit (unitRaster r) (forAll (tilesOf s r) startSinks s)

/-- RASTER_FRAME_START. -/
def execRasterFrameStart (t : Ticks) (r : Nat) (s : State) : Host.Outcome State Fault Refusal :=
  whenRunning t (fun s => if r < 16 then frameStart r s else s) s

/-- DIVERGENCE_COMPARE: firmware compares a unit at a frame boundary (R36). -/
def execDivergenceCompare (t : Ticks) (unit : Nat) (s : State) : Host.Outcome State Fault Refusal :=
  whenRunning t (fun s =>
    if unitOk unit && (unitKind unit != 1 || (rasterOf s (unitIndex unit)).newFrame) then compareUnit unit s
    else s) s

/-! ### RASTER_TIMING_SET (R298, R305, R343, R344) -/

/-- The timing that the parameters give. -/
def prmTiming (p : Packet) : Timing :=
  let w := fun i => prmb p (2 + 2 * i) 2 13 0
  let l := prmb p 18 2 13 0
  { set := true, hpol := prmbit p 1 0, vpol := prmbit p 1 1, tiles2 := prmbit p 1 2, hact := w 0, hfp := w 1,
    hsync := w 2, hbp := w 3, vact := w 4, vfp := w 5, vsync := w 6, vbp := w 7, latch := if l = 0 then w 4 else l,
    n := prmb p 20 4 23 0, d := prmb p 24 4 23 0 }

/-- Largest HACT for a gang. -/
def hactLimit (g : Nat) : Nat := if g = 4 then 15360 else 7680

/-- A gang of g slices carries a timing (R26, R298). -/
def gangCarries (g : Nat) (t : Timing) : Bool := decide (t.n ≤ 2 * g * t.d ∧ t.hact ≤ hactLimit g)

/-- The limits of R298 and R26 for a gang of g. -/
def timingOk (g : Nat) (t : Timing) : Bool :=
  let small := fun v => decide (1 ≤ v ∧ v ≤ 4095)
  let rate := 1200000000 * t.n
  let frame := t.d * frameTotal t
  t.hact % 2 == 0 && decide (64 ≤ t.hact) && small t.hfp && small t.hsync && small t.hbp
    && decide (64 ≤ t.hfp + t.hsync + t.hbp) && decide (hTotal t ≤ 16384)
    && decide (16 ≤ t.vact ∧ t.vact ≤ if t.tiles2 then 4320 else 8189)
    && small t.vfp && small t.vsync && small t.vbp && decide (vTotal t ≤ 8192)
    && decide (t.vact ≤ t.latch ∧ t.latch + 2 ≤ vTotal t) && t.n != 0 && t.d != 0 && gangCarries g t
    && decide (frame ≤ rate ∧ rate ≤ 480 * frame)

/-- A crystal lies wholly inside an active area (R290). -/
def insideArea (t : Timing) (d : Desc) : Bool :=
  decide (0 ≤ dX d ∧ 0 ≤ dY d ∧ dX d + dW d ≤ t.hact ∧ dY d + dH d ≤ activeHeight t)

/-- RG r + 1 may become the follower of raster r (R305): the first refusal. -/
def followerCheck (p : Packet) (s : State) (r : Nat) (k : Res) : Res :=
  let f := rasterOf s (r + 1)
  require (ownsRaster p s (r + 1)) notOwner <|
  require (!isStarted f && !f.orphan && f.first.isNone) busy k

/-- Fields of RASTER_TIMING_SET. -/
def timingBits : Fields :=
  [(0, 1, 0xF), (1, 1, 7)] ++ ((List.range 9).map fun i => (2 + 2 * i, 2, 0x3FFF))
    ++ [(20, 4, 0xFFFFFF), (24, 4, 0xFFFFFF)]

/-- A new timing is in force on a stopped raster, and staged on another. -/
def setTiming (r : Nat) (t : Timing) (s : State) : State :=
  let x := rasterOf s r
  if isStarted x then putRaster r { x with stTim := some t } s else recountRaster r (putRaster r { x with tim := t } s)

/-- RASTER_TIMING_SET. -/
def rasterTimingSetBody (p : Packet) (s : State) : Res :=
  let r := prmRaster p
  let x := rasterOf s r
  let t := prmTiming p
  let g := if x.first.isSome then x.g else 4
  let pair := r % 2 == 0 && x.first.isSome && x.g == 4
  let s1 := setTiming r t s
  let c := claimOf s1 r
  let go := verdictRes (if hasClaim s r then admitClaim s (leadMins s r) r c else none) <|
    .ok (some (1200000000 * 1000 * t.n / (t.d * frameTotal t))) (some (mbps (peak0 s1 r c))) s1
  require (!x.orphan) busy <|
  require (onlyBits p timingBits && !isFollower s r && timingOk g t && (!t.tiles2 || pair)) badParam <|
  (if t.tiles2 then followerCheck p s r else id) <|
  require ((crystalsOf s r).all (insideArea t)) (bad 0x10E) go

def specRasterTimingSet : CmdSpec := rasterSpec 0x500 rasterTimingSetBody
/-- RASTER_TIMING_SET. -/
def execRasterTimingSet (t : Ticks) (p : Packet) (s : State) := runPacket specRasterTimingSet t p s

/-! ### RASTER_BIND (R21, R307) -/

/-- RASTER_BIND. A raster that its lost slice leaves halted takes a new binding of its gang (R44). -/
def rasterBindBody (p : Packet) (s : State) : Res :=
  let r := prmRaster p
  let x := rasterOf s r
  let c := prmb p 1 1 3 0
  let code := prmb p 2 1 1 0
  let g := 2 ^ code
  let stuck := x.rehome == .stuck
  let mine := fun i => (sliceOf s (c + i)).bound && (sliceOf s (c + i)).raster != r
  require (!x.orphan) busy <|
  require (onlyBits p [(0, 1, 0xF), (1, 1, 0xF), (2, 1, 3), (3, 1, 1)] && !isFollower s r) badParam <|
  if prmbit p 3 0 then
    require (!isStarted x) busy <| .ok (some 0) none (clearMgmt (unitRaster r) (unbindSlices r s))
  else
    require (code != 3 && c % g == 0) badParam <|
    require (!isStarted x || stuck) busy <|
    require (!(List.range g).any fun i => (sliceOf s (c + i)).retired) retired <|
    require (!(List.range g).any mine) busy <|
    require (x.g == 0 || x.g == g || !(hasScene s r || stuck)) busy <|
    require (!x.tim.set || (gangCarries g x.tim && (!x.tim.tiles2 || g == 4))) badParam <|
    (if x.tim.tiles2 then followerCheck p s r else id) <|
      let s1 := bindSlices r c g (unbindSlices r s)
      let s2 := if stuck then putRaster r { rasterOf s1 r with rehome := .rebound } s1 else s1
      .ok (some (sliceMask s2 r)) none (clearMgmt (unitRaster r) (startBuild r s2))

def specRasterBind : CmdSpec := rasterSpec 0x508 rasterBindBody
/-- RASTER_BIND. -/
def execRasterBind (t : Ticks) (p : Packet) (s : State) := runPacket specRasterBind t p s

/-! ### RASTER_START and RASTER_STOP (R310, R311, R447, R552, R639) -/

/-- FT of the first frame of a start at the present: aligned, or free of the epoch. -/
def firstFt (s : State) (t : Timing) (align : Bool) (start : Nat) : Nat :=
  if align then firstStart (framePeriod t) (max start (nsAt s (s.clk.ticks + leadTicks t + msTicks 1)))
  else max start (nsAt s (s.clk.ticks + leadTicks t))

/-- A raster is started: its start latch is awaited. -/
def beginStart (r ft : Nat) (align : Bool) (s : State) : State :=
  let x := rasterOf s r
  clearMgmt (unitRaster r) (putRaster r
    { x with waitingStart := true, startFt := ft, aligned := align, frame := 0, rehome := .none } s)

/-- RASTER_START. -/
def rasterStartBody (p : Packet) (s : State) : Res :=
  let r := prmRaster p
  let x := rasterOf s r
  require (!x.orphan && !isStarted x) busy <|
  require (onlyBits p [(0, 1, 0xF), (1, 1, 1), (4, 4, 0x3FFFFFFF), allBits 8 8] && x.first.isSome && x.tim.set)
    badParam <|
    let ft := firstFt s x.tim (prmbit p 1 0) (prm p 8 8)
    .ok (some ft) (some (ft / 2 ^ 32))
      (beginStart r ft (prmbit p 1 0) (putRaster r { x with blank := prmb p 4 4 29 0 } s))

def specRasterStart : CmdSpec := rasterSpec 0x501 rasterStartBody
/-- RASTER_START. -/
def execRasterStart (t : Ticks) (p : Packet) (s : State) := runPacket specRasterStart t p s

/-- A raster that has started is to stop: at once before its first frame, else at the end of its frame. -/
def commandStop (r : Nat) (discard : Bool) (s : State) : State :=
  let s := clearMgmt (unitRaster r) (cancelStrike r s)
  let x := rasterOf s r
  putRaster r { x with stopping := true, restart := false, discard := x.discard || discard } s

/-- RASTER_STOP. -/
def rasterStopBody (p : Packet) (s : State) : Res :=
  let r := prmRaster p
  let x := rasterOf s r
  let discard := prmbit p 1 0
  let t := x.lastEnd
  require (!x.orphan || p.func == 0) busy <|
  require (onlyBits p [(0, 1, 0xF), (1, 1, 1)]) badParam <|
  if !isStarted x then
    let s1 := putRaster r { x with restart := false, orphan := false } s
    .ok (some t) (some (t / 2 ^ 32)) (if discard then discardScenes r s1 else s1)
  else if x.st = .stopped then
    .ok (some t) (some (t / 2 ^ 32)) (stopRaster r (commandStop r discard s))
  else .pend (unitRaster r) (commandStop r discard s)

def specRasterStop : CmdSpec :=
  { rasterSpec 0x502 rasterStopBody with
    owns := fun p s => p.func == 0 || ownsRaster p s (prmRaster p) }
/-- RASTER_STOP. -/
def execRasterStop (t : Ticks) (p : Packet) (s : State) := runPacket specRasterStop t p s

/-! ### RASTER_QUERY (R340, R345) -/

/-- `RG_SINKS` of an RG. -/
def sinksWord (s : State) (k : Nat) : Nat :=
  let at_ := fun i => b2n (sinkOf s k i).isSome
  let d := (sinkOf s k 0).getD {}
  at_ 0 + shl (at_ 1) 1 + shl (at_ 2) 2 + shl (at_ 3) 3 + shl d.port 4 + shl d.stream 6

/-- Boundary C of the strike that holds a raster; 0 when none does. -/
def strikeTime (s : State) (r : Nat) : Nat :=
  match strikeOf s r with
  | some k => k.c
  | none => 0

/-- The record of RASTER_QUERY. -/
def rasterRecord (s : State) (k : Nat) : List Byte :=
  let r := leaderOf s k
  let x := rasterOf s r
  leBytes 4 (mgmtWord s (unitRaster r)) ++ leBytes 4 (rasterData s r) ++ leBytes 8 x.ft ++ leBytes 4 x.frame
    ++ leBytes 4 (rasterOf s k).cdeferLife ++ leBytes 4 (sinksWord s k) ++ leBytes 8 (strikeTime s k)
    ++ leBytes 4 (sliceMask s k) ++ fitBytes 20 ((sinkOf s k 0).getD {}).rxids ++ leBytes 4 0

/-- RASTER_QUERY. -/
def rasterQueryBody (p : Packet) (s : State) : Res :=
  require (onlyBits p [(0, 1, 0xF), allBits 8 8]) badParam <|
    withBuf p s (prm p 8 8) 64 false (rasterRecord s (prmRaster p)) fun w => okay (w s)

def specRasterQuery : CmdSpec :=
  { rasterSpec 0x509 rasterQueryBody with
    exempt := fun _ => true, owns := fun p s => mayQuery p (rasterOwner s (prmRaster p)) }
/-- RASTER_QUERY. -/
def execRasterQuery (t : Ticks) (p : Packet) (s : State) := runPacket specRasterQuery t p s

end Sys2Proof.Machine
end

