-- ==== Sys2Proof/Machine/Crystal.lean ====
section
/-! DEFINITION. The crystal layer's commands: group 0x06, and the ends of an unlock and of a lockout
(R273 to R297). -/
namespace Sys2Proof.Machine
open Sys2Proof

/-! ### The key (R273 to R277) -/

/-- KEY_REQUIRED. -/
def keyRequired : Res := bad 0x111
/-- PROTECTED. -/
def protectedRes : Res := bad 0x10E

/-- The device is unlocked. -/
def isUnlocked (s : State) : Bool :=
  match s.key.until_ with
  | some t => decide (s.clk.ticks < t)
  | none => false

/-- An unlock whose time has run out ends. -/
def settleUnlock (s : State) : State := if isUnlocked s then s else endUnlock s

/-- A failure's second has not passed. -/
def isLockedOut (s : State) : Bool :=
  match s.key.lockout with
  | some t => decide (s.clk.ticks < t)
  | none => false

/-- CRYSTAL_UNLOCK is refused: FAILS rises (R276), and source 8 (R509). -/
def refuseUnlock (fresh : Bool) (s : State) : State :=
  raise 8 { s with key := { s.key with
    fails := sat 16 (s.key.fails + 1),
    lockout := if fresh then some (s.clk.ticks + secTicks 1) else s.key.lockout } }

/-- CRYSTAL_UNLOCK: only a key that was compared and failed starts the second of lockout. -/
def crystalUnlockBody (p : Packet) (s : State) : Res :=
  let d := prm p 16 2
  let refuse := fun fresh => Res.done 0x111 none none (refuseUnlock fresh s)
  require (onlyBits p [allBits 0 16, allBits 16 2] && decide (1 ≤ d ∧ d ≤ 60000)) badParam <|
  if s.key.key = 0 || isLockedOut s then refuse false
  else if prm p 0 16 ≠ s.key.key then refuse true
  else
    let s := settleUnlock s
    .ok (some d) none { s with key := { s.key with until_ := some (s.clk.ticks + msTicks d) } }

def specCrystalUnlock : CmdSpec := { opcode := 0x600, body := crystalUnlockBody }
/-- CRYSTAL_UNLOCK. -/
def execCrystalUnlock (t : Ticks) (p : Packet) (s : State) := runPacket specCrystalUnlock t p s

/-- CRYSTAL_LOCK. -/
def crystalLockBody (p : Packet) (s : State) : Res := require (onlyBits p []) badParam (okay (endUnlock s))

def specCrystalLock : CmdSpec := { opcode := 0x603, body := crystalLockBody }
/-- CRYSTAL_LOCK. -/
def execCrystalLock (t : Ticks) (p : Packet) (s : State) := runPacket specCrystalLock t p s

/-- CRYSTAL_KEY_PROVISION (R274). -/
def crystalKeyProvisionBody (p : Packet) (s : State) : Res :=
  require (onlyBits p [allBits 0 16, allBits 16 16]) badParam <|
  require (s.key.key == 0 || prm p 16 16 == s.key.key) keyRequired <|
  require (prm p 0 16 != 0) badParam (okay (savePst { s with key := { s.key with key := prm p 0 16 } }))

def specCrystalKeyProvision : CmdSpec := { opcode := 0x604, body := crystalKeyProvisionBody }
/-- CRYSTAL_KEY_PROVISION. -/
def execCrystalKeyProvision (t : Ticks) (p : Packet) (s : State) := runPacket specCrystalKeyProvision t p s

/-- CRYSTAL_UNLOCK_EXPIRE (R275). -/
def execCrystalUnlockExpire (t : Ticks) (s : State) : Host.Outcome State Fault Refusal := whenRunning t settleUnlock s

/-- CRYSTAL_LOCKOUT_EXPIRE (R276): the second after a failure has passed. -/
def execCrystalLockoutExpire (t : Ticks) (s : State) : Host.Outcome State Fault Refusal :=
  whenRunning t (fun s => if isLockedOut s then s else { s with key := { s.key with lockout := none } }) s

/-! ### CRYSTAL_PANE_SET (R278 to R280) -/

/-- A pane ID is a member of a scene, or the crystal of a raster other than r. -/
def paneTaken (s : State) (r id : Nat) : Bool :=
  let member := fun (d : Desc) => dMember d && !isCrystalDesc d
  member (activeDesc s id) || member (shadowDesc s id)
    || (List.range 16).any fun k => k != r &&
        (let c := crystalOf s k
         c.pane == some id || c.staged == some (some id))

/-- A committed pane that is no crystal references a surface. -/
def paneReads (s : State) (surf : Nat) : Bool :=
  (committedPanes s).any fun e => !isCrystalDesc e.2 && dRefers e.2 surf

/-- The crystal descriptor that the parameters give: the fields they do not give stay as they are. -/
def crystalDesc (p : Packet) (s : State) : Desc :=
  let r := prmRaster p
  let id := prmb p 2 2 12 0
  let d := shadowDesc s id
  let put := fun (o n v : Nat) (d : Desc) => putBytes d o (leBytes n v)
  let b3 := bits (rd d 3 1) 1 0 + shl (prmb p 1 1 1 0) 2 + shl (prmb p 1 1 2 2) 5 + shl (bits (rd d 3 1) 6 6) 6
  let tally := bits (rd d 6 2) 15 14
  let d := put 2 1 (0xF + shl r 4) (put 3 1 b3 (put 6 2 (prmb p 4 2 13 0 + shl tally 14) d))
  let d := put 8 4 (prm p 8 4) (put 12 2 (prm p 12 2) (put 14 2 (prm p 14 2) d))
  let d := put 16 4 (prm p 16 4) (put 20 2 (prm p 12 2) (put 22 2 (prm p 14 2) d))
  put 36 4 (prm p 20 4) (put 48 1 (prm p 6 1) (put 52 1 0 (put 53 1 (Tbl.get s.col.out {} r).wtf d)))

/-- The source rectangle of a crystal, of the destination's size, lies in its surface. -/
def crystalSource (s : State) (d : Desc) : Bool :=
  let x := surfOf s (dSurface d)
  decide (dSX d + dW d ≤ sWidth x ∧ dSY d + dH d ≤ sHeight x)

/-- The pin of a commit is released. -/
def dropCommitPin (r : Nat) (k : CryCommit) (s : State) : State :=
  if k.pinned then unpinSlot k.surface k.slot (pinCrystal r) s else s

/-- The earlier stage of a raster is withdrawn: its pane is no crystal any more unless it is the active one,
and a commit that waits goes with it. -/
def unstage (r : Nat) (s : State) : State :=
  let c := crystalOf s r
  let s := match c.commit with
    | some k => dropCommitPin r k s
    | none => s
  let s := putCrystal r { c with staged := none, commit := none } s
  match c.staged with
  | some (some id) =>
    let sf := dSurface (shadowDesc s id)
    settleCrystalBit sf (if c.pane = some id then s else dropCrystalPane id s)
  | _ => s

/-- Stage a crystal or, with none, a removal. -/
def stage (r : Nat) (n : Option (Nat × Desc)) (s : State) : State :=
  let s := unstage r s
  let s := putCrystal r { crystalOf s r with staged := some (n.map (·.1)) } s
  match n with
  | none => s
  | some (id, d) => settleCrystalBit (dSurface d) (putShadow id d s)

/-- Checks 8 to 10 of R171 with the crystals of raster r as state s has them (R278). -/
def admitCrystal (s : State) (r : Nat) : Verdict :=
  let c := claimOf s r
  let rb := claimReport s r c
  firstOf [lowest ((leadMins s r).flatMap fun m => c.timings.map fun t => checkGap s (chanFsOf s) t m true),
    checkChannels s (chanFsOf s) (totals s (claimsWith s r c)) rb.1 rb.2]

/-- P1 of a raster in MB/s. -/
def crystalPeak (s : State) (r : Nat) : Nat := mbps (peak1 s r (claimOf s r))

/-- Parameter bits of CRYSTAL_PANE_SET. -/
def paneSetBits : Fields :=
  [(0, 1, 0x1F), (1, 1, 7), (2, 2, 0x1FFF), (4, 2, 0x3FFF), allBits 6 1, allBits 8 4, (12, 2, 0x3FFF), (14, 2, 0x3FFF),
    (16, 2, 0x3FFF), (18, 2, 0x3FFF), (20, 4, 0x3FFFFFFF)]

/-- The rules of R278 for a new crystal, in order. -/
def crystalChecks (p : Packet) (s : State) (k : Res) : Res :=
  let r := prmRaster p
  let id := prmb p 2 2 12 0
  let i := prmb p 4 2 13 0
  let x := surfOf s i
  let d := crystalDesc p s
  require (paneOwner s id == 0 && !paneTaken s r id) busy <|
  require (surfOwner s i == 0 && !x.shared && x.writer == 0 && x.valid && !x.lost
    && [1, 2, 4].contains x.format && x.comp == 0 && dAlphaMode d != 3) badParam <|
  require ((timingsOf (rasterOf s r)).all (fun t => insideArea t d) && crystalSource s d) badParam <|
  require (!paneReads s i && !blRefers s i) busy k

/-- CRYSTAL_PANE_SET. -/
def crystalPaneSetBody (p : Packet) (s : State) : Res :=
  let r := prmRaster p
  require (isUnlocked s) keyRequired <|
  require (onlyBits p paneSetBits && !isFollower s r) badParam <|
  if prmbit p 0 4 then
    let s' := stage r none s
    .ok none (some (crystalPeak s' r)) s'
  else
    crystalChecks p s <|
      let s' := stage r (some (prmb p 2 2 12 0, crystalDesc p s)) s
      verdictRes (admitCrystal s' r) (.ok none (some (crystalPeak s' r)) s')

def specCrystalPaneSet : CmdSpec := { opcode := 0x601, body := crystalPaneSetBody }
/-- CRYSTAL_PANE_SET. -/
def execCrystalPaneSet (t : Ticks) (p : Packet) (s : State) := runPacket specCrystalPaneSet t p s

/-! ### CRYSTAL_EXPECT_SET (R284, R285, R293, R294) -/

/-- The crystal that a commit takes: the staged one, else the active one. -/
def committing (s : State) (r : Nat) : Option Nat :=
  let c := crystalOf s r
  match c.staged with
  | some n => n
  | none => c.pane

/-- Surface of the crystal that a commit takes. -/
def committingSurface (s : State) (r : Nat) : Option Nat :=
  let c := crystalOf s r
  (committing s r).map fun id => dSurface (if c.staged.isSome then shadowDesc s id else activeDesc s id)

/-- Set the crystal commit, in place of an earlier one; the slot is pinned. Set in the latch cycle it waits
for the next latch and is counted (R285). -/
def setCrystalCommit (r : Nat) (k : CryCommit) (s : State) : State :=
  let c := crystalOf s r
  let s := match c.commit with
    | some o => dropCommitPin r o s
    | none => s
  let s := if k.pinned then pinSlot k.surface k.slot (pinCrystal r) s else s
  let s := putCrystal r { crystalOf s r with commit := some k } s
  let x := rasterOf s r
  if x.latchAt == some s.clk.ticks then countDefer r s else s

/-- CRYSTAL_EXPECT_SET: a staged removal shows no slot, so SEQ names none. -/
def crystalExpectSetBody (p : Packet) (s : State) : Res :=
  let r := prmRaster p
  let action := prmb p 1 1 1 0
  let seq := prm p 4 4
  let dither := fun (o : OutSet) => o.dither == 2
  let removal := (crystalOf s r).staged == some none
  let k := fun (pin : Bool) (sf slot : Nat) =>
    ({ slot := slot, seq := seq, surface := sf, action := action, learn := prmbit p 1 2,
       release := prmbit p 1 3, expect := prm p 8 4, at_ := s.clk.ticks, pinned := pin } : CryCommit)
  require (isUnlocked s) keyRequired <|
  require (onlyBits p [(0, 1, 0xF), (1, 1, 0xF), allBits 4 4, allBits 8 4] && !isFollower s r && action != 3) badParam <|
  require (action == 0 || !(dither (outSetOf s r) || dither (Tbl.get s.col.out {} r))) badParam <|
  if removal then okay (setCrystalCommit r (k false 0 0) s)
  else match committingSurface s r with
    | none => badParam
    | some sf =>
      match (readableSlots (surfOf s sf)).find? fun n => (slotOf (surfOf s sf) n).seq == seq with
      | none => badParam
      | some n => okay (setCrystalCommit r (k true sf n) s)

def specCrystalExpectSet : CmdSpec := { opcode := 0x602, body := crystalExpectSetBody }
/-- CRYSTAL_EXPECT_SET. -/
def execCrystalExpectSet (t : Ticks) (p : Packet) (s : State) := runPacket specCrystalExpectSet t p s

end Sys2Proof.Machine
end

