-- ==== Sys2Proof/Machine/SurfaceCmds.lean ====
section
/-! DEFINITION. The surface commands: group 0x01 (R146 to R153, R282). -/
namespace Sys2Proof.Machine
open Sys2Proof

/-- INDEX of a surface command (R147). -/
def prmIndex (p : Packet) : Nat := prmb p 0 2 13 0

/-- The issuing function owns INDEX. -/
def ownsIndex (p : Packet) (s : State) : Bool := surfOwner s (prmIndex p) == p.func

/-- The surface that a packet names, which must be VALID (R147). -/
def onSurface (p : Packet) (s : State) (k : Surface → Res) : Res :=
  require (surfValid s (prmIndex p)) badParam (k (surfOf s (prmIndex p)))

/-! ### SURFACE_CREATE -/

/-- The entry that the parameters of SURFACE_CREATE describe, with PITCH and SLOT_STRIDE. -/
def prmSurface (p : Packet) : Surface :=
  let f := prm p 2 1
  let comp := prmb p 3 1 1 0
  let budget := prmb p 3 1 3 2
  let w := prmb p 4 2 13 0 + 1
  let h := prmb p 6 2 13 0 + 1
  let pitch := if prm p 10 2 = 0 then minPitch f comp budget w else prm p 10 2
  { format := f, comp := comp, budget := budget, writer := prmb p 3 1 6 4, shared := prmbit p 3 7,
    widthM1 := w - 1, heightM1 := h - 1, slotsM1 := prmb p 8 2 9 0, pitch := pitch,
    stride := slotStride f comp pitch w h }

/-- What SURFACE_CREATE asks of its fields (R115 to R120, R148). -/
def surfaceOk (p : Packet) (x : Surface) : Bool :=
  validFormat x.format && sWidth x % widthUnit x.format == 0 && (!is420 x.format || sHeight x % 2 == 0)
    && decide (x.writer ≤ 4) && x.comp != 3 && (x.comp == 0 || x.format != 9)
    && (x.comp == 2 || x.budget == 0)
    && (x.comp != 2 || (x.format != 5 && decide (budgetBits x.budget ≤ fmtBpp x.format)))
    && decide (minPitch x.format x.comp x.budget (sWidth x) ≤ x.pitch) && (p.func == 0 || !x.shared)

/-- No surface index: every valid surface takes part in allocation. -/
def noSurface : Nat := 16384

/-- Granules of the firmware region that can begin a slot header array of 1,024 slots (R108, R128). -/
def headerPlaces : Nat := 65528

/-- The new surface at BASE with its header array at a free place: every slot FREE, WSLOT 0 claimed,
NEWEST none, PUB_SEQ 0 (R148). -/
def createAt (i base : Nat) (x : Surface) (s : State) : Res :=
  let h := takeFree s
  let x := claimSlot { x with valid := true, base := base, hdr := h.1 % headerPlaces, newest := noSlot }
  .ok (some (base / 4096)) (some x.stride) (putSurf i x h.2)

/-- SURFACE_CREATE. BUSY comes before BAD_PARAM where both apply (DESIGN CHOICE, notes/assumptions/79.md). -/
def surfaceCreateBody (p : Packet) (s : State) : Res :=
  let i := prmIndex p
  let x := prmSurface p
  require (!s.mm.migrating && !surfValid s i) busy <|
  require (surfaceOk p x) badParam <|
    match allocate noSurface (allocLimit s p.func) (extentBytes x) s with
    | (some base, s) => createAt i base x s
    | (none, _) => noResource

def specSurfaceCreate : CmdSpec := { opcode := 0x100, owns := ownsIndex, body := surfaceCreateBody }
/-- SURFACE_CREATE. -/
def execSurfaceCreate (t : Ticks) (p : Packet) (s : State) := runPacket specSurfaceCreate t p s

/-! ### SURFACE_DESTROY -/

/-- A slot of the surface is pinned. -/
def anyPinned (x : Surface) : Bool := x.slots.any fun e => !e.2.pins.isEmpty

/-- SURFACE_DESTROY: refused while the surface is used (R149, R458). -/
def surfaceDestroyBody (p : Packet) (s : State) : Res :=
  let i := prmIndex p
  onSurface p s fun x =>
    require (!x.crystal) protectedRes <|
    require (!(x.frozen || committedRefers s i || hasAutoWriter s i || anyPinned x || blRefers s i)) busy <|
    okay (putSurf i { x with valid := false } s)

def specSurfaceDestroy : CmdSpec := { opcode := 0x101, owns := ownsIndex, body := surfaceDestroyBody }
/-- SURFACE_DESTROY. -/
def execSurfaceDestroy (t : Ticks) (p : Packet) (s : State) := runPacket specSurfaceDestroy t p s

/-! ### SURFACE_QUERY -/

/-- The record of a surface and one of its slots (R152). -/
def surfaceRecord (owner : Nat) (x : Surface) (slot : Nat) : List Byte :=
  entryBytes owner x ++ headerBytes (slotOf x slot) ++ leBytes 8 x.publishes ++ leBytes 4 x.noWrite
    ++ leBytes 4 x.clamps ++ leBytes 4 x.ftcErr ++ List.replicate 12 0#8

def surfaceQueryBody (p : Packet) (s : State) : Res :=
  let slot := prmb p 2 2 9 0
  onSurface p s fun x =>
    require (decide (slot ≤ x.slotsM1)) badParam <|
    withBuf p s (prm p 8 8) 32 true (surfaceRecord (surfOwner s (prmIndex p)) x slot) fun w =>
      .ok (some (x.wslot + shl x.newest 16)) (some x.pubSeq) (w s)

def specSurfaceQuery : CmdSpec :=
  { opcode := 0x102, exempt := fun _ => true, owns := fun p s => mayQuery p (surfOwner s (prmIndex p)),
    body := surfaceQueryBody }
/-- SURFACE_QUERY. -/
def execSurfaceQuery (t : Ticks) (p : Packet) (s : State) := runPacket specSurfaceQuery t p s

/-! ### SLOT_PUBLISH -/

/-- SLOT_PUBLISH is done: RESULT0 is PUB_SEQ, RESULT1 is WSLOT; a claim that is reported stands. -/
def slotResult (i : Nat) (s : State) : Res := .ok (some (surfOf s i).pubSeq) (some (surfOf s i).wslot) (useSlot i s)

/-- CLAIM_ONLY (R132, R133, R150): a held write slot stays; the slot of a 1-slot surface is given up, unless it is
pinned. A LOST surface claims nothing (DESIGN CHOICE, notes/assumptions/79.md). -/
def claimOnly (i : Nat) (x : Surface) (s : State) : Res :=
  if x.wslot ≠ noSlot then slotResult i s
  else if sSlots x = 1 then
    require (slotOf x 0).pins.isEmpty busy <|
      slotResult i (if x.lost then s else putSurf i { takeSlot 0 x with newest := noSlot } s)
  else slotResult i (putSurf i (reclaim s.clk.ticks x) s)

/-- Publish the write slot for host software, then claim (R131, R133, R135). -/
def publishHost (i capture : Nat) (x : Surface) (s : State) : State :=
  let x := publishSlot capture (now s) s.clk.ticks false 0 x
  afterPublish i (putSurf i (if sSlots x = 1 then x else claimSlot x) s)

/-- The checks of SLOT_PUBLISH and its publish (R150). -/
def slotPublishBody (p : Packet) (s : State) : Res :=
  let i := prmIndex p
  let capture := prm p 8 8
  onSurface p s fun x =>
    require (!x.crystal || isUnlocked s) keyRequired <|
    require (x.writer == 0) badParam <|
    require (!x.frozen) busy <|
    if prmbit p 2 0 then claimOnly i x s
    else
      require (x.wslot != noSlot) busy <|
      require (prmb p 4 2 9 0 == x.wslot && decide (x.lastCap.getD 0 ≤ capture)) badParam <|
      slotResult i (publishHost i capture x s)

/-- A posted write of the issuing function that reached this device before the packet was taken waits for memory
(R137). -/
def writesWait (e : Entry) (s : State) : Bool :=
  e.pkt.origin.isNone && s.host.posted.any fun x => x.write && x.func == e.pkt.func && decide (x.since ≤ e.taken)

def specSlotPublish : CmdSpec :=
  { opcode := 0x103, owns := ownsIndex, waits := writesWait, body := slotPublishBody }
/-- SLOT_PUBLISH. -/
def execSlotPublish (t : Ticks) (p : Packet) (s : State) := runPacket specSlotPublish t p s

/-! ### SURFACE_SET_SHARING -/

/-- A committed pane of a function other than the owner references the surface (R151). -/
def foreignPane (s : State) (i : Nat) : Bool :=
  (committedPanes s).any fun e => dRefers e.2 i && paneOwner s e.1 != surfOwner s i

/-- A queued or running BL job of a function other than the owner references the surface (R151). -/
def foreignJob (s : State) (i : Nat) : Bool :=
  (s.bl.queue.any fun j => j.ent.pkt.func != surfOwner s i && j.ent.opcode < 0xA05
      && blockRefers (prms j.ent.pkt) i)
    || match s.bl.op with
      | some o => o.func != surfOwner s i && blockRefers o.block i
      | none => false

/-- SURFACE_SET_SHARING (R151): from PF0 only. -/
def surfaceSetSharingBody (p : Packet) (s : State) : Res :=
  let i := prmIndex p
  let v := prmbit p 2 0
  onSurface p s fun x =>
    require (!x.crystal) protectedRes <|
    require (v || !(foreignPane s i || foreignJob s i)) busy <|
    okay (putSurf i { x with shared := v } s)

def specSurfaceSetSharing : CmdSpec :=
  { opcode := 0x104, owns := fun p s => p.func == 0 && ownsIndex p s, body := surfaceSetSharingBody }
/-- SURFACE_SET_SHARING. -/
def execSurfaceSetSharing (t : Ticks) (p : Packet) (s : State) := runPacket specSurfaceSetSharing t p s

/-! ### MEM_QUERY -/

/-- Lengths of the free extents below the top that bounds allocation (R142, R153). -/
def freeLengths (s : State) : List Nat := (freeExtents s noSurface (allocTop s)).map fun e => e.2 - e.1

/-- The record of MEM_QUERY (R153). -/
def memRecord (s : State) : List Byte :=
  leBytes 8 (allocTop s) ++ leBytes 8 (sumOf (freeLengths s)) ++ leBytes 8 (maxOf (freeLengths s))
    ++ leBytes 2 s.mm.live ++ leBytes 1 (b2n s.mm.ecc + shl s.mm.cap 1 + shl (b2n s.mm.migrating) 3)
    ++ List.replicate 37 0#8

/-- RESULT0 of MEM_QUERY (R147). -/
def memWord (s : State) : Nat :=
  s.mm.live + shl (b2n s.mm.ecc) 16 + shl s.mm.cap 17 + shl (b2n s.mm.migrating) 19

def memQueryBody (p : Packet) (s : State) : Res :=
  withBuf p s (prm p 8 8) 64 true (memRecord s) fun w =>
    .ok (some (memWord s)) (some (sumOf (freeLengths s) / 1048576)) (w s)

def specMemQuery : CmdSpec :=
  { opcode := 0x105, exempt := fun _ => true, owns := fun _ _ => true, body := memQueryBody }
/-- MEM_QUERY. -/
def execMemQuery (t : Ticks) (p : Packet) (s : State) := runPacket specMemQuery t p s

end Sys2Proof.Machine
end

