-- ==== Sys2Proof/Machine/Group0.lean ====
section
/-! DEFINITION. The commands of group 0x00: identity, unit queries, RECONCILE, CANCEL_TIMED and the
assignment of resources (R27 to R33, R79, R99 to R103, R580, R581). -/
namespace Sys2Proof.Machine
open Sys2Proof

/-! ### NOP, GET_IDENTITY, GET_FIRMWARE -/

/-- Every function may issue the command. -/
def anyFunction (_ : Packet) (_ : State) : Bool := true

/-- NOP returns the time at execution (R99). -/
def nopBody (_ : Packet) (s : State) : Res := .ok (some (now s % 2 ^ 32)) (some (now s / 2 ^ 32)) s

def specNop : CmdSpec := { opcode := 0x000, exempt := fun _ => true, owns := anyFunction, body := nopBody }
/-- NOP. -/
def execNop (t : Ticks) (p : Packet) (s : State) := runPacket specNop t p s

/-- The record of GET_IDENTITY (R581). -/
def identityRecord (s : State) : List Byte :=
  leBytes 4 s.rel.partid ++ fitBytes 6 s.rel.lot ++ leBytes 1 s.rel.wafer ++ leBytes 1 s.rel.dieX
    ++ leBytes 1 s.rel.dieY ++ leBytes 3 0 ++ leBytes 8 s.rel.uid ++ leBytes 4 s.pmu.fwVersion
    ++ leBytes 4 (s.cf.devid + shl (b2n s.cf.valid) 18) ++ List.replicate 32 0#8

def getIdentityBody (p : Packet) (s : State) : Res :=
  withBuf p s (prm p 0 8) 64 true (identityRecord s) fun w =>
    .ok (some s.rel.partid) (some (s.rel.uid % 2 ^ 32)) (w s)

def specGetIdentity : CmdSpec :=
  { opcode := 0x001, exempt := fun _ => true, owns := anyFunction, body := getIdentityBody }
/-- GET_IDENTITY. -/
def execGetIdentity (t : Ticks) (p : Packet) (s : State) := runPacket specGetIdentity t p s

def getFirmwareBody (_ : Packet) (s : State) : Res := .ok (some s.pmu.fwVersion) (some (s.pmu.slot % 2)) s

def specGetFirmware : CmdSpec :=
  { opcode := 0x007, exempt := fun _ => true, owns := anyFunction, body := getFirmwareBody }
/-- GET_FIRMWARE. -/
def execGetFirmware (t : Ticks) (p : Packet) (s : State) := runPacket specGetFirmware t p s

/-! ### QUERY_UNIT and RECONCILE -/

/-- UNIT of a packet. -/
def prmUnit (p : Packet) : Nat := prm p 0 4

/-- The function that owns a unit: PF0 but for rasters and egress flows (R28, R103). -/
def unitOwner (s : State) (u : Nat) : Nat :=
  if unitKind u = 1 then rasterOwner s (unitIndex u)
  else if unitKind u = 6 then egressOwner s (unitIndex u) else 0

/-- The unit whose state words a unit reports: a follower reports its leader's (R306). -/
def reportUnit (s : State) (u : Nat) : Nat :=
  if unitKind u = 1 && isFollower s (unitIndex u) then u - 1 else u

/-- QUERY_UNIT. -/
def queryUnitBody (p : Packet) (s : State) : Res :=
  let u := reportUnit s (prmUnit p)
  require (unitOk (prmUnit p)) badParam <| .ok (some (mgmtWord s u)) (some (dataWord s u)) s

def specQueryUnit : CmdSpec :=
  { opcode := 0x002, exempt := fun _ => true, units := fun p _ => [prmUnit p],
    owns := fun p s => !unitOk (prmUnit p) || mayQuery p (unitOwner s (prmUnit p)), body := queryUnitBody }
/-- QUERY_UNIT. -/
def execQueryUnit (t : Ticks) (p : Packet) (s : State) := runPacket specQueryUnit t p s

/-- RECONCILE (R41): a marked unit adopts its data-path state. On one that is not marked nothing is
adopted, and RESULT0 is not stated. -/
def reconcileBody (p : Packet) (s : State) : Res :=
  let u := prmUnit p
  require (unitOk u) badParam <|
    if isMarked s u then .ok (some (dataWord s u)) (some 1) (adoptData u s) else .ok none (some 0) s

def specReconcile : CmdSpec :=
  { opcode := 0x003, exempt := fun _ => true, units := fun p _ => [prmUnit p],
    owns := fun p s => !unitOk (prmUnit p) || unitOwner s (prmUnit p) == p.func, body := reconcileBody }
/-- RECONCILE. -/
def execReconcile (t : Ticks) (p : Packet) (s : State) := runPacket specReconcile t p s

/-! ### CANCEL_TIMED -/

/-- A timed packet of the issuing function, from the same origin, with the queue pair and TAG named. -/
def cancelMatch (p : Packet) (e : Timed) : Bool :=
  ofPair p.func (prmb p 0 1 2 0) p.origin e.ent && e.ent.pkt.tag == prm p 2 2

/-- CANCEL_TIMED (R79): the earliest-accepted match; BUSY when its time has come. -/
def cancelTimedBody (p : Packet) (s : State) : Res :=
  match findPos (cancelMatch p) s.cp.timed with
  | none => badParam
  | some i =>
    match s.cp.timed[i]? with
    | none => badParam
    | some e =>
      require (decide (now s < e.ent.pkt.execTime)) busy <|
        okay (settlePair e.ent (flushEntry e.ent { s with cp := { s.cp with timed := dropAt s.cp.timed i } }))

def specCancelTimed : CmdSpec := { opcode := 0x004, owns := anyFunction, body := cancelTimedBody }
/-- CANCEL_TIMED. -/
def execCancelTimed (t : Ticks) (p : Packet) (s : State) := runPacket specCancelTimed t p s

/-! ### Ranges (R101) -/

/-- The ranges of a kind: 2 panes, 3 surfaces, 5 ingest flows, 6 egress flows. -/
def rangesOf (s : State) (kind : Nat) : Tbl (Nat × Nat) :=
  if kind = 2 then s.own.panes else if kind = 3 then s.own.surfs
  else if kind = 5 then s.own.ingress else s.own.egress

/-- Indices of a kind (R21). -/
def rangeLimit (kind : Nat) : Nat :=
  if kind = 2 then 8192 else if kind = 3 then 16384 else if kind = 5 then 4096 else 1024

/-- A kind whose holdings are ranges. -/
def isRangeKind (kind : Nat) : Bool := [2, 3, 5, 6].contains kind

/-- The ranges of a kind are replaced. -/
def putRanges (kind : Nat) (t : Tbl (Nat × Nat)) (s : State) : State :=
  if kind = 2 then { s with own := { s.own with panes := t } }
  else if kind = 3 then { s with own := { s.own with surfs := t } }
  else if kind = 5 then { s with own := { s.own with ingress := t } }
  else { s with own := { s.own with egress := t } }

/-- What two ranges have in common, as (start, end). -/
def runMeet (first count : Nat) (r : Nat × Nat) : Nat × Nat := (max r.1 first, min (r.1 + r.2) (first + count))

/-- Two ranges meet. -/
def runMeets (first count : Nat) (r : Nat × Nat) : Bool :=
  decide ((runMeet first count r).1 < (runMeet first count r).2)

/-- Taking indices out of a range leaves two separate ranges. -/
def splits (first count : Nat) (r : Nat × Nat) : Bool :=
  runMeets first count r && decide (r.1 < first ∧ first + count < r.1 + r.2)

/-- What remains of a range when indices at either end, or all, are taken out. -/
def remains (first count : Nat) (r : Nat × Nat) : Nat × Nat :=
  let m := runMeet first count r
  if !runMeets first count r then r
  else if r.1 < first then (r.1, first - r.1) else (m.2, r.1 + r.2 - m.2)

/-- The ranges after an ASSIGN (R101). -/
def newRanges (f first count : Nat) (t : Tbl (Nat × Nat)) : Tbl (Nat × Nat) :=
  if f = 0 then (t.map fun e => (e.1, remains first count e.2)).filter fun e => e.2.2 != 0
  else if count = 0 then Tbl.del t f else Tbl.set t f (first, count)

/-- Indices of a kind that change owner. -/
def movedIndices (kind : Nat) (t t' : Tbl (Nat × Nat)) : List Nat :=
  (List.range (rangeLimit kind)).filter fun i => rangeOwner t i != rangeOwner t' i

/-! ### What may be reassigned (R31) -/

/-- A committed pane would reference a surface that changes owner without owning it or reading it as
SHARED_READ; `t` holds the surface ranges after the assignment. -/
def paneStrands (s : State) (t : Tbl (Nat × Nat)) (moved : List Nat) : Bool :=
  (committedPanes s).any fun e =>
    let i := dSurface e.2
    dType e.2 != 2 && moved.contains i && rangeOwner t i != paneOwner s e.1 && !(surfOf s i).shared

/-- The indices that change owner are idle. -/
def indicesIdle (s : State) (kind : Nat) (t : Tbl (Nat × Nat)) (moved : List Nat) : Bool :=
  if kind = 2 then !(committedPanes s).any fun e => moved.contains e.1
  else if kind = 3 then !paneStrands s t moved
  else if kind = 6 then moved.all fun f => (egressOf s f).cfg.kind == 0
  else true

/-- The range named holds an active or staged crystal's pane ID, or a crystal surface (R282, R283). -/
def holdsCrystal (s : State) (kind first count : Nat) : Bool :=
  if kind = 2 then (committedPanes s).any fun e =>
      isCrystalDesc e.2 && decide (first ≤ e.1 ∧ e.1 < first + count)
  else if kind = 3 then s.mm.surfs.any fun e =>
      e.2.valid && e.2.crystal && decide (first ≤ e.1 ∧ e.1 < first + count)
  else false

/-- A raster can be reassigned: it is stopped, with its leader when it is a follower, or in orphan hold. -/
def rasterIdle (s : State) (r : Nat) : Bool :=
  let x := rasterOf s (if isFollower s r then r - 1 else r)
  x.orphan || (x.st == .stopped && !x.waitingStart && !x.leadIn)

/-! ### ASSIGN -/

/-- The kind, FIRST and COUNT of ASSIGN are legal. -/
def assignOk (p : Packet) (s : State) (f kind first count : Nat) : Bool :=
  (p.origin.isSome || functionOn s f) && (match kind with
    | 1 => decide (first + count ≤ 16)
    | 4 => f != 0 && first == 0 && decide (count ≤ 8)
    | 7 => f != 0 && first == 0 && (count == 0 || count == 4)
    | _ => isRangeKind kind && decide (first + count ≤ rangeLimit kind ∨ (f ≠ 0 ∧ count = 0))
        && (f != 0 || !(rangesOf s kind).any fun e => splits first count e.2)) && p.func == 0

/-- A raster is named: it leaves orphan hold and belongs to the function (R552). -/
def assignRaster (f r : Nat) (s : State) : State :=
  setRasterOwner r f (putRaster r { rasterOf s r with orphan := false } s)

/-- ASSIGN of rasters. -/
def assignRasters (f first count : Nat) (s : State) : Res :=
  let rs := (List.range count).map (first + ·)
  let moved := rs.filter fun r => rasterOwner s r != f
  require (moved.all (rasterIdle s)) busy <| .ok (some moved.length) none (forAll rs (assignRaster f) s)

/-- ASSIGN of a range. -/
def assignRange (f kind first count : Nat) (s : State) : Res :=
  let t := rangesOf s kind
  let t' := newRanges f first count t
  let moved := movedIndices kind t t'
  require (!holdsCrystal s kind first count) protectedRes <|
  require (f == 0 || !t.any fun e => e.1 != f && runMeets first count e.2) busy <|
  require (indicesIdle s kind t' moved) busy <| .ok (some moved.length) none (putRanges kind t' s)

/-- ASSIGN of queue pairs (R102). -/
def assignPairs (f count : Nat) (s : State) : Res :=
  let n := qpCount s f
  let gone := (List.range n).filter fun q => decide (count ≤ q)
  require (gone.all fun q => !(qpOf s f q).enable) busy <|
    .ok (some (max n count - min n count)) none
      { s with own := { s.own with qpairs := Tbl.set s.own.qpairs f count } }

/-- ASSIGN of host event targets. -/
def assignTargets (f count : Nat) (s : State) : Res :=
  .ok (some (if Tbl.get s.own.targets false f = (count != 0) then 0 else 4)) none
    (setTargetOwner f (count != 0) s)

/-- ASSIGN. -/
def assignBody (p : Packet) (s : State) : Res :=
  let f := prmb p 0 1 3 0
  let kind := prm p 1 1
  let first := prm p 4 4
  let count := prm p 8 4
  require (assignOk p s f kind first count) badParam <|
    if kind = 1 then assignRasters f first count s
    else if kind = 4 then assignPairs f count s
    else if kind = 7 then assignTargets f count s
    else assignRange f kind first count s

/-- The rasters and egress flows that an ASSIGN names (R39). -/
def assignUnits (p : Packet) (s : State) : List Nat :=
  let kind := prm p 1 1
  let first := prm p 4 4
  let count := prm p 8 4
  if !assignOk p s (prmb p 0 1 3 0) kind first count then []
  else if kind = 1 || kind = 6 then (List.range count).map fun i => unitRef kind (first + i) else []

def specAssign : CmdSpec := { opcode := 0x005, units := assignUnits, body := assignBody }
/-- ASSIGN. -/
def execAssign (t : Ticks) (p : Packet) (s : State) := runPacket specAssign t p s

/-- Every resource of a VF returns to PF0 (R598). -/
def returnResources (f : Nat) (s : State) : State :=
  let s := forAll ((List.range 16).filter fun r => rasterOwner s r == f) (assignRaster 0) s
  let s := forAll [2, 3, 5, 6] (fun k s => putRanges k (Tbl.del (rangesOf s k) f) s) s
  setTargetOwner f false { s with own := { s.own with qpairs := Tbl.del s.own.qpairs f } }

/-! ### QUERY_OWNER -/

/-- The lowest run of indices at or above `start` that PF0 holds: its first and its length (R102). -/
def freeRun (t : Tbl (Nat × Nat)) (limit start : Nat) : Nat × Nat :=
  match (List.range limit).find? fun i => decide (start ≤ i) && rangeOwner t i == 0 with
  | none => (start, 0)
  | some a =>
    let b := (List.range limit).find? fun i => decide (a ≤ i) && rangeOwner t i != 0
    (a, b.getD limit - a)

/-- QUERY_OWNER. FIRST of an empty holding is not stated. -/
def queryOwnerBody (p : Packet) (s : State) : Res :=
  let f := prmb p 0 1 3 0
  let kind := prm p 1 1
  if kind = 1 then
    .ok (some (maskOf ((List.range 16).filter fun r => rasterOwner s r == f))) (some 0) s
  else if kind = 4 then .ok (some 0) (some (qpCount s f)) s
  else if kind = 7 then .ok (some 0) (some (if f = 0 ∨ Tbl.get s.own.targets false f then 4 else 0)) s
  else if !isRangeKind kind then badParam
  else if f = 0 then
    let r := freeRun (rangesOf s kind) (rangeLimit kind) (prm p 4 4)
    .ok (some r.1) (some r.2) s
  else
    match Tbl.find? (rangesOf s kind) f with
    | some r => .ok (some r.1) (some r.2) s
    | none => .ok none (some 0) s

def specQueryOwner : CmdSpec :=
  { opcode := 0x006, exempt := fun _ => true, owns := fun p _ => mayQuery p (prmb p 0 1 3 0),
    body := queryOwnerBody }
/-- QUERY_OWNER. -/
def execQueryOwner (t : Ticks) (p : Packet) (s : State) := runPacket specQueryOwner t p s

end Sys2Proof.Machine
end

