-- ==== Sys2Proof/Machine/Blitter.lean ====
section
/-! DEFINITION. The blitter (chapter 12): its job queue, the checks of R468, bursts, command lists and their
registers. -/
namespace Sys2Proof.Machine
open Sys2Proof

/-! ### The checks of R468 -/

/-- A refusal of a blit: status and results. -/
abbrev Refuse := Option (Nat × Option Nat × Option Nat)

/-- The first refusal. -/
def firstRefuse : List Refuse → Refuse
  | [] => none
  | some r :: _ => some r
  | none :: t => firstRefuse t

/-- A refusal when a condition fails. -/
def refuseIf (c : Bool) (st : Nat) (r0 : Option Nat) : Refuse := if c then some (st, r0, none) else none

/-- Check 2 for an operand. -/
def opndOwned (s : State) (f : Nat) (dst : Bool) (p : Opnd) : Bool :=
  if p.raw then f == 0
  else if dst || p.sel == 2 then surfOwner s p.surf == f
  else mayRead s f p.surf

/-- Check 3 for an operand. -/
def opndCrystal (s : State) (b : List Byte) (p : Opnd) : Bool :=
  if p.raw then meetsCrystal s (extentOf p (bW b) (bH b)) else p.sf.valid && p.sf.crystal

/-- Check 4 for the operand at o: the offset of the field that fails. -/
def opndUsable (s : State) (b : List Byte) (o : Nat) : Refuse :=
  let p := opnd s b o
  if p.raw then
    let h := hull (extentOf p (bW b) (bH b))
    refuseIf (h.1 < surfaceFloor || deviceTop s < h.2) 0x101 (some (o + 16))
  else firstRefuse
    [refuseIf (!p.sf.valid || p.sf.lost || (o == oDst && p.sf.writer != 0)) 0x101 (some (o + 2)),
     refuseIf (p.sel == 1 && p.slot.isNone) 0x101 (some (o + 4)),
     refuseIf (p.sel == 0 && p.slot.isNone) 0x101 (some o)]

/-- Check 5 for the operand at o. -/
def opndFree (s : State) (b : List Byte) (o : Nat) : Bool :=
  let p := opnd s b o
  p.raw || ((o != oDst || !p.sf.frozen) && (p.sel != 2 || p.slot.isSome))

/-- Checks 1 to 7 of R468 for operation `op` of a function on a block. -/
def blitRefusal (s : State) (f op : Nat) (b : List Byte) : Refuse :=
  let os := usedOpnds op
  firstRefuse
    [ (blockFault s op b).map fun o => (0x101, some o, none),
      refuseIf (os.any fun o => !opndOwned s f (o == oDst) (opnd s b o)) 0x106 none,
      refuseIf (os.any fun o => opndCrystal s b (opnd s b o)) 0x10E none,
      firstRefuse (os.map (opndUsable s b)),
      refuseIf (os.any fun o => !opndFree s b o) 0x107 none,
      refuseIf (!overlapOk s op b) 0x10C none,
      refuseIf ((os.any fun o => (extentOf (opnd s b o) (bW b) (bH b)).any fun e => meetsFence s e.1 (e.2 - e.1))
        || (hasSrc op && !headersOk s (opnd s b oSrc) (bW b) (bH b))) 0x110 none ]

/-- The slot that an operand holds. -/
def heldSlot (p : Opnd) : Option (Nat × Nat) := if p.raw then none else p.slot.map fun k => (p.surf, k)

/-- An operation begins: its source slot is pinned and its destination slot resolved. -/
def beginOp (f : Nat) (b : List Byte) (s : State) : State :=
  let src := if hasSrc (bOp b) then heldSlot (opnd s b oSrc) else none
  let dst := heldSlot (opnd s b oDst)
  let s := match src with
    | some e => pinSlot e.1 e.2 pinBl s
    | none => s
  let raced := if s.bl.list.isSome then [] else (s.bl.job.map (·.raced)).getD []
  { s with bl := { s.bl with op := some { block := b, func := f, src := src, dst := dst, raced := raced } } }

/-! ### Bursts and dead time (R472, R473) -/

/-- Memory-clock cycles as ticks, rounded up. -/
def memTicks (n : Nat) : Ticks := cdiv (n * 75) 64

/-- The dead time after the last burst is over. -/
def blReady (s : State) : Bool :=
  match s.bl.burstEnd with
  | some t => decide (t ≤ s.clk.ticks)
  | none => true

/-- n bursts have issued: the dead time follows each, and no request issues before the last one's ends. -/
def afterBursts (n : Nat) (s : State) : State :=
  { s with bl := { s.bl with burstEnd := some (s.clk.ticks + memTicks (n * s.bl.dead)) } }

/-- 4 KiB granules that n bytes at an address lie in: each is a burst of at most 16 requests. -/
def granulesAt (a n : Nat) : Nat := if n = 0 then 0 else (a + n - 1) / 4096 + 1 - a / 4096

/-! ### Lists (R459, R474 to R477) -/

/-- What the pass over a list finds. -/
inductive ListScan where
  | found (n : Nat)
  | noEnd
  | failed (n : Nat)
  | waits
  deriving DecidableEq, Repr

/-- Read the OP of entries from i on, up to the first END or n entries. -/
def scanList (s : State) (a : Nat) : Nat → Nat → ListScan
  | 0, _ => .noEnd
  | n + 1, i =>
    let e := a + 256 * i
    if !served s 4 e 256 then .waits
    else if !readable s e 256 then .failed i
    else if bits (leNat (memRead s e 1)) 3 0 = 0xF then .found i
    else scanList s a n (i + 1)

/-- A list address that PF0 may run. -/
def listAddrOk (s : State) (a : Nat) : Bool := a % 256 == 0 && decide (surfaceFloor ≤ a ∧ a < deviceTop s)

/-- The operation, list and job in progress are over. -/
def clearWork (s : State) : State := { s with bl := { s.bl with op := none, list := none, job := none } }

/-- The results of a register-started list (R477). -/
def noteList (l : BlList) (status : Nat) (s : State) : State :=
  raise 704 { s with bl := { s.bl with ldone := l.run, lfail := l.fail.getD 0x1FFFF, lfstat := status } }

/-- The packet of a job completes. -/
def finishJob (j : BlJob) (status : Nat) (r0 r1 : Option Nat) (s : State) : State :=
  settlePair j.ent (finish j.ent status r0 r1 s)

/-- A list ends with an outcome. -/
def endList (status : Nat) (s : State) : State :=
  match s.bl.list with
  | none => s
  | some l =>
    let job := s.bl.job
    let bad := s.bl.listErr || status != 0 || l.fail.isSome
    let s := if status != 0 || l.fail.isSome then noteSet 0x50000 3 s else s
    let s := clearWork { s with bl := { s.bl with listErr := bad } }
    if l.byReg then noteList l status s
    else match job with
      | none => s
      | some j =>
        if status = 0 then finishJob j (lateStatus j.late 0) (some l.okCnt) (some (l.fail.getD 0xFFFFFFFF)) s
        else finishJob j status none none s

/-- The pass over a list waits for the dead time or for memory, so the list does not begin yet. -/
def listWaits (s : State) (a limit : Nat) : Bool := listAddrOk s a && (!blReady s || scanList s a limit 0 == .waits)

/-- The pass over a list has read n entries of it. -/
def listRead (a n : Nat) (s : State) : State := afterBursts (granulesAt a (256 * n)) (countRead a (256 * n) s)

/-- A list begins: the pass of R474 comes first. -/
def beginList (a limit : Nat) (stopErr byReg : Bool) (s : State) : State :=
  let with_ := fun n =>
    let l : BlList := { addr := a, limit := n, stopErr := stopErr, byReg := byReg }
    { s with bl := { s.bl with list := some l } }
  if !listAddrOk s a then endList 0x101 (with_ 0)
  else match scanList s a limit 0 with
    | .failed n => endList 0x110 (listRead a n (with_ 0))
    | .noEnd => endList 0x10F (listRead a limit (with_ 0))
    | .found 0 => endList 0 (listRead a 1 (with_ 0))
    | .found n => listRead a (n + 1) (with_ n)
    | .waits => s

/-- The limit that BL_LCOUNT holds. -/
def listLimit (n : Nat) : Nat := if n = 0 ∨ 65536 < n then 65536 else n

/-- A register-started list that waits begins once nothing runs (R459). -/
def beginRegList (s : State) : State :=
  if s.bl.regWait && s.bl.op.isNone && s.bl.list.isNone && s.bl.job.isNone
      && !listWaits s s.bl.laddr (listLimit s.bl.lcount) then
    beginList s.bl.laddr (listLimit s.bl.lcount) s.bl.stopOnErr true { s with bl := { s.bl with regWait := false } }
  else s

/-- After an entry: the list ends or goes on. -/
def listStep (s : State) : State :=
  match s.bl.list with
  | none => s
  | some l =>
    if l.stop then endList 0x108 s
    else if (l.stopErr && l.fail.isSome) || l.limit ≤ l.next then endList 0 s
    else s

/-- An entry is over: STATUS, PIXELS and FAULTS are written back (R475). -/
def entryDone (st : Nat) (r0 r1 : Option Nat) (s : State) : State :=
  match s.bl.list with
  | none => s
  | some l =>
    let e := l.addr + 256 * l.next
    let a := resultOr r0 s
    let b := resultOr r1 a.2
    let s := afterBursts 1
      (memWrite (e + 6) (leBytes 2 st) (memWrite (e + 96) (leBytes 4 a.1 ++ leBytes 4 b.1) b.2))
    let l := { l with next := l.next + 1, run := l.run + 1, okCnt := l.okCnt + b2n (st == 0),
                      fail := if st = 0 then l.fail else l.fail.or (some l.next) }
    listStep { s with bl := { s.bl with list := some l } }

/-- New operations wait: the part drains for P2, or is in it (R545). -/
def blHolds (s : State) : Bool := quiesced s || s.pmu.drainAt.isSome

/-- The next entry of the list in progress. -/
def runEntry (s : State) : State :=
  match s.bl.list with
  | none => s
  | some l =>
    if s.bl.op.isSome || blHolds s || !blReady s || !served s 4 (l.addr + 256 * l.next) 256 then s
    else
      let e := l.addr + 256 * l.next
      if !readable s e 256 then entryDone 0x110 none none s
      else
        let b := memRead s e 256
        let s := afterBursts 1 (countRead e 256 s)
        let op := bOp b
        if op = 0xF then endList 0 s
        else if op = 0xE then
          listStep { s with bl := { s.bl with list := some { l with next := l.next + 1, run := l.run + 1 } } }
        else match blitRefusal s 0 op b with
          | some r => entryDone r.1 r.2.1 r.2.2 s
          | none => beginOp 0 b s

/-- BL_LIST_ENTRY_RUN. -/
def execBlListEntryRun (t : Ticks) (s : State) : Host.Outcome State Fault Refusal :=
  whenRunning t (fun s => beginRegList (runEntry s)) s

/-! ### Jobs (R457, R458) -/

/-- The block of a blit packet obeys R460. -/
def blockGiven (p : Packet) : Bool := p.indirect && p.plen == 16

/-- A job starts: a list, or a blit whose checks run now. -/
def startJob (j : BlJob) (s : State) : State :=
  let p := j.ent.pkt
  let s1 := { s with bl := { s.bl with job := some j } }
  if j.ent.opcode = 0xA05 then
    let n := prmb p 8 4 16 0
    if n = 0 ∨ 65536 < n then finishJob j 0x101 none none s
    else beginList (prmb p 0 8 39 0) n (prmbit p 12 0) false s1
  else if !blockGiven p then finishJob j 0x101 none none s
  else match blitRefusal s p.func (j.ent.opcode % 256) (prms p) with
    | some r => finishJob j r.1 r.2.1 r.2.2 s
    | none => beginOp p.func (prms p) s1

/-- A job waits for memory to serve the pass over its list. -/
def jobWaits (s : State) (j : BlJob) : Bool :=
  j.ent.opcode == 0xA05 && listWaits s (prmb j.ent.pkt 0 8 39 0) (prmb j.ent.pkt 8 4 16 0)

/-- The BL is idle and may start work. -/
def blIdle (s : State) : Bool := s.bl.op.isNone && s.bl.list.isNone && s.bl.job.isNone && !blHolds s

/-- BL_JOB_START: the first job of the queue starts; a register-started list goes ahead of it. -/
def execBlJobStart (t : Ticks) (s : State) : Host.Outcome State Fault Refusal :=
  whenRunning t (fun s =>
    if !blIdle s then s
    else if s.bl.regWait then beginRegList s
    else match s.bl.queue with
      | [] => s
      | j :: rest => if jobWaits s j then s else startJob j { s with bl := { s.bl with queue := rest } }) s

/-- Lines of the walk of an operation. -/
def opLines (s : State) (o : BlOp) : Nat := lineCountOf (opnd s o.block oDst).sf.format (bH o.block)

/-- An operation has run to its end, or was stopped. -/
def opOver (s : State) (o : BlOp) : Bool := o.stop || decide (opLines s o ≤ o.line)

/-- The BL as the unit of UNIT_RESET (R554): in flight until the running operation ends. -/
def unitBl : Nat := unitRef 7 0

/-- The operation in progress with the slots it holds. -/
def blitOf (s : State) (o : BlOp) : Blit :=
  let fix := fun (p : Opnd) (h : Option (Nat × Nat)) => { p with slot := if p.raw then some 0 else h.map (·.2) }
  ⟨s, o.block, fix (opnd s o.block oSrc) o.src, fix (opnd s o.block oDst) o.dst⟩

/-- Note that host software writes n bytes at an address, through BAR2 or the HD: a queued blit or the running
operation with the address in its destination leaves contents there that are undefined (R470). -/
def noteRace (a n : Nat) (s : State) : State :=
  let r := (a, a + n)
  let add := fun (p : Opnd) (b : List Byte) (l : List (Nat × Nat)) =>
    if (extentOf p (bW b) (bH b)).any (rangesMeet r) then l ++ [r] else l
  { s with bl := { s.bl with
    op := s.bl.op.map fun o => { o with raced := add (blitOf s o).dst o.block o.raced }
    queue := s.bl.queue.map fun j =>
      let b := prms j.ent.pkt
      if j.ent.opcode < 0xA05 then { j with raced := add (opnd s b oDst) b j.raced } else j } }

/-- As an operation ends, every byte of its destination that host software wrote while it was queued or running
takes a free value (R470). -/
def raceOut (o : BlOp) (s : State) : State :=
  let p := (blitOf s o).dst
  let hit := fun r => (extentOf p (bW o.block) (bH o.block)).filter (rangesMeet r)
  forAll (o.raced.flatMap fun r => (hit r).map fun e => (max r.1 e.1, min r.2 e.2)) (fun e s =>
    let v := takeFree s
    memWrite e.1 (leBytes (e.2 - e.1) v.1) v.2) s

/-- BL_JOB_END: the operation ends; its pin goes, and its packet or list entry completes (R469). -/
def endOp (s : State) : State :=
  match s.bl.op with
  | none => s
  | some o =>
    let listAt := match s.bl.list with
      | some l => blReady s && served s 4 (l.addr + 256 * l.next) 256
      | none => true
    if !opOver s o || !listAt then s
    else
      let s := raceOut o s
      let s := match o.src with
        | some e => unpinSlot e.1 e.2 pinBl s
        | none => s
      let s := { s with bl := { s.bl with op := none, ops := (s.bl.ops + b2n (!o.stop)) % 2 ^ 64 } }
      let r0 := pixelCount o.block
      finishUnit unitBl 0 (some 0) none <|
      if s.bl.list.isSome then entryDone 0 (some r0) (some o.faults) s
      else
        let job := s.bl.job
        let s := clearWork s
        match job with
        | some j => finishJob j (lateStatus j.late 0) (some r0) (some o.faults) s
        | none => s

/-- BL_JOB_END. -/
def execBlJobEnd (t : Ticks) (s : State) : Host.Outcome State Fault Refusal :=
  whenRunning t (fun s => beginRegList (endOp s)) s

/-! ### Bursts (R466, R469, R472) -/

/-- Lines are taken from bottom to top (R466). -/
def upward (c : Blit) : Bool := hasSrc (bOp c.b) && overlapServed (bOp c.b) c.src c.dst && decide (c.src.y < c.dst.y)
/-- Units are taken from right to left. -/
def leftward (c : Blit) : Bool := hasSrc (bOp c.b) && overlapServed (bOp c.b) c.src c.dst && decide (c.src.x < c.dst.x)

/-- Plane and line of the rectangle at step i of the walk. -/
def walkLine (c : Blit) (i : Nat) : Nat × Nat :=
  let h := bH c.b
  let e := planeLine h i
  let n := if e.1 = 1 then chromaRows c.dst.sf.format h else h
  (e.1, if upward c then n - 1 - e.2 else e.2)

/-- The units of a line in bursts: each run lies in one granule of the destination. -/
def burstsOf (c : Blit) (plane line : Nat) : List (List Nat) :=
  let n := bW c.b / unitPixels c.dst.sf.format plane
  let g := fun u => (opndAddr c.dst + unitOff c.dst plane line u) / 4096
  let l := (List.range n).splitBy fun u v => g u == g v
  if leftward c then (l.map List.reverse).reverse else l

/-- The source bytes that a burst reads, as requests of 256 bytes. -/
def burstReads (c : Blit) (plane line : Nat) (us : List Nat) : List Nat :=
  let op := bOp c.b
  let f := c.dst.sf.format
  let of := fun (p : Opnd) => us.flatMap fun u =>
    let a := anchorOf_ f plane line u
    (List.range (fmtComps p.sf.format).length).flatMap fun k =>
      let x := p.x + a.1
      let y := p.y + a.2
      (sampleSpans p k (if subX p.sf.format k then x / 2 else x) (if subY p.sf.format k then y / 2 else y)).flatMap
        fun e => (List.range ((e.1 + e.2 - 1) / 256 + 1 - e.1 / 256)).map (e.1 / 256 + ·)
  ((if hasSrc op then of c.src else []) ++ (if op = 2 then of c.dst else [])).eraseDups

/-- The C4 gate of a channel lets a request go now, and C4 is not shed (R164, R472, R473). -/
def c4Open (s : State) (n : Nat) : Bool :=
  !tbit s.pmu.shed 4 && (match openLeft s (chanFsOf s n) 0x10 with
    | some l => decide (8 ≤ l)
    | none => false)

/-- Every channel that a burst reads from or writes to serves C4. -/
def burstServed (s : State) (c : Blit) (plane line : Nat) (us : List Nat) : Bool :=
  let go := fun a => channelServes s 4 (channelOf s a)
  (burstReads c plane line us).all (fun k => go (256 * k))
    && us.all fun u => go (opndAddr c.dst + unitOff c.dst plane line u)

/-- Count failed accesses of the operation in progress: how many requests a failed burst holds is not
stated. The first of an operation raises source 705 (R469). -/
def accessFault (s : State) : State :=
  match s.bl.op with
  | none => s
  | some o =>
    let v := takeFree (noteSet 0x50000 2 s)
    let n := v.1 + 1
    let s := { v.2 with bl := { v.2.bl with op := some { o with faults := sat 32 (o.faults + n) },
                                            faults := sat 32 (v.2.bl.faults + n), accFault := true } }
    if o.faults = 0 then raise 705 s else s

/-- A format has bits that no component holds. -/
def hasSpare (f : Nat) : Bool := f == 3 || f == 0x14 || f == 0x15

/-- One step of the operation in progress, over the units of a line in one granule of the destination: the bursts
that read, one for each granule read, then the burst that writes; units outside the clips take no part (R464). The
dead time of all of them follows (DESIGN CHOICE, notes/assumptions/84.md). -/
def runBurst (s : State) : State :=
  match s.bl.op with
  | none => s
  | some o =>
    let c := blitOf s o
    let e := walkLine c o.line
    let bs := burstsOf c e.1 e.2
    let all := bs.getD o.chunk []
    let us := c.written e.1 e.2 all
    let addr := fun u => opndAddr c.dst + unitOff c.dst e.1 e.2 u
    if opOver s o || !blReady s || all.isEmpty || !(us.isEmpty || c4Open s (channelOf s (addr (us.headD 0))))
        || !burstServed s c e.1 e.2 us then s
    else
      let v := if hasSpare c.dst.sf.format then takeFree s else (0, s)
      let rs := us.map fun u => (u, c.unit e.1 e.2 v.1 u)
      let s := forAll (burstReads c e.1 e.2 us) (fun k s => countRead (256 * k) 256 s) v.2
      let s := forAll (c.failedTiles e.1 e.2 us) (fun _ s => ftcError c.src.surf s) s
      let lost := rs.any fun r => r.2.2 || (r.2.1.isSome && meetsFence s (addr r.1) 1)
      let s := forAll rs (fun r s => match r.2.1 with
        | some b => memWrite (addr r.1) b s
        | none => s) s
      let last := decide (bs.length ≤ o.chunk + 1)
      let o := { o with line := if last then o.line + 1 else o.line, chunk := if last then 0 else o.chunk + 1 }
      let reads := ((burstReads c e.1 e.2 us).map (· / 16)).eraseDups.length
      let s := afterBursts (reads + b2n (!us.isEmpty)) { s with bl := { s.bl with op := some o } }
      if lost then accessFault s else s

/-- BL_BURST. -/
def execBlBurst (t : Ticks) (s : State) : Host.Outcome State Fault Refusal := whenRunning t runBurst s

/-! ### Registers (R477) -/

/-- A write of BL_LCTL. -/
def writeLctl (v : Nat) (s : State) : State :=
  let s := { s with bl := { s.bl with stopOnErr := tbit v 2 } }
  let s := if tbit v 0 && s.bl.list.isNone then
      let s := { s with bl := { s.bl with regWait := true } }
      if blHolds s then s else beginRegList s
    else s
  if tbit v 1 then
    match s.bl.list with
    | none => s
    | some l =>
      let s := { s with bl := { s.bl with list := some { l with stop := true } } }
      if s.bl.op.isSome then s else endList 0x108 s
  else s

/-- BL_REG_LIST_START: function f writes BL_LCTL with START set. -/
def execBlRegListStart (t : Ticks) (f v : Nat) (s : State) : Host.Outcome State Fault Refusal :=
  regAccess t f (fun s => if f = 0 then writeLctl v s else s) id s

/-- BL_REG_LIST_STOP: function f writes BL_LCTL with STOP set. -/
def execBlRegListStop (t : Ticks) (f v : Nat) (s : State) : Host.Outcome State Fault Refusal :=
  regAccess t f (fun s => if f = 0 then writeLctl v s else s) id s

/-! ### Commands (R480) -/

/-- A job joins the queue; with 64 jobs queued its packet waits (R457). -/
def queueBody (op : Nat) (p : Packet) (s : State) : Res :=
  if 64 ≤ s.bl.queue.length then .wait
  else .keep fun e late =>
    { s with bl := { s.bl with queue := s.bl.queue ++ [⟨{ e with opcode := op, pkt := p }, late, []⟩] } }

/-- The queue of the BL, as what a packet waits for while it is full. -/
def blQueueRef : Nat := unitRef 0x8E 0

/-- A blit: any function may issue it; its checks run when it starts. -/
def blitSpec (op : Nat) : CmdSpec :=
  { opcode := op, acts := fun _ => [blQueueRef], owns := fun _ _ => true, body := queueBody op }

def specBlitCopy : CmdSpec := blitSpec 0xA00
/-- BLIT_COPY. -/
def execBlitCopy (t : Ticks) (p : Packet) (s : State) := runPacket specBlitCopy t p s

def specBlitFill : CmdSpec := blitSpec 0xA01
/-- BLIT_FILL. -/
def execBlitFill (t : Ticks) (p : Packet) (s : State) := runPacket specBlitFill t p s

def specBlitBlend : CmdSpec := blitSpec 0xA02
/-- BLIT_BLEND. -/
def execBlitBlend (t : Ticks) (p : Packet) (s : State) := runPacket specBlitBlend t p s

def specBlitConvert : CmdSpec := blitSpec 0xA03
/-- BLIT_CONVERT. -/
def execBlitConvert (t : Ticks) (p : Packet) (s : State) := runPacket specBlitConvert t p s

def specBlitMaskExpand : CmdSpec := blitSpec 0xA04
/-- BLIT_MASK_EXPAND. -/
def execBlitMaskExpand (t : Ticks) (p : Packet) (s : State) := runPacket specBlitMaskExpand t p s

def specBlitListRun : CmdSpec := { opcode := 0xA05, acts := fun _ => [blQueueRef], body := queueBody 0xA05 }
/-- BLIT_LIST_RUN. -/
def execBlitListRun (t : Ticks) (p : Packet) (s : State) := runPacket specBlitListRun t p s

/-- BLIT_DEADTIME_SET: bursts are whole steps, so the next boundary is now (R473). The parameters of 0x0A05 and 0x0A06
are read from the bits the table lists; R480 does not say that other bits must be zero (DEDUCED, notes/assumptions/86.md). -/
def blitDeadtimeSetBody (p : Packet) (s : State) : Res :=
  .ok (some s.bl.dead) none { s with bl := { s.bl with dead := prmb p 0 2 11 0 } }

def specBlitDeadtimeSet : CmdSpec := { opcode := 0xA06, body := blitDeadtimeSetBody }
/-- BLIT_DEADTIME_SET. -/
def execBlitDeadtimeSet (t : Ticks) (p : Packet) (s : State) := runPacket specBlitDeadtimeSet t p s

end Sys2Proof.Machine
end

