-- ==== Sys2Proof/Machine/HousekeepingDma.lean ====
section
/-! DEFINITION. The housekeeping DMA (chapter 13): channels, descriptors, bursts, request lines, completion
records, aborts and time-outs. -/
namespace Sys2Proof.Machine
open Sys2Proof

/-! ### Descriptors (R484, R487) -/

/-- OP of a descriptor. -/
def hOp (d : List Byte) : Nat := rdb d 0 1 1 0
/-- LEN. -/
def hLen (d : List Byte) : Nat := rd d 4 4
/-- The operation reads a source operand. -/
def hReads (d : List Byte) : Bool := hOp d == 0 || hOp d == 2
/-- The operation writes its destination. -/
def hWrites (d : List Byte) : Bool := hOp d < 2
/-- PACED. -/
def hPaced (d : List Byte) : Bool := rdbit d 0 4

/-- An operand: its space (true host), its address and its wrap field. -/
structure HOpnd where
  host : Bool
  addr : Nat
  wrap : Nat
  deriving DecidableEq, Repr

/-- The source operand. -/
def hSrc (d : List Byte) : HOpnd := ⟨rdbit d 15 7, rdb d 8 8 62 0, rdb d 2 1 4 0⟩
/-- The destination operand. -/
def hDst (d : List Byte) : HOpnd := ⟨rdbit d 23 7, rdb d 16 8 62 0, rdb d 3 1 4 0⟩

/-- Address of byte k of an operand (R487). -/
def hAddr (o : HOpnd) (k : Nat) : Nat :=
  let w := 2 ^ o.wrap
  if o.wrap = 0 then o.addr + k else o.addr / w * w + (o.addr % w + k) % w

/-- Byte ranges [lo, hi) that n bytes of an operand take. -/
def hExtent (o : HOpnd) (n : Nat) : List (Nat × Nat) :=
  let w := 2 ^ o.wrap
  let base := o.addr / w * w
  if n = 0 then []
  else if o.wrap = 0 then [(o.addr, o.addr + n)]
  else if w ≤ n then [(base, base + w)]
  else if o.addr % w + n ≤ w then [(o.addr, o.addr + n)]
  else [(o.addr, base + w), (base, base + o.addr % w + n - w)]

/-- A device operand's extent, or its window, reaches the device top (R486, R487). -/
def hTooHigh (s : State) (o : HOpnd) (n : Nat) : Bool :=
  let w := 2 ^ o.wrap
  !o.host && n != 0 &&
    decide (deviceTop s < if o.wrap = 0 then o.addr + n else o.addr / w * w + w)

/-- Operands that a descriptor uses. -/
def hOpnds (d : List Byte) : List HOpnd := (if hReads d then [hSrc d] else []) ++ [hDst d]

/-- A wrap field is valid. -/
def wrapOk (w : Nat) : Bool := w == 0 || decide (8 ≤ w ∧ w ≤ 30)

/-- The checks of R486 on channel c: the status of the first failure, or 0. -/
def descCheck (s : State) (c : Nat) (d : List Byte) : Nat :=
  let n := hLen d
  let host := decide (c < 12)
  if rdb d 0 1 7 6 != 0 || rdb d 1 1 7 5 != 0 || rdb d 2 1 7 5 != 0 || rdb d 3 1 7 5 != 0
      || !wrapOk (rdb d 2 1 4 0) || !wrapOk (rdb d 3 1 4 0) || rdb d 24 1 4 0 != 0
      || (host && hPaced d && decide (rdb d 1 1 4 0 < 16)) then 0x101
  else if (hOpnds d).any (fun o => hTooHigh s o n
      || (host && !o.host && (hExtent o n).any fun e => decide (e.1 < surfaceFloor))) then 0x101
  else if host && hWrites d && !(hDst d).host && meetsCrystal s (hExtent (hDst d) n) then 0x10E
  else 0

/-! ### Records and the end of a chain (R493 to R497) -/

/-- The unit of an HD_START that waits for its chain. -/
def hdStartUnit (c : Nat) : Nat := unitRef 0x84 c
/-- The unit of an HD_ABORT that waits for its channel. -/
def hdAbortUnit (c : Nat) : Nat := unitRef 0x85 c

/-- The CI that a record written now sees (R495, R500). -/
def seenCi (s : State) (x : HdChan) : Nat := if x.ciAt = some s.clk.ticks then x.ciOld else x.cqci

/-- What a record says besides the channel's own counts. -/
structure HdRecord where
  status   : Nat
  chainEnd : Bool := false
  aborted  : Bool := false
  mismatch : Bool := false
  residue  : Nat := 0
  detail   : Nat := 0
  deriving DecidableEq, Repr

/-- A record for device memory is written, behind records that wait and once its channel serves C5. -/
def postRecord (e : Nat × List Byte) (s : State) : State :=
  if !s.hd.records.isEmpty || !served s 5 e.1 e.2.length then { s with hd := { s.hd with records := s.hd.records ++ [e] } }
  else memWrite e.1 e.2 s

/-- The records that wait are written where memory serves them. -/
def drainRecords (s : State) : State :=
  forAll s.hd.records postRecord { s with hd := { s.hd with records := [] } }

/-- Write a completion record (R494, R495). One for host memory is discarded after an FLR (R501) and while PF0's Bus
Master Enable is 0 (R601; DEDUCED, notes/assumptions/88.md). -/
def writeRecord (c : Nat) (r : HdRecord) (s : State) : State :=
  let x := hdOf s c
  let n := 2 ^ x.cqLog2
  if (x.cqpi + 65536 - seenCi s x) % 65536 = n then
    raise (768 + 4 * c + 3) (noteSet (hdStatKey c) 3 (putHd c { x with cqOvf := true } s))
  else
    let phase := 1 - x.cqpi / n % 2
    let b := leBytes 2 r.status ++ leBytes 1 c
      ++ leBytes 1 (b2n r.chainEnd + shl (b2n r.aborted) 1 + shl (b2n r.mismatch) 2 + shl phase 7)
      ++ leBytes 4 x.count ++ leBytes 4 (sat 32 r.residue) ++ leBytes 4 r.detail
    let a := x.cqbase + 16 * (x.cqpi % n)
    let s := putHd c { x with cqpi := (x.cqpi + 1) % 65536 } s
    if !x.cqSpace then postRecord (a, b) (drainRecords s)
    else if x.noRecords || !bmeOf s 0 then s
    else emit (.hostWrite 0 a b) s

/-- The HD as the unit of UNIT_RESET (R554): in flight until channels 0 to 11 are IDLE. -/
def unitHd : Nat := unitRef 8 0

/-- Channels 0 to 11 are IDLE. -/
def hdQuiet (s : State) : Bool := (List.range 12).all fun c => (hdOf s c).st == .idle

/-- Channels 0 to 11 return to their reset values. -/
def hdClear (s : State) : State := forAll (List.range 12) (fun c s => putHd c {} s) s

/-- A unit reset of the HD ends once all its channels are IDLE. -/
def hdSettle (s : State) : State :=
  if unitBusy s unitHd && hdQuiet s then finishUnit unitHd 0 (some 0) none (hdClear s) else s

/-- A chain ends: its CHAIN_END record, its event, and the packets that wait for it. What an FLR does to its records
ends with it. -/
def endChain (c : Nat) (r : HdRecord) (s : State) : State :=
  let s := writeRecord c { r with chainEnd := true } s
  let x := hdOf s c
  let s := putHd c { x with st := .idle, waitreq := false, start := false, abort := false, last := r.status,
                            resid := sat 32 r.residue, noRecords := false } s
  let s := raise (768 + 4 * c + (if r.status = 0 then 1 else 2)) s
  let n := (hdOf s c).count
  let s := finishUnit (hdStartUnit c) r.status (some n) (some r.residue) s
  hdSettle (finishUnit (hdAbortUnit c) 0 (some n) (some r.residue) s)

/-- The mismatch part of a descriptor's record: flag and DETAIL. -/
def mismatchOf (x : HdChan) (d : List Byte) : Bool × Nat :=
  if hWrites d then (false, 0)
  else match x.mismatch with
    | some k => (true, k)
    | none => (false, 0xFFFFFFFF)

/-! ### Running a chain -/

/-- The channel whose chain the engine runs. -/
def hdRunning (s : State) : Option Nat :=
  (List.range 16).find? fun c => (hdOf s c).st == .running || (hdOf s c).st == .aborting

/-- WAITREQ follows whether the chain waits for a request (R492). -/
def settleWait (c : Nat) (s : State) : State :=
  let x := hdOf s c
  let d := x.desc.getD []
  let waits := x.st == .running && x.phase == .burst && hPaced d && Tbl.get s.hd.req 0 (rdb d 1 1 4 0) == 0
  if waits == x.waitreq then s
  else putHd c { x with waitreq := waits, waitAt := if waits then s.clk.ticks else x.waitAt } s

/-- Fetch and check the descriptor at an address ([63] SPACE); `desc` and `ok` are what a fetch from host
memory returns. -/
def fetchDesc (c a : Nat) (desc : List Byte) (ok : Bool) (s : State) : State :=
  let host := tbit a 63
  let p := bits a 61 0
  let x := hdOf s c
  let s := putHd c { x with ccur := a, desc := none, k := 0, mismatch := none, resid := 0, phase := .burst,
                            accessAt := s.clk.ticks } s
  if (if host then !ok || !bmeOf s 0 else !readable s p 32) then
    endChain c { status := 0x110, detail := p % 2 ^ 32 } s
  else
    let d := if host then fitBytes 32 desc else memRead s p 32
    let s := if host then s else countRead p 32 s
    let st := descCheck s c d
    if st ≠ 0 then endChain c { status := st, residue := hLen d } s
    else
      settleWait c (putHd c { hdOf s c with desc := some d, resid := hLen d,
                                            phase := if hLen d = 0 then .closing else .burst } s)

/-- A descriptor of device memory waits until its channel serves C5. -/
def descWaits (s : State) (a : Nat) : Bool := !tbit a 63 && !served s 5 (bits a 61 0) 32

/-- The READY channel that the engine takes next (R482). -/
def nextChannel (s : State) : Option Nat :=
  [3, 2, 1, 0].findSome? fun p =>
    let from_ := Tbl.get s.hd.lastAt 15 p + 1
    ((List.range 16).map fun i => (from_ + i) % 16).find? fun c => (hdOf s c).st == .ready && (hdOf s c).prio == p

/-- HD_CHANNEL_SELECT: the engine is free and takes a channel; it fetches the chain's first descriptor. -/
def execHdChannelSelect (t : Ticks) (desc : List Byte) (ok : Bool) (s : State) : Host.Outcome State Fault Refusal :=
  whenRunning t (fun s =>
    if (hdRunning s).isSome || blHolds s then s
    else match nextChannel s with
      | none => s
      | some c =>
        let x := hdOf s c
        if descWaits s x.head then s else
        let s := putHd c { x with st := .running } s
        let s := { s with hd := { s.hd with cur := c, lastAt := Tbl.set s.hd.lastAt x.prio c } }
        fetchDesc c x.head desc ok s) s

/-- Bytes of the next burst from offset k (R488). -/
def burstLen (x : HdChan) (d : List Byte) : Nat :=
  let size := 256 * 2 ^ x.burst
  let toWrap := fun (o : HOpnd) => if o.wrap = 0 then 2 ^ 32 else 2 ^ o.wrap - hAddr o x.k % 2 ^ o.wrap
  let m := min (hLen d - x.k) (size - hAddr (hDst d) x.k % size)
  let m := min m (toWrap (hDst d))
  if hReads d then min m (toWrap (hSrc d)) else m

/-- The C5 gate of the channel of a device address is open, and C5 is not shed. -/
def c5Open (s : State) (o : HOpnd) (k : Nat) : Bool :=
  o.host || (!tbit s.pmu.shed 5 && match openLeft s (chanFsOf s (channelOf s (hAddr o k))) 0x20 with
    | some l => decide (8 ≤ l)
    | none => false)

/-- Every channel that n bytes of an operand reach serves C5. -/
def hdServed (s : State) (o : HOpnd) (k n : Nat) : Bool := o.host || served s 5 (hAddr o k) n

/-- The first address of n bytes that cannot be read. -/
def firstUnreadable (s : State) (a n : Nat) : Nat :=
  (((List.range n).map (a + ·)).find? fun b => !readable s b 1).getD a

/-- What an operand's bytes are in a burst: an address that failed, or the bytes. -/
def burstData (s : State) (o : HOpnd) (k n : Nat) (host : List Byte) (ok : Bool) : Nat ⊕ List Byte :=
  let a := hAddr o k
  if o.host then (if ok && bmeOf s 0 then .inr (fitBytes n host) else .inl a)
  else if readable s a n then .inr (memRead s a n) else .inl (firstUnreadable s a n)

/-- Byte k of a pattern. -/
def patternBytes (d : List Byte) (k n : Nat) : List Byte :=
  (List.range n).map fun i => (d.drop 8).getD ((k + i) % 8) 0#8

/-- The first difference of two byte lists. -/
def firstDiff : List Byte → List Byte → Nat → Option Nat
  | a :: s, b :: t, i => if a = b then firstDiff s t (i + 1) else some i
  | _, _, _ => none

/-- A read of device memory is counted. -/
def noteRead (o : HOpnd) (k n : Nat) (s : State) : State := if o.host then s else countRead (hAddr o k) n s

/-- The chain ends with BUS_ERROR at an address. -/
def busFail (c a : Nat) (s : State) : State :=
  let x := hdOf s c
  endChain c { status := 0x110, residue := hLen (x.desc.getD []) - x.k, detail := a % 2 ^ 32,
               mismatch := (mismatchOf x (x.desc.getD [])).1 } s

/-- Write the bytes of a burst; none: the write fails at an address. -/
def burstWrite (o : HOpnd) (k : Nat) (b : List Byte) (ok : Bool) (s : State) : Nat ⊕ State :=
  let a := hAddr o k
  if o.host then (if ok && bmeOf s 0 then .inr (emit (.hdHost a b) s) else .inl a)
  else if meetsFence s a b.length then .inl a
  else .inr (memWrite a b (noteRace a b.length s))

/-- The bytes that a descriptor writes in a burst: those read or filled in, but where the destination of a COPY lies
in its source's extent a free value, since the contents there are undefined (R490). -/
def copied (d : List Byte) (k : Nat) (v : List Byte) (s : State) : List Byte × State :=
  let src := hExtent (hSrc d) (hLen d)
  let shared := fun i => (hSrc d).host == (hDst d).host
    && src.any fun e => decide (e.1 ≤ hAddr (hDst d) (k + i) ∧ hAddr (hDst d) (k + i) < e.2)
  if hReads d && (List.range v.length).any shared then
    let x := takeFree s
    (((v.zip (leBytes v.length x.1)).zip (List.range v.length)).map fun e => if shared e.2 then e.1.2 else e.1.1, x.2)
  else (v, s)

/-- The engine has done a burst of n bytes. -/
def burstDone (c n : Nat) (s : State) : State :=
  let x := hdOf s c
  let len := hLen (x.desc.getD [])
  let k := x.k + n
  settleWait c (putHd c { x with k := k, resid := len - k, accessAt := s.clk.ticks,
                                 phase := if len ≤ k then .closing else .burst } s)

/-- The next burst of the running chain (R488): `src` and `dst` are what reads of host memory return. -/
def hdBurst (c : Nat) (src dst : List Byte) (ok : Bool) (s : State) : State :=
  let x := hdOf s c
  match x.desc with
  | none => s
  | some d =>
    let n := burstLen x d
    let a := hSrc d
    let b := hDst d
    let line := rdb d 1 1 4 0
    let gates := c5Open s b x.k && (!hReads d || c5Open s a x.k)
      && hdServed s b x.k n && (!hReads d || hdServed s a x.k n)
    if x.st != .running || x.phase != .burst || x.waitreq || !gates then s
    else
      let s := if hPaced d then { s with hd := { s.hd with req := Tbl.upd s.hd.req 0 line (· - 1) } } else s
      let from_ := if hReads d then burstData s a x.k n src ok else .inr (patternBytes d x.k n)
      match from_ with
      | .inl e => busFail c e s
      | .inr v =>
        let s := if hReads d then noteRead a x.k n s else s
        if hWrites d then
          let o := copied d x.k v s
          match burstWrite b x.k o.1 ok o.2 with
          | .inl e => busFail c e o.2
          | .inr s => burstDone c n s
        else match burstData s b x.k n dst ok with
          | .inl e => busFail c e s
          | .inr w =>
            let s := noteRead b x.k n s
            let m := (firstDiff v w 0).map (x.k + ·)
            burstDone c n (putHd c { hdOf s c with mismatch := x.mismatch.or m } s)

/-- HD_BURST. -/
def execHdBurst (t : Ticks) (src dst : List Byte) (ok : Bool) (s : State) : Host.Outcome State Fault Refusal :=
  whenRunning t (fun s => match hdRunning s with
    | some c => hdBurst c src dst ok s
    | none => s) s

/-- The read-back of a descriptor's last byte written: the address that fails, if it does (R493). -/
def readBackFails (s : State) (x : HdChan) (d : List Byte) (ok : Bool) : Option Nat :=
  let a := hAddr (hDst d) (x.k - 1)
  if !hWrites d || x.k = 0 then none
  else if (hDst d).host then (if ok then none else some (a / 4 * 4))
  else if readable s (a / 256 * 256) 256 then none else some (a / 256 * 256)

/-- The limit that a LIMIT field gives (R497). -/
def hdLimit (n : Nat) : Nat := if n = 0 ∨ 1048576 < n then 65536 else n

/-- Where the descriptor after this one lies ([63] SPACE). -/
def nextDesc (d : List Byte) : Nat := rdb d 24 8 61 0 + shl (b2n (rdbit d 31 7)) 63

/-- A descriptor has completed: its events and record, and the end of the chain or the next fetch. -/
def closeDesc (c : Nat) (desc : List Byte) (ok : Bool) (d : List Byte) (s : State) : State :=
  let x := hdOf s c
  let s := putHd c { x with count := sat 32 (x.count + 1), resid := 0 } s
  let s := if rdbit d 0 2 then raise (768 + 4 * c) s else s
  let m := mismatchOf x d
  let base : HdRecord := { status := 0, mismatch := m.1, detail := m.2 }
  if x.st = .aborting then endChain c { base with status := 0x108, aborted := true } s
  else if rdbit d 31 6 || (rdbit d 0 5 && m.1) then endChain c base s
  else if (hdOf s c).count = hdLimit x.limit then endChain c { base with status := 0x10F } s
  else
    let s := if rdbit d 0 3 then writeRecord c base s else s
    fetchDesc c (nextDesc d) desc ok s

/-- HD_DESC_COMPLETE: the read-back returns, or none is needed; an aborted descriptor ends its chain. -/
def hdComplete (c : Nat) (readBack : Bool) (desc : List Byte) (ok : Bool) (s : State) : State :=
  let x := hdOf s c
  match x.desc with
  | none => s
  | some d =>
    let waits := (x.k != 0 && hWrites d && !hdServed s (hDst d) (x.k - 1) 1)
      || (x.st != .aborting && !rdbit d 31 6 && descWaits s (nextDesc d))
    if (x.phase != .closing && x.st != .aborting) || waits then s
    else
      let s := if hWrites d && x.k != 0 then noteRead (hDst d) (x.k - 1) 1 s else s
      match readBackFails s x d readBack with
      | some a => busFail c a s
      | none =>
        if hLen d ≤ x.k then closeDesc c desc ok d s
        else endChain c { status := 0x108, aborted := true, residue := hLen d - x.k, mismatch := x.mismatch.isSome } s

/-- HD_DESC_COMPLETE. -/
def execHdDescComplete (t : Ticks) (readBack : Bool) (desc : List Byte) (ok : Bool) (s : State) :
    Host.Outcome State Fault Refusal :=
  whenRunning t (fun s => match hdRunning s with
    | some c => hdComplete c readBack desc ok s
    | none => s) s

/-! ### Request lines and time-outs (R491, R492, R498) -/

/-- Add a request to a line. -/
def addRequest (line : Nat) (s : State) : State :=
  let n := Tbl.get s.hd.req 0 line
  let s := if n = 255 then noteSet 0x58000 5 { s with hd := { s.hd with reqOvf := true } }
    else { s with hd := { s.hd with req := Tbl.set s.hd.req line (n + 1) } }
  match hdRunning s with
  | some c => settleWait c s
  | none => s

/-- HD_HW_REQUEST: a hardware requester, lines 0 to 11. -/
def execHdHwRequest (t : Ticks) (line : Nat) (s : State) : Host.Outcome State Fault Refusal :=
  whenRunning t (fun s => if line < 12 then addRequest line s else s) s

/-- A write of HD_REQSET. -/
def writeReqset (v : Nat) (s : State) : State :=
  forAll ((List.range 16).filter fun i => tbit v (16 + i)) (fun i => addRequest (16 + i)) s

/-- HD_REQSET_WRITE: function f writes HD_REQSET. -/
def execHdReqsetWrite (t : Ticks) (f v : Nat) (s : State) : Host.Outcome State Fault Refusal :=
  regAccess t f (fun s => if f = 0 then writeReqset v s else s) id s

/-- HD_REQ_TIMEOUT: one wait has lasted longer than the channel's request time-out. -/
def execHdReqTimeout (t : Ticks) (s : State) : Host.Outcome State Fault Refusal :=
  whenRunning t (fun s => match hdRunning s with
    | none => s
    | some c =>
      let x := hdOf s c
      if x.waitreq && x.ctmo != 0 && decide (x.waitAt + usTicks x.ctmo < s.clk.ticks) then
        endChain c { status := 0x10A, residue := hLen (x.desc.getD []) - x.k, mismatch := x.mismatch.isSome } s
      else s) s

/-- HD_ACCESS_TIMEOUT: an access that has issued gets no completion within 10 µs. -/
def execHdAccessTimeout (t : Ticks) (s : State) : Host.Outcome State Fault Refusal :=
  whenRunning t (fun s => match hdRunning s with
    | none => s
    | some c =>
      let x := hdOf s c
      match x.desc with
      | none => s
      | some d =>
        let closing := x.phase == .closing || x.st == .aborting
        let o := if !closing && hReads d then hSrc d else hDst d
        let k := if closing then x.k - 1 else x.k
        if x.waitreq || s.clk.ticks < x.accessAt + usTicks 10 || !c5Open s o k then s
        else busFail c (hAddr o k) s) s

/-! ### Starts and aborts (R482, R499, R500) -/

/-- A channel may be started: its configuration is in range (R506). -/
def hdStartable (x : HdChan) : Bool := x.configured && decide (x.burst ≤ 4 ∧ 4 ≤ x.cqLog2 ∧ x.cqLog2 ≤ 12)

/-- An idle channel becomes READY with a chain head. -/
def readyChain (c head : Nat) (byReg : Bool) (s : State) : State :=
  putHd c { hdOf s c with st := .ready, head := head, count := 0, resid := 0, desc := none, start := byReg } s

/-- Abort a channel's chain (R499). -/
def abortChan (c : Nat) (s : State) : State :=
  let x := hdOf s c
  let d := x.desc.getD []
  let flushed : HdRecord := { status := 0x108, aborted := true }
  match x.st with
  | .idle => s
  | .aborting => s
  | .ready => endChain c flushed (putHd c { x with count := 0 } s)
  | .running =>
    if x.phase = .closing || (!x.waitreq && hWrites d && x.k != 0) then putHd c { x with st := .aborting } s
    else endChain c { flushed with residue := hLen d - x.k, mismatch := x.mismatch.isSome } s

/-- HD_CCTL.START of a host channel is set: ignored unless the channel is IDLE and may start. -/
def startChain (c : Nat) (s : State) : State :=
  let x := hdOf s c
  if c < 12 ∧ x.st = .idle ∧ hdStartable x then readyChain c x.chead true s else s

/-- HD_CCTL.ABORT of a host channel is set. -/
def abortChain (c : Nat) (s : State) : State :=
  if c < 12 ∧ (hdOf s c).st ≠ .idle then abortChan c (putHd c { hdOf s c with abort := true } s) else s

/-- HD_REG_START: function f sets HD_CCTL.START of channel c. -/
def execHdRegStart (t : Ticks) (f c : Nat) (s : State) : Host.Outcome State Fault Refusal :=
  regAccess t f (fun s => if f = 0 then startChain c s else s) id s

/-- HD_REG_ABORT: function f sets HD_CCTL.ABORT of channel c. -/
def execHdRegAbort (t : Ticks) (f c : Nat) (s : State) : Host.Outcome State Fault Refusal :=
  regAccess t f (fun s => if f = 0 then abortChain c s else s) id s

/-- An FLR of PF0 (R501). -/
def hdFlr (s : State) : State :=
  forAll (List.range 12) (fun c s =>
    if (hdOf s c).st = .idle then s else abortChan c (putHd c { hdOf s c with noRecords := true } s)) s

/-! ### Commands (R505, R506) -/

/-- CHANNEL. -/
def prmChan (p : Packet) : Nat := prmb p 0 1 3 0

/-- A spec of an opcode that changes a channel: PF0, channels 0 to 11. -/
def hdSpec (op : Nat) (body : Packet → State → Res) : CmdSpec :=
  { opcode := op, owns := fun p _ => p.func == 0 && decide (prmChan p < 12), body := body }

/-- HD_CHANNEL_CONFIG. -/
def hdChannelConfigBody (p : Packet) (s : State) : Res :=
  let c := prmChan p
  let x := hdOf s c
  require (onlyBits p [(0, 1, 0xF), (1, 1, 0x1F), (2, 1, 0x1F), (4, 4, 0x1FFFFF), allBits 8 8, (16, 4, 0xFFFFF)]
    && prm p 8 8 % 4096 == 0) badParam <|
  require (x.st == .idle) busy <|
    okay (putHd c
      { x with prio := prmb p 1 1 1 0, burst := prmb p 1 1 4 2, cqLog2 := prmb p 2 1 3 0, cqSpace := prmbit p 2 4,
               limit := prmb p 4 4 20 0, cqbase := prm p 8 8, cqpi := 0, cqci := 0, ciAt := none,
               ctmo := prmb p 16 4 19 0, configured := true, noRecords := false } s)

def specHdChannelConfig : CmdSpec := hdSpec 0xB00 hdChannelConfigBody
/-- HD_CHANNEL_CONFIG. -/
def execHdChannelConfig (t : Ticks) (p : Packet) (s : State) := runPacket specHdChannelConfig t p s

/-- HD_START. -/
def hdStartBody (p : Packet) (s : State) : Res :=
  let c := prmChan p
  let x := hdOf s c
  let h := prm p 8 8
  require (onlyBits p [(0, 1, 0xF), (1, 1, 1), (8, 8, 0xBFFFFFFFFFFFFFE0)] && hdStartable x) badParam <|
  require (x.st == .idle) busy <|
    let s' := readyChain c h false s
    if prmbit p 1 0 then okay s' else .pend (hdStartUnit c) s'

def specHdStart : CmdSpec := hdSpec 0xB01 hdStartBody
/-- HD_START. -/
def execHdStart (t : Ticks) (p : Packet) (s : State) := runPacket specHdStart t p s

/-- HD_ABORT: on an idle channel the counts are those of the last chain. -/
def hdAbortBody (p : Packet) (s : State) : Res :=
  let c := prmChan p
  require (onlyBits p [(0, 1, 0xF)]) badParam <|
    let s' := abortChan c s
    let x := hdOf s' c
    if x.st = .idle then .ok (some x.count) (some x.resid) s' else .pend (hdAbortUnit c) s'

def specHdAbort : CmdSpec := hdSpec 0xB02 hdAbortBody
/-- HD_ABORT. -/
def execHdAbort (t : Ticks) (p : Packet) (s : State) := runPacket specHdAbort t p s

/-- Code of STATE. -/
def hdCode : HdState → Nat
  | .idle => 0
  | .ready => 1
  | .running => 2
  | .aborting => 3

/-- HD_CSTAT. -/
def hdStatWord (x : HdChan) : Nat :=
  hdCode x.st + shl (b2n x.waitreq) 2 + shl (b2n x.cqOvf) 3 + shl x.last 16

/-- HD_QUERY. -/
def hdQueryBody (p : Packet) (s : State) : Res :=
  let x := hdOf s (prmChan p)
  require (onlyBits p [(0, 1, 0xF)]) badParam (.ok (some (hdStatWord x)) (some x.count) s)

def specHdQuery : CmdSpec := { opcode := 0xB03, exempt := fun _ => true, body := hdQueryBody }
/-- HD_QUERY. -/
def execHdQuery (t : Ticks) (p : Packet) (s : State) := runPacket specHdQuery t p s

end Sys2Proof.Machine
end

