-- ==== Sys2Proof/Machine/Scenes.lean ====
section
/-! DEFINITION. The commands of scenes and panes (chapter 05): group 0x03, ADMIT_CHECK, the pane-table
window, the end of an index build, and writes of COMMIT. -/
namespace Sys2Proof.Machine
open Sys2Proof

/-! ### A scene as a packet gives it (R228, R238) -/

/-- The header that the parameters give. -/
def prmHdr (p : Packet) : SceneHdr :=
  { scene := prmb p 4 4 23 0, backdrop := prm p 16 4, tally1 := prm p 20 4, tally2 := prm p 24 4,
    tally3 := prm p 28 4, domain := prmbit p 1 1 }

/-- Check 3 of R228. -/
def hdrOk (p : Packet) : Bool :=
  decide (prmb p 2 2 12 0 ≤ 4096) && prmb p 4 4 23 0 != 0xFFFFFF && prm p 8 8 % 64 == 0
    && [16, 20, 24, 28].all fun o => prmb p o 4 31 30 == 0

/-- The descriptors that the array read returned, AUTO replaced (R247). -/
def prmDescs (p : Packet) : List Desc :=
  let n := prmb p 2 2 12 0
  (chunks 64 (fitBytes (64 * n) p.env.data)).map resolveAuto

/-- A descriptor reads a surface, and that surface is a crystal's. -/
def namesCrystal (s : State) (d : Desc) : Bool := dType d != 2 && (surfOf s (dSurface d)).crystal

/-- Check 4 for one descriptor: the refusal, at its array position. -/
def checkDesc (s : State) (r pos : Nat) (d : Desc) : Verdict × Option Nat :=
  if isCrystalDesc d || namesCrystal s d then (some (0x10E, pos, none), none)
  else
    let misplaced := !dMember d || dRaster d != r
    let f := descFault s (dId d) d
    let f := if misplaced && f != some 0 then some 2 else f
    match f with
    | some o => (some (0x101, pos, none), some o)
    | none => (none, none)

/-- Check 5 for one descriptor. -/
def notOwned (s : State) (f : Nat) (d : Desc) : Bool :=
  paneOwner s (dId d) != f || (dType d != 2 && !mayRead s f (dSurface d))

/-- A descriptor is that of a member of a scene of a raster other than r. -/
def memberElsewhere (r : Nat) (d : Desc) : Bool := dMember d && !isCrystalDesc d && dRaster d != r

/-- A pane is a member of another raster's active or shadow scene. -/
def takenElsewhere (s : State) (r id : Nat) : Bool :=
  memberElsewhere r (activeDesc s id) || memberElsewhere r (shadowDesc s id)

/-- A pane ID is that of an active or staged crystal of some raster. -/
def isCrystalPane (s : State) (id : Nat) : Bool :=
  (List.range 16).any fun r =>
    let c := crystalOf s r
    c.pane == some id || c.staged == some (some id)

/-- Check 6 over the array: the first descriptor that repeats a pane ID or names one in use. -/
def checkIds (s : State) (r : Nat) : List Nat → List Desc → Res → Res
  | _, [], k => k
  | seen, d :: t, k =>
    let id := dId d
    if seen.contains id || takenElsewhere s r id then .fail 0x107 (some id) none
    else if isCrystalPane s id then .fail 0x10E (some id) none
    else checkIds s r (id :: seen) t k

/-- The first descriptor that check 4 refuses. -/
def firstFault (s : State) (r : Nat) (ds : List Desc) : Option (Verdict × Option Nat) :=
  ((List.range ds.length).map fun i => checkDesc s r i (ds.getD i [])).find? fun v => v.1.isSome

/-- Checks 1 to 5 of R228, then `k`. -/
def sceneChecks (p : Packet) (s : State) (k : List Desc → Res) : Res :=
  let r := prmRaster p
  let n := prmb p 2 2 12 0
  let ds := prmDescs p
  require (rasterOf s r).first.isSome (.fail 0x101 (some 0xFFFF) none) <|
  require (n == 0 || !hostAccessFails p s) (.fail 0x110 (some 0) none) <|
  require (hdrOk p) (.fail 0x101 (some 0xFFFF) none) <|
  match firstFault s r ds with
  | some (some v, o) => .fail v.1 (some v.2.1) o
  | _ =>
    match ds.find? (notOwned s p.func) with
    | some d => .fail 0x106 (some (dId d)) none
    | none => k ds

/-- A raster that a scene command may change: not in orphan hold (R552), not a follower (R306). -/
def sceneTarget (p : Packet) (s : State) (k : Res) : Res :=
  let r := prmRaster p
  require (!(rasterOf s r).orphan) busy <| require (!isFollower s r) badParam k

/-- The same where a struck strike's lock holds too (R320). -/
def shadowTarget (p : Packet) (s : State) (k : Res) : Res :=
  sceneTarget p s (require (!strikeLocked s (prmRaster p)) busy k)

/-- The action of SCENE_SUBMIT (R227). -/
def submitScene (r : Nat) (h : SceneHdr) (ds : List Desc) (commit : Bool) (s : State) : State :=
  let s := writeShadow r h ds (clearCommit r s)
  let s := putScene r { sceneOf s r with pending := true } s
  if commit then setCommit r s else s

/-- SCENE_SUBMIT: every check, then the action or, for ADMIT_CHECK, none. -/
def submitBody (store : Bool) (p : Packet) (s : State) : Res :=
  let r := prmRaster p
  shadowTarget p s <|
  sceneChecks p s fun ds =>
  checkIds s r [] ds <|
  verdictRes (admitScene s r ds) <|
    .ok (some (prmb p 4 4 23 0)) (some (mbps (peak0 s r ⟨[ds], [], timingsOf (rasterOf s r)⟩)))
      (if store then submitScene r (prmHdr p) ds (prmbit p 1 0) s else s)

def specSceneSubmit : CmdSpec := rasterSpec 0x300 (submitBody true)
/-- SCENE_SUBMIT. -/
def execSceneSubmit (t : Ticks) (p : Packet) (s : State) := runPacket specSceneSubmit t p s

def specAdmitCheck : CmdSpec := { rasterSpec 0x205 (submitBody false) with exempt := fun _ => true }
/-- ADMIT_CHECK (R198, R199): what SCENE_SUBMIT would answer; nothing is stored. -/
def execAdmitCheck (t : Ticks) (p : Packet) (s : State) := runPacket specAdmitCheck t p s

/-! ### SCENE_COMMIT, FALLBACK_SET -/

/-- SCENE_COMMIT (R238, R240). -/
def sceneCommitBody (p : Packet) (s : State) : Res :=
  let r := prmRaster p
  shadowTarget p s (.ok (some (sceneOf s r).shadow.scene) none (setCommit r s))

def specSceneCommit : CmdSpec := rasterSpec 0x301 sceneCommitBody
/-- SCENE_COMMIT. -/
def execSceneCommit (t : Ticks) (p : Packet) (s : State) := runPacket specSceneCommit t p s

/-- FALLBACK_SET (R240): stored, not admitted; no panes remove it. -/
def fallbackSetBody (p : Packet) (s : State) : Res :=
  let r := prmRaster p
  sceneTarget p s <|
  sceneChecks p s fun ds =>
    okay (putScene r { sceneOf s r with fallback := if ds.isEmpty then none else some (prmHdr p, ds) } s)

def specFallbackSet : CmdSpec := rasterSpec 0x304 fallbackSetBody
/-- FALLBACK_SET. -/
def execFallbackSet (t : Ticks) (p : Packet) (s : State) := runPacket specFallbackSet t p s

/-! ### PANE_UPDATE (R230, R231) -/

/-- Replace bits [hi:lo] of the n-byte field at `off` of a descriptor. -/
def setBits (d : Desc) (off n hi lo v : Nat) : Desc :=
  let w := rd d off n
  putBytes d off (leBytes n (w - shl (bits w hi lo) lo + shl (v % 2 ^ (hi + 1 - lo)) lo))

/-- Bit i of MASK. -/
def updMask (p : Packet) (i : Nat) : Bool := tbit (prm p 4 4) i

/-- The edits of each group of R230: (offset, bytes, hi, lo, value) from the parameters. -/
def updEdits (p : Packet) (i : Nat) : List (Nat × Nat × Nat × Nat × Nat) :=
  match i with
  | 0 => [(6, 2, 13, 0, prm p 8 2)]
  | 1 => [(4, 2, 11, 0, prm p 10 2)]
  | 2 => [(2, 1, 3, 3, prmb p 12 1 0 0)]
  | 3 => [(48, 1, 7, 0, prm p 14 1)]
  | 4 => [(3, 1, 3, 2, prmb p 12 1 3 2), (3, 1, 4, 4, prmb p 12 1 4 4), (44, 4, 29, 0, prm p 36 4)]
  | 5 => [(3, 1, 5, 5, prmb p 12 1 1 1)]
  | 6 => [(4, 2, 15, 12, prm p 13 1), (40, 4, 29, 0, prm p 32 4)]
  | 7 => [(6, 2, 15, 14, prmb p 12 1 6 5)]
  | 8 => [(3, 1, 1, 0, prmb p 13 1 5 4), (24, 8, 63, 0, prm p 16 8), (32, 2, 15, 0, prm p 24 2)]
  | 9 => [(34, 2, 15, 0, prm p 26 2), (3, 1, 6, 6, prmb p 12 1 7 7)]
  | _ => [(36, 4, 29, 0, prm p 28 4)]

/-- A descriptor with the masked groups written. -/
def updated (p : Packet) (d : Desc) : Desc :=
  (((List.range 11).filter (updMask p)).flatMap (updEdits p)).foldl
    (fun d e => setBits d e.1 e.2.1 e.2.2.1 e.2.2.2.1 e.2.2.2.2) d

/-- The groups whose fields a rule of `descFaults` at an offset reads. -/
def faultGroups (off : Nat) : List Nat :=
  if off = 3 then [0, 4] else if off = 6 ∨ off = 16 ∨ off = 18 then [0]
  else if off = 24 then [8] else if off = 36 then [10] else if off = 40 then [6]
  else if off = 44 then [4] else []

/-- A written field breaks R204. -/
def breaksRules (p : Packet) (s : State) (id : Nat) (d : Desc) : Bool :=
  (descFaults s id d).any fun e => e.2 && (faultGroups e.1).any (updMask p)

/-- A new surface may replace the old one without admission (R231). -/
def sameSurface (a b : Surface) : Bool :=
  a.valid && a.format == b.format && a.comp == b.comp && a.budget == b.budget && a.pitch == b.pitch

/-- The pane that PANE_UPDATE names is a member of the raster's shadow scene. -/
def inShadow (s : State) (r id : Nat) : Bool :=
  let d := shadowDesc s id
  dMember d && dRaster d == r && !isCrystalDesc d

/-- The new surface that PANE_UPDATE names, for a pane that reads one. -/
def newSurface (p : Packet) (s : State) : Option Nat :=
  if updMask p 0 && dType (shadowDesc s (prmb p 2 2 12 0)) < 2 then some (prmb p 8 2 13 0) else none

/-- PANE_UPDATE. -/
def paneUpdateBody (p : Packet) (s : State) : Res :=
  let r := prmRaster p
  let id := prmb p 2 2 12 0
  let d := shadowDesc s id
  let d' := updated p d
  let pass : Res := okay (
    let s := putShadow id d' (clearCommit r s)
    if prmbit p 1 0 then setCommit r s else s)
  shadowTarget p s <|
  require (!(isCrystalDesc d && dMember d)) (bad 0x10E) <|
  require (inShadow s r id && prmb p 4 4 31 11 == 0) badParam <|
  match newSurface p s with
  | none => require (!breaksRules p s id d') badParam pass
  | some i =>
    require (!(surfOf s i).crystal) (bad 0x10E) <|
    require (sameSurface (surfOf s (dSurface d)) (surfOf s i) && !breaksRules p s id d') badParam pass

def specPaneUpdate : CmdSpec :=
  { rasterSpec 0x302 paneUpdateBody with
    owns := fun p s => ownsRaster p s (prmRaster p) && (match newSurface p s with
      | some i => mayRead s p.func i
      | none => true) }
/-- PANE_UPDATE. -/
def execPaneUpdate (t : Ticks) (p : Packet) (s : State) := runPacket specPaneUpdate t p s

/-! ### Queries (R239, R241) -/

/-- The record of SCENE_QUERY. -/
def sceneRecord (s : State) (r : Nat) (h : SceneHdr) (ds : List Desc) (first count : Nat) : List Byte :=
  let c := sceneOf s r
  leBytes 4 h.scene ++ leBytes 2 ds.length
    ++ leBytes 1 (b2n h.domain + shl (b2n (c.pending || c.readmit.isSome)) 1 + shl (b2n (rasterOf s r).commit) 2)
    ++ [0#8] ++ leBytes 4 h.backdrop ++ leBytes 4 h.tally1 ++ leBytes 4 h.tally2 ++ leBytes 4 h.tally3
    ++ List.replicate 8 0#8 ++ fitBytes (64 * count) ((ds.drop first).take count).flatten

/-- SCENE_QUERY. -/
def sceneQueryBody (p : Packet) (s : State) : Res :=
  let r := prmRaster p
  let which := prmbit p 1 0
  let c := sceneOf s r
  let h := if which then c.shadow else c.active
  let ds := if which then shadowScene s r else committedScene s r
  let n := prmb p 4 2 12 0
  require (!isFollower s r && decide (n ≤ 4096)) badParam <|
    withBuf p s (prm p 8 8) 64 false (sceneRecord s r h ds (prmb p 2 2 12 0) n) fun w =>
      .ok (some h.scene) (some ds.length) (w s)

def specSceneQuery : CmdSpec :=
  { rasterSpec 0x303 sceneQueryBody with
    exempt := fun _ => true, owns := fun p s => mayQuery p (rasterOwner s (prmRaster p)) }
/-- SCENE_QUERY. -/
def execSceneQuery (t : Ticks) (p : Packet) (s : State) := runPacket specSceneQuery t p s

/-- A pane is a member of the raster's active scene; its crystal is one (R201, R279). -/
def inActive (s : State) (r id : Nat) : Bool :=
  let d := activeDesc s id
  dMember d && dRaster d == r

/-- The 32 bytes of one pane's counters. -/
def paneCounters (s : State) (r id : Nat) : List Byte :=
  let x := if inActive s r id then paneRun s id else {}
  [x.subst, x.tapShed, x.depth, x.fanout, x.lbBack, x.staleCnt, x.miss].flatMap (leBytes 4)
    ++ leBytes 2 id ++ leBytes 2 0

/-- A pane's counters at zero. -/
def zeroCounters (x : PaneRun) : PaneRun :=
  { x with subst := 0, tapShed := 0, depth := 0, fanout := 0, lbBack := 0, staleCnt := 0, miss := 0 }

/-- PANE_COUNTERS_READ: with CLEAR it changes state, so the rules of a change hold (R552). -/
def paneCountersReadBody (p : Packet) (s : State) : Res :=
  let r := prmRaster p
  let clear := prmbit p 1 0
  let first := prmb p 2 2 12 0
  let n := prmb p 4 2 12 0
  let ids := (List.range n).map (first + ·)
  require (!(clear && (rasterOf s r).orphan)) busy <|
  require (!isFollower s r && decide (1 ≤ n ∧ n ≤ 4096 ∧ first + n ≤ 8192)) badParam <|
    withBuf p s (prm p 8 8) 32 false (ids.flatMap (paneCounters s r)) fun w =>
      let s := w s
      okay (if clear then forAll (ids.filter (inActive s r)) (fun id s =>
        putRun id (zeroCounters (paneRun s id)) s) s else s)

def specPaneCountersRead : CmdSpec :=
  { rasterSpec 0x305 paneCountersReadBody with
    exempt := fun p => !prmbit p 1 0,
    owns := fun p s => ownsRaster p s (prmRaster p)
      || (p.func == 0 && !prmbit p 1 0) }
/-- PANE_COUNTERS_READ. -/
def execPaneCountersRead (t : Ticks) (p : Packet) (s : State) := runPacket specPaneCountersRead t p s

/-! ### The pane-table window (R232, R233) -/

/-- A write of the window is discarded (R233, R320). -/
def windowDenied (s : State) (id : Nat) (d : Desc) : Bool :=
  let old := shadowDesc s id
  let a := activeDesc s id
  isCrystalDesc old || isCrystalDesc d || isCrystalPane s id || paneOwner s id != 0
    || (dRaster d != dRaster old && dMember a && dRaster a != dRaster d)
    || strikeLocked s (dRaster old) || strikeLocked s (dRaster d)

/-- A window write is discarded: the named raster's lead slice says so. -/
def denyWindow (r : Nat) (s : State) : State :=
  setCsStat r 6 (onLead r (fun x => { x with wdenied := sat32 x.wdenied 1 }) s)

/-- A 32-bit write of the window at a byte offset of BAR0. -/
def windowWrite (off v : Nat) (s : State) : State :=
  let id := (off - 0x100000) / 64
  let old := shadowDesc s id
  let d := putBytes old (off % 64 / 4 * 4) (leBytes 4 v)
  if windowDenied s id d then denyWindow (dRaster old) s
  else clearCommit (dRaster d) (putShadow id d (clearCommit (dRaster old) s))

/-- PANE_WINDOW_WRITE: a write at offset `off` of function f's BAR0. The window is in PF0's only. -/
def execPaneWindowWrite (t : Ticks) (f off v : Nat) (s : State) : Host.Outcome State Fault Refusal :=
  regAccess t f (fun s => if f = 0 ∧ 0x100000 ≤ off ∧ off < 0x180000 then windowWrite off v s else s) id s

/-! ### Index builds and COMMIT (R213, R313) -/

/-- INDEX_BUILD_DONE: the band-index build of raster r completes. -/
def execIndexBuildDone (t : Ticks) (r : Nat) (s : State) : Host.Outcome State Fault Refusal :=
  whenRunning t (fun s => if r < 16 && (sceneOf s r).building then finishBuild r s else s) s

/-- A write of RG_CTL: PF0's COMMIT bit, on a raster that no VF owns, that is no follower, and whose shadow
set no strike locks (R313, R320, R340). -/
def writeCommit (r v : Nat) (s : State) : State :=
  if rasterOwner s r ≠ 0 || isFollower s r || strikeLocked s r then s
  else if tbit v 0 then setCommit r s else clearCommit r s

/-- RG_COMMIT_WRITE. -/
def execRgCommitWrite (t : Ticks) (f r v : Nat) (s : State) : Host.Outcome State Fault Refusal :=
  regAccess t f (fun s => if f = 0 ∧ r < 16 then writeCommit r v s else s) id s

end Sys2Proof.Machine
end

