-- ==== Sys2Proof/Machine/Reliability.lean ====
section
/-! DEFINITION. Reliability (chapter 16): ECC errors, post-package repair, retirement of channels, lanes and
slices, readmission (R177), migration (R142 to R146) and RETIREMENT_CLEAR. -/
namespace Sys2Proof.Machine
open Sys2Proof

/-- Ticks of hours. -/
def hourTicks (n : Nat) : Nat := secTicks (3600 * n)

/-- A power-on time lies within the t before now, inclusive (R568). -/
def withinLast (s : State) (t at_ : Nat) : Bool := decide (s.clk.onTicks ≤ at_ + t)

/-! ### Readmission (R177) -/

/-- A raster's crystals alone. -/
def crystalClaim (s : State) (r : Nat) : Claim := ⟨[], crystalsOf s r, timingsOf (rasterOf s r)⟩

/-- Raster r fits with a claim, the rasters below with their results and those above with their crystals. -/
def readmitFits (s : State) (r : Nat) (done : List Claim) (c : Claim) : Bool :=
  let cs := (List.range 16).map fun i => (i, if i < r then done.getD i c else if i = r then c else crystalClaim s i)
  (firstOf [checkRaster s (chanFsOf s) (leadMins s r) r c, checkChannels s (chanFsOf s) (totals s cs) 0 0]).isNone

/-- Discard the pending scene of a raster: the shadow set holds the committed scene again, and COMMIT
clears. -/
def discardPending (r : Nat) (s : State) : State :=
  let c := sceneOf s r
  if !c.pending then s
  else
    let s := writeShadow r c.active (committedScene s r) (clearCommit r s)
    putScene r { sceneOf s r with pending := false } s

/-- What a raster is left with. -/
inductive Readmit where
  | kept | committed | fallback | empty
  deriving DecidableEq, Repr

/-- A pane of a fallback scene is in use elsewhere: in another raster's scene or as a crystal (R240). -/
def fallbackTaken (s : State) (r : Nat) (done : List Claim) (ds : List Desc) : Bool :=
  ds.any fun d => takenElsewhere s r (dId d) || isCrystalPane s (dId d)
    || done.any fun c => c.scenes.any fun l => l.any fun e => dId e == dId d

/-- The fallback scene is admitted as a scene is: checks 1 to 4 too (R171, R240). -/
def fallbackFits (s : State) (r : Nat) (done : List Claim) (c : Claim) (ds : List Desc) : Bool :=
  !fallbackTaken s r done ds
    && (firstOf (checkPane s (rasterOf s r) ds :: (c.timings.map (checkFanout · ds) ++ c.timings.map (checkDepth · ds)))).isNone
    && readmitFits s r done c

/-- Readmission of one raster (R177): the first of the four that fits; the last is taken whatever its fit. -/
def readmitChoice (s : State) (r : Nat) (done : List Claim) : Readmit × Claim :=
  let cry := crystalsOf s r
  let ts := timingsOf (rasterOf s r)
  let mk := fun (l : List (List Desc)) => (⟨l, cry, ts⟩ : Claim)
  let c := committedScene s r
  if !hasScene s r || readmitFits s r done (claimOf s r) then (.kept, claimOf s r)
  else if readmitFits s r done (mk [c]) then (.committed, mk [c])
  else match (sceneOf s r).fallback with
    | some f => if fallbackFits s r done (mk [f.2]) f.2 then (.fallback, mk [f.2]) else (.empty, mk [[]])
    | none => (.empty, mk [[]])

/-- Hold a result as the raster's pending scene. -/
def holdReadmit (r : Nat) (h : SceneHdr) (ds : List Desc) (s : State) : State :=
  let s := writeShadow r h ds s
  putScene r { sceneOf s r with readmit := some (h, ds) } s

/-- Put a raster's result into force: its next latch commits it. -/
def applyReadmit (r : Nat) (c : Readmit) (s : State) : State :=
  if c = .kept then s
  else
    let s := discardPending r s
    let x := sceneOf s r
    match c, x.fallback with
    | .fallback, some f => holdReadmit r f.1 f.2 s
    | .empty, _ => holdReadmit r (emptyHdr x.active) [] s
    | _, _ => putScene r { x with readmit := none } s

/-- The results of all rasters, ascending. -/
def readmitAll (s : State) : List (Readmit × Claim) :=
  (List.range 16).foldl (fun l r => l ++ [readmitChoice s r (l.map (·.2))]) []

/-- Readmission over the channels that are neither retired nor fenced: source 241 at its end. -/
def readmit (s : State) : State :=
  let l := readmitAll s
  raise 241 (forAll ((List.range 16).zip l) (fun e s => applyReadmit e.1 e.2.1 s) s)

/-! ### Migration (R142 to R145) -/

/-- The next surface that a migration moves: the lowest index with a granule at or above the new top. -/
def nextToMove (s : State) : Option (Nat × Surface) :=
  Tbl.first? s.mm.surfs fun _ x => x.valid && !x.lost && decide (allocTop s < x.base + extentBytes x)

/-- The surface of raster k's writeback sink. -/
def wbSurface (s : State) (k : Nat) : Option Nat := (Tbl.find? (rasterOf s k).sinks 2).map (·.surface)

/-- The frame of import n that is under way is given up. -/
def dropImport (n : Nat) (s : State) : State :=
  { s with cf := { s.cf with imports := s.cf.imports.map fun e =>
      if e.1 == n then (e.1, { e.2 with active := false, parts := [], lines := [] }) else e } }

/-- Automatic writers whose frame was being written to a surface that has no write slot now discard it (R134). -/
def dropOpenFrames (i : Nat) (s : State) : State :=
  let open_ := (s.ne.ingress.filter fun e => e.2.kind != 0 && e.2.surface == i && e.2.st == .opened).map (·.1)
  let s := forAll open_ (fun f s => discardFrame f (noWriteSlot i (putIngest f { ingestOf s f with st := .discarding } s))) s
  let xs := (s.cf.xfersIn.filter fun e => e.2.surface == i && !e.2.lost).map (·.1)
  let s := forAll xs (fun n s => noWriteSlot i
    { s with cf := { s.cf with xfersIn := Tbl.upd s.cf.xfersIn ⟨0, 0, 0, false⟩ n ({ · with lost := true }) } }) s
  let ms := (s.cf.imports.filter fun e => e.2.surface == i && e.2.active).map (·.1)
  let s := forAll ms (fun n s => noWriteSlot i (dropImport n s)) s
  let ws := (List.range 16).filter fun k => (rasterOf s k).wbSlot.isSome && wbSurface s k == some i
  forAll ws (fun k s => noWriteSlot i (putRaster k { rasterOf s k with wbSlot := none, wbBuf := [], wbEnd := none } s)) s

/-- Freeze a surface for its move: it holds no write slot. -/
def freezeSurface (i : Nat) (s : State) : State :=
  let x := surfOf s i
  let y := if x.wslot = noSlot then x else setSlot x.wslot { slotOf x x.wslot with writing := false } x
  dropOpenFrames i (putSurf i { y with frozen := true, wslot := noSlot } s)

/-- Start the next move of the migration that runs, if one is left. -/
def nextMove (s : State) : State :=
  match s.mm.migr, nextToMove s with
  | some m, some e =>
    freezeSurface e.1 { s with mm := { s.mm with migr := some { m with moving := some e.1 } } }
  | some m, none => { s with mm := { s.mm with migr := some { m with moving := none } } }
  | none, _ => s

/-- A channel is fenced and its migration begins, or waits for the one in progress (R142, R574). -/
def beginMigration (n : Nat) (s : State) : State :=
  let m : Migration := { channel := n, since := s.clk.ticks }
  let s := raise 320 { s with mm := { s.mm with migrating := true } }
  match s.mm.migr with
  | some _ => { s with mm := { s.mm with waiting := s.mm.waiting ++ [m] } }
  | none => { s with mm := { s.mm with migr := some m } }

/-- Copy the readable slots of a surface to a new base. An error that a sector holds goes with its data
(DEDUCED, notes/assumptions/42.md). -/
def copySlots (x : Surface) (base : Nat) (s : State) : State :=
  let y := { x with base := base }
  let len := x.stride * 4096
  forAll (readableSlots x) (fun k s =>
    let bs := memRead s (slotAddr x k) len
    let s := countWrite (slotAddr y k) len (countRead (slotAddr x k) len s)
    let bad := (s.mm.badSect.filter (sectorMeets (slotAddr x k) len)).map fun q =>
      q - slotAddr x k / 256 + slotAddr y k / 256
    let s := memPoke (slotAddr y k) bs (healSectors (slotAddr y k) len s)
    { s with mm := { s.mm with badSect := s.mm.badSect ++ bad } }) s

/-- A surface has been moved, or fits nowhere and is lost (R143, R604). -/
def surfaceMoved (i : Nat) (s : State) : State :=
  match s.mm.migr with
  | none => s
  | some m =>
    if m.moving ≠ some i then s
    else
      let x := surfOf s i
      let a := allocate 16384 (allocLimit s (surfOwner s i)) (extentBytes x) s
      match a.1 with
      | none => nextMove (raise 322 (putSurf i { x with lost := true, frozen := false, wslot := noSlot, newest := noSlot } a.2))
      | some b =>
        let s := copySlots x b a.2
        nextMove (putSurf i (claimSlot { surfOf s i with base := b, frozen := false }) s)

/-- MIGRATION_SURFACE_MOVED. -/
def execMigrationSurfaceMoved (t : Ticks) (surf : Nat) (s : State) := whenRunning t (surfaceMoved surf) s

/-- Granules of a slot. -/
def slotGranules (x : Surface) (k : Nat) : List Nat := (List.range x.stride).map fun i => slotAddr x k / 4096 + i

/-- Granules of surfaces on a channel that it does not return: those that the environment names, and those
with a sector in error. -/
def lostGranules (s : State) (n : Nat) (lost : List Nat) : List Nat :=
  let bad := s.mm.badSect.map (· / 16)
  ((lost ++ bad).eraseDups).filter fun g =>
    channelOf s (4096 * g) == n && (surfaceAt s (4096 * g)).isSome

/-- A slot is invalidated at the switch (R145). -/
def slotHit (s : State) (m : Migration) (zero : List Nat) (x : Surface) (k : Nat) : Bool :=
  let v := slotOf x k
  let gs := slotGranules x k
  (slotReadable v && decide (m.since ≤ v.pubTick) && gs.any fun g => channelOf s (4096 * g) == m.channel)
    || ((slotReadable v || v.writing) && gs.any zero.contains)

/-- Slots set INVALID, as (surface, slot). -/
def switchHits (s : State) (m : Migration) (zero : List Nat) : List (Nat × Nat) :=
  s.mm.surfs.flatMap fun e =>
    if e.2.valid && !e.2.lost then ((slotNums e.2).filter (slotHit s m zero e.2)).map fun k => (e.1, k) else []

/-- Invalidate slots, with NEWEST and the write slot that follow. -/
def invalidateSlots (l : List (Nat × Nat)) (s : State) : State :=
  let s := forAll l (fun e s =>
    let x := surfOf s e.1
    if x.wslot = e.2 then
      dropOpenFrames e.1 (putSurf e.1 { setSlot e.2 { slotOf x e.2 with writing := false } x with wslot := noSlot } s)
    else putSurf e.1 (invalidateSlot e.2 x) s) s
  forAll ((l.map (·.1)).eraseDups) (fun i s => putSurf i (reclaim s.clk.ticks (renewest (surfOf s i))) s) s

/-- Granules of surfaces that lie on a channel. -/
def granulesOn (s : State) (n : Nat) : List Nat :=
  (s.mm.surfs.filter (·.2.valid)).flatMap fun e =>
    ((List.range (extentBytes e.2 / 4096)).map (e.2.base / 4096 + ·)).filter fun g => channelOf s (4096 * g) == n

/-- The interleave switches (R144): every allocated granule of the channel has been copied to where the new one maps it.
What lies at or above the new top maps to no memory any more. -/
def switchInterleave (m : Migration) (zero : List Nat) (s : State) : State :=
  let hits := switchHits s m zero
  let copied := granulesOn s m.channel
  let s := forAll copied (fun g s => countRead (4096 * g) 4096 s) s
  let s := forAll zero (fun g s => memPoke (4096 * g) (List.replicate 4096 0#8) s) s
  let keep := s.mm.badSect.filter fun q => channelOf s (256 * q) != m.channel
  let s := { s with mm := { s.mm with live := setBit s.mm.live m.channel false, badSect := keep } }
  let s := forAll copied (fun g s => countWrite (4096 * g) 4096 s) s
  let top := deviceTop s
  let s := { s with mm := { s.mm with mem := s.mm.mem.filter fun c => decide (c.1 < top) } }
  let s := invalidateSlots hits s
  let s := if hits.isEmpty then s else raise 323 s
  raise 321 s

/-- After the granule copies: the switch, and the migration that waits begins (R144, R574). -/
def migrationDone (lost : List Nat) (s : State) : State :=
  match s.mm.migr with
  | none => s
  | some m =>
    if m.moving.isSome then s
    else
      let s := switchInterleave m (lostGranules s m.channel lost) s
      match s.mm.waiting with
      | [] => { s with mm := { s.mm with migr := none, migrating := false } }
      | w :: rest => nextMove { s with mm := { s.mm with migr := some w, waiting := rest } }

/-- MIGRATION_DONE: `lost` lists granules that the channel did not return. -/
def execMigrationDone (t : Ticks) (lost : List Nat) (s : State) := whenRunning t (migrationDone lost) s

/-! ### Channel retirement (R574) -/

/-- Retire a channel; the last live channel is never retired. Firmware carries the change out itself and
sets the management view (R43). A unit reset of the channel ends with it (R554). -/
def retireChannel (n cause count : Nat) (s : State) : State :=
  if unfenced s = 2 ^ n then raise 970 s
  else if chanState s n = 2 then s
  else
    let s := recordRetirement 1 n cause count s
    let s := ltrAdd (0x200 + 64 * n + 28) (now s) s
    let s := setMgmt (unitChan n) (stateWord 0x11 0) s
    let old := chanState s n
    let s := beginMigration n { s with mm := { s.mm with chan := Tbl.set s.mm.chan n 2, restart := Tbl.del s.mm.restart n } }
    let s := if old = 2 then s else raiseUnit (unitChan n) (256 + 4 * n) s
    let s := readmit (raise 960 s)
    let s := match s.mm.migr with
      | some m => if m.moving.isNone then nextMove s else s
      | none => s
    finishAll (fun i => i.unit == unitChan n) 0 (some (mgmtWord s (unitChan n))) none s

/-! ### ECC errors (R569 to R571, R590) -/

/-- Add an error to a channel's log, or to the entry of its sector. -/
def logEcc (n kind : Nat) (x : EccHit) (s : State) : State :=
  let l := Tbl.get s.rel.ecc [] n
  let sector := x.addr / 256
  let old := l.find? fun e => e.sector == sector
  let e : EccEntry :=
    { time := now s, row := x.row, bank := x.bank, die := x.die, kind := kind, cls := x.cls,
      repaired := (old.map (·.repaired)).getD false, count := sat 16 ((old.map (·.count)).getD 0 + 1),
      sector := sector, at_ := s.clk.onTicks }
  let rest := l.filter fun e => e.sector != sector
  { s with rel := { s.rel with ecc := Tbl.set s.rel.ecc n ((e :: rest).take 64) } }

/-- The row of an error. -/
def hitRow (n : Nat) (x : EccHit) : RowRef := ⟨n, x.die, x.bank, x.row⟩

/-- A row crosses the threshold of corrected errors (R572). -/
def scheduleRow (w : RowRef) (s : State) : State :=
  if s.rel.pprPending.contains w || s.rel.pprExhausted.contains w then s
  else if bankUsed s w then exhaustRow w s
  else raise 963 (savePst { s with rel := { s.rel with pprPending := s.rel.pprPending ++ [w] } })

/-- An error is in reach of the part: a channel that serves it. -/
def eccInReach (s : State) (x : EccHit) : Bool :=
  decide (x.addr < deviceTop s) && chanState s (channelOf s x.addr) == 0 && (x.link || s.mm.ecc)

/-- A corrected error: it is written back corrected, logged and counted. -/
def eccCorrected (x : EccHit) (s : State) : State :=
  if !eccInReach s x then s
  else
    let n := channelOf s x.addr
    let w := hitRow n x
    let s := logEcc n (if x.link then 2 else 0) x (ltrAdd (0x200 + 64 * n) 1 (raiseUnit (unitChan n) (256 + 4 * n + 1) s))
    let corr := (w, s.clk.onTicks) :: s.rel.corr.filter fun e => withinLast s (hourTicks 24) e.2
    let errs := (n, s.clk.onTicks) :: s.pmu.rfErrs.filter fun e => withinLast s (secTicks 600) e.2
    let s := { s with rel := { s.rel with corr := corr }, pmu := { s.pmu with rfErrs := errs } }
    if 8 ≤ (corr.filter fun e => e.1 == w).length then scheduleRow w s else s

/-- ECC_CORRECTED. -/
def execEccCorrected (t : Ticks) (x : EccHit) (s : State) := whenRunning t (eccCorrected x) s

/-- Counted uncorrectable errors of a channel in the window. -/
def uncorrCount (s : State) (n : Nat) : Nat :=
  (s.rel.sectors.filter fun e => e.1 == n && withinLast s (hourTicks 24) e.2.2).length

/-- Uncorrectable errors logged in the last 24 h, the latest of each sector. -/
def loggedErrors (s : State) : List (Nat × Nat × Ticks) := s.rel.errAt.filter fun e => withinLast s (hourTicks 24) e.2.2

/-- An uncorrectable error (R571): the sector keeps it until it is written; it is counted unless one of the same
sector was logged in the 24 h before it, and a channel with more than 4 is retired. -/
def eccUncorrectable (x : EccHit) (s : State) : State :=
  if !eccInReach s x then s
  else
    let n := channelOf s x.addr
    let q := x.addr / 256
    let s := logEcc n (if x.link then 3 else 1) x (ltrAdd (0x200 + 64 * n + 8) 1 (raiseUnit (unitChan n) (256 + 4 * n + 2) s))
    let s := { s with mm := { s.mm with badSect := insertNat q s.mm.badSect } }
    let known := loggedErrors s
    let errAt := known.filter (·.2.1 != q) ++ [(n, q, s.clk.onTicks)]
    let l := s.rel.sectors.filter fun e => withinLast s (hourTicks 24) e.2.2
    if known.any fun e => e.2.1 == q then { s with rel := { s.rel with sectors := l, errAt := errAt } }
    else
      let s := { s with rel := { s.rel with sectors := l ++ [(n, q, s.clk.onTicks)], errAt := errAt } }
      if 4 < uncorrCount s n then retireChannel n 1 (uncorrCount s n) s else s

/-- ECC_UNCORRECTABLE. -/
def execEccUncorrectable (t : Ticks) (x : EccHit) (s : State) := whenRunning t (eccUncorrectable x) s

/-! ### Lanes (R573, R575) -/

/-- A link re-forms on its remaining lanes; with none left it goes down in both views (R428). -/
def degradeLink (k lane : Nat) (s : State) : State :=
  let l := linkOf s k
  let m := setBit l.laneMap lane false
  let n := popcount 16 m
  let up := l.up && n != 0
  let s := setMgmt (unitLink k) (linkWord (n != 0) n) s
  let s := raiseUnit (unitLink k) (644 + k) (putLink k { l with laneMap := m, degraded := true } s)
  if n = 0 then (if l.up then dropLink k s else s)
  else
    let s := if l.retraining then endRetrain k s else s
    if up then stopExports k (exportsOver s k) s else s

/-- Retire a SerDes lane: its enabled port or link degrades. -/
def retireLane (lane cause count : Nat) (s : State) : State :=
  if tbit s.ne.deadLanes lane then s
  else
    let s := recordRetirement 2 lane cause count { s with ne := { s.ne with deadLanes := setBit s.ne.deadLanes lane true } }
    let s := raise 961 s
    match (List.range 8).find? fun p => (ethOf s p).mode != 0 && tbit (ethOf s p).lanes lane with
    | some p => degradePort p s
    | none =>
      match (List.range 4).find? fun k => (linkOf s k).enabled && tbit (linkOf s k).laneMap lane with
      | some k => degradeLink k lane s
      | none => s

/-- Lanes that a link or port runs on: port p, or 8 + k for Cririk link k. -/
def linkKeyLanes (s : State) (x : Nat) : Nat :=
  if x < 8 then (ethOf s x).lanes else if x < 12 then (linkOf s (x - 8)).laneMap else 0

/-- A retrain runs on it. -/
def retrains (s : State) (x : Nat) : Bool :=
  if x < 8 then (ethOf s x).retraining else x < 12 && (linkOf s (x - 8)).retraining

/-- A retrain succeeds and is charged to one lane; the sixteenth in an hour retires the lane. -/
def retrainDone (x lane : Nat) (s : State) : State :=
  if !retrains s x || !tbit (linkKeyLanes s x) lane then s
  else
    let s := trainLanes (linkKeyLanes s x) s
    let s := if x < 8 then putEth x { ethOf s x with retraining := false, attempts := 0 } s else endRetrain (x - 8) s
    let l := (lane, s.clk.onTicks) :: s.rel.laneRt.filter fun e => withinLast s (hourTicks 1) e.2
    let s := { s with rel := { s.rel with laneRt := l } }
    let n := (l.filter fun e => e.1 == lane).length
    if 16 ≤ n then retireLane lane 0x11 n s else s

/-- RETRAIN_DONE: of port `link`, or of Cririk link `link` − 8. -/
def execRetrainDone (t : Ticks) (link lane : Nat) (s : State) := whenRunning t (retrainDone link lane) s

/-- A link or port whose lanes all fail goes down (R573). -/
def trainingLost (x : Nat) (s : State) : State :=
  if x < 8 then setPortUp x false (putEth x { ethOf s x with retraining := false } s)
  else dropLink (x - 8) s

/-- A retrain attempt fails on some lanes; the third within 10 s retires them, unless every lane failed. -/
def retrainFails (x lanes : Nat) (s : State) : State :=
  let mine := linkKeyLanes s x
  let bad := Nat.land lanes mine
  if !retrains s x || bad = 0 then s
  else
    let l := (x, s.clk.onTicks) :: s.rel.attempts.filter fun e => withinLast s (secTicks 10) e.2
    let n := (l.filter fun e => e.1 == x).length
    let s := if x < 8 then putEth x { ethOf s x with attempts := (ethOf s x).attempts + 1 } s
      else putLink (x - 8) { linkOf s (x - 8) with attempts := (linkOf s (x - 8)).attempts + 1 } s
    if n < 3 then { s with rel := { s.rel with attempts := l } }
    else
      let s := { s with rel := { s.rel with attempts := l.filter fun e => e.1 != x } }
      if bad = mine then trainingLost x s else forAll (bitList 16 bad) (fun i s => retireLane i 0x10 n s) s

/-- RETRAIN_ATTEMPT_FAIL: `lanes` are those that failed to lock. -/
def execRetrainAttemptFail (t : Ticks) (link lanes : Nat) (s : State) := whenRunning t (retrainFails link lanes) s

/-! ### Slices (R576, R577) -/

/-- Retire a slice: a running raster bound to it halts at its next frame start and is re-homed (R309); a
stopped one loses its binding. -/
def retireSlice (c count : Nat) (s : State) : State :=
  if (sliceOf s c).retired then s
  else
    let s := raise 962 (recordRetirement 3 c 0x20 count (putSlice c { sliceOf s c with retired := true } s))
    let x := sliceOf s c
    if !x.bound then s
    else
      let r := x.raster
      let y := rasterOf s r
      if y.st == .stopped && !y.leadIn && !y.waitingStart then unbindSlices r s
      else if y.rehome = .stuck then s
      else putRaster r { y with rehome := .lost } s

/-- A line-buffer parity error: the pane-line is late. -/
def parityError (c pane y : Nat) (s : State) : State :=
  let x := sliceOf s c
  if 16 ≤ c then s
  else
    let f := fsOf s x.raster
    let s := if !x.bound || (rasterOf s x.raster).st == .stopped then s
      else putFs x.raster { f with parity := (pane, y) :: f.parity.filter (· != (pane, y)) } s
    let l := (c, s.clk.onTicks) :: s.rel.parity.filter fun e => withinLast s (secTicks 1) e.2
    let s := raise 968 { s with rel := { s.rel with parity := l, parityCnt := sat 32 (s.rel.parityCnt + 1) } }
    let n := (l.filter fun e => e.1 == c).length
    if 16 < n then retireSlice c n s else s

/-- PARITY: in the line buffer that holds line y of a pane. -/
def execParity (t : Ticks) (slice pane y : Nat) (s : State) := whenRunning t (parityError slice pane y) s

/-! ### RETIREMENT_CLEAR (R579) -/

/-- Change the active record of an item. -/
def editRetired (kind index : Nat) (f : Retire → Retire) (s : State) : State :=
  savePst { s with rel := { s.rel with retired := s.rel.retired.map fun x =>
      if x.active && x.kind == kind && x.index == index then f x else x } }

/-- The thresholds of an item restart from zero. -/
def restartCounts (kind index : Nat) (s : State) : State :=
  { s with rel := { s.rel with
      sectors := if kind = 1 then s.rel.sectors.filter fun e => e.1 != index else s.rel.sectors
      errAt := if kind = 1 then s.rel.errAt.filter fun e => e.1 != index else s.rel.errAt
      laneRt := if kind = 2 then s.rel.laneRt.filter fun e => e.1 != index else s.rel.laneRt
      parity := if kind = 3 then s.rel.parity.filter fun e => e.1 != index else s.rel.parity } }

/-- Clear an active retirement. -/
def clearRetired (kind index : Nat) (s : State) : State :=
  let s := restartCounts kind index s
  let s := if kind = 1 then editRetired kind index (fun x => { x with clearPending := true }) s
    else editRetired kind index (fun x => { x with active := false }) s
  let s := if kind = 2 then { s with ne := { s.ne with deadLanes := setBit s.ne.deadLanes index false } }
    else if kind = 3 then putSlice index { sliceOf s index with retired := false } s else s
  raise 969 s

/-- RETIREMENT_CLEAR. -/
def retirementClearBody (p : Packet) (s : State) : Res :=
  let k := prmb p 0 1 1 0
  let i := prmb p 1 1 3 0
  require (onlyBits p [(0, 1, 3), (1, 1, 0xF)] && isRetired s k i) badParam <|
  require (!s.mm.migrating) busy <| okay (clearRetired k i s)

def specRetirementClear : CmdSpec := { opcode := 0xE01, body := retirementClearBody }
/-- RETIREMENT_CLEAR. -/
def execRetirementClear (t : Ticks) (p : Packet) (s : State) := runPacket specRetirementClear t p s

end Sys2Proof.Machine
end

