-- ==== Sys2Proof/Machine/Power.lean ====
section
/-! DEFINITION. Power states (R544 to R548), channel restarts (R112), the adaptive loops (R555 to R559), the
thermal governor (R560, R561), the watchdog (R533) and the commands of group 0x0D but the resets. -/
namespace Sys2Proof.Machine
open Sys2Proof

/-! ### Register words (R563) -/

/-- `PMU_PSTATE`. -/
def pstateWord (s : State) : Nat := s.pmu.pstate + shl (b2n s.pmu.changing) 2
/-- `PMU_RCAUSE`. -/
def rcauseWord (s : State) : Nat := s.pmu.cause + shl (b2n s.pmu.thermtrip) 4 + shl s.pmu.wake 8
/-- `PMU_BOOT.STAGE`: until READY the step that the boot has reached, 0 to 4, or 3 or 4 when it went on from
recovery (R538, R540; DESIGN CHOICE, notes/assumptions/44.md). -/
def stageShown (s : State) : Nat :=
  if s.pmu.stage = 0 then Config.bootStage s.clk.ticks % 5
  else if s.pmu.stage = 3 then 3 + Config.bootStage s.clk.ticks % 2
  else s.pmu.stage
/-- `PMU_BOOT`. -/
def bootWord (s : State) : Nat :=
  stageShown s + shl s.pmu.slot 3 + shl (b2n s.pmu.fallback) 4 + shl (b2n s.pmu.recovered) 5
/-- `PMU_TJ`. -/
def tjWord (s : State) : Nat := uint 12 s.pmu.tj + shl (uint 12 s.pmu.tjHwm) 16
/-- The voltage floor in mV at the present Tj (R557). -/
def floorMv (s : State) : Nat := Config.voltageFloor s.pmu.tj
/-- `PMU_VCORE`. -/
def vcoreWord (s : State) : Nat := s.pmu.vset / 10 + shl (floorMv s % 4096) 16
/-- `PMU_THERM`. -/
def thermWord (s : State) : Nat :=
  s.pmu.shed + shl (b2n s.pmu.override) 7 + shl (b2n s.pmu.blank) 8 + shl s.pmu.tshed 16 + shl s.pmu.hyst 24
/-- `PMU_RCVCTL`. -/
def rcvctlWord (s : State) : Nat :=
  s.pmu.page + shl (b2n s.pmu.commit) 16 + shl (b2n s.pmu.done) 17 + shl (b2n s.pmu.busy) 24
    + shl (b2n s.pmu.rcvErr) 25

/-! ### Loop events (R556) -/

/-- A loop stays at a software bound: 993 as its bit is set, and the lifetime recorder counts it. -/
def setPinned (loop : Nat) (s : State) : State :=
  let s := noteSet 0xA001C loop s
  if tbit s.pmu.pinned loop then s
  else raise 993 (ltrAdd (0x17C + 4 * loop) 1
    { s with pmu := { s.pmu with pinned := setBit s.pmu.pinned loop true } })

/-- A safety floor lies above a software bound: bit 0 voltage, bit 1 refresh; 994 as it is set. -/
def setClamp (i : Nat) (s : State) : State :=
  let s := noteSet 0xA0020 i s
  if tbit s.pmu.clamp i then s
  else raise 994 { s with pmu := { s.pmu with clamp := setBit s.pmu.clamp i true } }

/-! ### Entry to P2 and P3 (R545, R548) -/

/-- The BL's operation and the HD's chain have ended. -/
def drained (s : State) : Bool := s.bl.op.isNone && (hdRunning s).isNone

/-- A raster that runs at the entry stops at the end of its frame, at once before its first frame, and is
to be restarted. -/
def stopForEntry (r : Nat) (s : State) : State :=
  let x := rasterOf s r
  if x.st = .stopped ∧ !x.leadIn then s
  else
    let s := putRaster r { x with restart := !x.stopping, stopping := true } s
    if x.st = .stopped then stopRaster r s else s

/-- Steps 2 to 6 of R545. -/
def startEntry (s : State) : State :=
  let s := { s with pmu := { s.pmu with drainAt := none, entering := true } }
  let s := forAll (List.range 16) cancelStrike s
  let s := forAll (s.cf.strikes.map (·.num)) (fun n s => anchorTake n s.cf.devid .cancel s) s
  finishEntry (forAll (List.range 16) stopForEntry s)

/-- Step 1 of R545: the wait, which ends at once when nothing runs. -/
def beginDrain (target wake : Nat) (s : State) : State :=
  let s := { s with pmu := { s.pmu with changing := true, target := target, wakeAfter := wake,
                                        drainAt := some s.clk.ticks } }
  if drained s then startEntry s else s

/-- POWER_STATE_DRAIN_END. -/
def execPowerStateDrainEnd (t : Ticks) (s : State) :=
  whenRunning t (fun s => if s.pmu.drainAt.isSome && drained s then startEntry s else s) s

/-- POWER_STATE_DRAIN_TIMEOUT: 100 ms have passed; nothing changes. -/
def execPowerStateDrainTimeout (t : Ticks) (s : State) :=
  whenRunning t (fun s =>
    match s.pmu.drainAt with
    | none => s
    | some a =>
      if s.clk.ticks < a + msTicks 100 || drained s then s
      else finishUnit pmuUnit 0x107 none none
        { s with pmu := { s.pmu with drainAt := none, changing := false } }) s

/-! ### Return from P2 (R547) and channel restarts (R112) -/

/-- A channel restarts; the lifetime recorder counts its retraining. -/
def restartChannel (n : Nat) (s : State) : State :=
  let s := setChan n 1 { s with mm := { s.mm with restart := Tbl.set s.mm.restart n s.clk.ticks } }
  ltrAdd (0x200 + 64 * n + 24) 1 s

/-- A raster that ran at the entry starts again with its active scene; one that has lost its slices since
stays stopped. -/
def restartRaster (r : Nat) (s : State) : State :=
  let x := rasterOf s r
  if !x.restart then s
  else if x.first.isNone then putRaster r { x with restart := false } s
  else beginStart r (firstFt s x.tim x.aligned 0) x.aligned s

/-- The return is complete: source 992. -/
def finishReturn (s : State) : State :=
  finishUnit pmuUnit 0 (some 2) none
    (raise 992 { s with pmu := { s.pmu with resuming := false, changing := false } })

/-- Once no channel is RESTARTING, held work resumes and the rasters restart. -/
def settleResume (s : State) : State :=
  if !s.pmu.resuming || s.pmu.pstate != 2 || (List.range 16).any (fun n => chanState s n == 1) then s
  else
    let s := { s with pmu := { s.pmu with pstate := s.pmu.target } }
    let fs := (s.ne.egress.filter fun e => e.2.lastSent.isSome).map (·.1)
    let s := forAll s.cf.xfers.keys followNext (forAll fs fstNext s)
    let s := forAll (List.range 16) restartRaster s
    if (List.range 16).any fun r => (rasterOf s r).restart then s else finishReturn s

/-- The return from P2 begins: every channel that is not retired leaves self-refresh. -/
def beginReturn (target : Nat) (s : State) : State :=
  let s := { s with pmu := { s.pmu with changing := true, resuming := true, target := target } }
  settleResume (forAll ((List.range 16).filter fun n => chanState s n == 0) restartChannel s)

/-- A channel is IN_SERVICE again. -/
def channelBack (n : Nat) (s : State) : State :=
  let s := setChan n 0 { s with mm := { s.mm with restart := Tbl.del s.mm.restart n } }
  let s := if unitBusy s (unitChan n) then adoptData (unitChan n) s else compareUnit (unitChan n) s
  settleResume (finishAll (fun i => i.unit == unitChan n) 0 (some (mgmtWord s (unitChan n))) none s)

/-- CHANNEL_RESTART_DONE: within 2 ms of its start. -/
def execChannelRestartDone (t : Ticks) (n : Nat) (s : State) :=
  whenRunning t (fun s =>
    match Tbl.find? s.mm.restart n with
    | some a => if chanState s n == 1 && decide (s.clk.ticks ≤ a + msTicks 2) then channelBack n s else s
    | none => s) s

/-- CHANNEL_RESTART_TIMEOUT: the retraining has failed, and the channel is retired; the last live channel
goes on to be retrained (R574). -/
def execChannelRestartTimeout (t : Ticks) (n : Nat) (s : State) :=
  whenRunning t (fun s =>
    match Tbl.find? s.mm.restart n with
    | some a =>
      if chanState s n == 1 && decide (a + msTicks 2 ≤ s.clk.ticks) then
        let s := retireChannel n 2 1 (raiseUnit (unitChan n) (256 + 4 * n + 3) s)
        let s := if chanState s n == 1 then { s with mm := { s.mm with restart := Tbl.set s.mm.restart n s.clk.ticks } } else s
        settleResume s
      else s
    | none => s) s

/-! ### POWER_STATE_SET (R565, R566) -/

/-- Put a packet in flight on a unit, then act: the action may complete it at once. -/
def pendThen (unit : Nat) (act : State → State) (s : State) : Res :=
  .keep fun e late => act { s with cp := { s.cp with inflight := s.cp.inflight ++ [⟨e, unit, late⟩] } }

/-- POWER_STATE_SET. -/
def powerStateSetBody (p : Packet) (s : State) : Res :=
  let want := prmb p 0 1 1 0
  let wake := prm p 4 4
  let old := s.pmu.pstate
  require (!s.pmu.changing) busy <|
  require (onlyBits p [(0, 1, 3), allBits 4 4] && (wake == 0 || want == 3)) badParam <|
  if want = old then .ok (some old) none (raise 992 s)
  else if want < 2 ∧ old < 2 then .ok (some old) none (raise 992 { s with pmu := { s.pmu with pstate := want } })
  else if want < 2 then pendThen pmuUnit (beginReturn want) s
  else pendThen pmuUnit (beginDrain want wake) s

def specPowerStateSet : CmdSpec := { opcode := 0xD00, body := powerStateSetBody }
/-- POWER_STATE_SET. -/
def execPowerStateSet (t : Ticks) (p : Packet) (s : State) := runPacket specPowerStateSet t p s

/-! ### LOOP_WINDOW_SET (R555, R556) -/

/-- A window is within its limits; AVS windows are whole steps of 2.5 mV. -/
def windowOk (loop lo hi : Nat) : Bool :=
  match loop with
  | 0 => decide (650 ≤ lo ∧ lo ≤ hi ∧ hi ≤ 850) && lo % 5 == 0 && hi % 5 == 0
  | 1 => decide (60 ≤ lo ∧ lo ≤ 110 ∧ 2 ≤ hi ∧ hi ≤ 20)
  | 2 => decide (lo ≤ hi ∧ hi ≤ 31)
  | _ => decide (lo ≤ hi ∧ hi ≤ 3)

/-- Store a window. -/
def storeWindow (loop lo hi : Nat) (s : State) : State :=
  match loop with
  | 0 => { s with pmu := { s.pmu with vmin := lo, vmax := hi } }
  | 1 => { s with pmu := { s.pmu with tshed := lo, hyst := hi } }
  | 2 => { s with pmu := { s.pmu with eqMin := lo, eqMax := hi } }
  | _ => { s with pmu := { s.pmu with rfMin := lo, rfMax := hi } }

/-- The safety floor of a loop in the units of its window; 0 when it has none. -/
def safetyFloor (s : State) (loop : Nat) : Nat := if loop = 0 then floorMv s else if loop = 3 then s.pmu.mr4 else 0

/-- A floor above LOW clamps the loop. -/
def noteClamp (loop lo : Nat) (s : State) : State :=
  if lo < safetyFloor s loop then setClamp (if loop = 0 then 0 else 1) s else s

/-- LOOP_WINDOW_SET. -/
def loopWindowSetBody (p : Packet) (s : State) : Res :=
  let loop := prmb p 0 1 1 0
  let lo := prm p 4 2
  let hi := prm p 6 2
  let f := safetyFloor s loop
  require (onlyBits p [(0, 1, 3), allBits 4 2, allBits 6 2] && windowOk loop lo hi) badParam <|
    .ok (some (max lo f + shl (max hi f) 16)) none (noteClamp loop lo (storeWindow loop lo hi s))

def specLoopWindowSet : CmdSpec := { opcode := 0xD03, body := loopWindowSetBody }
/-- LOOP_WINDOW_SET. -/
def execLoopWindowSet (t : Ticks) (p : Packet) (s : State) := runPacket specLoopWindowSet t p s

/-! ### The thermal governor (R560) -/

/-- Classes in the order in which they are shed. -/
def shedList : List Nat := [4, 5, 6, 2, 3]

/-- The classes that may be shed. -/
def sheddable (s : State) : List Nat := shedList.filter fun c => !tbit s.pmu.noshed c

/-- A class is shed: source 995. -/
def shedClass (c : Nat) (s : State) : State :=
  if tbit s.pmu.shed c then s
  else raise 995 (ltrAdd (0x150 + 4 * c) 1 { s with pmu := { s.pmu with shed := setBit s.pmu.shed c true } })

/-- A class is restored: source 995. -/
def restoreClass (c : Nat) (s : State) : State :=
  if tbit s.pmu.shed c then raise 995 { s with pmu := { s.pmu with shed := setBit s.pmu.shed c false } } else s

/-- A time is at least d ticks ago, or never was. -/
def dueAfter (s : State) (d : Nat) (at_ : Option Ticks) : Bool :=
  match at_ with
  | none => true
  | some a => decide (a + d ≤ s.clk.ticks)

/-- The first row: at or above TSHED one more class is shed, at once and then every 100 ms. -/
def shedStep (s : State) : State :=
  if s.pmu.tj < 8 * (s.pmu.tshed : Int) then { s with pmu := { s.pmu with lastShed := none } }
  else if !dueAfter s (msTicks 100) s.pmu.lastShed then s
  else match (sheddable s).find? fun c => !s.pmu.shedOrder.contains c with
    | none => setPinned 1 s
    | some c =>
      shedClass c { s with pmu := { s.pmu with lastShed := some s.clk.ticks, shedOrder := c :: s.pmu.shedOrder } }

/-- The second row: below TSHED − HYST the class shed last is restored, at once and then every 1 s. -/
def restoreStep (s : State) : State :=
  if 8 * ((s.pmu.tshed : Int) - s.pmu.hyst) ≤ s.pmu.tj then { s with pmu := { s.pmu with lastRestore := none } }
  else if !dueAfter s (secTicks 1) s.pmu.lastRestore then s
  else match s.pmu.shedOrder with
    | [] => s
    | c :: rest =>
      restoreClass c { s with pmu := { s.pmu with lastRestore := some s.clk.ticks, shedOrder := rest } }

/-- The third row: at 115 °C every class is shed whatever the mask, until Tj falls below 115 °C − HYST. -/
def overrideStep (s : State) : State :=
  if 920 ≤ s.pmu.tj ∧ !s.pmu.override then
    let more := ((sheddable s).filter fun c => !s.pmu.shedOrder.contains c).reverse
    let s := forAll shedList shedClass
      { s with pmu := { s.pmu with override := true, shedOrder := more ++ s.pmu.shedOrder } }
    raise 997 (ltrAdd 0x170 1 s)
  else if s.pmu.tj < 920 - 8 * (s.pmu.hyst : Int) ∧ s.pmu.override then
    forAll (shedList.filter fun c => tbit s.pmu.noshed c) restoreClass
      { s with pmu := { s.pmu with override := false } }
  else s

/-- The fourth row: rasters are blanked from 120 °C until Tj falls below 110 °C. -/
def blankStep (s : State) : State :=
  if 960 ≤ s.pmu.tj ∧ !s.pmu.blank then
    raise 996 (ltrAdd 0x174 1 { s with pmu := { s.pmu with blank := true } })
  else if s.pmu.tj < 880 then { s with pmu := { s.pmu with blank := false } }
  else s

/-- THERMAL_SAMPLE: Tj in 1/8 °C, sampled every 1 ms; `PMU_TJ` holds 12 bits. -/
def thermalSample (tj : Int) (s : State) : State :=
  if !dueAfter s (msTicks 1) s.pmu.tjAt then s
  else
    let v := max (-2048) (min 2047 tj)
    let s := { s with pmu := { s.pmu with tj := v, tjHwm := max s.pmu.tjHwm v, tjAt := some s.clk.ticks } }
    blankStep (restoreStep (overrideStep (shedStep s)))

/-- THERMAL_SAMPLE. -/
def execThermalSample (t : Ticks) (tj : Int) (s : State) := whenRunning t (thermalSample tj) s

/-- SHED_MASK_SET: a class marked while it is shed is restored; under OVERRIDE every class stays shed, and
one that becomes sheddable joins those that the first row sheds. -/
def setShedMask (m : Nat) (s : State) : State :=
  let gone := s.pmu.shedOrder.filter fun c => tbit m c
  let kept := s.pmu.shedOrder.filter fun c => !tbit m c
  let s := { s with pmu := { s.pmu with noshed := m } }
  if s.pmu.override then
    let more := ((sheddable s).filter fun c => !kept.contains c).reverse
    { s with pmu := { s.pmu with shedOrder := more ++ kept } }
  else forAll gone restoreClass { s with pmu := { s.pmu with shedOrder := kept } }

/-- SHED_MASK_SET. -/
def shedMaskSetBody (p : Packet) (s : State) : Res :=
  require (onlyBits p [(0, 1, 0x7C)]) badParam <| .ok (some s.pmu.noshed) none (setShedMask (prm p 0 1) s)

def specShedMaskSet : CmdSpec := { opcode := 0xD04, body := shedMaskSetBody }
/-- SHED_MASK_SET. -/
def execShedMaskSet (t : Ticks) (p : Packet) (s : State) := runPacket specShedMaskSet t p s

/-! ### AVS, SERDES_EQ and REFRESH (R556 to R559) -/

/-- AVS_UPDATE: the delay monitors ask for a supply in 0.1 mV; the setpoint moves by at most 10 mV in steps
of 2.5 mV (R620). -/
def avsUpdate (want : Nat) (s : State) : State :=
  if !dueAfter s (msTicks 1) s.pmu.avsAt then s
  else
    let v := s.pmu.vset
    let lo := 10 * s.pmu.vmin
    let hi := 10 * s.pmu.vmax
    let fl := roundUp (10 * floorMv s) 25
    let step := fun x => max (v - 100) (min (v + 100) x)
    let m := step (roundUp want 25)
    let new := step (max (max lo fl) (min (max hi fl) m))
    let s := noteClamp 0 s.pmu.vmin s
    let s := if (m < lo && decide (fl ≤ lo)) || (hi < m && decide (fl ≤ hi)) then setPinned 0 s else s
    let s := { s with pmu := { s.pmu with vset := new, avsAt := some s.clk.ticks } }
    if new = v then s else emit (.supply new) s

/-- AVS_UPDATE. -/
def execAvsUpdate (t : Ticks) (want : Nat) (s : State) := whenRunning t (avsUpdate want) s

/-- SERDES_EQ_ADAPT: the loop asks for a CTLE code on a lane, within the window of its last training. -/
def execSerdesEqAdapt (t : Ticks) (lane code : Nat) (s : State) :=
  whenRunning t (fun s =>
    let w := Tbl.get s.pmu.eqWin (0, 31) lane
    if 16 ≤ lane then s
    else
      let s := { s with pmu := { s.pmu with eq := Tbl.set s.pmu.eq lane (max w.1 (min w.2 code)) } }
      if code < w.1 || w.2 < code then setPinned 2 s else s) s

/-- Corrected errors of a channel in the last t ticks of power-on time, since the loop last changed the
rate. -/
def recentErrors (s : State) (n t : Nat) : Nat :=
  (s.pmu.rfErrs.filter fun e => e.1 == n && decide (s.pmu.rfSince ≤ e.2) && withinLast s t e.2).length

/-- The rate that the loop wants next. -/
def wantedRefresh (s : State) : Int :=
  let r : Int := s.pmu.refresh
  if (List.range 16).any fun n => 1000 < recentErrors s n (secTicks 60) then r + 1
  else if s.pmu.rfSince + secTicks 600 ≤ s.clk.onTicks && decide (0 < r)
      && (List.range 16).all fun n => recentErrors s n (secTicks 600) < 10 then r - 1
  else r

/-- REFRESH_POLL: MR4 of every channel has been read; `mr4` is the highest rate that one demands. -/
def refreshPoll (mr4 : Nat) (s : State) : State :=
  if !dueAfter s (msTicks 16) s.pmu.rfAt || 3 < mr4 then s
  else
    let s := { s with pmu := { s.pmu with mr4 := mr4, rfAt := some s.clk.ticks } }
    let lo := s.pmu.rfMin
    let hi := s.pmu.rfMax
    let want := wantedRefresh s
    let new := max (max lo mr4) (min (max hi mr4) want.toNat)
    let s := noteClamp 3 lo s
    let s := if (decide (want < (lo : Int)) && decide (mr4 ≤ lo)) || (decide ((hi : Int) < want) && decide (mr4 ≤ hi))
      then setPinned 3 s else s
    if new = s.pmu.refresh then s
    else { s with pmu := { s.pmu with refresh := new, rfSince := s.clk.onTicks } }

/-- REFRESH_POLL. -/
def execRefreshPoll (t : Ticks) (mr4 : Nat) (s : State) := whenRunning t (refreshPoll mr4) s

/-! ### PMU_QUERY (R567) -/

/-- The record. -/
def pmuRecord (s : State) : List Byte :=
  let w := fun v => leBytes 4 v
  let h := fun v => leBytes 2 v
  w (pstateWord s) ++ w (rcauseWord s) ++ w (bootWord s) ++ w (tjWord s) ++ w (vcoreWord s) ++ w (thermWord s)
    ++ w s.pmu.pinned ++ w s.pmu.clamp ++ h s.pmu.vmin ++ h s.pmu.vmax ++ h s.pmu.tshed ++ h s.pmu.hyst
    ++ h s.pmu.eqMin ++ h s.pmu.eqMax ++ h s.pmu.rfMin ++ h s.pmu.rfMax ++ w s.pmu.refresh ++ leBytes 12 0

/-- PMU_QUERY. -/
def pmuQueryBody (p : Packet) (s : State) : Res :=
  require (onlyBits p [allBits 8 8]) badParam <|
    withBuf p s (prm p 8 8) 64 true (pmuRecord s) fun w => .ok (some (pstateWord s)) (some (tjWord s)) (w s)

def specPmuQuery : CmdSpec :=
  { opcode := 0xD05, exempt := fun _ => true, owns := fun _ _ => true, body := pmuQueryBody }
/-- PMU_QUERY. -/
def execPmuQuery (t : Ticks) (p : Packet) (s : State) := runPacket specPmuQuery t p s

/-! ### The watchdog (R533) -/

/-- WDOG_WARN: a core that does not wait has been silent for 1 s. -/
def execWdogWarn (t : Ticks) (core : Nat) (s : State) :=
  whenRunning t (fun s =>
    if 4 ≤ core || (tgtOf s core).waiting then s
    else raise 1000 { s with pmu := { s.pmu with warned := Tbl.set s.pmu.warned core s.clk.ticks } }) s

end Sys2Proof.Machine
end

