-- ==== Sys2Proof/Machine/UnitReset.lean ====
section
/-! DEFINITION. UNIT_RESET (R42, R552, R554). -/
namespace Sys2Proof.Machine
open Sys2Proof

/-- The unit's management view becomes its data-path state; the packet completes with the state word. -/
def resetDone (u : Nat) (s : State) : Res :=
  let s := adoptData u s
  .ok (some (mgmtWord s u)) none s

/-- A raster: stopped at the end of its frame, at once before its first frame. -/
def resetRasterUnit (p : Packet) (r : Nat) (s : State) : Res :=
  let u := unitRaster r
  let s1 := cancelStrike r s
  let x := { rasterOf s1 r with stopping := true, resetting := true, restart := false }
  let go :=
    if !isStarted x then resetDone u (resetRaster r s1)
    else if x.st = .stopped then resetDone u (stopRaster r (putRaster r x s1))
    else .pend u (putRaster r x s1)
  require (!isFollower s r && (!(rasterOf s r).orphan || p.func == 0)) busy go

/-- A memory channel restarts (R112). -/
def resetChannelUnit (n : Nat) (s : State) : Res :=
  require (chanState s n != 2) retired <| .pend (unitChan n) (restartChannel n s)

/-- The mode and lanes that a port restarts with: as configured, when every lane of that is live and held by
no other port; else as they are. -/
def restartMode (s : State) (p : Nat) : Nat × Nat :=
  let e := ethOf s p
  match modeLanes p e.cfgMode with
  | some m =>
    let clash := (List.range 8).any fun q => q != p && Nat.land (ethOf s q).lanes m != 0
    if Nat.land m s.ne.deadLanes == 0 && !clash then (e.cfgMode, m) else (e.mode, e.lanes)
  | none => (e.mode, e.lanes)

/-- An Ethernet port: its link restarts, its counters are zero. -/
def resetPortUnit (p : Nat) (s : State) : Res :=
  let e := ethOf s p
  let m := restartMode s p
  let fresh : EthPort :=
    { cfgMode := e.cfgMode, mode := m.1, lanes := m.2, cr := e.cr, mtu := e.mtu, mac := e.mac, ipv4 := e.ipv4,
      ipv6 := e.ipv6, up := e.up, coming := m.1 != 0, adopt := m.1 != 0, fwSecond := e.fwSecond, fwCount := e.fwCount,
      degraded := e.degraded && m.1 != e.cfgMode }
  resetDone (unitPort p) (setPortUp p false (setMgmt (unitPort p) (portWord false m.2) (putEth p fresh s)))

/-- A Cririk link: its replay buffers are discarded and it is brought up again. -/
def resetLinkUnit (k : Nat) (s : State) : Res :=
  let l := linkOf s k
  let s := dropLink k (setMgmt (unitLink k) (linkWord false (popcount 16 l.laneMap)) s)
  let s := if l.enabled then startBringup k (putLink k { linkOf s k with adopt := true } s) else s
  resetDone (unitLink k) s

/-- A DisplayPort port is trained again; one that is not enabled or has nothing plugged in is done. -/
def resetDpUnit (i : Nat) (s : State) : Res :=
  let d := dpOf s i
  let on := d.enabled && d.hpd
  let s := dpDown i { d with training := on, retrain := 0, hpdLost := false } s
  if on then .pend (unitDp i) s else resetDone (unitDp i) s

/-- Detach the sender of an egress flow from whichever raster has it. -/
def detachSender (f : Nat) (s : State) : State :=
  forAll (List.range 16) (fun k s =>
    match sinkOf s k 1 with
    | some x => if x.flow = f then dropSink k 1 s else s
    | none => s) s

/-- An egress flow. -/
def resetFlowUnit (f : Nat) (s : State) : Res :=
  let s := stopEgress f (detachSender f s)
  resetDone (unitFlow f) (putQueue f { ({} : TsQueue) with at_ := s.clk.ticks } (putEgress f {} s))

/-- The BL: queued jobs complete with FLUSHED; a running list ends after its current entry (R471). -/
def resetBlUnit (s : State) : Res :=
  let jobs := s.bl.queue
  let s := forAll jobs (fun j s => settlePair j.ent (flushEntry j.ent s)) { s with bl := { s.bl with queue := [] } }
  let s := match s.bl.list with
    | some l => { s with bl := { s.bl with list := some { l with stop := true } } }
    | none => s
  if s.bl.op.isSome then .pend unitBl s else .ok (some 0) none (listStep s)

/-- The HD: channels 0 to 11 are aborted (R499) and return to their reset values once all are IDLE. -/
def resetHdUnit (s : State) : Res :=
  let s := forAll (List.range 12) abortChan s
  if hdQuiet s then .ok (some 0) none (hdClear s) else .pend unitHd s

/-- The reset of a unit by kind. -/
def resetUnit (p : Packet) (u : Nat) (s : State) : Res :=
  let i := unitIndex u
  match unitKind u with
  | 1 => resetRasterUnit p i s
  | 2 => resetChannelUnit i s
  | 3 => resetPortUnit i s
  | 4 => resetLinkUnit i s
  | 5 => resetDpUnit i s
  | 6 => resetFlowUnit i s
  | 7 => resetBlUnit s
  | _ => resetHdUnit s

/-- A unit that UNIT_RESET takes. -/
def resettable (u : Nat) : Bool := unitOk u || u == unitBl || u == unitHd

/-- UNIT_RESET: packets that act on one unit run one at a time (R72). -/
def unitResetBody (p : Packet) (s : State) : Res :=
  let u := prm p 0 4
  require (onlyBits p [allBits 0 4] && resettable u) badParam <| resetUnit p u s

/-- Whom a unit reset obeys: the owner of a raster or egress flow, and PF0 (R30, R566). -/
def unitResetOwns (p : Packet) (s : State) : Bool :=
  let u := prm p 0 4
  p.func == 0 || !resettable u
    || (unitKind u == 1 && ownsRaster p s (unitIndex u))
    || (unitKind u == 6 && egressOwner s (unitIndex u) == p.func)

def specUnitReset : CmdSpec :=
  { opcode := 0xD01, exempt := fun _ => true, acts := fun p => [prm p 0 4], owns := unitResetOwns, body := unitResetBody }
/-- UNIT_RESET. -/
def execUnitReset (t : Ticks) (p : Packet) (s : State) := runPacket specUnitReset t p s

end Sys2Proof.Machine
end

