-- ==== Sys2Proof/Machine/Resets.lean ====
section
/-! DEFINITION. Resets of the whole device and the boot (R531 to R543, R549, R550, R622 to R626, R638). -/
namespace Sys2Proof.Machine
open Sys2Proof

/-! ### What survives (R549, R550) -/

/-- Retirements after a reset: those cleared by RETIREMENT_CLEAR end now (R579). -/
def keptRetirements (l : List Retire) : List Retire :=
  l.map fun x => if x.clearPending then { x with active := false, clearPending := false } else x

/-- The PST and FUSE classes of the reliability state; the recorder's counts go on from the newest
checkpoint (R586). -/
def keptRel (r : RelSt) : RelSt :=
  let x := r.ltrSnap
  { pprPending := r.pprPending, pprDone := r.pprDone, pprExhausted := r.pprExhausted,
    retired := keptRetirements r.retired, eccSel := r.eccSel, pst := r.pst, ltrSeq := r.ltrSeq, ltrSnap := x, banks := r.banks,
    live := x.live, boots := x.boots, bootNo := x.bootNo, onBase := x.on, lastSec := x.on, berAt := x.on / 3600,
    partid := r.partid, lot := r.lot, wafer := r.wafer, dieX := r.dieX, dieY := r.dieY, uid := r.uid }

/-- What the power and clock manager keeps over a PIN or DEVICE reset: the AON class, the levels of its pins
and the boot flash. P3 is left by every reset. -/
def keptPmu (x : PmuSt) : PmuSt :=
  { pstate := if x.pstate = 3 then 0 else x.pstate, cause := x.cause, wake := x.wake, thermtrip := x.thermtrip,
    strapBoot := x.strapBoot, strapQ0 := x.strapQ0, strapQ1 := x.strapQ1, wakeAt := x.wakeAt, por := x.por,
    inReset := false, tripped := x.tripped, off := x.off, pinLow := x.pinLow, perstLow := x.perstLow,
    keptLive := x.keptLive, flash := x.flash }

/-- What it keeps over a POR: the levels of its pins and the boot flash. -/
def porPmu (x : PmuSt) : PmuSt := { pinLow := x.pinLow, perstLow := x.perstLow, flash := x.flash }

/-- The lowest address of surfaces: the end of the firmware region (R108). -/
def firmwareEnd : Nat := 0x10000000

/-- The set of live channels and the capacity under which memory was written. -/
def memoryKey (live cap : Nat) : Nat := live + shl cap 16

/-- Memory after a DEVICE reset: kept outside the firmware region, unless the ECC selection has changed. -/
def keptMemory (m : MmSt) (eccSel : Bool) : MmSt :=
  if m.ecc != eccSel then {}
  else { mem := m.mem.filter fun c => decide (firmwareEnd ≤ c.1),
         badSect := m.badSect.filter fun q => decide (firmwareEnd / 256 ≤ q) }

/-- Items of retired kind that a reset finds. -/
def retiredItems (l : List Retire) (kind : Nat) : List Nat :=
  (List.range 16).filter fun i => l.any fun x => x.active && x.kind == kind && x.index == i

/-- The device with the given PMU and memory, and everything else at its reset value but what survives. -/
def afterReset (pmu : PmuSt) (mm : MmSt) (s : State) : State :=
  let s := loadPst s
  let rel := keptRel s.rel
  let slices := (retiredItems rel.retired 3).map fun c => (c, ({ retired := true } : Slice))
  let ne : NeSt := { q0eth := pmu.strapQ0, q1eth := pmu.strapQ1, deadLanes := maskOf (retiredItems rel.retired 2) }
  let rg : RgSt := { slices := slices }
  let key : CryKey := { key := s.key.key }
  let clk : ClockSt := { ticks := s.clk.ticks, at_ := s.clk.ticks }
  savePst { pending := s.pending, out := s.out, fresh := s.fresh, clk := clk, key := key, ne := ne, rg := rg, mm := mm,
            pmu := pmu, rel := rel, prior := s.prior }

/-- The units leave reset: the time, the fetch scheduler's and the traffic scheduler's cycles start now at 0 (R169,
R398). -/
def restartTime (s : State) : State := { s with clk := { s.clk with base := 0, at_ := s.clk.ticks, rate := 0 } }

/-- A DEVICE reset with its cause (R531, R532). Boot begins at once, unless RESET_N is low. -/
def deviceReset (cause : Nat) (s : State) : State :=
  let booted := s.pmu.stage == 5
  let fromSleep := s.pmu.pstate == 3
  let mm := if fromSleep then {} else if booted then keptMemory s.mm s.rel.eccSel
    else { mem := s.mm.mem, badSect := s.mm.badSect }
  let kept := if fromSleep then none
    else if booted then some (memoryKey s.mm.live s.mm.cap) else s.pmu.keptLive
  afterReset { keptPmu s.pmu with cause := cause, keptLive := kept, inReset := s.pmu.pinLow } mm s

/-- The part has been released from reset, is powered and awake: its clocks run. -/
def clocked (s : State) : Bool := !s.pmu.inReset && !s.pmu.off && s.pmu.pstate != 3

/-! ### Power-on reset (R622) -/

/-- POWER_ON_RESET: a supply monitor reads low: of VDD_AON (`aon`), or of VDD_CORE, which is ignored in P3. -/
def execPowerOnReset (t : Ticks) (aon : Bool) (s : State) : Host.Outcome State Fault Refusal :=
  let s := advance t s
  .next (if s.pmu.pstate = 3 ∧ !aon then s
    else
      let s := if s.pmu.off then emit (.thermtrip false) s else s
      afterReset (porPmu s.pmu) {} (cutPst s))

/-- POR_RELEASE: both monitors have read good for 1 ms; the straps are sampled (R537): bits 1:0 STRAP_BOOT,
bit 2 STRAP_Q0ETH, bit 3 STRAP_Q1ETH. -/
def execPorRelease (t : Ticks) (straps : Nat) (s : State) : Host.Outcome State Fault Refusal :=
  let s := advance t s
  .next (if !s.pmu.por then s
    else
      let s := if s.pmu.pinLow then s else restartTime s
      let s := { s with pmu := { s.pmu with
        por := false, inReset := s.pmu.pinLow, strapBoot := bits straps 1 0, strapQ0 := tbit straps 2,
        strapQ1 := tbit straps 3 } }
      { s with ne := { s.ne with q0eth := tbit straps 2, q1eth := tbit straps 3 } })

/-! ### The RESET_N pin (R531, R623, R626) -/

/-- PIN_RESET: RESET_N has been low for 1 µs. Memory is undefined from here on. -/
def execPinReset (t : Ticks) (s : State) : Host.Outcome State Fault Refusal :=
  let s := advance t s
  .next (if s.pmu.pinLow then s
    else if s.pmu.por then { s with pmu := { s.pmu with pinLow := true } }
    else afterReset { keptPmu s.pmu with cause := 1, keptLive := none, inReset := true, pinLow := true } {} s)

/-- The boot starts: a device that was shut down runs again, and time and gate-list cycles count from now. -/
def leaveReset (s : State) : State :=
  let s := restartTime s
  let s := if s.pmu.off then emit (.thermtrip false) s else s
  { s with pmu := { s.pmu with inReset := false, off := false, hotPend := false } }

/-- RESET_N_DEASSERT: RESET_N is high again at a Tj. At 115 °C or above the device stays shut down. -/
def execResetNDeassert (t : Ticks) (tj : Int) (s : State) : Host.Outcome State Fault Refusal :=
  let s := advance t s
  .next (if !s.pmu.pinLow then s
    else
      let s := { s with pmu := { s.pmu with pinLow := false } }
      if s.pmu.por then s
      else if tj < 920 then leaveReset s
      else
        let s := if s.pmu.off then s else emit (.thermtrip true) s
        { s with pmu := { s.pmu with off := true, hotPend := true } })

/-- TJ_BELOW_115_BOOT_START. -/
def execTjBelow115BootStart (t : Ticks) (tj : Int) (s : State) : Host.Outcome State Fault Refusal :=
  let s := advance t s
  .next (if s.pmu.hotPend && !s.pmu.pinLow && decide (tj < 920) then leaveReset s else s)

/-- THERMTRIP: the comparator shuts the device down at 125 °C (R562). -/
def execThermtrip (t : Ticks) (s : State) : Host.Outcome State Fault Refusal :=
  let s := advance t s
  .next (if s.pmu.por || s.pmu.off then s
    else
      emit (.thermtrip true) <| noteSet 0xA0004 4
        { s with pmu := { s.pmu with off := true, thermtrip := true, tripped := true }
                 host := { s.host with linkUp := false } })

/-! ### DEVICE resets (R533, R534, R536, R548) -/

/-- REFCLK_LOSS: REFCLK has been absent for 10 µs. -/
def execRefclkLoss (t : Ticks) (s : State) : Host.Outcome State Fault Refusal :=
  let s := advance t s
  .next (if clocked s then deviceReset 4 s else s)

/-- PLL_LOCK_LOSS. -/
def execPllLockLoss (t : Ticks) (s : State) : Host.Outcome State Fault Refusal :=
  let s := advance t s
  .next (if clocked s then deviceReset 4 s else s)

/-- WATCHDOG_RESET: the core is silent 1 s after its warning. -/
def execWatchdogReset (t : Ticks) (core : Nat) (s : State) : Host.Outcome State Fault Refusal :=
  whenRunning t (fun s =>
    match Tbl.find? s.pmu.warned core with
    | some a => if (tgtOf s core).waiting || s.clk.ticks < a + secTicks 1 then s else deviceReset 3 s
    | none => s) s

/-- The exit from P3: a DEVICE reset with cause WAKE. -/
def wakeUp (trigger : Nat) (s : State) : State :=
  deviceReset 5 { s with pmu := { s.pmu with wake := trigger } }

/-- In P3 and neither in reset nor shut down. -/
def asleep (s : State) : Bool := s.pmu.pstate == 3 && !s.pmu.inReset && !s.pmu.off

/-- WAKE_PIN: a falling edge on WAKE_N (R548, R564). -/
def execWakePin (t : Ticks) (s : State) : Host.Outcome State Fault Refusal :=
  let s := advance t s
  .next (if asleep s then wakeUp 0 (raise 998 s) else if isRunning s then raise 998 s else s)

/-- WAKE_TIMER: the always-on timer expires in P3. -/
def execWakeTimer (t : Ticks) (s : State) : Host.Outcome State Fault Refusal :=
  let s := advance t s
  .next (match s.pmu.wakeAt with
    | some a => if asleep s && decide (a ≤ s.clk.ticks) then wakeUp 1 (raise 1001 s) else s
    | none => s)

/-- PERST_N_WAKE: PERST_N is deasserted in P3 after it was asserted. -/
def execPerstNWake (t : Ticks) (s : State) : Host.Outcome State Fault Refusal :=
  let s := advance t s
  .next (if asleep s && s.pmu.perstLow then wakeUp 2 { s with pmu := { s.pmu with perstLow := false } } else s)

/-- DEVICE_RESET: its reply first, then a checkpoint, then the reset. -/
def deviceResetBody (p : Packet) (s : State) : Res :=
  require (onlyBits p [(0, 1, 3)]) badParam <|
    .keep fun e late =>
      let s := checkpointNow 2 (finish e (lateStatus late 0) none none s)
      let s := if prmbit p 0 0 then savePst { s with rel := { s.rel with eccSel := prmbit p 0 1 } } else s
      deviceReset 2 s

def specDeviceReset : CmdSpec := { opcode := 0xD02, body := deviceResetBody }
/-- DEVICE_RESET. -/
def execDeviceReset (t : Ticks) (p : Packet) (s : State) := runPacket specDeviceReset t p s

/-! ### The boot (R538, R539, R588) -/

/-- A channel fails training at boot: it is retired, unless it is the last (R105, R574). -/
def bootFail (n : Nat) (s : State) : State :=
  let s := raise (256 + 4 * n + 3) s
  if isRetired s 1 n then s
  else if (retiredItems s.rel.retired 1).length = 15 then raise 970 s
  else raise 960 (ltrAdd (0x200 + 64 * n + 28) (now s) (recordRetirement 1 n 3 1 s))

/-- Step 5: channels are trained, those that fail are retired, pending repairs run. Memory that was kept is
lost when the live channels or their capacity differ from before. -/
def bootMemory (x : BootResult) (s : State) : State :=
  let dead := retiredItems s.rel.retired 1
  let s := forAll ((bitList 16 x.failed).filter fun n => !dead.contains n) bootFail s
  let dead := retiredItems s.rel.retired 1
  let live := maskOf ((List.range 16).filter fun n => !dead.contains n)
  let cap := min 2 (((List.range 16).filter fun n => !dead.contains n).foldl (fun m n => min m (x.caps.getD n 0)) 2)
  let chan := (List.range 16).map fun n => (n, if dead.contains n then 2 else 0)
  let s := forAll (List.range 16) (fun n s => raise (256 + 4 * n) s) s
  let keep := s.pmu.keptLive == some (memoryKey live cap)
  let mm : MmSt := { mem := if keep then s.mm.mem else [], badSect := if keep then s.mm.badSect else [],
                     cap := cap, ecc := s.rel.eccSel, chan := chan, live := live }
  let s := { s with mm := mm, pmu := { s.pmu with keptLive := none } }
  runRepairs (forAll dead (fun n s => setMgmt (unitChan n) (stateWord 0x11 0) s) s)

/-- The boot-history entry of this boot. -/
def bootEntry (s : State) : List Byte :=
  leBytes 8 (powerOn s) ++ leBytes 1 (rcauseWord s % 16 + shl (s.pmu.wake % 4) 4 + shl (b2n s.pmu.thermtrip) 6)
    ++ leBytes 1 (5 + shl s.pmu.slot 3 + shl (b2n s.pmu.fallback) 4 + shl (b2n s.pmu.recovered) 5) ++ leBytes 2 0
    ++ leBytes 4 s.pmu.fwVersion ++ leBytes 8 (now s) ++ leBytes 8 0

/-- Steps 4 to 6: firmware starts, memory is trained, and the device is READY; units and the routes of
the event concentrator have their reset values. -/
def bootOn (x : BootResult) (s : State) : State :=
  let s := { s with host := { s.host with subVendor := x.subVendor, subId := x.subId }
                    pmu := { s.pmu with fwVersion := x.version } }
  let s := bootMemory x s
  let s := if s.pmu.tripped then ltrAdd 0x178 1 { s with pmu := { s.pmu with tripped := false } } else s
  let n := s.rel.bootNo
  let boots := Tbl.set s.rel.boots (n % 64) (bootEntry s)
  { s with rel := { s.rel with boots := boots, bootNo := n + 1 }
           evc := {}
           pmu := { s.pmu with stage := 5 } }

/-- The slot that the straps try first: 0 A, 1 B. -/
def firstSlot (s : State) : Nat := if s.pmu.strapBoot = 1 then 1 else 0

/-- BOOT_READY: the boot runs to READY, or to recovery when the straps ask for it or no slot verifies. From step 3 on
OSPI_RESET_N is high (R627). -/
def bootReady (x : BootResult) (s : State) : State :=
  let a := firstSlot s
  if s.pmu.stage = 3 then bootOn x s
  else if s.pmu.stage ≠ 0 then s
  else
  let s := { s with pins := { s.pins with ospiResetN := .high } }
  if s.pmu.strapBoot = 2 || !(x.first || x.second) then { s with pmu := { s.pmu with stage := 6 } }
  else bootOn x { s with pmu := { s.pmu with slot := if x.first then a else 1 - a, fallback := !x.first } }

/-- BOOT_READY. -/
def execBootReady (t : Ticks) (x : BootResult) (s : State) : Host.Outcome State Fault Refusal :=
  let s := advance t s
  .next (if clocked s then bootReady x s else s)

/-! ### Recovery (R540) -/

/-- In recovery, and reached by PF0. -/
def inRecovery (s : State) (f : Nat) : Bool := f == 0 && s.pmu.stage == 6

/-- COMMIT is set: the ROM programs the page of PAGE. -/
def commitPage (s : State) : State :=
  if s.pmu.busy then s else { s with pmu := { s.pmu with commit := true, busy := true } }

/-- RECOVERY_PAGE_COMMIT. -/
def execRecoveryPageCommit (t : Ticks) (f : Nat) (s : State) :=
  regAccess t f id (fun s => if inRecovery s f then commitPage s else s) s

/-- RECOVERY_PAGE_PROGRAMMED. -/
def execRecoveryPageProgrammed (t : Ticks) (s : State) : Host.Outcome State Fault Refusal :=
  let s := advance t s
  .next (if clocked s && s.pmu.stage == 6 && s.pmu.busy then
      let flash := Tbl.set s.pmu.flash s.pmu.page s.pmu.window
      { s with pmu := { s.pmu with busy := false, commit := false, flash := flash } }
    else s)

/-- DONE is set: slot A is verified. The boot goes on from step 4, or ERROR is set. -/
def verifyImage (ok : Bool) (s : State) : State :=
  if s.pmu.busy then s
  else if ok then { s with pmu := { s.pmu with stage := 3, slot := 0, recovered := true, done := true, rcvErr := false } }
  else { s with pmu := { s.pmu with done := true, rcvErr := true } }

/-- RECOVERY_DONE: `ok` says whether slot A verifies. -/
def execRecoveryDone (t : Ticks) (f : Nat) (ok : Bool) (s : State) :=
  regAccess t f id (fun s => if inRecovery s f then verifyImage ok s else s) s

end Sys2Proof.Machine
end

