-- ==== Sys2Proof/Machine/Registers.lean ====
section
/-! DEFINITION. What every register and window of BAR0 reads as (R13, R46 to R52, R91, R111, R114, R194 to
R196, R232, R236, R269, R270, R296, R340, R341, R375 to R377, R410 to R413, R453, R454, R478, R502, R503,
R526 to R528, R563, R591, R608 to R614). -/
namespace Sys2Proof.Machine
open Sys2Proof

/-! ### Register lists -/

/-- One register of a page: its offset, its value, and whether it is a 64-bit pair (R13). -/
abbrev Reg := Nat × Nat × Bool

/-- A 32-bit register. -/
def reg (off v : Nat) : Reg := (off, v, false)
/-- A 64-bit pair whose low word is at `off`. -/
def pair (off v : Nat) : Reg := (off, v, true)

/-- The register that holds the word at an offset. -/
def regAt (l : List Reg) (off : Nat) : Option Reg :=
  l.find? fun r => r.1 == off || (r.2.2 && r.1 + 4 == off)

/-- The word at an offset; an offset that no register occupies reads zero (R608). -/
def regWord (l : List Reg) (off : Nat) : Nat :=
  match regAt l off with
  | none => 0
  | some r => if r.1 = off then r.2.1 % 2 ^ 32 else r.2.1 / 2 ^ 32 % 2 ^ 32

/-- An offset is the low word, or with `high` the high word, of a pair. -/
def isPairWord (l : List Reg) (high : Bool) (off : Nat) : Bool :=
  l.any fun r => r.2.2 && (if high then r.1 + 4 else r.1) == off

/-- Consecutive words of a byte table, the first at `off`. -/
def wordAt (base off : Nat) (b : List Byte) : Reg := reg off (rd b (off - base) 4)

/-! ### DEV and the VF status page (R5, R296, R580, R611, R613) -/

/-- `DEV_CRYKEY`. -/
def crykeyWord (s : State) : Nat := b2n (s.key.key != 0) + shl (b2n (isUnlocked s)) 1 + shl s.key.fails 16

/-- `DEV_GSTAT`. -/
def gstatWord (s : State) : Nat :=
  b2n (isReady s) + shl s.pmu.pstate 1 + shl (b2n s.mm.migrating) 3
    + shl (b2n (s.rel.retired.any (·.active))) 4 + shl (b2n (tbit s.host.accErr 0)) 5

/-- BAR2 denials of a function. -/
def deniedOf (s : State) (f : Nat) : Nat := Tbl.get s.host.denied 0 f

/-- The DEV page. -/
def devPage (s : State) : List Reg :=
  [reg 0x000 s.rel.partid, reg 0x010 (rd s.rel.lot 0 4), reg 0x014 (rd s.rel.lot 4 2),
   reg 0x018 (s.rel.wafer + shl s.rel.dieX 8 + shl s.rel.dieY 16), pair 0x020 s.rel.uid,
   reg 0x030 (gstatWord s), reg 0x100 (crykeyWord s)]
    ++ (List.range 4).map (fun i => reg (0x040 + 4 * i) (Tbl.get s.host.scratch 0 i))
    ++ (List.range 16).map fun f => reg (0x080 + 4 * f) (deniedOf s f)

/-- The status page of VF f. -/
def vfPage (s : State) (f : Nat) : List Reg :=
  [reg 0x000 s.rel.partid,
   reg 0x004 (f + shl (b2n (isReady s)) 4 + shl (b2n (tbit s.host.accErr f)) 5 + shl (qpCount s f) 8
     + shl (b2n (Tbl.get s.own.targets false f)) 12
     + shl (maskOf ((List.range 16).filter fun r => rasterOwner s r == f)) 16),
   reg 0x008 (deniedOf s f)]

/-! ### CP (R46 to R52, R91) -/

/-- The register group of queue pair q of function f. -/
def qpGroup (s : State) (f q : Nat) : List Reg :=
  let x := qpOf s f q
  [pair 0x00 x.sbase, pair 0x08 x.rbase, reg 0x10 (x.slog2 + shl x.rlog2 8),
   reg 0x14 (b2n x.enable + shl (b2n x.flush) 1 + shl (b2n x.repEvent) 2 + shl x.batch 8),
   reg 0x18 (b2n x.running + shl (b2n x.stopping) 1 + shl x.err 8 + shl x.outstanding 16),
   reg 0x24 x.granted, reg 0x28 x.expected, reg 0x2C x.rpi]

/-- The device-wide registers of the CP. -/
def cpDevice (s : State) : List Reg :=
  [reg 0x400 s.cp.routeTmo, reg 0x404 (fifoLevel s + shl (max s.cp.hwm (fifoLevel s)) 16), reg 0x408 s.cp.routeLate,
   reg 0x40C (timedWaiting s)]

/-! ### EVC (R526 to R528) -/

/-- The register group of a target; EVC_TCLAIM is claimed by `claimBy` and has no word here. -/
def targetGroup (s : State) (tg : Nat) : List Reg :=
  let g := tgtOf s tg
  [reg 0x08 g.thresh, reg 0x0C (b2n g.hold + shl (b2n g.idle) 1), reg 0x10 (g.interval + shl g.count 16),
   reg 0x14 (tstatWord (lastArb s) tg), reg 0x18 (if tg < 4 then fallbackOf s tg else 0), reg 0x1C g.deliv]

/-- The device registers of the EVC. -/
def evcDevice (s : State) : List Reg := [reg 0x0 (b2n s.evc.ghold), reg 0x4 s.evc.merges]

/-! ### RG, crystal and DP (R296, R340, R341) -/

/-- Code of `RG_STAT.STATE`. -/
def rgState : DpState → Nat
  | .stopped => 0 | .running => 1 | .blanked => 2 | .forced => 3 | .halted => 4

/-- `RG_STAT` of RG k: of a follower, its leader's state and its own tile. -/
def rgStatWord (s : State) (k : Nat) : Nat :=
  let r := leaderOf s k
  let x := rasterOf s r
  let own := r == k
  rgState x.st + shl (b2n x.orphan) 3 + shl (b2n (own && (strikeOf s r).isSome)) 4
    + shl (b2n (own && strikeLocked s r)) 5 + shl (b2n x.aligned) 6 + shl (b2n (!own)) 7
    + shl (b2n x.tim.tiles2) 8 + shl x.line 12

/-- The page of RG k. -/
def rgPage (s : State) (k : Nat) : List Reg :=
  let r := leaderOf s k
  let x := rasterOf s r
  let y := rasterOf s k
  let t := x.tim
  [reg 0x000 (b2n (r == k && x.commit)), reg 0x004 (rgStatWord s k), reg 0x008 x.frame, pair 0x010 x.ft,
   pair 0x018 x.latchT, reg 0x020 y.cdefer, reg 0x024 y.alert, reg 0x028 (sinksWord s k), reg 0x02C y.sdrop,
   pair 0x030 (if r = k then strikeTime s r else 0),
   reg 0x040 (t.hact + shl (hTotal t) 16), reg 0x044 (t.vact + shl (vTotal t) 16), reg 0x048 t.latch,
   reg 0x04C t.n, reg 0x050 t.d, reg 0x054 x.blank]

/-- The crystal registers of raster r. -/
def cryPage (s : State) (r : Nat) : List Reg :=
  let c := crystalOf s r
  [reg 0x800 (b2n c.pane.isSome + shl c.action 1 + shl (b2n c.armed) 3 + shl (b2n (decide ((rasterOf s r).st = .forced))) 4
     + shl (b2n c.mismatch) 5 + shl (b2n c.subst) 6 + shl (b2n c.commit.isSome) 7 + shl (c.pane.getD 0) 8),
   reg 0x804 c.expect, reg 0x808 c.last, reg 0x80C c.misCnt, reg 0x810 c.unchk, reg 0x814 c.seq]

/-- Streams of a port that are being sent. -/
def sendingStreams (s : State) (p : Nat) : List (Nat × Sink) :=
  (portStreams s p).filter fun e =>
    e.2.live && !e.2.stopped && (dpOf s p).trained && (rasterOf s (leaderOf s e.1)).st != .stopped

/-- The registers of DisplayPort port p. -/
def dpPage (s : State) (p : Nat) : List Reg :=
  let d := dpOf s p
  [reg 0xC00 (b2n d.hpd + shl (b2n d.enabled) 1 + shl (b2n d.mst) 2 + shl (b2n d.trained) 3 + shl d.tLanes 4
     + shl d.tRate 8 + shl (maskOf ((sendingStreams s p).map fun e => e.2.stream)) 10 + shl d.auth 14),
   reg 0xC04 (sumOf (((portStreams s p).filter fun e => !e.2.stopped).map fun e => e.2.slots)),
   reg 0xC08 d.retrain]

/-! ### CS (R236, R270) -/

/-- `CS_OCS` for output settings in use. -/
def ocsCode (o : OutSet) (waits : Bool) : Nat :=
  o.wtf + shl (b2n o.lutEn) 3 + shl o.otf 4 + shl o.depth 8 + shl o.dither 12 + shl (b2n waits) 16

/-- `CS_OCS` of a raster. -/
def ocsWord (s : State) (r : Nat) : Nat := ocsCode (outSetOf s r) (tablesWaiting s r)

/-- The page of slice c. The lead of a gang holds the status and the counters, the others read zero (R235); what
belongs to the raster's scene reads as at reset while no raster is bound. -/
def csPage (s : State) (c : Nat) : List Reg :=
  let x := sliceOf s c
  let sc := if x.bound then sceneOf s x.raster else {}
  let cfg := reg 0x000 (x.raster + shl (b2n x.bound) 4 + shl x.gang 5 + shl (b2n x.leads) 7)
  if x.bound && !x.leads then [cfg] else
  let up := x.bound && buildTimeUp s x.raster
  let keeps := (rasterOf s x.raster).commit || (strikeOf s x.raster).isSome
  [cfg, reg 0x004 (x.stat + shl (b2n (sc.building && !up)) 8 + shl (b2n (sc.built || (up && keeps))) 9
     + shl (b2n sc.active.domain) 10),
   reg 0x008 sc.active.scene, reg 0x00C sc.entries, reg 0x010 (x.fanMax + shl x.fanLine 16), reg 0x014 x.poolHwm,
   reg 0x018 x.wdenied, pair 0x020 x.shed, pair 0x028 x.dclip, pair 0x030 x.fclip, pair 0x038 x.lbbd]
    ++ (if x.leads then [reg 0x040 (ocsWord s x.raster), reg 0x044 (tblTaken s x.raster)]
        else [reg 0x040 (ocsCode {} false), reg 0x044 0])

/-! ### FS and LR (R194 to R196) -/

/-- The escapement page of raster r. -/
def fsPage (s : State) (r : Nat) : List Reg :=
  let x := fsOf s r
  let v := (planTim (rasterOf s r)).vact
  let line := if x.line < v ∨ v = 0 then x.line else min v (x.line - v)
  [reg 0x00 (wrap 13 line + shl (wrap 10 (x.line / 16)) 16 + shl (b2n x.active) 31),
   reg 0x04 (sat 26 x.cir), reg 0x08 (sat 26 x.pir), reg 0x0C x.cbs,
   reg 0x10 x.pbs, reg 0x14 x.peak, pair 0x18 x.subst,
   reg 0x20 (x.lead + shl x.leadMin 8 + shl x.leadMax 16 + shl x.cap 24 + shl (b2n x.atMax) 29
     + shl (b2n x.atMin) 30 + shl (b2n x.belowMin) 31),
   reg 0x24 (sat 16 x.worst), reg 0x28 (sat 16 x.gap)]

/-- The gate page of channel n. -/
def mcgPage (s : State) (n : Nat) : List Reg :=
  let c := chanFsOf s n
  [reg 0x00 (c.entry + shl c.running.length 8 + shl (armCode c.arm) 17
     + shl (b2n c.late) 19),
   reg 0x04 (cycleOf c.running), reg 0x08 (openTime 1 c.running), reg 0x0C (openTime 3 c.running),
   pair 0x10 (armTime c.arm c.armT), pair 0x18 c.swT, pair 0x20 c.guard, pair 0x28 c.c0req]

/-- A gate list as readable words: entries beyond its length read zero. -/
def listWord (l : List GateEntry) (i : Nat) (w : GateEntry → Nat) : Nat :=
  match l[i]? with
  | some e => w e
  | none => 0

/-! ### MC (R111) -/

/-- The page of channel n. -/
def mcPage (s : State) (n : Nat) : List Reg :=
  [reg 0x000 (s.mm.cap + shl (b2n s.mm.ecc) 2), reg 0x004 (chanState s n),
   reg 0x008 (s.mm.live + shl (b2n s.mm.migrating) 16), pair 0x010 (Tbl.get s.mm.rdBytes 0 n),
   pair 0x018 (Tbl.get s.mm.wrBytes 0 n)]

/-! ### BL and HD (R478, R502, R503) -/

/-- A list started by the register waits or runs. -/
def regListOn (s : State) : Bool :=
  s.bl.regWait || match s.bl.list with
    | some l => l.byReg
    | none => false

/-- The BL page. -/
def blPage (s : State) : List Reg :=
  [reg 0x000 (b2n (s.bl.op.isSome || s.bl.list.isSome) + shl (b2n s.bl.list.isSome) 1 + shl (b2n s.bl.accFault) 2
     + shl (b2n s.bl.listErr) 3 + shl s.bl.queue.length 8),
   reg 0x004 s.bl.dead, pair 0x008 s.bl.laddr,
   reg 0x010 (b2n (regListOn s)
     + shl (b2n (match s.bl.list with | some l => l.stop | none => false)) 1 + shl (b2n s.bl.stopOnErr) 2),
   reg 0x014 s.bl.lcount, reg 0x018 s.bl.ldone, reg 0x01C s.bl.lfail, reg 0x020 s.bl.lfstat, reg 0x024 s.bl.faults,
   pair 0x028 s.bl.ops]

/-- Four pending counts of request lines. -/
def reqWord (s : State) (n : Nat) : Nat :=
  sumOf ((List.range 4).map fun i => shl (Tbl.get s.hd.req 0 (4 * n + i)) (8 * i))

/-- The device registers of the HD. -/
def hdDevice (s : State) : List Reg :=
  reg 0x000 (b2n (s.hd.chans.any fun e => e.2.st == .running || e.2.st == .aborting) + shl s.hd.cur 1
      + shl (b2n s.hd.reqOvf) 5)
    :: (List.range 8).map fun n => reg (0x010 + 4 * n) (reqWord s n)

/-- The registers of HD channel c. -/
def hdPage (s : State) (c : Nat) : List Reg :=
  let x := hdOf s c
  [reg 0x00 (x.prio + shl x.burst 2 + shl x.cqLog2 5 + shl (b2n x.cqSpace) 9 + shl (b2n (decide (12 ≤ c))) 10
     + shl (b2n x.configured) 11),
   reg 0x04 (hdStatWord x), pair 0x08 x.chead, reg 0x10 (b2n x.start + shl (b2n x.abort) 1), reg 0x14 x.limit,
   pair 0x18 x.ccur, reg 0x20 x.resid, reg 0x24 x.count, reg 0x28 x.cqpi, reg 0x2C x.cqci, reg 0x30 x.ctmo,
   pair 0x34 x.cqbase]

/-! ### NE (R375 to R377) -/

/-- The page of Ethernet port p. -/
def nePage (s : State) (p : Nat) : List Reg :=
  let x := ethOf s p
  [reg 0x000 (b2n x.up + shl x.mode 1 + shl (b2n x.retraining) 4 + shl (b2n x.degraded) 5 + shl x.lanes 8),
   reg 0x004 x.mtu, pair 0x010 x.rxfr, pair 0x018 x.txfr, pair 0x020 x.rxoct, pair 0x028 x.txoct, pair 0x030 x.feccor,
   reg 0x038 x.fecunc, reg 0x03C x.rxerr, reg 0x040 x.rxnoflow, reg 0x044 x.fwdrop, reg 0x048 x.txdrop,
   reg 0x04C x.retrain]

/-- The device registers of the NE. -/
def neDevice (s : State) : List Reg :=
  [reg 0x000 (b2n s.ne.q0eth + shl (b2n s.ne.q1eth) 1), reg 0x004 (ibufKib s + shl s.ne.ibufHwm 16),
   reg 0x008 s.ne.ibovf]

/-- Word w of an array of alert bits. -/
def alertWord (bitsOf w : Nat) : Nat := bitsOf / 2 ^ (32 * w) % 2 ^ 32

/-! ### TS (R410 to R413) -/

/-- A port's list entry in the layout of R392. -/
def portEntryWord (e : GateEntry) : Nat := e.dur + shl e.mask 24

/-- The page of port p. -/
def tsPage (s : State) (p : Nat) : List Reg :=
  let x := tsPortOf s p
  [reg 0x00 (x.entry + shl x.running.length 9 + shl (armCode x.arm) 19 + shl (b2n x.late) 21
     + shl (listWord x.running x.entry (·.mask)) 22),
   reg 0x04 (portCycle x.running), reg 0x08 x.ovh, reg 0x0C (portCir s p), pair 0x10 (armTime x.arm x.armT), pair 0x18 x.swT,
   pair 0x20 x.guard, reg 0x28 x.nofit]

/-- Bytes in the egress buffer, in KiB. -/
def ebufLevel (s : State) : Nat := bufferBytes s / 1024

/-- The device registers of the TS. -/
def tsDevice (s : State) : List Reg :=
  [reg 0x00 s.ts.ythresh, reg 0x04 (ebufLevel s + shl s.ts.ebufHwm 16)]
    ++ (List.range 4).map fun k => reg (0x10 + 4 * k) (Tbl.get s.ts.dscpcol 0 k)

/-! ### CF and TK (R453, R454) -/

/-- Export reservations over a link in 1,000 flits per second, each rounded up. -/
def reserved (s : State) (k : Nat) : Nat := sumOf ((exportLoad s k).map fun e => cdiv e.1 (1000 * e.2))

/-- The page of link k. -/
def cfPage (s : State) (k : Nat) : List Reg :=
  let l := linkOf s k
  [reg 0x000 (b2n l.up + shl (popcount 16 l.laneMap) 1 + shl (b2n l.retraining) 4 + shl (b2n l.degraded) 5
     + shl (b2n l.calibrated) 6 + shl (b2n l.miswired) 7 + shl l.laneMap 8),
   reg 0x004 l.ldelay, reg 0x008 (reserved s k), pair 0x010 l.feccor, reg 0x018 l.fecunc, reg 0x01C l.retrain,
   reg 0x020 l.replayCnt, reg 0x024 l.badflit, pair 0x028 l.txflit, pair 0x030 l.rxflit]

/-- `CF_NODE`. -/
def nodeWord (s : State) : Nat :=
  s.cf.devid + shl (b2n s.cf.valid) 18 + shl (b2n s.cf.anchor) 19 + shl s.cf.topo 20 + shl s.cf.wM1 22
    + shl s.cf.hM1 28

/-- A signed 32-bit register, which saturates. -/
def signed32 (i : Int) : Nat := uint 32 (max (-2147483648) (min 2147483647 i))

/-- The timekeeper page as function f reads it: TENTHS is what its last capture took, if it holds one. -/
def tkPage (s : State) (f : Nat) : List Reg :=
  [pair 0x000 (now s), reg 0x008 ((Tbl.find? s.host.tkSub f).getD (tenths s)),
   reg 0x00C (s.tk.state + shl s.tk.port 4 + shl s.tk.domain 8), reg 0x010 (signed32 s.tk.offset),
   reg 0x014 (signed32 s.tk.fofs), reg 0x018 (signed32 s.tk.beatErr), reg 0x01C s.tk.alignErr,
   reg 0x020 s.tk.alignThr, reg 0x024 s.tk.refN, reg 0x028 s.tk.refD, reg 0x02C s.tk.steps, pair 0x030 s.tk.beatNo]

/-! ### PMU and LTR (R563, R591) -/

/-- The PMU page. -/
def pmuPage (s : State) : List Reg :=
  [reg 0x000 (pstateWord s), reg 0x004 (rcauseWord s), reg 0x008 (bootWord s), reg 0x00C (tjWord s),
   reg 0x010 (vcoreWord s), reg 0x014 (thermWord s), reg 0x018 s.pmu.noshed, reg 0x01C s.pmu.pinned,
   reg 0x020 s.pmu.clamp, reg 0x024 s.pmu.refresh, reg 0x040 (rcvctlWord s)]

/-- The LTR page. -/
def ltrPage (s : State) : List Reg :=
  [reg 0x000 (b2n s.rel.ltrPend.isSome + shl s.rel.ltrTrigger 1 + shl s.rel.ltrBank 4 + shl (b2n s.rel.ltrFault) 8),
   reg 0x004 s.rel.ltrSeq, pair 0x008 (powerOn s), reg 0x010 (relRetired s),
   reg 0x014 (retiredMask s 2), reg 0x018 s.rel.parityCnt]

/-! ### Windows (R114, R196, R232, R269, R411, R609, R614) -/

/-- Word i of a function's MSI-X table. -/
def msixWord (s : State) (f i : Nat) : Nat :=
  let x := msixOf s f (i / 4)
  if i % 4 = 0 then x.addr % 2 ^ 32 else if i % 4 = 1 then x.addr / 2 ^ 32
  else if i % 4 = 2 then x.data else b2n x.mask

/-- The MSI-X table of a function, or its pending bits. -/
def msixPage (s : State) (f : Nat) (pba : Bool) (off : Nat) : List Reg :=
  if pba then [reg 0 (maskOf ((List.range 4).filter fun v => (msixOf s f v).pend))]
  else if off < 64 then [reg off (msixWord s f (off / 4))] else []

/-- Entries 2w and 2w + 1 of the built-in ITF LUT, i / 1,023 (R260), as one word. -/
def builtinItfWord (w : Nat) : Nat := toHalf ⟨2 * w, 1023⟩ + 65536 * toHalf ⟨2 * w + 1, 1023⟩

/-- A table of the coefficient window: bytes at an offset of the newest copy, or the built-in values (R269). -/
def tableWord (s : State) (kind i base off : Nat) : Reg :=
  match newestCopy s (tblKey kind i) with
  | some c => wordAt base off c.data
  | none =>
    if kind = 0 then wordAt base off (linearBank 8 3)
    else if kind = 1 then wordAt base off (linearBank 6 2)
    else if kind = 2 then wordAt base off (builtinMatrix i)
    else if kind = 3 then reg off (builtinItfWord ((off - base) / 4))
    else reg off 0

/-- The coefficient and LUT window, by offset within it. -/
def coefPage (s : State) (o : Nat) : List Reg :=
  if o < 0x8000 then [tableWord s 0 (o / 0x400) (o / 0x400 * 0x400) o]
  else if o < 0x10000 then [tableWord s 1 ((o - 0x8000) / 0x400) (o / 0x400 * 0x400) o]
  else if o < 0x10080 then
    [reg o (match newestCopy s (tblKey 1 ((o - 0x10000) / 4)) with | some c => c.taps | none => 0)]
  else if 0x11000 ≤ o ∧ o < 0x12000 then [tableWord s 2 ((o - 0x11000) / 0x40) (o / 0x40 * 0x40) o]
  else if 0x12000 ≤ o ∧ o < 0x16000 then [tableWord s 3 ((o - 0x12000) / 0x800) (o / 0x800 * 0x800) o]
  else if 0x16000 ≤ o ∧ o < 0x16200 then
    let m := (Tbl.get s.col.out {} ((o - 0x16000) / 0x20)).matrix
    [wordAt (o / 0x20 * 0x20) o (m.flatMap fun v => leBytes 2 v)]
  else if 0x20000 ≤ o ∧ o < 0x120000 then [tableWord s 4 ((o - 0x20000) / 0x10000) (o / 0x10000 * 0x10000) o]
  else []

/-! ### The map (R610, R612) -/

/-- A page of registers and the offset of an access within it. -/
abbrev Located := List Reg × Nat

/-- PF0 BAR0 below 0x04_0000. -/
def pfLow (s : State) (off : Nat) : Located :=
  if off < 0x4000 then (devPage s, off)
  else if off < 0x8000 then
    let o := off - 0x4000
    if o < 0x200 then (qpGroup s 0 (o / 0x40), o % 0x40) else (cpDevice s, o)
  else if off < 0x10000 then
    let o := off - 0x8000
    if o < 0x1000 then (evcDevice s, o)
    else if o < 0x2000 then ([reg o (srcWord s ((o - 0x1000) / 4))], o)
    else if 0x4000 ≤ o ∧ o < 0x5100 then (targetGroup s ((o - 0x4000) / 0x40), o % 0x40) else ([], o)
  else if off < 0x20000 then
    let k := off / 0x1000 % 16
    let o := off % 0x1000
    if o < 0x800 then (rgPage s k, o) else if o < 0xC00 then (cryPage s k, o)
    else if k < 4 then (dpPage s k, o) else ([], o)
  else if off < 0x30000 then (csPage s (off / 0x1000 % 16), off % 0x1000)
  else
    let o := off - 0x30000
    if 0x1000 ≤ o ∧ o < 0x1800 then (fsPage s ((o - 0x1000) / 0x80), o % 0x80)
    else if 0x2000 ≤ o ∧ o < 0x2800 then (mcgPage s ((o - 0x2000) / 0x80), o % 0x80)
    else if 0x8000 ≤ o then
      let c := chanFsOf s ((o - 0x8000) / 0x800)
      let i := o % 0x400 / 4
      ([reg o (listWord (if o % 0x800 < 0x400 then c.running else c.armed) i entryWord)], o)
    else ([], o)

/-- PF0 BAR0 from 0x04_0000 to 0x0C_0000. -/
def pfMid (s : State) (off : Nat) : Located :=
  let o := off % 0x10000
  if off < 0x50000 then (mcPage s (o / 0x1000), o % 0x1000)
  else if off < 0x58000 then (blPage s, o)
  else if off < 0x60000 then
    let o := off - 0x58000
    if o < 0x100 then (hdDevice s, o)
    else if o < 0x500 then (hdPage s ((o - 0x100) / 0x40), o % 0x40) else ([], o)
  else if off < 0x70000 then
    if o < 0x8000 then (nePage s (o / 0x1000), o % 0x1000)
    else if o < 0x9000 then (neDevice s, o - 0x8000)
    else if o < 0x9200 then ([reg o (alertWord s.ne.alertI ((o - 0x9000) / 4))], o)
    else if o < 0x9280 then ([reg o (alertWord s.ne.alertE ((o - 0x9200) / 4))], o) else ([], o)
  else if off < 0x80000 then
    if o < 0x2000 then (tsPage s (o / 0x400), o % 0x400)
    else if o < 0x3000 then (tsDevice s, o - 0x2000)
    else if o < 0x3080 then ([reg o (alertWord s.ts.qalert ((o - 0x3000) / 4))], o)
    else if 0x3100 ≤ o ∧ o < 0x3300 then ([reg o (alertWord s.ts.malert ((o - 0x3100) / 4))], o)
    else if 0x8000 ≤ o then
      let x := tsPortOf s ((o - 0x8000) / 0x1000)
      ([reg o (listWord (if o % 0x1000 < 0x800 then x.running else x.armed) (o % 0x800 / 4) portEntryWord)], o)
    else ([], o)
  else if off < 0x90000 then
    if o < 0x4000 then (cfPage s (o / 0x1000), o % 0x1000) else ([reg 0x8000 (nodeWord s)], o)
  else if off < 0xA0000 then (tkPage s 0, o)
  else if off < 0xB0000 then (pmuPage s, o)
  else (ltrPage s, o)

/-- PF0 BAR0 from 0x0C_0000: MSI-X and the table windows. -/
def pfHigh (s : State) (off : Nat) : Located :=
  if off < 0xC1000 then (msixPage s 0 false (off - 0xC0000), off - 0xC0000)
  else if off < 0xC2000 then (msixPage s 0 true (off - 0xC1000), off - 0xC1000)
  else if 0x100000 ≤ off ∧ off < 0x180000 then
    ([wordAt (off / 64 * 64) off (shadowDesc s ((off - 0x100000) / 64))], off)
  else if 0x180000 ≤ off ∧ off < 0x200000 then
    ([wordAt (off / 32 * 32) off (entryBytes (surfOwner s ((off - 0x180000) / 32)) (surfOf s ((off - 0x180000) / 32)))], off)
  else if 0x200000 ≤ off ∧ off < 0x320000 then (coefPage s (off - 0x200000), off - 0x200000)
  else ([], off)

/-- BAR0 of VF f. -/
def vfBar0 (s : State) (f off : Nat) : Located :=
  if off < 0x1000 then (vfPage s f, off)
  else if off < 0x2000 then
    if off < 0x1200 then (qpGroup s f ((off - 0x1000) / 0x40), off % 0x40) else ([], off)
  else if off < 0x3000 then
    if off < 0x2100 then (targetGroup s (4 + 4 * f + (off - 0x2000) / 0x40), off % 0x40) else ([], off)
  else if off < 0x3800 then (msixPage s f false (off - 0x3000), off - 0x3000)
  else if off < 0x4000 then (msixPage s f true (off - 0x3800), off - 0x3800)
  else ([], off)

/-- The registers around an offset of function f's BAR0. -/
def located (s : State) (f off : Nat) : Located :=
  if f ≠ 0 then vfBar0 s f off
  else if off < 0x40000 then pfLow s off
  else if off < 0xC0000 then pfMid s off
  else pfHigh s off

/-- The word that a function reads at an offset, its effects left out. -/
def liveWord (s : State) (f off : Nat) : Nat := regWord (located s f off).1 (located s f off).2

end Sys2Proof.Machine
end

