-- ==== Sys2Proof/Machine/RegAccess.lean ====
section
/-! DEFINITION. Register accesses of host software through BAR0 (chapter 17): holding registers of 64-bit
pairs (R14), access codes (R15), access widths (R607), offsets without a register (R608), and what may be
reached before the device is READY (R541). -/
namespace Sys2Proof.Machine
open Sys2Proof

/-! ### Reads (R14, R15, R454, R528, R607) -/

/-- Before READY, PF0 reaches the DEV and PMU pages, and a VF its status page. -/
def earlyPage (f off : Nat) : Bool :=
  if f = 0 then decide (off < 0x4000 ∨ (0xA0000 ≤ off ∧ off < 0xB0000)) else decide (off < 0x1000)

/-- The event target whose EVC_TCLAIM stands at an offset of function f's BAR0. -/
def claimTarget (f off : Nat) : Option Nat :=
  if f = 0 then
    (if 0xC000 ≤ off ∧ off < 0xD100 ∧ off % 0x40 = 0 then some ((off - 0xC000) / 0x40) else none)
  else if 0x2000 ≤ off ∧ off < 0x2100 ∧ off % 0x40 = 0 then some (4 + 4 * f + (off - 0x2000) / 0x40) else none

/-- Change one target's record if function f holds the target (R528). -/
def ofTarget (f tg : Nat) (g : EvcTgt → EvcTgt) (s : State) : State :=
  if tgtHolder s tg = f then putTgt tg (g (tgtOf s tg)) s else s

/-! An RC register that is read keeps what events of the same tick added to it (R17): `keep` maps its count and the
count as the tick began to what stays. The value read includes them (DESIGN CHOICE, notes/assumptions/25.md). A
high-water mark starts again from the present level. -/

/-- What stays of a count. Once cleared in a tick it holds only that tick's events, and they stay. -/
def keepNow (s : State) (key now prior : Nat) : Nat := if s.prior.cleared.contains key then now else now - prior

/-- Clear an RC register of a raster's page. -/
def clearRgRc (keep : Nat → Nat → Nat) (k o : Nat) (s : State) : State :=
  let r := Tbl.get s.prior.rg.rasters {} k
  let c := Tbl.get s.prior.rg.crystals {} k
  if o = 0x020 then putRaster k { rasterOf s k with cdefer := keep (rasterOf s k).cdefer r.cdefer } s
  else if o = 0x02C then putRaster k { rasterOf s k with sdrop := keep (rasterOf s k).sdrop r.sdrop } s
  else if o = 0x80C then putCrystal k { crystalOf s k with misCnt := keep (crystalOf s k).misCnt c.misCnt } s
  else if o = 0x810 then putCrystal k { crystalOf s k with unchk := keep (crystalOf s k).unchk c.unchk } s
  else if o = 0xC08 ∧ k < 4 then
    putDp k { dpOf s k with retrain := keep (dpOf s k).retrain (Tbl.get s.prior.rg.dps {} k).retrain } s
  else s

/-- Clear an RC register of an Ethernet port's page. -/
def clearNeRc (keep : Nat → Nat → Nat) (p o : Nat) (s : State) : State :=
  let x := ethOf s p
  let y := Tbl.get s.prior.ne.ports {} p
  if o = 0x038 then putEth p { x with fecunc := keep x.fecunc y.fecunc } s
  else if o = 0x03C then putEth p { x with rxerr := keep x.rxerr y.rxerr } s
  else if o = 0x040 then putEth p { x with rxnoflow := keep x.rxnoflow y.rxnoflow } s
  else if o = 0x044 then putEth p { x with fwdrop := keep x.fwdrop y.fwdrop } s
  else if o = 0x048 then putEth p { x with txdrop := keep x.txdrop y.txdrop } s
  else if o = 0x04C then putEth p { x with retrain := keep x.retrain y.retrain } s
  else s

/-- Clear an RC register of a link's page. -/
def clearCfRc (keep : Nat → Nat → Nat) (k o : Nat) (s : State) : State :=
  let x := linkOf s k
  let y := Tbl.get s.prior.cf.links {} k
  if o = 0x018 then putLink k { x with fecunc := keep x.fecunc y.fecunc } s
  else if o = 0x01C then putLink k { x with retrain := keep x.retrain y.retrain } s
  else if o = 0x020 then putLink k { x with replayCnt := keep x.replayCnt y.replayCnt } s
  else if o = 0x024 then putLink k { x with badflit := keep x.badflit y.badflit } s
  else s

/-- Clear the count of discarded BAR2 accesses of a function. -/
def clearDenied (keep : Nat → Nat → Nat) (f : Nat) (s : State) : State :=
  { s with host := { s.host with
    denied := Tbl.set s.host.denied f (keep (Tbl.get s.host.denied 0 f) (Tbl.get s.prior.host.denied 0 f)) } }

/-- Clear the count of deliveries of a target that function f holds. -/
def clearDeliv (keep : Nat → Nat → Nat) (f tg : Nat) (s : State) : State :=
  ofTarget f tg (fun g => { g with deliv := keep g.deliv (Tbl.get s.prior.evc.tgt {} tg).deliv }) s

/-- Clear the RC fields at an offset of PF0 BAR0 below 0x05_0000. -/
def clearLowRc (keep : Nat → Nat → Nat) (off : Nat) (s : State) : State :=
  if 0x80 ≤ off ∧ off < 0xC0 then clearDenied keep ((off - 0x80) / 4) s
  else if off = 0x100 then { s with key := { s.key with fails := keep s.key.fails s.prior.key.fails } }
  else if off = 0x4404 then { s with cp := { s.cp with hwm := fifoLevel s } }
  else if off = 0x4408 then { s with cp := { s.cp with routeLate := keep s.cp.routeLate s.prior.cp.routeLate } }
  else if off = 0x8004 then { s with evc := { s.evc with merges := keep s.evc.merges s.prior.evc.merges } }
  else if 0xC000 ≤ off ∧ off < 0xD100 ∧ off % 0x40 = 0x1C then clearDeliv keep 0 ((off - 0xC000) / 0x40) s
  else if 0x10000 ≤ off ∧ off < 0x20000 then clearRgRc keep (off / 0x1000 % 16) (off % 0x1000) s
  else if 0x20000 ≤ off ∧ off < 0x30000 then
    let k := off / 0x1000 % 16
    if off % 0x1000 = 0x014 then putSlice k { sliceOf s k with poolHwm := 0 } s
    else if off % 0x1000 = 0x018 then
      putSlice k { sliceOf s k with wdenied := keep (sliceOf s k).wdenied (Tbl.get s.prior.rg.slices {} k).wdenied } s
    else s
  else s

/-- Clear the RC fields at an offset of PF0 BAR0 from 0x05_0000 on. -/
def clearHighRc (keep : Nat → Nat → Nat) (off : Nat) (s : State) : State :=
  let y := s.prior
  if off = 0x50024 then { s with bl := { s.bl with faults := keep s.bl.faults y.bl.faults } }
  else if 0x60000 ≤ off ∧ off < 0x68000 then clearNeRc keep (off / 0x1000 % 8) (off % 0x1000) s
  else if off = 0x68004 then { s with ne := { s.ne with ibufHwm := ibufKib s } }
  else if off = 0x68008 then { s with ne := { s.ne with ibovf := keep s.ne.ibovf y.ne.ibovf } }
  else if 0x70000 ≤ off ∧ off < 0x72000 ∧ off % 0x400 = 0x28 then
    let p := off / 0x400 % 8
    putTsPort p { tsPortOf s p with nofit := keep (tsPortOf s p).nofit (Tbl.get y.ts.ports {} p).nofit } s
  else if off = 0x72004 then { s with ts := { s.ts with ebufHwm := ebufLevel s } }
  else if 0x80000 ≤ off ∧ off < 0x84000 then clearCfRc keep (off / 0x1000 % 4) (off % 0x1000) s
  else if off = 0x9001C then
    { s with tk := { s.tk with alignErr := keep s.tk.alignErr y.tk.alignErr, alignSeen := 0 } }
  else if off = 0x9002C then { s with tk := { s.tk with steps := keep s.tk.steps y.tk.steps } }
  else if off = 0xA000C then { s with pmu := { s.pmu with tjHwm := s.pmu.tj } }
  else if off = 0xB0018 then { s with rel := { s.rel with parityCnt := keep s.rel.parityCnt y.rel.parityCnt } }
  else s

/-- Clear the RC fields of the register at an offset of function f's BAR0 (R15, R17, R613). -/
def clearRc (f off : Nat) (s : State) : State :=
  let key := f * 2 ^ 23 + off
  let keep := keepNow s key
  let s' := if f = 0 then (if off < 0x50000 then clearLowRc keep off s else clearHighRc keep off s)
    else if off = 0x008 then clearDenied keep f s
    else if 0x2000 ≤ off ∧ off < 0x2100 ∧ off % 0x40 = 0x1C then clearDeliv keep f (4 + 4 * f + (off - 0x2000) / 0x40) s
    else s
  { s' with prior := { s'.prior with cleared := insertNat key s'.prior.cleared } }

/-- The word a read of one register returns, and its side effects: a claim, or the clearing of RC fields. -/
def readWord (f off : Nat) (s : State) : Nat × State :=
  match claimTarget f off with
  | some tg => if tgtHolder s tg = f then claimRead tg s else (0, s)
  | none => (liveWord s f off, clearRc f off s)

/-- The key of the holding register of function f for the pair whose low word is at an offset. -/
def holdKey (f off : Nat) : Nat := f * 2 ^ 23 + off

/-- The low word of a pair is read: its high word goes into the holding register, and with TK_TIME_LO the
tenths (R454). -/
def captureHigh (f off : Nat) (s : State) : State :=
  let s1 := { s with host := { s.host with
    holding := Tbl.set s.host.holding (holdKey f off) (liveWord s f (off + 4)) } }
  if f = 0 ∧ off = 0x90000 then { s1 with host := { s1.host with tkSub := Tbl.set s1.host.tkSub f (tenths s) } }
  else s1

/-- An offset is the low word (or with `high` the high word) of a pair. -/
def inPair (s : State) (f off : Nat) (high : Bool) : Bool :=
  isPairWord (located s f off).1 high (located s f off).2

/-- A 4-byte read: the word and the state after it. -/
def readOne (f off : Nat) (s : State) : Nat × State :=
  if inPair s f off false then (liveWord s f off, captureHigh f off s)
  else if inPair s f off true then
    match Tbl.find? s.host.holding (holdKey f (off - 4)) with
    | some v => (v, { s with host := { s.host with holding := Tbl.del s.host.holding (holdKey f (off - 4)) } })
    | none => (liveWord s f off, s)
  else readWord f off s

/-- The enabled bytes of a word, the others as zero. -/
def enabledBytes (be v : Nat) : Nat :=
  sumOf ((List.range 4).map fun i => if tbit be i then bits v (8 * i + 7) (8 * i) * 2 ^ (8 * i) else 0)

/-- A read of function f's BAR0 with byte enables: bits 3:0 for the register at the offset; with a bit of 7:4
set it is an 8-byte read, of two registers in one cycle, that leaves the holding registers alone. -/
def readRegister (f off be : Nat) (s : State) : State :=
  if 16 ≤ be then
    let o := off / 8 * 8
    let low := readWord f o s
    let high := readWord f (o + 4) low.2
    let highWord := if (claimTarget f (o + 4)).isSome then high.1 else liveWord s f (o + 4)
    emit (.readData f (low.1 + highWord * 2 ^ 32)) high.2
  else
    let r := readOne f (off / 4 * 4) s
    emit (.readData f (enabledBytes be r.1)) r.2

/-- A read of function f's BAR0; where the device may not be reached yet it returns zero (R541). -/
def readAccess (t : Ticks) (f off be : Nat) (s : State) : Host.Outcome State Fault Refusal :=
  regAccess t f (fun s => if f < 16 then readRegister f off be s else s)
    (fun s => if earlyPage f off then readRegister f off be s else emit (.readData f 0) s) s

/-- RC_REGISTER_READ: a read at an offset of function f's BAR0 that clears what it returns. -/
def execRcRegisterRead (t : Ticks) (f off be : Nat) (s : State) : Host.Outcome State Fault Refusal :=
  readAccess t f off be s

/-- PAIR_LOW_READ: a read of the low word of a pair. -/
def execPairLowRead (t : Ticks) (f off be : Nat) (s : State) : Host.Outcome State Fault Refusal :=
  readAccess t f off be s

/-- PAIR_HIGH_READ: a read of the high word of a pair. -/
def execPairHighRead (t : Ticks) (f off be : Nat) (s : State) : Host.Outcome State Fault Refusal :=
  readAccess t f off be s

/-! ### Writes (R15, R47, R500, R607, R614) -/

/-- What a write of v to a W1C register leaves of its bits n: a bit that an event has set in this tick stays (R17). -/
def clearBits (s : State) (key n v : Nat) : Nat :=
  let w := Nat.land n v
  n - (w - Nat.land w (setNow s key))

/-- What a write of v to the W1C bit i of a register leaves of it. -/
def clearFlag (s : State) (key i v : Nat) (old : Bool) : Bool := old && (!tbit v i || tbit (setNow s key) i)

/-- The low word of a pair is replaced. -/
def setLow (n v : Nat) : Nat := n / 2 ^ 32 * 2 ^ 32 + v % 2 ^ 32
/-- The high word of a pair is replaced. -/
def setHigh (n v : Nat) : Nat := n % 2 ^ 32 + v % 2 ^ 32 * 2 ^ 32

/-- A write of a queue pair's register group (R46 to R53). -/
def writeQp (f q o v : Nat) (s : State) : State :=
  let x := qpOf s f q
  let free := !x.enable && !x.running
  if o = 0x14 then writeQctl f q v s
  else if o = 0x1C then submitDoorbell f q v s
  else if o = 0x20 then replyDoorbell f q v s
  else if !free then s
  else if o = 0x00 then putQp f q { x with sbase := setLow x.sbase v } s
  else if o = 0x04 then putQp f q { x with sbase := setHigh x.sbase v } s
  else if o = 0x08 then putQp f q { x with rbase := setLow x.rbase v } s
  else if o = 0x0C then putQp f q { x with rbase := setHigh x.rbase v } s
  else if o = 0x10 then putQp f q { x with slog2 := bits v 3 0, rlog2 := bits v 11 8 } s
  else s

/-- A write of a target's register group (R528). -/
def writeTarget (f tg o v : Nat) (s : State) : State :=
  if o = 0x04 then completeBy f tg v s
  else if o = 0x08 then ofTarget f tg (fun g => { g with thresh := bits v 3 0 }) s
  else if o = 0x0C then writeTctl f tg v s
  else if o = 0x10 then ofTarget f tg (fun g => { g with interval := bits v 15 0, count := bits v 23 16 }) s
  else if o = 0x14 then ofTarget f tg (fun g => { g with badcomp := clearFlag s (tstatKey tg) 13 v g.badcomp }) s
  else s

/-- A write of the page of RG k (R296, R340). -/
def writeRg (k o v : Nat) (s : State) : State :=
  if o = 0x000 then writeCommit k v s
  else if o = 0x024 then putRaster k { rasterOf s k with alert := clearBits s (rgAlertKey k) (rasterOf s k).alert (bits v 6 0) } s
  else if o = 0x800 then
    let c := crystalOf s k
    putCrystal k { c with mismatch := clearFlag s (cryStatKey k) 5 v c.mismatch,
                           subst := clearFlag s (cryStatKey k) 6 v c.subst } s
  else s

/-- A write of the BL page (R478). -/
def writeBl (o v : Nat) (s : State) : State :=
  if o = 0x000 then
    { s with bl := { s.bl with accFault := clearFlag s 0x50000 2 v s.bl.accFault
                               listErr := clearFlag s 0x50000 3 v s.bl.listErr } }
  else if o = 0x008 then { s with bl := { s.bl with laddr := setLow s.bl.laddr v } }
  else if o = 0x00C then { s with bl := { s.bl with laddr := setHigh s.bl.laddr (bits v 7 0) } }
  else if o = 0x010 then writeLctl v s
  else if o = 0x014 then { s with bl := { s.bl with lcount := bits v 16 0 } }
  else s

/-- A write of the register group of HD channel c (R481, R495, R500, R503). -/
def writeHdChan (c o v : Nat) (s : State) : State :=
  let x := hdOf s c
  if 12 ≤ c then s
  else if o = 0x04 then putHd c { x with cqOvf := clearFlag s (hdStatKey c) 3 v x.cqOvf } s
  else if o = 0x08 then (if x.st = .idle then putHd c { x with chead := setLow x.chead v } s else s)
  else if o = 0x0C then
    (if x.st = .idle then putHd c { x with chead := setHigh x.chead (setBit (v % 2 ^ 32) 30 false) } s else s)
  else if o = 0x10 then
    let s := if tbit v 0 then startChain c s else s
    if tbit v 1 then abortChain c s else s
  else if o = 0x14 then putHd c { x with limit := bits v 20 0 } s
  else if o = 0x2C then
    let old := if x.ciAt = some s.clk.ticks then x.ciOld else x.cqci
    putHd c { x with cqci := bits v 15 0, ciOld := old, ciAt := some s.clk.ticks } s
  else if o = 0x30 then putHd c { x with ctmo := bits v 19 0 } s
  else s

/-- A write of the HD page. -/
def writeHd (o v : Nat) (s : State) : State :=
  if o = 0x000 then { s with hd := { s.hd with reqOvf := clearFlag s 0x58000 5 v s.hd.reqOvf } }
  else if o = 0x004 then writeReqset v s
  else if 0x100 ≤ o ∧ o < 0x500 then writeHdChan ((o - 0x100) / 0x40) ((o - 0x100) % 0x40) v s
  else s

/-- A write of the PMU page (R540, R563). -/
def writePmu (o v : Nat) (s : State) : State :=
  let p := s.pmu
  if o = 0x004 then { s with pmu := { p with thermtrip := clearFlag s 0xA0004 4 v p.thermtrip } }
  else if o = 0x01C then { s with pmu := { p with pinned := clearBits s 0xA001C p.pinned (bits v 3 0) } }
  else if o = 0x020 then { s with pmu := { p with clamp := clearBits s 0xA0020 p.clamp (bits v 1 0) } }
  else if o = 0x040 then
    if p.stage ≠ 6 then s
    else
      let s := { s with pmu := { p with page := bits v 8 0, done := p.done || tbit v 17 } }
      if tbit v 16 then commitPage s else s
  else if 0x8000 ≤ o ∧ p.stage = 6 then
    { s with pmu := { p with window := Tbl.set p.window ((o - 0x8000) / 4) (v % 2 ^ 32) } }
  else s

/-- A write of word i of a function's MSI-X table (R609). -/
def writeMsix (f i v : Nat) (s : State) : State :=
  let x := msixOf s f (i / 4)
  if i % 4 = 0 then putMsix f (i / 4) { x with addr := setLow x.addr v } s
  else if i % 4 = 1 then putMsix f (i / 4) { x with addr := setHigh x.addr v } s
  else if i % 4 = 2 then putMsix f (i / 4) { x with data := v % 2 ^ 32 } s
  else writeMsixCtl f (i / 4) v s

/-- A write of PF0 BAR0 below 0x04_0000. -/
def writeLow (off v : Nat) (s : State) : State :=
  if off = 0x030 then
    { s with host := { s.host with
        accErr := setBit s.host.accErr 0 (clearFlag s (accErrKey 0) 5 v (tbit s.host.accErr 0)) } }
  else if 0x040 ≤ off ∧ off < 0x050 then
    { s with host := { s.host with scratch := Tbl.set s.host.scratch ((off - 0x40) / 4) (v % 2 ^ 32) } }
  else if 0x4000 ≤ off ∧ off < 0x4200 then writeQp 0 ((off - 0x4000) / 0x40) (off % 0x40) v s
  else if off = 0x4400 then { s with cp := { s.cp with routeTmo := bits v 19 0 } }
  else if off = 0x8000 then writeGctl 0 v s
  else if off = 0x8008 then writeSwset 0 v s
  else if 0xC000 ≤ off ∧ off < 0xD100 then writeTarget 0 ((off - 0xC000) / 0x40) (off % 0x40) v s
  else if 0x10000 ≤ off ∧ off < 0x20000 then writeRg (off / 0x1000 % 16) (off % 0x1000) v s
  else if 0x20000 ≤ off ∧ off < 0x30000 ∧ off % 0x1000 = 0x004 then
    let k := off / 0x1000 % 16
    putSlice k { sliceOf s k with stat := clearBits s (csStatKey k) (sliceOf s k).stat (bits v 6 0) } s
  else s

/-- A write of PF0 BAR0 from 0x05_0000 to 0x0C_0000. -/
def writeMid (off v : Nat) (s : State) : State :=
  if off < 0x58000 then writeBl (off - 0x50000) v s
  else if off < 0x60000 then writeHd (off - 0x58000) v s
  else if 0x69000 ≤ off ∧ off < 0x69200 then
    { s with ne := { s.ne with alertI := clearBits s 0x69000 s.ne.alertI (v * 2 ^ (8 * (off - 0x69000))) } }
  else if 0x69200 ≤ off ∧ off < 0x69280 then
    { s with ne := { s.ne with alertE := clearBits s 0x69200 s.ne.alertE (v * 2 ^ (8 * (off - 0x69200))) } }
  else if off = 0x72000 then { s with ts := { s.ts with ythresh := bits v 12 0 } }
  else if 0x72010 ≤ off ∧ off < 0x72020 then
    { s with ts := { s.ts with dscpcol := Tbl.set s.ts.dscpcol ((off - 0x72010) / 4) (v % 2 ^ 32) } }
  else if 0x73000 ≤ off ∧ off < 0x73080 then
    { s with ts := { s.ts with qalert := clearBits s 0x73000 s.ts.qalert (v * 2 ^ (8 * (off - 0x73000))) } }
  else if 0x73100 ≤ off ∧ off < 0x73300 then
    { s with ts := { s.ts with malert := clearBits s 0x73100 s.ts.malert (v * 2 ^ (8 * (off - 0x73100))) } }
  else if off = 0x90020 then { s with tk := { s.tk with alignThr := bits v 15 0 } }
  else if 0xA0000 ≤ off ∧ off < 0xB0000 then writePmu (off - 0xA0000) v s
  else if off = 0xB0000 then { s with rel := { s.rel with ltrFault := clearFlag s 0xB0000 8 v s.rel.ltrFault } }
  else s

/-- A write of one whole register of function f's BAR0; what no register takes is ignored (R15, R608). -/
def writeOne (f off v : Nat) (s : State) : State :=
  if f = 0 then
    if off < 0x50000 then writeLow off v s
    else if off < 0xC0000 then writeMid off v s
    else if off < 0xC0040 then writeMsix 0 ((off - 0xC0000) / 4) v s
    else if 0x100000 ≤ off ∧ off < 0x180000 then windowWrite off v s
    else s
  else if off = 0x004 then
    { s with host := { s.host with accErr := setBit s.host.accErr f (clearFlag s (accErrKey f) 5 v (tbit s.host.accErr f)) } }
  else if 0x1000 ≤ off ∧ off < 0x1200 then writeQp f ((off - 0x1000) / 0x40) (off % 0x40) v s
  else if 0x2000 ≤ off ∧ off < 0x2100 then writeTarget f (4 + 4 * f + (off - 0x2000) / 0x40) (off % 0x40) v s
  else if 0x3000 ≤ off ∧ off < 0x3040 then writeMsix f ((off - 0x3000) / 4) v s
  else s

/-- A narrow write is ignored and sets ACCESS_ERR; source 13 as the bit goes to 1 (R509, R607). -/
def narrowWrite (f : Nat) (s : State) : State :=
  let s := noteSet (accErrKey f) 5 s
  if tbit s.host.accErr f then s
  else raise 13 { s with host := { s.host with accErr := setBit s.host.accErr f true } }

/-- A write with byte enables. -/
def writeRegister (f off be v : Nat) (s : State) : State :=
  if be % 16 = 15 then writeOne f (off / 4 * 4) (v % 2 ^ 32) s else narrowWrite f s

/-- REGISTER_WRITE: a write of at most 4 bytes at an offset of function f's BAR0. -/
def execRegisterWrite (t : Ticks) (f off be v : Nat) (s : State) : Host.Outcome State Fault Refusal :=
  regAccess t f (fun s => if f < 16 then writeRegister f off be v s else s)
    (fun s => if earlyPage f off then writeRegister f off be v s else s) s

end Sys2Proof.Machine
end

