-- ==== Sys2Proof/Machine/HostPort.lean ====
section
/-! DEFINITION. The PCIe functions (chapter 17): BAR2 (R139 to R141, R605), configuration bits (R597 to R603),
function-level resets (R551 to R553, R599), PERST_N, hot reset and the link (R534, R535, R594, R600). -/
namespace Sys2Proof.Machine
open Sys2Proof

/-! ### BAR2 (R33, R140, R142, R282, R571, R605) -/

/-- The check of a granule that a BAR2 access of function f reaches. -/
def bar2Allowed (s : State) (f : Nat) (write : Bool) (a : Nat) : Bool :=
  decide (a < deviceTop s) && match surfaceAt s a with
    | some (i, x) =>
      (surfOwner s i == f || (!write && f == 0)) && (!write || !x.crystal || isUnlocked s)
    | none => false

/-- A BAR2 access of function f is denied: its counter saturates; source 12 as it leaves 0. -/
def denyBar2 (f : Nat) (s : State) : State :=
  let n := deniedOf s f
  let s' := { s with host := { s.host with denied := Tbl.set s.host.denied f (sat 32 (n + 1)) } }
  if n = 0 then raise 12 s' else s'

/-- An access of BAR2 reaches memory (R142): the write is done, or the read answered. -/
def bar2Do (x : Bar2Op) (s : State) : State :=
  if x.write then memWrite x.addr x.data (noteRace x.addr x.data.length s)
  else if fencedAt s x.addr then emit (.ur x.func) s
  else emit (.bar2Data x.func (memRead s x.addr x.len) (sectorBad s x.addr x.len)) (countRead x.addr x.len s)

/-- An access in class C6: behind an earlier access of its function that waits, and until its channel serves the
class, it waits itself (R141, R561). -/
def bar2Post (x : Bar2Op) (s : State) : State :=
  if s.host.posted.any (fun y => y.func == x.func) || !channelServes s 6 (channelOf s x.addr) then
    { s with host := { s.host with posted := s.host.posted ++ [x] } }
  else bar2Do x s

/-- The accesses that wait go on where memory serves them. -/
def drainBar2 (s : State) : State :=
  forAll s.host.posted bar2Post { s with host := { s.host with posted := [] } }

/-- A posted write of bytes that lie in one granule. -/
def bar2WriteRun (f a : Nat) (b : List Byte) (s : State) : State :=
  if !bar2Allowed s f true a then denyBar2 f s
  else bar2Post ⟨f, a, true, b, b.length, s.clk.ticks⟩ s

/-- A read of n bytes that lie in one granule. A read that waits too long ends in the time-out of the requester, which
the device does not see (R162, R561). -/
def bar2ReadRun (f a n : Nat) (s : State) : State :=
  if !bar2Allowed s f false a then emit (.ur f) (denyBar2 f s)
  else bar2Post ⟨f, a, false, [], n, s.clk.ticks⟩ s

/-- A BAR2 request of function f at an offset within its BAR. -/
def bar2Access (t : Ticks) (f off : Nat) (act : State → State) (s : State) : Host.Outcome State Fault Refusal :=
  let s := advance t s
  .next (if !(f < 16 && hostReaches s f && decide (off < bar2Size s f)) then s
    else if !mseOf s f then emit (.ur f) s
    else act s)

/-- BAR2_WRITE: function f's BAR2 takes a posted write at an offset. -/
def execBar2Write (t : Ticks) (f off : Nat) (data : List Byte) (s : State) : Host.Outcome State Fault Refusal :=
  bar2Access t f off (fun s =>
    forAll (runsOf off data.length) (fun r s => bar2WriteRun f r.1 ((data.drop (r.1 - off)).take r.2) s) (drainBar2 s)) s

/-- BAR2_READ: a read of function f's BAR2. -/
def execBar2Read (t : Ticks) (f off len : Nat) (s : State) : Host.Outcome State Fault Refusal :=
  bar2Access t f off (fun s => forAll (runsOf off len) (fun r s => bar2ReadRun f r.1 r.2 s) (drainBar2 s)) s

/-- BAR2_ATOMICOP: denied, with Unsupported Request. -/
def execBar2Atomicop (t : Ticks) (f off : Nat) (s : State) : Host.Outcome State Fault Refusal :=
  bar2Access t f off (fun s => emit (.ur f) (denyBar2 f s)) s

/-! ### Function-level reset (R86, R471, R501, R525, R551, R552) -/

/-- A packet of function f, from this device's host or from an origin device. -/
def isOf (f : Nat) (o : Option Nat) (e : Entry) : Bool := e.pkt.func == f && e.pkt.origin == o

/-- A packet that goes on without a reply or a place in OUTSTANDING. -/
def uncounted (f : Nat) (o : Option Nat) (e : Entry) : Entry := if isOf f o e then { e with counted := false } else e

/-- The packets of a function: those not taken and those waiting for their time go, the others run on and
their replies are discarded. -/
def flrPackets (f : Nat) (o : Option Nat) (s : State) : State :=
  let cp := s.cp
  let waits := fun (x : Timed) => isOf f o x.ent && decide (now s < x.ent.pkt.execTime)
  let timed := (cp.timed.filter fun x => !waits x).map fun x => { x with ent := uncounted f o x.ent }
  let routed := cp.routed.map fun x => { x with ent := uncounted f o x.ent }
  let inflight := cp.inflight.map fun x => { x with ent := uncounted f o x.ent }
  let held := cp.held.map fun x => { x with ent := uncounted f o x.ent }
  { s with cp := { cp with fifo := cp.fifo.filter fun e => !isOf f o e, timed := timed, routed := routed,
                           inflight := inflight, held := held } }

/-- The blitter's jobs: queued ones go, a running one stops at its next burst boundary. -/
def flrBlitter (f : Nat) (o : Option Nat) (s : State) : State :=
  let host := f == 0 && o.isNone
  let mine := match s.bl.job with
    | some j => isOf f o j.ent
    | none => host
  let job := s.bl.job.map fun j => { j with ent := uncounted f o j.ent }
  let s := { s with bl := { s.bl with
    queue := s.bl.queue.filter fun j => !isOf f o j.ent, job := job, regWait := s.bl.regWait && !host } }
  if !mine then s
  else
    let op := s.bl.op.map fun x => { x with stop := true }
    let list := s.bl.list.map fun l => { l with stop := true }
    let s := { s with bl := { s.bl with op := op, list := list } }
    if s.bl.op.isSome then s else endList 0x108 s

/-- A raster enters orphan hold (R552): its strike is cancelled, COMMIT clears, its pending scene goes. -/
def orphanHold (r : Nat) (s : State) : State :=
  let s := discardPending r (clearCommit r (cancelStrike r s))
  putRaster r { rasterOf s r with orphan := true } s

/-- A raster runs, is about to, or stands still for P2 only. -/
def runsOn (x : Raster) : Bool := x.st != .stopped || x.leadIn || x.waitingStart || x.restart

/-- The function's running rasters enter orphan hold. -/
def flrRasters (f : Nat) (s : State) : State :=
  forAll ((List.range 16).filter fun r => rasterOwner s r == f && !isFollower s r && runsOn (rasterOf s r)) orphanHold s

/-- What an FLR does to the items of a function that stand on any device of a node. -/
def flrItems (f : Nat) (o : Option Nat) (s : State) : State :=
  let s := evcFlr f (flrRasters f (flrBlitter f o (flrPackets f o s)))
  if f = 0 then hdFlr (endUnlock s) else s

/-- Configuration bits of a function return to their defaults; those of PF0's SR-IOV capability stay (R599). -/
def clearConfig (f : Nat) (s : State) : State :=
  let h := s.host
  { s with host := { h with bme := setBit h.bme f false, msixEn := setBit h.msixEn f false,
                            mse := if f = 0 then setBit h.mse 0 false else h.mse,
                            pfBar2 := if f = 0 then 34 else h.pfBar2 } }

/-- The queue pairs, holding registers and ACCESS_ERR of a function of this device's host. -/
def flrHost (f : Nat) (s : State) : State :=
  let s := forAll (List.range 8) (fun q s => putQp f q {} s) s
  { s with host := { s.host with
    holding := s.host.holding.filter fun e => e.1 / 2 ^ 23 != f
    posted := s.host.posted.filter fun x => x.write || x.func != f
    tkSub := Tbl.del s.host.tkSub f
    accErr := setBit s.host.accErr f false } }

/-- The anchor sends an FLR to every device of the node, to those without a route when it returns (R553). -/
def sendFlr (f : Nat) (s : State) : State :=
  if s.cf.valid && s.cf.anchor then forAll (otherMembers s) (sendFlrTo f) s else s

/-- An FLR of function f of this device's host. -/
def flrLocal (f : Nat) (s : State) : State := sendFlr f (flrHost f (flrItems f none (clearConfig f s)))

/-- Configuration requests of function f reach the device. -/
def configReaches (s : State) (f : Nat) : Bool := clocked s && s.host.linkUp && f < 16 && functionOn s f

/-- FLR: a function-level reset of function f. -/
def execFlr (t : Ticks) (f : Nat) (s : State) : Host.Outcome State Fault Refusal :=
  let s := advance t s
  .next (if configReaches s f then flrLocal f s else s)

/-- FLR_REMOTE_APPLY: an FLR of function f at the anchor `device` is applied here. -/
def execFlrRemoteApply (t : Ticks) (f device : Nat) (s : State) : Host.Outcome State Fault Refusal :=
  whenRunning t (fun s => if f < 16 then flrItems f (some device) s else s) s

/-! ### Configuration bits (R598, R601, R603) -/

/-- Replies held while Bus Master Enable was 0 are written. -/
def writeHeld (f q : Nat) (s : State) : State :=
  let h := (qpOf s f q).held
  flushCheck f q (forAll h (sendReply f q) (putQp f q { qpOf s f q with held := [] } s))

/-- The size code of a BAR2, where the new one is offered. -/
def bar2Code (old new : Nat) : Nat := if 30 ≤ new ∧ new ≤ 37 then new else old

/-- A configuration write sets a function's bits; what waited for Bus Master Enable goes out. -/
def writeConfig (f : Nat) (c : CfgWrite) (s : State) : State :=
  let h := s.host
  let s := { s with host := { h with bme := setBit h.bme f c.bme, mse := setBit h.mse f c.mse,
                                     msixEn := setBit h.msixEn f c.msixEn,
                                     pfBar2 := if f = 0 then bar2Code h.pfBar2 c.bar2 else h.pfBar2 } }
  if c.bme then msixFlush f (forAll (List.range 8) (writeHeld f) s) else s

/-- BUS_MASTER_ENABLE_CHANGE. -/
def execBusMasterEnableChange (t : Ticks) (f : Nat) (c : CfgWrite) (s : State) : Host.Outcome State Fault Refusal :=
  let s := advance t s
  .next (if configReaches s f then writeConfig f c s else s)

/-- The VFs come to exist, each with one queue pair and nothing else. -/
def enableVfs (num bar2 : Nat) (s : State) : State :=
  let h := s.host
  { s with own := { s.own with qpairs := [] }
           host := { h with vfEnable := true, numVfs := num, vfBar2 := bar2Code h.vfBar2 bar2, bme := h.bme % 2,
                            mse := h.mse % 2, msixEn := h.msixEn % 2, msix := h.msix.filter fun e => decide (e.1 < 4) } }

/-- VF_ENABLE_SET. -/
def execVfEnableSet (t : Ticks) (num bar2 : Nat) (s : State) : Host.Outcome State Fault Refusal :=
  let s := advance t s
  .next (if configReaches s 0 && !s.host.vfEnable && decide (num ≤ 15) then enableVfs num bar2 s else s)

/-- The VFs that exist. -/
def enabledVfs (s : State) : List Nat := (List.range 16).filter fun f => f != 0 && functionOn s f

/-- VF Enable goes to 0: an FLR of every VF, and their resources return to PF0. -/
def disableVfs (s : State) : State :=
  let vfs := enabledVfs s
  let s := forAll vfs returnResources (forAll vfs flrLocal s)
  let h := s.host
  { s with host := { h with vfEnable := false, bme := h.bme % 2, mse := h.mse % 2, msixEn := h.msixEn % 2,
                            msix := h.msix.filter fun e => decide (e.1 < 4) } }

/-- VF_ENABLE_CLEAR. -/
def execVfEnableClear (t : Ticks) (s : State) : Host.Outcome State Fault Refusal :=
  let s := advance t s
  .next (if configReaches s 0 && s.host.vfEnable then disableVfs s else s)

/-! ### PERST_N, hot reset and the link (R534, R535, R594, R600) -/

/-- An FLR of every function; link and configuration space are reset. -/
def linkReset (s : State) : State :=
  let s := disableVfs (flrLocal 0 s)
  { s with host := { s.host with linkUp := false, bme := 0, mse := 0, msixEn := 0, numVfs := 0, pfBar2 := 34,
                                 vfBar2 := 32 } }

/-- PERST_N_ASSERT. -/
def execPerstNAssert (t : Ticks) (s : State) : Host.Outcome State Fault Refusal :=
  let s := advance t s
  let s := if clocked s then linkReset s else s
  .next { s with pmu := { s.pmu with perstLow := true } }

/-- HOT_RESET: a hot reset or a link-down reset received on the link. -/
def execHotReset (t : Ticks) (s : State) : Host.Outcome State Fault Refusal :=
  let s := advance t s
  .next (if clocked s && s.host.linkUp then linkReset s else s)

/-- PCIE_REFCLK_LOSS: the link goes down, and nothing is reset. -/
def execPcieRefclkLoss (t : Ticks) (s : State) : Host.Outcome State Fault Refusal :=
  let s := advance t s
  .next { s with host := { s.host with linkUp := false } }

/-- PCIE_LINK_TRAINED: requests reach the device from here on; PERST_N is no longer asserted. -/
def execPcieLinkTrained (t : Ticks) (s : State) : Host.Outcome State Fault Refusal :=
  let s := advance t s
  .next (if clocked s then { s with host := { s.host with linkUp := true }, pmu := { s.pmu with perstLow := false } }
    else s)

end Sys2Proof.Machine
end

