-- ==== Sys2Proof/Machine/Transfers.lean ====
section
/-! DEFINITION. Surface transfers within a node and imports of raster streams (R434 to R436). -/
namespace Sys2Proof.Machine
open Sys2Proof

/-! ### SURFACE_TRANSFER -/

/-- Another transfer or import is bound to a surface of this device. -/
def cfBound (s : State) (surf : Nat) : Bool :=
  s.cf.imports.any (fun e => e.2.surface == surf) || s.cf.xfersIn.any (fun e => e.2.surface == surf)

/-- The readable slot of a surface with a SEQ, or NEWEST for 0. -/
def slotBySeq (x : Surface) (seq : Nat) : Option Nat :=
  if seq = 0 then (if x.newest = noSlot || x.lost then none else some x.newest)
  else (readableSlots x).find? fun k => (slotOf x k).seq == seq

/-- A free transfer context of the 64. -/
def freeCtx (s : State) : Option Nat := (List.range 64).find? fun c => (xferOf s c).isNone

/-- Fields of SURFACE_TRANSFER. -/
def transferBits : Fields := [(0, 1, 3), (2, 2, 0x3FFF), (4, 1, 0xF), allBits 8 4, allBits 12 4]

/-- KIND ONCE and FOLLOW: checks of R434 on this device, then XFER_HDR goes out. -/
def startTransfer (p : Packet) (s : State) (follow : Bool) : Res :=
  let i := prmb p 2 2 13 0
  let sf := surfOf s i
  let handle := prm p 8 4
  let dev := handle / 16384
  match slotBySeq sf (if follow then 0 else prm p 12 4), freeCtx s with
  | slot, ctx =>
    require sf.valid badParam <|
    require (!sf.crystal) (bad 0x10E) <|
    require (slot.isSome && s.cf.valid && dev != s.cf.devid && dev / 64 == s.cf.devid / 64
      && decide (dev % 64 < nodeSize s)) badParam <|
    match slot, ctx with
    | some k, some c =>
      require (firstHop s dev).isSome (bad 0x109) <|
        .pend (xferUnit c) (startXfer c k
          { follow := follow, surface := i, handle := handle, func := p.func, seq := 0 } s)
    | _, _ => noResource

/-- KIND STOP: a FOLLOW transfer ends after the slot in progress (R435). -/
def stopTransfer (p : Packet) (s : State) : Res :=
  match Tbl.first? s.cf.xfers fun _ x => x.follow && x.surface == prmb p 2 2 13 0 && x.handle == prm p 8 4 with
  | none => badParam
  | some (c, x) => okay (if x.slot.isNone then dropXfer c s else putXfer c { x with stop := true } s)

/-- KIND IMPORT: IMPORT is bound to a local surface (R436). -/
def bindImport (p : Packet) (s : State) : Res :=
  let i := prmb p 2 2 13 0
  let n := prmb p 4 1 3 0
  let sf := surfOf s i
  let others := s.cf.imports.filter fun e => e.1 != n
  require (!(sf.valid && sf.crystal)) (bad 0x10E) <|
  require (sf.valid && sf.writer == 3) badParam <|
  require (!(others.any fun e => e.2.surface == i) && !(s.cf.xfersIn.any fun e => e.2.surface == i)) busy <|
    let m : Import := { surface := i, device := prmb p 8 4 17 0 }
    okay { s with cf := { s.cf with imports := Tbl.set s.cf.imports n m } }

/-- SURFACE_TRANSFER. -/
def surfaceTransferBody (p : Packet) (s : State) : Res :=
  require (onlyBits p transferBits) badParam <|
  match prmb p 0 1 1 0 with
  | 0 => startTransfer p s false
  | 1 => startTransfer p s true
  | 2 => stopTransfer p s
  | _ => bindImport p s

def specSurfaceTransfer : CmdSpec :=
  { opcode := 0x905, owns := fun p s => surfOwner s (prmb p 2 2 13 0) == p.func, body := surfaceTransferBody }
/-- SURFACE_TRANSFER. -/
def execSurfaceTransfer (t : Ticks) (p : Packet) (s : State) := runPacket specSurfaceTransfer t p s

/-! ### The destination -/

/-- The destination of a transfer answers its source: context, published, status and RESULT0 (R434). -/
def answerXfer (dev ctx : Nat) (published : Bool) (status r0 : Nat) (s : State) : State :=
  sendMsg dev (.xferAnswer s.cf.devid ctx published status r0) s

/-- Checks of R434 on the destination. -/
def xferStatus (s : State) (key surf : Nat) (src : SrcInfo) : Nat :=
  let x := surfOf s surf
  if surfOwner s surf ≠ src.func then 0x106
  else if !x.valid then 0x101
  else if x.crystal then 0x10E
  else if x.writer ≠ 3 ∨ x.format ≠ src.format ∨ x.comp ≠ src.comp ∨ x.budget ≠ src.budget
      ∨ x.widthM1 ≠ src.widthM1 ∨ x.heightM1 ≠ src.heightM1 ∨ x.pitch ≠ src.pitch then 0x101
  else if s.cf.imports.any (fun e => e.2.surface == surf)
      || s.cf.xfersIn.any (fun e => e.1 != key && e.2.surface == surf) then 0x107
  else 0

/-- XFER_HDR arrives: the destination checks it and answers; with no write slot the frame is discarded
and the answer is BUSY. -/
def xferHeader (x : FlitRx) (src : SrcInfo) (s : State) : State :=
  let ctx := x.tagw / 2 ^ 26
  let dev := rdBE x.payload 0 3
  let handle := rdBE x.payload 8 4
  let surf := handle % 16384
  let key := dev * 64 + ctx
  let st := if handle / 16384 = s.cf.devid then xferStatus s key surf src else 0x101
  if st ≠ 0 then answerXfer dev ctx false st 0 s
  else if (surfOf s surf).wslot = noSlot then answerXfer dev ctx false 0x107 0 (noWriteSlot surf s)
  else
    let m : XferIn := { source := dev, surface := surf, capture := rdBE x.payload 12 8 }
    answerXfer dev ctx false 0 0 (useSlot surf { s with cf := { s.cf with xfersIn := Tbl.set s.cf.xfersIn key m } })

/-- The key of a transfer this device receives. -/
def inKey (device : Nat) (x : FlitRx) : Nat := device * 64 + x.tagw / 2 ^ 26

/-- Where a chunk goes in a slot, and its bytes. -/
def chunkAt (sf : Surface) (x : FlitRx) : Nat × List Byte :=
  let off := 240 * (x.tagw % 2 ^ 26)
  (off, x.payload.take (sf.stride * 4096 - off))

/-- A chunk of a transfer is written at slot offset 240 × index. -/
def xferChunkIn (device : Nat) (x : FlitRx) (s : State) : State :=
  match Tbl.find? s.cf.xfersIn (inKey device x) with
  | none => s
  | some m =>
    let sf := surfOf s m.surface
    if m.lost then s else writeSlot sf (chunkAt sf x).1 (chunkAt sf x).2 s

/-- XFER_END: the write slot is published with the source slot's capture time. A frame that lost its slot is answered
with BUSY (DESIGN CHOICE, notes/assumptions/81.md). -/
def xferEnd (device : Nat) (x : FlitRx) (s : State) : State :=
  match Tbl.find? s.cf.xfersIn (inKey device x) with
  | none => s
  | some m =>
    let s := { s with cf := { s.cf with xfersIn := Tbl.del s.cf.xfersIn (inKey device x) } }
    if m.lost then answerXfer device (x.tagw / 2 ^ 26) true 0x107 0 s
    else
      let s := publishAuto m.surface m.capture false 0 s
      answerXfer device (x.tagw / 2 ^ 26) true 0 (surfOf s m.surface).pubSeq s

/-! ### Imports (R436) -/

/-- The frame in progress of an import is published; lines that did not arrive are LOSS. In P2 it is not
published (R545). -/
def publishImport (n : Nat) (s : State) : State :=
  match Tbl.find? s.cf.imports n with
  | none => s
  | some m =>
    if !m.active then s
    else
      let loss := m.vact - m.lines.length
      let m' := { m with active := false, parts := [], lines := [] }
      let s := { s with cf := { s.cf with imports := Tbl.set s.cf.imports n m' } }
      if quiesced s then s else publishAuto m.surface m.ft (0 < loss) loss s

/-- The stream fits the surface of an import: width, height, and format under R333. -/
def importFits (x : Surface) (b : List Byte) : Bool :=
  let dims := rdBE b 8 4
  let enc := bits (rdBE b 24 1) 1 0
  let s := 8 + 2 * bits (rdBE b 24 1) 3 2
  x.valid && sWidth x == bits dims 13 0 && sHeight x == bits dims 29 16 && formatFits x.format enc s && x.comp != 1

/-- A frame of an import begins. Without a write slot it is discarded (R134). -/
def beginImport (n : Nat) (b : List Byte) (s : State) : State :=
  match Tbl.find? s.cf.imports n with
  | none => s
  | some m =>
    let go := !quiesced s && (surfOf s m.surface).wslot != noSlot
    let c := rdBE b 24 1
    let m' := { m with active := go, ft := rdBE b 12 8, enc := bits c 1 0, depth := 8 + 2 * bits c 3 2,
                       lineLen := rdBE b 20 4, vact := bits (rdBE b 8 4) 29 16, parity := tbit (rdBE b 4 4) 0,
                       parts := [], lines := [], lastLine := s.clk.ticks }
    let s := { s with cf := { s.cf with imports := Tbl.set s.cf.imports n m' } }
    if go then useSlot m.surface s else if quiesced s then s else noWriteSlot m.surface s

/-- The import that a flit names. -/
def importOf (x : FlitRx) : Nat := x.tagw / 2 ^ 28

/-- FRAME_START: the frame before it is published, and a frame begins. A stream from another device,
for an unbound IMPORT, or that does not fit the surface is discarded and counted. -/
def frameStartIn (x : FlitRx) (s : State) : State :=
  match Tbl.find? s.cf.imports (importOf x) with
  | none => badFlit x.link s
  | some m =>
    if rdBE x.payload 0 3 ≠ m.device ∨ importFits (surfOf s m.surface) x.payload = false then badFlit x.link s
    else beginImport (importOf x) x.payload (publishImport (importOf x) s)

/-- Write a whole line of an import into its write slot, in the surface's packing. -/
def writeImportLine (m : Import) (y : Nat) (b : List Byte) (s : State) : State :=
  let sf := surfOf s m.surface
  let w := sWidth sf
  let wf := wireFormat m.enc m.depth
  let pl := if sf.format = wf then (b, []) else packLine sf.format m.depth (unpackWire wf w b)
  let s := writeSlot sf (sf.pitch * 256 * y) pl.1 s
  if pl.2.isEmpty then s
  else writeSlot sf (plane1 sf.pitch (sHeight sf) + sf.pitch * 256 * y) pl.2 s

/-- The lines of a tile row, and its tiles written when every line of it has arrived (FTC-F). -/
def importTileRow (n ty : Nat) (m : Import) (s : State) : State :=
  let sf := surfOf s m.surface
  let w := sWidth sf
  let ys := (List.range (min 16 (m.vact - 16 * ty))).map (16 * ty + ·)
  if !ys.all m.lines.contains then s
  else
    let lines := ys.map fun y => unpackWire (wireFormat m.enc m.depth) w
      ((((Tbl.get m.parts [] y).head?).map (·.2)).getD [])
    let m' := { m with parts := m.parts.filter fun e => !ys.contains e.1 }
    let s := { s with cf := { s.cf with imports := Tbl.set s.cf.imports n m' } }
    forAll (List.range (tilesX w)) (fun tx s =>
      writeSlot sf (ty * sf.pitch * 256 + tx * tileBytes sf.budget) (encodeTile sf.format sf.budget m.depth w tx lines) s) s

/-- A chunk of a line: the line is written when all of it has arrived. -/
def importChunk (n y c : Nat) (b : List Byte) (m : Import) (s : State) : State :=
  let got := (c, b) :: (Tbl.get m.parts [] y).filter fun e => e.1 != c
  let total := cdiv m.lineLen 240
  if m.vact ≤ y || m.lines.contains y then s
  else
    let full := (List.range total).all fun i => got.any fun e => e.1 == i
    let line := ((List.range total).flatMap fun i => ((got.find? fun e => e.1 == i).map (·.2)).getD []).take m.lineLen
    let ftc := (surfOf s m.surface).comp == 2
    let m := { m with lastLine := s.clk.ticks,
                      parts := if !full then Tbl.set m.parts y got
                        else if ftc then Tbl.set m.parts y [(0, line)] else Tbl.del m.parts y,
                      lines := if full then y :: m.lines else m.lines }
    let s := { s with cf := { s.cf with imports := Tbl.set s.cf.imports n m } }
    if !full then s
    else if ftc then importTileRow n (y / 16) m s
    else writeImportLine m y line s

/-- LINE_DATA: a chunk of a line from a device. -/
def lineDataIn (device : Nat) (x : FlitRx) (s : State) : State :=
  match Tbl.find? s.cf.imports (importOf x) with
  | none => badFlit x.link s
  | some m =>
    if device ≠ m.device then badFlit x.link s
    else if quiesced s || !m.active || tbit x.tagw 27 != m.parity then s
    else importChunk (importOf x) (bits x.tagw 26 13) (bits x.tagw 12 0) x.payload m s

/-! ### Class C3 (R19, R561) -/

/-- The stream a flit belongs to: a transfer, or an import. -/
def streamOf (f : InFlit) : Nat × Nat :=
  if f.flit.ty < 7 then (0, inKey f.device f.flit) else (1, importOf f.flit)

/-- What a flit of a transfer or of an import does. -/
def actFlit (f : InFlit) (s : State) : State :=
  let x := f.flit
  match x.ty with
  | 4 => match f.src with
    | some src => xferHeader x src s
    | none => s
  | 5 => xferChunkIn f.device x s
  | 6 => xferEnd f.device x s
  | 8 => frameStartIn x s
  | _ => lineDataIn f.device x s

/-- Memory serves what a flit asks of it: a chunk where it lies, a line's data where the line may lie. -/
def flitServed (s : State) (f : InFlit) : Bool :=
  let x := f.flit
  if x.ty = 5 then
    match Tbl.find? s.cf.xfersIn (inKey f.device x) with
    | some m =>
      let sf := surfOf s m.surface
      sf.wslot == noSlot || served s 3 (slotAddr sf sf.wslot + (chunkAt sf x).1) (chunkAt sf x).2.length
    | none => true
  else x.ty != 9 || servedAll s 3

/-- A flit waits: it keeps its place in the receive buffer, and its credit is not returned yet. -/
def holdFlit (f : InFlit) (s : State) : State :=
  let s := if f.held then keepCredit f.flit.link f.flit.vc s else s
  { s with cf := { s.cf with inbuf := s.cf.inbuf ++ [f] } }

/-- A flit acts, unless an earlier one of its stream waits or memory does not serve it. -/
def takeFlit (f : InFlit) (s : State) : State :=
  if s.cf.inbuf.any (fun y => streamOf y == streamOf f) || !flitServed s f then holdFlit f s else actFlit f s

/-- The place and the credit of a flit that waited. -/
def freeFlit (f : InFlit) (s : State) : State :=
  if f.held then giveBack { vc := f.flit.vc, ty := f.flit.ty, via := some f.flit.link } s else s

/-- The flits that wait go on where memory serves them. -/
def drainFlits (s : State) : State :=
  forAll s.cf.inbuf (fun f s => takeFlit f (freeFlit f s)) { s with cf := { s.cf with inbuf := [] } }

/-- A flit of a stream arrives. -/
def streamRx (t : Ticks) (ty : Nat) (f : InFlit) (s : State) : Host.Outcome State Fault Refusal :=
  whenRunning t (flitRx f.flit [ty] fun s => takeFlit f (drainFlits s)) s

/-- XFER_HDR_RX. -/
def execXferHdrRx (t : Ticks) (x : FlitRx) (src : SrcInfo) (s : State) : Host.Outcome State Fault Refusal :=
  streamRx t 4 ⟨rdBE x.payload 0 3, x, some src, true⟩ s

/-- XFER_DATA_RX: a chunk of a transfer from a device. -/
def execXferDataRx (t : Ticks) (device : Nat) (x : FlitRx) (s : State) : Host.Outcome State Fault Refusal :=
  streamRx t 5 ⟨device, x, none, true⟩ s

/-- XFER_END_RX: the end of a transfer from a device. -/
def execXferEndRx (t : Ticks) (device : Nat) (x : FlitRx) (s : State) : Host.Outcome State Fault Refusal :=
  streamRx t 6 ⟨device, x, none, true⟩ s

/-- FRAME_START_RX. -/
def execFrameStartRx (t : Ticks) (x : FlitRx) (s : State) : Host.Outcome State Fault Refusal :=
  streamRx t 8 ⟨rdBE x.payload 0 3, x, none, true⟩ s

/-- LINE_DATA_RX: a chunk of a line from a device. -/
def execLineDataRx (t : Ticks) (device : Nat) (x : FlitRx) (s : State) : Host.Outcome State Fault Refusal :=
  streamRx t 9 ⟨device, x, none, true⟩ s

/-- IMPORT_PUBLISH_TIMEOUT: 100 ms after the last line the frame is published (R436). -/
def execImportPublishTimeout (t : Ticks) (imp : Nat) (s : State) : Host.Outcome State Fault Refusal :=
  whenRunning t (fun s =>
    match Tbl.find? s.cf.imports imp with
    | some m =>
      let waits := s.cf.inbuf.any fun y => streamOf y == (1, imp)
      if m.active && !waits && decide (m.lastLine + msTicks 100 ≤ s.clk.ticks) then publishImport imp s else s
    | none => s) s

/-! ### The source hears the answer -/

/-- The destination's answer to XFER_HDR (R434). -/
def headerAnswer (ctx status : Nat) (x : Xfer) (s : State) : State :=
  if status = 0 then
    let s := putXfer ctx { x with started := true } s
    if x.follow then finishUnit (xferUnit ctx) 0 none none s else s
  else if unitBusy s (xferUnit ctx) then
    finishUnit (xferUnit ctx) status none none (dropXfer ctx (releaseXfer ctx s))
  else releaseXfer ctx s

/-- The destination of a transfer answers XFER_HDR, or reports the publish (R434). -/
def xferAnswered (device ctx : Nat) (published : Bool) (status r0 : Nat) (s : State) : State :=
  match xferOf s ctx with
  | none => s
  | some x =>
    if x.handle / 16384 ≠ device then s
    else if !published then (if x.slot.isSome && !x.started then headerAnswer ctx status x s else s)
    else if x.follow || !x.ended then s
    else finishUnit (xferUnit ctx) status (some r0) none (dropXfer ctx s)

/-- XFER_ANSWER_RX. -/
def execXferAnswerRx (t : Ticks) (device ctx : Nat) (published : Bool) (status r0 : Nat) (s : State) :
    Host.Outcome State Fault Refusal :=
  whenRunning t (xferAnswered device ctx published status r0) s

end Sys2Proof.Machine
end

