-- ==== Sys2Proof/Machine/Access.lean ====
section
/-! DEFINITION. The service slots of memory channels (R163): requests of the fetch scheduler, and accesses of the other
classes that waited until their channel served them (R19, R112, R561). -/
namespace Sys2Proof.Machine
open Sys2Proof

/-- The writeback buffers drain as far as memory serves them. -/
def drainWritebacks (s : State) : State :=
  forAll (List.range 16) (fun k s => match sinkOf s k 2 with
    | some x => publishWb k x s
    | none => s) s

/-- The accesses that waited go on where memory serves them: their pace is not followed (DESIGN CHOICE,
notes/assumptions/64.md). -/
def drainAccesses (s : State) : State := drainBar2 (drainRecords (drainFlits (drainIngest (drainWritebacks s))))

/-- FS_REQUEST_ISSUE: a service slot of channel n (R163, R164). A channel that is restarting or fenced
serves nothing itself: raster requests issue and wait, or arrive without data. -/
def execFsRequestIssue (t : Ticks) (n : Nat) (s : State) : Host.Outcome State Fault Refusal :=
  whenRunning t (fun s => if n < 16 then drainAccesses (serviceSlot n s) else s) s

end Sys2Proof.Machine
end

