-- ==== Sys2Proof/Machine/Colour.lean ====
section
/-! DEFINITION. The commands that load colour tables and set output stages: group 0x04 (R253, R257, R260,
R264 to R272). -/
namespace Sys2Proof.Machine
open Sys2Proof

/-! ### Copies (R267, R268) -/

/-- A raster composes: it takes a new copy at its next latch, any other at once. -/
def takesLater (s : State) (r : Nat) : Bool := (rasterOf s r).st != .stopped || (rasterOf s r).leadIn

/-- A table has a copy that some raster has not taken. -/
def loadOpen (s : State) (key : Nat) : Bool := s.col.rasters.any fun e => (Tbl.find? e.2.old key).isSome

/-- A load waits for the latch of a raster, which goes on with what it uses. -/
def awaitLoad (n r : Nat) (f : RasterTbl → RasterTbl) (s : State) : State :=
  if takesLater s r then
    let x := f (rasterTbl s r)
    putRasterTbl r { x with waiting := x.waiting ++ [n] } s
  else s

/-- The number of the next load. -/
def nextLoad (s : State) : Nat := (s.col.loadSeq + 1) % 65536

/-- A new copy of a table that the listed rasters use. -/
def loadTable (key : Nat) (c : TblCopy) (rs : List Nat) (s : State) : State :=
  let old := newestCopy s key
  let n := nextLoad s
  let s := forAll rs (fun r => awaitLoad n r fun x => { x with old := Tbl.set x.old key old }) s
  { s with col := { s.col with tables := Tbl.set s.col.tables key c, loadSeq := n } }

/-- Every raster. -/
def allRasters : List Nat := List.range 16

/-- A load completes with OK (R271). -/
def loaded (s' : State) : Res := .ok (some s'.col.loadSeq) (some 0) s'

/-- BAD_PARAM at a place of the data (R266). -/
def badAt (n : Nat) : Res := .fail 0x101 (some n) none

/-! ### The data of a load (R266) -/

/-- Coefficient of phase p and tap k of a bank with n taps. -/
def bankCoef (n : Nat) (b : List Byte) (p k : Nat) : Int := sint 16 (rd b (2 * (n * p + k)) 2)

/-- The first coefficient that is no sign-extended 12-bit value, as phase × 8 + tap. -/
def badCoef (n : Nat) (b : List Byte) : Option Nat :=
  ((List.range 64).flatMap fun p => (List.range n).map fun k => (p, k)).findSome? fun e =>
    let c := bankCoef n b e.1 e.2
    if -2048 ≤ c ∧ c ≤ 2047 then none else some (8 * e.1 + e.2)

/-- The first phase that does not sum to 1,024, as phase × 8. -/
def badPhase (n : Nat) (b : List Byte) : Option Nat :=
  (List.range 64).findSome? fun p =>
    if ((List.range n).foldl (fun (a : Int) k => a + bankCoef n b p k) 0) = 1024 then none else some (8 * p)

/-- A binary16 value is finite. -/
def finiteHalf (v : Nat) : Bool := bits v 14 10 != 31

/-- The first entry of an ITF LUT that is not finite. -/
def badEntry (b : List Byte) : Option Nat := (List.range 1024).find? fun i => !finiteHalf (rd b (2 * i) 2)

/-- The first node of a 3D LUT with a component that is not finite. -/
def badNode (b : List Byte) : Option Nat :=
  (List.range 4913).find? fun n => ! [0, 2, 4].all fun o => finiteHalf (rd b (8 * n + o) 2)

/-- The reserved bytes of every node are zero. -/
def nodesReserved (b : List Byte) : Bool := (List.range 4913).all fun n => rd b (8 * n + 6) 2 == 0

/-- The first of several faults, each at its place, or `k`. -/
def firstBad (l : List (Option Nat)) (k : Res) : Res :=
  match l.findSome? id with
  | some n => badAt n
  | none => k

/-- 0xFFFF when a condition fails. -/
def whole (ok : Bool) : Option Nat := if ok then none else some 0xFFFF

/-- Read the data of a load: a failed read gives RESULT0 0. -/
def withTable (p : Packet) (s : State) (n : Nat) (k : List Byte → Res) : Res :=
  require (prm p 8 8 % 64 == 0) badParam <|
  require (!hostAccessFails p s) (.fail 0x110 (some 0) none) <| k (fitBytes n p.env.data)

/-! ### COEF_BANK_LOAD -/

/-- A raster has a committed or a pending scene with a VIDEO pane that names a vertical bank. -/
def namesBank (s : State) (bank r : Nat) : Bool :=
  (claimOf s r).scenes.any fun ds => ds.any fun d => isVideo d && dVBank d == bank

/-- Admission of the rasters that use a vertical bank whose TAPS changes (R266). -/
def admitBank (s s' : State) (bank : Nat) : Verdict :=
  let rs := allRasters.filter (namesBank s bank)
  let cs := allRasters.map fun i => (i, claimOf s' i)
  let rb := match rs with
    | r :: _ => claimReport s' r (claimOf s' r)
    | [] => (0, 0)
  if rs.isEmpty then none
  else firstOf [checkAll (rs.map fun r => rasterChecks s' (chanFsOf s') (leadMins s' r) r (claimOf s' r)),
    checkChannels s' (chanFsOf s') (totals s' cs) rb.1 rb.2]

/-- COEF_BANK_LOAD. -/
def coefBankLoadBody (p : Packet) (s : State) : Res :=
  let kind := prmb p 0 1 1 0
  let i := prmb p 1 1 5 0
  let taps := prmb p 2 1 1 0
  let key := tblKey kind i
  let n := if kind = 0 then 8 else 6
  require (onlyBits p [(0, 1, 3), (1, 1, 0x3F), (2, 1, 3), allBits 8 8] && kind != 3 && (kind == 2 || decide (i < 32)))
    badParam <|
  withTable p s (if kind = 0 then 1024 else if kind = 1 then 768 else 64) fun b =>
  firstBad (if kind = 2 then [whole (taps == 0), whole (decide (8 ≤ i) && zeroBytes b 42 64)]
      else [badCoef n b, badPhase n b, whole (if kind = 1 then taps != 3 else taps == 0)]) <|
  require (!loadOpen s key) (.fail 0x107 (some 0) none) <|
    let s' := loadTable key ⟨b, taps⟩ allRasters s
    if kind = 1 ∧ tapsOf (newestCopy s key) ≠ tapsOf (some ⟨b, taps⟩) then
      verdictRes (admitBank s s' i) (loaded s')
    else loaded s'

def specCoefBankLoad : CmdSpec := { opcode := 0x400, body := coefBankLoadBody }
/-- COEF_BANK_LOAD. -/
def execCoefBankLoad (t : Ticks) (p : Packet) (s : State) := runPacket specCoefBankLoad t p s

/-! ### ITF_LUT_LOAD, LUT3D_LOAD -/

/-- ITF_LUT_LOAD. -/
def itfLutLoadBody (p : Packet) (s : State) : Res :=
  let key := tblKey 3 (prmb p 0 1 2 0)
  require (onlyBits p [(0, 1, 7), allBits 8 8]) badParam <|
  withTable p s 2048 fun b =>
  firstBad [badEntry b] <|
  require (!loadOpen s key) (.fail 0x107 (some 0) none) (loaded (loadTable key { data := b } allRasters s))

def specItfLutLoad : CmdSpec := { opcode := 0x401, body := itfLutLoadBody }
/-- ITF_LUT_LOAD. -/
def execItfLutLoad (t : Ticks) (p : Packet) (s : State) := runPacket specItfLutLoad t p s

/-- A spec of an opcode from PF0 that names a raster. R272 gives the group to PF0 and calls the output stage PF0's
on every raster; R30 refuses PF0 most commands on a VF's raster. The model takes R272 as the particular rule: PF0
may issue them for a raster that a VF owns (DEDUCED, notes/assumptions/85.md). -/
def colourSpec (op : Nat) (body : Packet → State → Res) : CmdSpec :=
  { opcode := op, units := fun p _ => [unitRaster (prmRaster p)], body := body }

/-- LUT3D_LOAD. -/
def lut3dLoadBody (p : Packet) (s : State) : Res :=
  let r := prmRaster p
  let key := tblKey 4 r
  require (onlyBits p [(0, 1, 0xF), allBits 8 8]) badParam <|
  withTable p s 39304 fun b =>
  firstBad [whole (nodesReserved b), badNode b] <|
  require (!loadOpen s key) (.fail 0x107 (some 0) none) (loaded (loadTable key { data := b } [r] s))

def specLut3dLoad : CmdSpec := colourSpec 0x402 lut3dLoadBody
/-- LUT3D_LOAD. -/
def execLut3dLoad (t : Ticks) (p : Packet) (s : State) := runPacket specLut3dLoad t p s

/-! ### OUTPUT_COLOUR_SET -/

/-- The settings that the parameters give. -/
def prmOutSet (p : Packet) : OutSet :=
  { wtf := prmb p 1 1 2 0, lutEn := prmbit p 1 3, otf := prmb p 2 1 2 0, depth := prmb p 3 1 1 0,
    dither := prmb p 3 1 5 4, matrix := (List.range 12).map fun i => prm p (8 + 2 * i) 2 }

/-- New output settings of a raster. -/
def setOutput (r : Nat) (o : OutSet) (s : State) : State :=
  let old := Tbl.get s.col.out {} r
  let n := nextLoad s
  let s := awaitLoad n r (fun x => { x with oldOut := some old }) s
  { s with col := { s.col with out := Tbl.set s.col.out r o, loadSeq := n } }

/-- The crystal check of a raster has an ACTION, or a commit that waits gives it one (R294). -/
def hasAction (s : State) (r : Nat) : Bool :=
  let c := crystalOf s r
  c.action != 0 || match c.commit with
    | some k => k.action != 0
    | none => false

/-- OUTPUT_COLOUR_SET. -/
def outputColourSetBody (p : Packet) (s : State) : Res :=
  let r := prmRaster p
  let o := prmOutSet p
  require (onlyBits p [(0, 1, 0xF), (1, 1, 0xF), (2, 1, 7), (3, 1, 0x33), allBits 8 24]
    && decide (o.wtf ≤ 4 ∧ o.otf ≤ 4 ∧ o.dither ≤ 2)) badParam <|
  require (!(o.dither == 2 && hasAction s r)) (bad 0x10E) <|
  require (rasterTbl s r).oldOut.isNone (.fail 0x107 (some 0) none) (loaded (setOutput r o s))

def specOutputColourSet : CmdSpec := colourSpec 0x403 outputColourSetBody
/-- OUTPUT_COLOUR_SET. -/
def execOutputColourSet (t : Ticks) (p : Packet) (s : State) := runPacket specOutputColourSet t p s

end Sys2Proof.Machine
end

