-- ==== Sys2Proof/Machine/Traffic.lean ====
section
/-! DEFINITION. The traffic scheduler's commands (group 0x08) and events (chapter 10). -/
namespace Sys2Proof.Machine
open Sys2Proof

/-! ### Queue shapers (R386 to R388, R401, R415) -/

/-- Fields of QUEUE_SHAPER_SET. -/
def shaperBits : Fields :=
  [(0, 2, 0x3FF), (2, 1, 0xF), (3, 1, 7), (4, 4, 0x3FFFFFFF), (8, 4, 0x3FFFFFFF), (12, 4, 0xFFFFFF),
   (16, 4, 0xFFFFFF), (20, 4, 0xFFFFFF), (24, 4, 0xFFFF)]

/-- The queue as QUEUE_SHAPER_SET leaves it: buckets keep their contents, clamped (R388). -/
def shapedQueue (s : State) (p : Packet) (x : TsQueue) : TsQueue :=
  let x := refillQueue s x
  let x := if prmbit p 2 0 then
      let cbs := prmb p 12 4 23 0
      let pbs := prmb p 16 4 23 0
      { x with cir := prmb p 4 4 29 0, pir := prmb p 8 4 29 0, cbs := cbs, pbs := pbs,
               bc := min x.bc (cbs * 2 ^ 32), bp := min x.bp (pbs * 2 ^ 32) }
    else x
  let x := if prmbit p 2 1 then { x with cls := prmb p 3 1 2 0 } else x
  let x := if prmbit p 2 2 then { x with qlimit := prmb p 20 4 23 0 } else x
  if prmbit p 2 3 then { x with alarm := prmb p 24 4 15 0 } else x

/-- The values a QUEUE_SHAPER_SET may write (R386, R387, R390). The port is that of the queue's flow, enabled or not. -/
def shaperOk (s : State) (p : Packet) (x : TsQueue) : Bool :=
  let q := prmb p 0 2 9 0
  let port := (egressOf s q).cfg.port
  let rates := decide (x.cir ≤ 800000000 ∧ x.pir ≤ 800000000) && (x.pir == 0 || decide (x.cir ≤ x.pir))
    && decide ((ethOf s port).mtu + (tsPortOf s port).ovh ≤ x.pbs)
  (!prmbit p 2 0 || rates) && (!prmbit p 2 2 || decide (2048 ≤ x.qlimit ∧ x.qlimit ≤ 8388608))

/-- QUEUE_SHAPER_SET. -/
def queueShaperSetBody (p : Packet) (s : State) : Res :=
  let q := prmb p 0 2 9 0
  let old := queueOf s q
  let x := shapedQueue s p old
  let port := (egressOf s q).cfg.port
  require (onlyBits p shaperBits && shaperOk s p x) badParam <|
  require (!(prmbit p 2 0 && (egressOf s q).sender.isSome)) busy <|
    let s1 := putQueue q x s
    let check := queueOn s q && (x.cir != old.cir || x.cls != old.cls)
    verdictRes (if check then checkPort s1 port (tsPortOf s1 port) else none) <|
      .ok (some (portCir s1 port)) none s1

def specQueueShaperSet : CmdSpec :=
  { opcode := 0x800, units := fun p _ => [unitFlow (prmb p 0 2 9 0)],
    owns := fun p s => egressOwner s (prmb p 0 2 9 0) == p.func, body := queueShaperSetBody }
/-- QUEUE_SHAPER_SET. -/
def execQueueShaperSet (t : Ticks) (p : Packet) (s : State) := runPacket specQueueShaperSet t p s

/-! ### Port gate lists (R392 to R398, R415, R416) -/

/-- A port whose pending takeover time has come. -/
def portDue (s : State) (p : Nat) : Bool :=
  (tsPortOf s p).arm == .pending && decide ((tsPortOf s p).armT ≤ now s)

/-- Index of the entry that holds a position in ns. -/
def portIndexAt : List GateEntry → Nat → Nat
  | [], _ => 0
  | e :: t, pos => if pos < e.dur then 0 else portIndexAt t (pos - e.dur) + 1

/-- The armed list of a port becomes its running list, with its OVERHEAD (R396). -/
def portTakeOver (p : Nat) (s : State) : State :=
  let x := tsPortOf s p
  let x := { x with running := x.armed, armed := [], arm := .empty, swT := x.armT, taken := some x.armT,
                    start := x.armT, ovh := x.armOvh }
  raiseUnit (unitPort p) (448 + p) (putTsPort p { x with entry := portIndexAt x.running (portPos s x) } s)

/-- Every port whose time has come takes over. -/
def portsTakeOver (s : State) : State := forAll ((List.range 8).filter (portDue s)) portTakeOver s

/-- QBV_GATE_SWITCH (R396, R397). -/
def execQbvGateSwitch (t : Ticks) (port : Nat) (s : State) : Host.Outcome State Fault Refusal :=
  whenRunning t (fun s => if port < 8 && portDue s port then portTakeOver port s else s) s

/-- QBV_ENTRY_ADVANCE: ENTRY of TS_PSTAT follows the running list. -/
def execQbvEntryAdvance (t : Ticks) (port : Nat) (s : State) : Host.Outcome State Fault Refusal :=
  whenRunning t (fun s =>
    let x := tsPortOf s port
    if port < 8 then putTsPort port { x with entry := portIndexAt x.running (portPos s x) } s else s) s

/-- Ports that PORTMASK names. -/
def portMask (p : Packet) : List Nat := bitList 8 (prm p 0 1)

/-- PORTMASK names at least one port, and only enabled ones (R416). -/
def portMaskOk (p : Packet) (s : State) : Bool := !(portMask p).isEmpty && (portMask p).all (portOn s)

/-- A port gate list obeys R392 and R393. -/
def portListOk (l : List GateEntry) : Bool :=
  decide (1 ≤ l.length ∧ l.length ≤ 512) && l.all (fun e => decide (8 ≤ e.dur))
    && decide (portCycle l ≤ 1000000000)

/-- QBV_LIST_LOAD. -/
def qbvListLoadBody (p : Packet) (s0 : State) : Res :=
  let s := portsTakeOver s0
  let n := prmb p 2 2 9 0
  let l : List GateEntry := (List.range n).map fun i => ⟨prm p (16 + 4 * i) 3, prm p (19 + 4 * i) 1⟩
  require (onlyBits p [allBits 0 1, (2, 2, 0x3FF), allBits 4 1, allBits 16 (4 * n)] && portMaskOk p s
    && portListOk l) badParam <|
  require ((portMask p).all fun i => (tsPortOf s i).arm != .pending) busy <|
    .ok (some (portCycle l)) none (forAll (portMask p) (fun i s =>
      putTsPort i { tsPortOf s i with armed := l, arm := .loaded, taken := none, armOvh := prm p 4 1 } s) s)

def specQbvListLoad : CmdSpec := { opcode := 0x801, units := fun p _ => (portMask p).map unitPort, body := qbvListLoadBody }
/-- QBV_LIST_LOAD. -/
def execQbvListLoad (t : Ticks) (p : Packet) (s : State) := runPacket specQbvListLoad t p s

/-- The takeover time that bars an arm of a port: nothing was loaded since (R168). -/
def portTaken (s : State) (p : Nat) : Option Nat :=
  if portDue s p then some (tsPortOf s p).armT else (tsPortOf s p).taken

/-- A port with its armed list pending. -/
def portArmedAt (time : Nat) (late : Bool) (x : TsPort) : TsPort :=
  { x with arm := .pending, armT := time, late := late }

/-- First cycle boundary of a port's running list at least 1 µs away (R397). -/
def portLateTime (s : State) (x : TsPort) : Nat :=
  let c := portCycle x.running
  x.start + cdiv (now s + 1000 - x.start) c * c

/-- QBV_LIST_ARM. -/
def qbvListArmBody (p : Packet) (s : State) : Res :=
  let ps := portMask p
  let time := prm p 8 8
  let disarm := prmbit p 1 0
  require (onlyBits p [allBits 0 1, (1, 1, 1), allBits 8 8] && portMaskOk p s) badParam <|
  require (disarm || ps.all fun i => (tsPortOf s i).arm != .empty || (portTaken s i).isSome) badParam <|
  match ps.filterMap (portTaken s) with
  | b :: _ => armBusy b
  | [] =>
    if disarm then
      okay (forAll ps (fun i s =>
        let x := tsPortOf s i
        putTsPort i { x with arm := if x.arm = .pending then .loaded else x.arm } s) s)
    else
      let late := decide (time < now s + 1000)
      let t := if late then portLateTime s (tsPortOf s (ps.headD 0)) else time
      match firstOf (ps.map fun i => checkPort s i (portArmedAt t late (tsPortOf s i))) with
      | some v => .fail v.1 (some v.2.1) v.2.2
      | none =>
        .done (if late then 0x10B else 0) (some t) (some (t / 2 ^ 32))
          (forAll ps (fun i s => putTsPort i (portArmedAt t late (tsPortOf s i)) s) s)

def specQbvListArm : CmdSpec := { opcode := 0x802, units := fun p _ => (portMask p).map unitPort, body := qbvListArmBody }
/-- QBV_LIST_ARM. -/
def execQbvListArm (t : Ticks) (p : Packet) (s : State) := runPacket specQbvListArm t p s

/-! ### Meters (R406, R407) -/

/-- METER_SET: both buckets are set full. -/
def meterSetBody (p : Packet) (s : State) : Res :=
  let f := prmb p 0 2 11 0
  let cir := prmb p 4 4 29 0
  let pir := prmb p 8 4 29 0
  let cbs := prmb p 12 4 23 0
  let pbs := prmb p 16 4 23 0
  let fields : Fields := [(0, 2, 0xFFF), (2, 1, 3), (4, 4, 0x3FFFFFFF), (8, 4, 0x3FFFFFFF), (12, 4, 0xFFFFFF),
    (16, 4, 0xFFFFFF)]
  require (onlyBits p fields && decide (cir ≤ pir ∧ 64 ≤ cbs ∧ 64 ≤ pbs)) badParam <|
    let x := meterOf s f
    let x := { x with en := prmbit p 2 0, aware := prmbit p 2 1, cir := cir, pir := pir, cbs := cbs,
                      pbs := pbs, tc := cbs * 2 ^ 32, tp := pbs * 2 ^ 32, at_ := s.clk.ticks }
    okay (putMeter f x s)

def specMeterSet : CmdSpec :=
  { opcode := 0x803, owns := fun p s => ingestOwner s (prmb p 0 2 11 0) == p.func, body := meterSetBody }
/-- METER_SET. -/
def execMeterSet (t : Ticks) (p : Packet) (s : State) := runPacket specMeterSet t p s

/-! ### Statistics (R404, R405, R417) -/

/-- The 192-byte record of a queue. -/
def queueRecord (s : State) (q : Nat) : List Byte :=
  let x := queueOf s q
  let e := egressOf s q
  let head := leBytes 2 q ++ leBytes 1 (x.cls + shl (b2n (queueOn s q)) 3 + shl (b2n e.sender.isSome) 4) ++ [0#8]
    ++ leBytes 4 x.cir ++ leBytes 4 x.pir ++ leBytes 4 x.cbs ++ leBytes 4 x.pbs ++ leBytes 4 x.qlimit
    ++ leBytes 4 (queueDepth x) ++ leBytes 4 x.depthHwm ++ leBytes 4 x.delayHwm ++ leBytes 4 e.dropped
    ++ leBytes 4 x.alarm ++ leBytes 4 x.alarms
  fitBytes 64 head ++ x.depthHist.flatMap (leBytes 4) ++ x.delayHist.flatMap (leBytes 4)

/-- The 64-byte record of a meter. -/
def meterRecord (s : State) (f : Nat) : List Byte :=
  let x := meterOf s f
  fitBytes 64 (leBytes 2 f ++ leBytes 1 (b2n x.en + shl (b2n x.aware) 1) ++ [0#8]
    ++ leBytes 4 x.cir ++ leBytes 4 x.pir ++ leBytes 4 x.cbs ++ leBytes 4 x.pbs ++ leBytes 4 x.green
    ++ leBytes 4 x.yellow ++ leBytes 4 x.yellowDrop ++ leBytes 4 x.red ++ leBytes 8 x.greenOct
    ++ leBytes 8 x.yellowOct)

/-- CLEAR of a queue's statistics, its DROPPED count with them. -/
def clearQueue (q : Nat) (s : State) : State :=
  let e := egressOf s q
  let x := queueOf s q
  let x := { x with depthHist := List.replicate 16 0, delayHist := List.replicate 16 0, depthHwm := 0,
                    delayHwm := 0, alarms := 0 }
  putEgress q { e with dropped := 0 } (putQueue q x s)

/-- CLEAR of a meter's counters. -/
def clearMeter (f : Nat) (s : State) : State :=
  putMeter f { meterOf s f with green := 0, yellow := 0, yellowDrop := 0, red := 0, greenOct := 0, yellowOct := 0 } s

/-- The indices TS_STATS_READ names. -/
def statsRange (p : Packet) : List Nat :=
  (List.range (prmb p 4 2 11 0)).map (prmb p 2 2 11 0 + ·)

/-- TS_STATS_READ. -/
def tsStatsReadBody (p : Packet) (s : State) : Res :=
  let meters := prmbit p 0 0
  let l := statsRange p
  let top := prmb p 2 2 11 0 + prmb p 4 2 11 0
  require (onlyBits p [(0, 1, 1), (1, 1, 1), (2, 2, 0xFFF), (4, 2, 0xFFF), allBits 8 8]
    && decide (1 ≤ l.length ∧ l.length ≤ 64 ∧ top ≤ if meters then 4096 else 1024)) badParam <|
    withBuf p s (prm p 8 8) 64 false (l.flatMap (if meters then meterRecord s else queueRecord s)) fun w =>
      let s := w s
      okay (if prmbit p 1 0 then forAll l (if meters then clearMeter else clearQueue) s else s)

def specTsStatsRead : CmdSpec :=
  { opcode := 0x804, exempt := fun p => !prmbit p 1 0,
    units := fun p _ => if prmbit p 0 0 then [] else (statsRange p).map unitFlow,
    owns := fun p s => (statsRange p).all fun i =>
      let o := if prmbit p 0 0 then ingestOwner s i else egressOwner s i
      if prmbit p 1 0 then o == p.func else mayQuery p o,
    body := tsStatsReadBody }
/-- TS_STATS_READ. -/
def execTsStatsRead (t : Ticks) (p : Packet) (s : State) := runPacket specTsStatsRead t p s

/-- QUEUE_STATS_SAMPLE: each queue enabled before this cycle is sampled, once in a µs of device time (R404). -/
def execQueueStatsSample (t : Ticks) (s : State) : Host.Outcome State Fault Refusal :=
  whenRunning t (fun s =>
    let us := now s / 1000
    if us = s.ts.sampled then s
    else
      let s := { s with ts := { s.ts with sampled := us } }
      forAll ((s.prior.ne.egress.filter fun e => e.2.cfg.kind != 0).map (·.1)) sampleQueue s) s

/-- PORT_TX_SELECT: a free port chooses the frame it sends next (R389 to R395). -/
def execPortTxSelect (t : Ticks) (port : Nat) (s : State) : Host.Outcome State Fault Refusal :=
  whenRunning t (fun s => if port < 8 then portSelect port s else s) s

end Sys2Proof.Machine
end

