-- ==== Sys2Proof/Machine/Arrivals.lean ====
section
/-! DEFINITION. Packets that a row of their own does not bring in: timed packets whose time has come (R76 to R78)
and command messages of the fabric (R87, R89, R90, R553). -/
namespace Sys2Proof.Machine
open Sys2Proof

/-! ### The catalogue -/

/-- Opcodes of the catalogue, part 1. -/
def catalogue1 : List CmdSpec :=
  [specNop, specGetIdentity, specQueryUnit, specReconcile, specCancelTimed, specAssign, specQueryOwner,
   specGetFirmware, specSurfaceCreate, specSurfaceDestroy, specSurfaceQuery, specSlotPublish,
   specSurfaceSetSharing, specMemQuery, specGatelistLoad, specGatelistArm, specGatelistQuery, specShaperSet,
   specLeadSet, specAdmitCheck, specDemandQuery, specLatencyHistRead, specSceneSubmit]

/-- Opcodes of the catalogue, part 2. -/
def catalogue2 : List CmdSpec :=
  [specSceneCommit, specPaneUpdate, specSceneQuery, specFallbackSet, specPaneCountersRead, specCoefBankLoad,
   specItfLutLoad, specLut3dLoad, specOutputColourSet, specRasterTimingSet, specRasterStart, specRasterStop,
   specSinkAttach, specSinkDetach, specStrikeArm, specStrikeCancel, specDpPortConfig, specRasterBind,
   specRasterQuery, specCrystalUnlock, specCrystalPaneSet, specCrystalExpectSet, specCrystalLock]

/-- Opcodes of the catalogue, part 3. -/
def catalogue3 : List CmdSpec :=
  [specCrystalKeyProvision, specPortConfig, specIngestFlowSet, specEgressFlowSet, specMcastJoin, specMcastLeave,
   specFstSubscribe, specFstUnsubscribe, specFlowQuery, specQueueShaperSet, specQbvListLoad, specQbvListArm,
   specMeterSet, specTsStatsRead, specLinkConfig, specNodeEnumerate, specPtpConfig, specTimeQuery,
   specBeatCalibrate, specSurfaceTransfer, specRouteQuery, specBlitCopy, specBlitFill]

/-- Opcodes of the catalogue, part 4. -/
def catalogue4 : List CmdSpec :=
  [specBlitBlend, specBlitConvert, specBlitMaskExpand, specBlitListRun, specBlitDeadtimeSet,
   specHdChannelConfig, specHdStart, specHdAbort, specHdQuery, specEventRoute, specEventQuery, specEventSoftSet,
   specPowerStateSet, specUnitReset, specDeviceReset, specLoopWindowSet, specShedMaskSet, specPmuQuery,
   specRetirementQuery, specRetirementClear, specLtrRead, specLtrCheckpoint, specEccLogRead]

/-- The opcodes of the catalogue. -/
def catalogue : List CmdSpec := catalogue1 ++ catalogue2 ++ catalogue3 ++ catalogue4

/-- What an opcode does. -/
def specOf (op : Nat) : Option CmdSpec := catalogue.find? fun sp => sp.opcode == op

/-! ### Timed packets -/

/-- Of two timed packets, the first begins before the second: by EXEC_TIME, then in order of acceptance. -/
def beginsBefore (a b : Timed) : Bool :=
  decide (a.ent.pkt.execTime < b.ent.pkt.execTime) || (a.ent.pkt.execTime == b.ent.pkt.execTime && decide (a.order < b.order))

/-- Insert into a list kept in the order of beginning. -/
def insertTimed (x : Timed) : List Timed → List Timed
  | [] => [x]
  | y :: l => if beginsBefore x y then x :: y :: l else y :: insertTimed x l

/-- The due timed packets in the order in which they begin. -/
def dueTimed (s : State) : List Timed :=
  (s.cp.timed.filter fun x => decide (x.ent.pkt.execTime ≤ now s)).foldr insertTimed []

/-- Begin a due packet; none while a unit it names is busy. Its own reads return what `env` says. -/
def beginTimed (env : Env) (x : Timed) (s : State) : Option State :=
  let s := { s with cp := { s.cp with timed := s.cp.timed.filter fun y => y.order != x.order } }
  let e : Entry := { x.ent with pkt := { x.ent.pkt with env := env } }
  match specOf e.opcode with
  | some sp => executeNow sp e (isLate e.pkt s) s
  | none => some (finish e 0x100 none none s)

/-- Of packets with equal EXEC_TIME the earliest accepted comes first, however long it waits (R78). -/
def heads : List Timed → List Timed
  | [] => []
  | x :: l => x :: (heads l).filter fun y => y.ent.pkt.execTime != x.ent.pkt.execTime

/-- The first due packet that can begin, begins. -/
def runDue (env : Env) (s : State) : State :=
  match (heads (dueTimed s)).findSome? fun x => (beginTimed env x (noteLevel s)).map fun s' => (x, s') with
  | none => s
  | some (x, s') => settlePair x.ent s'

/-- TIMED_PACKET_DUE. -/
def execTimedPacketDue (t : Ticks) (env : Env) (s : State) : Host.Outcome State Fault Refusal :=
  whenRunning t (runDue env) s

/-! ### Command messages (R87) -/

/-- A routed packet joins the command FIFO, behind its 64 entries when it is full. -/
def enqueueRouted (e : Entry) (s : State) : State := noteLevel { s with cp := { s.cp with fifo := s.cp.fifo ++ [e] } }

/-- A packet forwarded by another device arrives: it executes at once, or waits in the command FIFO behind packets of
its pair or at a fence, or is held for a unit. A device without a device ID executes none (R432). -/
def routedRequest (op : Nat) (p : Packet) (s : State) : State :=
  let e : Entry := { opcode := op, pkt := p, arrived := s.clk.ticks }
  match (if s.cf.valid then p.origin else none), specOf op with
  | none, _ => s
  | some _, none => finish e 0x100 none none s
  | some _, some sp =>
    if s.cp.fifo.any (ofPair p.func p.qp p.origin) || fenceHolds s p then enqueueRouted e s
    else match atDestination sp e s with
      | some s' => s'
      | none => holdPacket sp e s

/-- A command message whose contents have arrived. -/
def takeMessage (m : CmdMsg) (s : State) : State :=
  match m with
  | .request op p => routedRequest op p s
  | .reply device f q tag status r0 r1 => routedReply device f q tag status r0 r1 s
  | .assignId devid topo w h members => takeId devid topo w h members s
  | .flushTimed device f q => flushWaiting f q (some device) s
  | .linkState device lanes => takeLinks device lanes s
  | .xferAnswer device ctx published status r0 => xferAnswered device ctx published status r0 s
  | .refRate n d start => if s.cf.valid && !s.cf.anchor then stageRate n d start s else s
  | .flrApply f => if f < 16 then flrItems f (some (s.cf.devid / 64 * 64)) s else s

/-- CMD_FLIT_RX: a flit of a command message arrives; `m` is the message when this flit completes it. -/
def execCmdFlitRx (t : Ticks) (x : FlitRx) (m : Option CmdMsg) (s : State) : Host.Outcome State Fault Refusal :=
  whenRunning t (flitRx x [1, 2] fun s => match m with
    | some m => takeMessage m s
    | none => s) s

end Sys2Proof.Machine
end

