-- ==== Sys2Proof/Machine/Dispatch.lean ====
section
/-! DEFINITION. One arm per command of the opcode table. -/
namespace Sys2Proof.Machine
open Sys2Proof

/-- The effect of a command on everything but the queue. -/
def exec (i : Instr) (s : State) : Host.Outcome State Fault Refusal :=
  match i with
  | .nop t p => Sys2Proof.Machine.execNop t p s
  | .getIdentity t p => Sys2Proof.Machine.execGetIdentity t p s
  | .queryUnit t p => Sys2Proof.Machine.execQueryUnit t p s
  | .reconcile t p => Sys2Proof.Machine.execReconcile t p s
  | .cancelTimed t p => Sys2Proof.Machine.execCancelTimed t p s
  | .assign t p => Sys2Proof.Machine.execAssign t p s
  | .queryOwner t p => Sys2Proof.Machine.execQueryOwner t p s
  | .getFirmware t p => Sys2Proof.Machine.execGetFirmware t p s
  | .surfaceCreate t p => Sys2Proof.Machine.execSurfaceCreate t p s
  | .surfaceDestroy t p => Sys2Proof.Machine.execSurfaceDestroy t p s
  | .surfaceQuery t p => Sys2Proof.Machine.execSurfaceQuery t p s
  | .slotPublish t p => Sys2Proof.Machine.execSlotPublish t p s
  | .surfaceSetSharing t p => Sys2Proof.Machine.execSurfaceSetSharing t p s
  | .memQuery t p => Sys2Proof.Machine.execMemQuery t p s
  | .gatelistLoad t p => Sys2Proof.Machine.execGatelistLoad t p s
  | .gatelistArm t p => Sys2Proof.Machine.execGatelistArm t p s
  | .gatelistQuery t p => Sys2Proof.Machine.execGatelistQuery t p s
  | .shaperSet t p => Sys2Proof.Machine.execShaperSet t p s
  | .leadSet t p => Sys2Proof.Machine.execLeadSet t p s
  | .admitCheck t p => Sys2Proof.Machine.execAdmitCheck t p s
  | .demandQuery t p => Sys2Proof.Machine.execDemandQuery t p s
  | .latencyHistRead t p => Sys2Proof.Machine.execLatencyHistRead t p s
  | .sceneSubmit t p => Sys2Proof.Machine.execSceneSubmit t p s
  | .sceneCommit t p => Sys2Proof.Machine.execSceneCommit t p s
  | .paneUpdate t p => Sys2Proof.Machine.execPaneUpdate t p s
  | .sceneQuery t p => Sys2Proof.Machine.execSceneQuery t p s
  | .fallbackSet t p => Sys2Proof.Machine.execFallbackSet t p s
  | .paneCountersRead t p => Sys2Proof.Machine.execPaneCountersRead t p s
  | .coefBankLoad t p => Sys2Proof.Machine.execCoefBankLoad t p s
  | .itfLutLoad t p => Sys2Proof.Machine.execItfLutLoad t p s
  | .lut3dLoad t p => Sys2Proof.Machine.execLut3dLoad t p s
  | .outputColourSet t p => Sys2Proof.Machine.execOutputColourSet t p s
  | .rasterTimingSet t p => Sys2Proof.Machine.execRasterTimingSet t p s
  | .rasterStart t p => Sys2Proof.Machine.execRasterStart t p s
  | .rasterStop t p => Sys2Proof.Machine.execRasterStop t p s
  | .sinkAttach t p => Sys2Proof.Machine.execSinkAttach t p s
  | .sinkDetach t p => Sys2Proof.Machine.execSinkDetach t p s
  | .strikeArm t p => Sys2Proof.Machine.execStrikeArm t p s
  | .strikeCancel t p => Sys2Proof.Machine.execStrikeCancel t p s
  | .dpPortConfig t p => Sys2Proof.Machine.execDpPortConfig t p s
  | .rasterBind t p => Sys2Proof.Machine.execRasterBind t p s
  | .rasterQuery t p => Sys2Proof.Machine.execRasterQuery t p s
  | .crystalUnlock t p => Sys2Proof.Machine.execCrystalUnlock t p s
  | .crystalPaneSet t p => Sys2Proof.Machine.execCrystalPaneSet t p s
  | .crystalExpectSet t p => Sys2Proof.Machine.execCrystalExpectSet t p s
  | .crystalLock t p => Sys2Proof.Machine.execCrystalLock t p s
  | .crystalKeyProvision t p => Sys2Proof.Machine.execCrystalKeyProvision t p s
  | .portConfig t p => Sys2Proof.Machine.execPortConfig t p s
  | .ingestFlowSet t p => Sys2Proof.Machine.execIngestFlowSet t p s
  | .egressFlowSet t p => Sys2Proof.Machine.execEgressFlowSet t p s
  | .mcastJoin t p => Sys2Proof.Machine.execMcastJoin t p s
  | .mcastLeave t p => Sys2Proof.Machine.execMcastLeave t p s
  | .fstSubscribe t p => Sys2Proof.Machine.execFstSubscribe t p s
  | .fstUnsubscribe t p => Sys2Proof.Machine.execFstUnsubscribe t p s
  | .flowQuery t p => Sys2Proof.Machine.execFlowQuery t p s
  | .queueShaperSet t p => Sys2Proof.Machine.execQueueShaperSet t p s
  | .qbvListLoad t p => Sys2Proof.Machine.execQbvListLoad t p s
  | .qbvListArm t p => Sys2Proof.Machine.execQbvListArm t p s
  | .meterSet t p => Sys2Proof.Machine.execMeterSet t p s
  | .tsStatsRead t p => Sys2Proof.Machine.execTsStatsRead t p s
  | .linkConfig t p => Sys2Proof.Machine.execLinkConfig t p s
  | .nodeEnumerate t p => Sys2Proof.Machine.execNodeEnumerate t p s
  | .ptpConfig t p => Sys2Proof.Machine.execPtpConfig t p s
  | .timeQuery t p => Sys2Proof.Machine.execTimeQuery t p s
  | .beatCalibrate t p => Sys2Proof.Machine.execBeatCalibrate t p s
  | .surfaceTransfer t p => Sys2Proof.Machine.execSurfaceTransfer t p s
  | .routeQuery t p => Sys2Proof.Machine.execRouteQuery t p s
  | .blitCopy t p => Sys2Proof.Machine.execBlitCopy t p s
  | .blitFill t p => Sys2Proof.Machine.execBlitFill t p s
  | .blitBlend t p => Sys2Proof.Machine.execBlitBlend t p s
  | .blitConvert t p => Sys2Proof.Machine.execBlitConvert t p s
  | .blitMaskExpand t p => Sys2Proof.Machine.execBlitMaskExpand t p s
  | .blitListRun t p => Sys2Proof.Machine.execBlitListRun t p s
  | .blitDeadtimeSet t p => Sys2Proof.Machine.execBlitDeadtimeSet t p s
  | .hdChannelConfig t p => Sys2Proof.Machine.execHdChannelConfig t p s
  | .hdStart t p => Sys2Proof.Machine.execHdStart t p s
  | .hdAbort t p => Sys2Proof.Machine.execHdAbort t p s
  | .hdQuery t p => Sys2Proof.Machine.execHdQuery t p s
  | .eventRoute t p => Sys2Proof.Machine.execEventRoute t p s
  | .eventQuery t p => Sys2Proof.Machine.execEventQuery t p s
  | .eventSoftSet t p => Sys2Proof.Machine.execEventSoftSet t p s
  | .powerStateSet t p => Sys2Proof.Machine.execPowerStateSet t p s
  | .unitReset t p => Sys2Proof.Machine.execUnitReset t p s
  | .deviceReset t p => Sys2Proof.Machine.execDeviceReset t p s
  | .loopWindowSet t p => Sys2Proof.Machine.execLoopWindowSet t p s
  | .shedMaskSet t p => Sys2Proof.Machine.execShedMaskSet t p s
  | .pmuQuery t p => Sys2Proof.Machine.execPmuQuery t p s
  | .retirementQuery t p => Sys2Proof.Machine.execRetirementQuery t p s
  | .retirementClear t p => Sys2Proof.Machine.execRetirementClear t p s
  | .ltrRead t p => Sys2Proof.Machine.execLtrRead t p s
  | .ltrCheckpoint t p => Sys2Proof.Machine.execLtrCheckpoint t p s
  | .eccLogRead t p => Sys2Proof.Machine.execEccLogRead t p s
  | .queueEnable t f q v => Sys2Proof.Machine.execQueueEnable t f q v s
  | .queueDisable t f q v => Sys2Proof.Machine.execQueueDisable t f q v s
  | .queueFlush t f q v => Sys2Proof.Machine.execQueueFlush t f q v s
  | .flushBoundary t f q => Sys2Proof.Machine.execFlushBoundary t f q s
  | .submitDoorbell t f q v => Sys2Proof.Machine.execSubmitDoorbell t f q v s
  | .replyDoorbell t f q v => Sys2Proof.Machine.execReplyDoorbell t f q v s
  | .cpEntryCopy t f q entry => Sys2Proof.Machine.execCpEntryCopy t f q entry s
  | .creditOnlyReply t f q => Sys2Proof.Machine.execCreditOnlyReply t f q s
  | .ringFault t f q onReply => Sys2Proof.Machine.execRingFault t f q onReply s
  | .timedPacketDue t env => Sys2Proof.Machine.execTimedPacketDue t env s
  | .routeForward t op p => Sys2Proof.Machine.execRouteForward t op p s
  | .routeTimeout t => Sys2Proof.Machine.execRouteTimeout t s
  | .cmdFlitRx t x m => Sys2Proof.Machine.execCmdFlitRx t x m s
  | .registerWrite t f off be v => Sys2Proof.Machine.execRegisterWrite t f off be v s
  | .rcRegisterRead t f off be => Sys2Proof.Machine.execRcRegisterRead t f off be s
  | .pairLowRead t f off be => Sys2Proof.Machine.execPairLowRead t f off be s
  | .pairHighRead t f off be => Sys2Proof.Machine.execPairHighRead t f off be s
  | .evcClaim t f tg => Sys2Proof.Machine.execEvcClaim t f tg s
  | .evcComplete t f tg v => Sys2Proof.Machine.execEvcComplete t f tg v s
  | .evcTargetHold t f tg v => Sys2Proof.Machine.execEvcTargetHold t f tg v s
  | .evcTargetIdle t f tg v => Sys2Proof.Machine.execEvcTargetIdle t f tg v s
  | .evcGlobalHold t f v => Sys2Proof.Machine.execEvcGlobalHold t f v s
  | .evcSwsetWrite t f v => Sys2Proof.Machine.execEvcSwsetWrite t f v s
  | .msixEntryUnmask t f v => Sys2Proof.Machine.execMsixEntryUnmask t f v s
  | .busMasterEnableChange t f c => Sys2Proof.Machine.execBusMasterEnableChange t f c s
  | .vfEnableSet t num bar2 => Sys2Proof.Machine.execVfEnableSet t num bar2 s
  | .vfEnableClear t => Sys2Proof.Machine.execVfEnableClear t s
  | .evcEdge t src => Sys2Proof.Machine.execEvcEdge t src s
  | .evcLevelChange t src level => Sys2Proof.Machine.execEvcLevelChange t src level s
  | .evcDelivery t tg => Sys2Proof.Machine.execEvcDelivery t tg s
  | .evcNowakeFallback t src => Sys2Proof.Machine.execEvcNowakeFallback t src s
  | .rgCommitWrite t f r v => Sys2Proof.Machine.execRgCommitWrite t f r v s
  | .paneWindowWrite t f off v => Sys2Proof.Machine.execPaneWindowWrite t f off v s
  | .blRegListStart t f v => Sys2Proof.Machine.execBlRegListStart t f v s
  | .blRegListStop t f v => Sys2Proof.Machine.execBlRegListStop t f v s
  | .hdRegStart t f c => Sys2Proof.Machine.execHdRegStart t f c s
  | .hdRegAbort t f c => Sys2Proof.Machine.execHdRegAbort t f c s
  | .hdReqsetWrite t f v => Sys2Proof.Machine.execHdReqsetWrite t f v s
  | .recoveryPageCommit t f => Sys2Proof.Machine.execRecoveryPageCommit t f s
  | .recoveryPageProgrammed t => Sys2Proof.Machine.execRecoveryPageProgrammed t s
  | .recoveryDone t f ok => Sys2Proof.Machine.execRecoveryDone t f ok s
  | .bar2Write t f off data => Sys2Proof.Machine.execBar2Write t f off data s
  | .bar2Read t f off len => Sys2Proof.Machine.execBar2Read t f off len s
  | .bar2Atomicop t f off => Sys2Proof.Machine.execBar2Atomicop t f off s
  | .flr t f => Sys2Proof.Machine.execFlr t f s
  | .flrRemoteApply t f device => Sys2Proof.Machine.execFlrRemoteApply t f device s
  | .perstNAssert t => Sys2Proof.Machine.execPerstNAssert t s
  | .perstNWake t => Sys2Proof.Machine.execPerstNWake t s
  | .hotReset t => Sys2Proof.Machine.execHotReset t s
  | .powerOnReset t aon => Sys2Proof.Machine.execPowerOnReset t aon s
  | .porRelease t straps => Sys2Proof.Machine.execPorRelease t straps s
  | .pinReset t => Sys2Proof.Machine.execPinReset t s
  | .wakePin t => Sys2Proof.Machine.execWakePin t s
  | .wakeTimer t => Sys2Proof.Machine.execWakeTimer t s
  | .pfw t => Sys2Proof.Machine.execPfw t s
  | .thermtrip t => Sys2Proof.Machine.execThermtrip t s
  | .refclkLoss t => Sys2Proof.Machine.execRefclkLoss t s
  | .pllLockLoss t => Sys2Proof.Machine.execPllLockLoss t s
  | .pcieRefclkLoss t => Sys2Proof.Machine.execPcieRefclkLoss t s
  | .wdogWarn t core => Sys2Proof.Machine.execWdogWarn t core s
  | .watchdogReset t core => Sys2Proof.Machine.execWatchdogReset t core s
  | .avsUpdate t want => Sys2Proof.Machine.execAvsUpdate t want s
  | .thermalSample t tj => Sys2Proof.Machine.execThermalSample t tj s
  | .refreshPoll t mr4 => Sys2Proof.Machine.execRefreshPoll t mr4 s
  | .powerStateDrainEnd t => Sys2Proof.Machine.execPowerStateDrainEnd t s
  | .powerStateDrainTimeout t => Sys2Proof.Machine.execPowerStateDrainTimeout t s
  | .rasterStartLatch t r => Sys2Proof.Machine.execRasterStartLatch t r s
  | .rasterFrameStart t r => Sys2Proof.Machine.execRasterFrameStart t r s
  | .rasterLatch t r => Sys2Proof.Machine.execRasterLatch t r s
  | .rasterLineStart t r y => Sys2Proof.Machine.execRasterLineStart t r y s
  | .indexBuildDone t r => Sys2Proof.Machine.execIndexBuildDone t r s
  | .fsRequestIssue t n => Sys2Proof.Machine.execFsRequestIssue t n s
  | .fetchDataArrive t r pane row k ok => Sys2Proof.Machine.execFetchDataArrive t r pane row k ok s
  | .mcgEntryAdvance t n => Sys2Proof.Machine.execMcgEntryAdvance t n s
  | .gateSwitch t n => Sys2Proof.Machine.execGateSwitch t n s
  | .divergenceCompare t unit => Sys2Proof.Machine.execDivergenceCompare t unit s
  | .strikeDecision t r => Sys2Proof.Machine.execStrikeDecision t r s
  | .strikeVoteTime t num => Sys2Proof.Machine.execStrikeVoteTime t num s
  | .strikeVerdictDeadline t num => Sys2Proof.Machine.execStrikeVerdictDeadline t num s
  | .strikeRegistrationRx t x reg => Sys2Proof.Machine.execStrikeRegistrationRx t x reg s
  | .strikeVoteRx t x device num v => Sys2Proof.Machine.execStrikeVoteRx t x device num v s
  | .strikeVerdictRx t x num w => Sys2Proof.Machine.execStrikeVerdictRx t x num w s
  | .strikeRegistrationTimeout t num => Sys2Proof.Machine.execStrikeRegistrationTimeout t num s
  | .crystalUnlockExpire t => Sys2Proof.Machine.execCrystalUnlockExpire t s
  | .crystalLockoutExpire t => Sys2Proof.Machine.execCrystalLockoutExpire t s
  | .ethFrameRx t port level fixed frame => Sys2Proof.Machine.execEthFrameRx t port level fixed frame s
  | .fwFrameService t port x => Sys2Proof.Machine.execFwFrameService t port x s
  | .ptpMessageRx t port x => Sys2Proof.Machine.execPtpMessageRx t port x s
  | .ptpAnnounceTimeout t becomesMaster => Sys2Proof.Machine.execPtpAnnounceTimeout t becomesMaster s
  | .dcoSteer t => Sys2Proof.Machine.execDcoSteer t s
  | .ingestFrameTimeout t flow => Sys2Proof.Machine.execIngestFrameTimeout t flow s
  | .st2110PacketRelease t flow => Sys2Proof.Machine.execSt2110PacketRelease t flow s
  | .fstPacketSend t flow => Sys2Proof.Machine.execFstPacketSend t flow s
  | .portTxSelect t port => Sys2Proof.Machine.execPortTxSelect t port s
  | .qbvEntryAdvance t port => Sys2Proof.Machine.execQbvEntryAdvance t port s
  | .qbvGateSwitch t port => Sys2Proof.Machine.execQbvGateSwitch t port s
  | .queueStatsSample t => Sys2Proof.Machine.execQueueStatsSample t s
  | .ethLinkUp t port => Sys2Proof.Machine.execEthLinkUp t port s
  | .ethLinkDown t port => Sys2Proof.Machine.execEthLinkDown t port s
  | .fecUncorrectable t port n => Sys2Proof.Machine.execFecUncorrectable t port n s
  | .cfBlockDecodeFail t k n => Sys2Proof.Machine.execCfBlockDecodeFail t k n s
  | .retrainDone t link lane => Sys2Proof.Machine.execRetrainDone t link lane s
  | .retrainAttemptFail t link lanes => Sys2Proof.Machine.execRetrainAttemptFail t link lanes s
  | .cfLinkUp t k lanes => Sys2Proof.Machine.execCfLinkUp t k lanes s
  | .cfBringupTimeout t k => Sys2Proof.Machine.execCfBringupTimeout t k s
  | .cfBringupRetry t k => Sys2Proof.Machine.execCfBringupRetry t k s
  | .cfLinkDown t k => Sys2Proof.Machine.execCfLinkDown t k s
  | .cfFlitTx t k => Sys2Proof.Machine.execCfFlitTx t k s
  | .idleFlitRx t x => Sys2Proof.Machine.execIdleFlitRx t x s
  | .helloRx t x uid lanes => Sys2Proof.Machine.execHelloRx t x uid lanes s
  | .calReqRx t x => Sys2Proof.Machine.execCalReqRx t x s
  | .calRespRx t x n sum => Sys2Proof.Machine.execCalRespRx t x n sum s
  | .beatEmit t => Sys2Proof.Machine.execBeatEmit t s
  | .beatRx t x => Sys2Proof.Machine.execBeatRx t x s
  | .beatLoss t => Sys2Proof.Machine.execBeatLoss t s
  | .xferHdrRx t x src => Sys2Proof.Machine.execXferHdrRx t x src s
  | .xferDataRx t device x => Sys2Proof.Machine.execXferDataRx t device x s
  | .xferEndRx t device x => Sys2Proof.Machine.execXferEndRx t device x s
  | .frameStartRx t x => Sys2Proof.Machine.execFrameStartRx t x s
  | .lineDataRx t device x => Sys2Proof.Machine.execLineDataRx t device x s
  | .importPublishTimeout t imp => Sys2Proof.Machine.execImportPublishTimeout t imp s
  | .dpTrainingDone t port rate lanes => Sys2Proof.Machine.execDpTrainingDone t port rate lanes s
  | .dpHpdChange t port level => Sys2Proof.Machine.execDpHpdChange t port level s
  | .hdcpAuthResult t port stream ok rxids => Sys2Proof.Machine.execHdcpAuthResult t port stream ok rxids s
  | .blJobStart t => Sys2Proof.Machine.execBlJobStart t s
  | .blBurst t => Sys2Proof.Machine.execBlBurst t s
  | .blJobEnd t => Sys2Proof.Machine.execBlJobEnd t s
  | .blListEntryRun t => Sys2Proof.Machine.execBlListEntryRun t s
  | .hdChannelSelect t desc ok => Sys2Proof.Machine.execHdChannelSelect t desc ok s
  | .hdHwRequest t line => Sys2Proof.Machine.execHdHwRequest t line s
  | .hdBurst t src dst ok => Sys2Proof.Machine.execHdBurst t src dst ok s
  | .hdDescComplete t readBack desc ok => Sys2Proof.Machine.execHdDescComplete t readBack desc ok s
  | .hdReqTimeout t => Sys2Proof.Machine.execHdReqTimeout t s
  | .hdAccessTimeout t => Sys2Proof.Machine.execHdAccessTimeout t s
  | .eccCorrected t x => Sys2Proof.Machine.execEccCorrected t x s
  | .eccUncorrectable t x => Sys2Proof.Machine.execEccUncorrectable t x s
  | .migrationSurfaceMoved t surf => Sys2Proof.Machine.execMigrationSurfaceMoved t surf s
  | .migrationDone t lost => Sys2Proof.Machine.execMigrationDone t lost s
  | .channelRestartDone t n => Sys2Proof.Machine.execChannelRestartDone t n s
  | .channelRestartTimeout t n => Sys2Proof.Machine.execChannelRestartTimeout t n s
  | .parity t slice pane y => Sys2Proof.Machine.execParity t slice pane y s
  | .ltrPeriodic t => Sys2Proof.Machine.execLtrPeriodic t s
  | .ltrCheckpointDone t ok => Sys2Proof.Machine.execLtrCheckpointDone t ok s
  | .ltrSecondSample t ber => Sys2Proof.Machine.execLtrSecondSample t ber s
  | .resetNDeassert t tj => Sys2Proof.Machine.execResetNDeassert t tj s
  | .bootReady t x => Sys2Proof.Machine.execBootReady t x s
  | .tjBelow115BootStart t tj => Sys2Proof.Machine.execTjBelow115BootStart t tj s
  | .xferAnswerRx t device ctx published status r0 => Sys2Proof.Machine.execXferAnswerRx t device ctx published status r0 s
  | .ptpMessageInterval t port kind => Sys2Proof.Machine.execPtpMessageInterval t port kind s
  | .serdesEqAdapt t lane code => Sys2Proof.Machine.execSerdesEqAdapt t lane code s
  | .pcieLinkTrained t => Sys2Proof.Machine.execPcieLinkTrained t s

end Sys2Proof.Machine
end

