-- ==== Sys2Proof/Safety.lean ====
section
/-! DEFINITION. What counts as a safe state and a safe step, and the terms in which statements speak of commands:
which packets run, and which part of the state an answer, an alert or a completion leaves alone. -/
namespace Sys2Proof.Machine
open Sys2Proof

/-! ### Safe states and steps -/

/-- The power state, the power state that a change goes to and the boot stage are ones that the device has
(R535, R538, R545). -/
def legalMode (pstate target stage : Nat) : Prop :=
  pstate ≤ 3 ∧ target ≤ 3 ∧ (stage = 0 ∨ stage = 3 ∨ stage = 5 ∨ stage = 6)

/-- The invariant of the machine: memory is in its one canonical form and the mode is legal. -/
def Inv (s : State) : Prop :=
  Memory.wf s.mm.mem = true ∧ legalMode s.pmu.pstate s.pmu.target s.pmu.stage

/-- A safe step answers a next state. -/
def StepSafe (s : State) : Prop := ∃ s', step s = .next s'

/-! ### Parts of the state -/

/-- The state with what an alert touches blanked: the output and the event concentrator. -/
def quiet (s : State) : State := { s with out := [], evc := {} }

/-- The state with what an answer touches blanked: the output, the free values, the command port and the event
concentrator. -/
def rest (s : State) : State := { s with out := [], fresh := 0, cp := {}, evc := {} }

/-- The state with what an answer to another device touches blanked as well: what waits on the links, and the number of
the next command message. -/
def beyond (s : State) : State := { rest s with cf := { s.cf with links := [], msgNo := 0 } }

/-- A link without the flits that wait on it. -/
def unladen (s : State) (k : Nat) : CfLink := { linkOf s k with waiting := [] }

/-! ### Packets that run -/

/-- Checks 2 to 4 of R74 pass at the receiving device and the packet is for this device; a packet forwarded by
another device has passed them there. -/
def stays (p : Packet) (s : State) : Bool :=
  p.origin.isSome || (headerOk p && destLocal s p.dest && !(p.indirect && (p.env.blockFails || !bmeOf s p.func)))

/-- What an entry acts on is busy, or something holds its effect back: it waits (R72, R137). -/
def mustWait (sp : CmdSpec) (e : Entry) (s : State) : Bool := unitsBusy s.cp.held sp e.pkt s || sp.waits e s

/-- An entry of an opcode begins now: P2 does not hold it (R546), nothing it acts on is busy (R72), its function
owns what it names and no unit it names is marked (checks 6 and 7 of R74). -/
def begins (sp : CmdSpec) (e : Entry) (s : State) : Bool :=
  !(s.pmu.pstate == 2 && !runsInP2 sp.opcode) && !mustWait sp e s && sp.owns e.pkt s && !divergedHit sp e.pkt s

/-- A packet of an opcode presented at tick t to state s is taken as entry e, leaving s0: the device takes packets,
its function is enabled and it has not been taken before. -/
def Taken (op : Nat) (t : Ticks) (p : Packet) (s : State) (e : Entry) (s0 : State) : Prop :=
  isRunning (advance t s) = true ∧ (p.origin = none → functionOn (advance t s) p.func = true)
    ∧ heldAt op p (advance t s) = none ∧ takeEntry op p (advance t s) = some (e, s0)

/-- A packet presented at tick t to state s is taken as entry e and runs at once on this device, in state s0, its
parameter block read: checks 2 to 7 of R74 pass and it is not a timed packet. -/
def Runs (sp : CmdSpec) (t : Ticks) (p : Packet) (s : State) (e : Entry) (s0 : State) : Prop :=
  ∃ s1, Taken sp.opcode t p s e s1 ∧ stays p s1 = true ∧ p.atTime = false ∧ readBlock p s1 = s0
    ∧ begins sp e s0 = true

/-- The state once the unknown opcodes that stand behind a packet of its pair have completed as well. -/
def afterwards (p : Packet) (s : State) : State := settleFifo p.func p.qp s.cp.fifo.length s

/-- The outcome of a packet that completes: with a status and results (none: a free value), after its effect. -/
def answers (p : Packet) (e : Entry) (status : Nat) (r0 r1 : Option Nat) (s : State) :
    Host.Outcome State Fault Refusal :=
  .next (afterwards p (finish e status r0 r1 s))

/-- A packet's buffer can be written: it is optional and absent, or aligned and reached (R94, R601). -/
def bufferOk (p : Packet) (s : State) (buf align : Nat) (optional : Bool) : Bool :=
  (optional && buf == 0) || (buf % align == 0 && !hostAccessFails p s)

/-- A record is written to a packet's buffer; an optional buffer at address 0 is none. -/
def bufferWrite (p : Packet) (buf : Nat) (optional : Bool) (bytes : List Byte) (s : State) : State :=
  if optional && buf == 0 then s else emit (.hostWrite p.func buf bytes) s

/-- The outcome of a packet that a unit carries out over later steps: it is in flight on the unit. -/
def pends (p : Packet) (e : Entry) (unit : Nat) (s : State) : Host.Outcome State Fault Refusal :=
  .next (afterwards p { s with cp := { s.cp with inflight := s.cp.inflight ++ [⟨e, unit, false⟩] } })

/-! ### Events that act -/

/-- An event at tick t acts on state s1: the state s with its time at t, in which the part runs. -/
def Occurs (t : Ticks) (s s1 : State) : Prop := advance t s = s1 ∧ isRunning s1 = true

/-- An access at tick t to registers of function f acts on state s1: the link is up and the function exists, its Memory
Space Enable is set (R601) and the device is READY (R541). -/
def Reaches (t : Ticks) (f : Nat) (s s1 : State) : Prop :=
  advance t s = s1 ∧ hostReaches s1 f = true ∧ mseOf s1 f = true ∧ isReady s1 = true

/-- A flit of one of the types reaches state s on an enabled link that is up, or that comes up for a flit of the link
itself, is the next in sequence and is for this device; s1 is the state once the link has taken it (R421 to R425). -/
def Lands (x : FlitRx) (types : List Nat) (s s1 : State) : Prop :=
  let l := takeHeader x (linkOf s x.link)
  x.link < 4 ∧ (linkOf s x.link).enabled = true ∧ (linkOf s x.link).retraining = false
    ∧ ((linkOf s x.link).up = true ∨ (linkLocal x.ty = true ∧ (linkOf s x.link).bringup.isSome = true))
    ∧ x.ty ∈ types ∧ x.ty ≠ 0 ∧ flitTypeOk x.vc x.ty = true ∧ x.fseq = l.expect
    ∧ staysHere s x = true
    ∧ putLink x.link { l with expect := (l.expect + 1) % 65536, rxflit := (l.rxflit + 1) % 2 ^ 64,
                              owed := Tbl.upd l.owed 0 x.vc (· + 1) } s = s1

/-- A flit of a stream reaches state s, as `Lands` says, and s1 is the state once the flits that waited have gone on. -/
def Arrives (f : InFlit) (s s1 : State) : Prop := ∃ s2, Lands f.flit [f.flit.ty] s s2 ∧ drainFlits s2 = s1

/-- A flit that has arrived acts at once: no earlier flit of its stream waits, and memory serves it (R19, R561). -/
def Goes (f : InFlit) (s : State) : Prop := (∀ y ∈ s.cf.inbuf, streamOf y ≠ streamOf f) ∧ flitServed s f = true

end Sys2Proof.Machine
end

