-- ==== Sys2Proof/Certificates/Slice0/Obligations.lean ====
section
/-! DEFINITION. The statements for the provers: what a step does with the queue, what every step keeps, how every
packet is taken, answered or refused, and what each command and event of the opcode table does. A packet `Runs` when it is
taken at once and its checks pass; an event `Occurs` while the part runs; each conclusion is the whole next state, so that it
says as well what stays as it was. -/
open Sys2Proof Sys2Proof.Machine

/-! ### The machine as a whole -/

/-- R60, R71: a step takes the command at the front of the queue and executes it with the rest of the queue; with an
empty queue it idles, which is the model's choice (DESIGN CHOICE, notes/assumptions/2.md). -/
def Obligations.StepTakesTheFront : Prop :=
  (∀ (c : Instr) (s : State), step { s with pending := c :: s.pending } = exec c s)
    ∧ ∀ s : State, s.pending = [] → step s = .next s

/-- R94: no command stops the device. From every state a step answers a next state; it takes at most the front command off
the queue, and time does not go back. -/
def Obligations.EveryStepAnswers : Prop :=
  ∀ s : State, ∃ s', step s = .next s' ∧ s'.pending = s.pending.tail ∧ s.clk.ticks ≤ s'.clk.ticks

/-- The state at reset meets the invariant: memory in its canonical form, a power state and a boot stage of the device. -/
def Obligations.ResetMeetsTheInvariant : Prop := Inv State.reset

/-- R535, R538, R544, R545: from every state that meets the invariant, every step leaves memory in its canonical form and
the part in one of its power states and boot stages. -/
def Obligations.StepKeepsTheInvariant : Prop := ∀ s s' : State, Inv s → step s = .next s' → Inv s'

/-- R169, R187, R318, R527, R528, R536, R563: what reset leaves. Every gate list runs one entry of 1,000 ns with every class
open and none is armed; leads are 4 to 16; every raster is stopped; every event source goes to target 4 at priority 0
without PENDING, and every target has threshold 0, no hold and a coalescing count of 1; no queue pair is enabled; the part
is in P0 at boot stage 0 and nothing is queued. -/
def Obligations.ResetLeaves : Prop :=
  let s := State.reset
  (∀ n, (chanFsOf s n).running = [⟨250, 0xFF⟩] ∧ (chanFsOf s n).start = 0 ∧ (chanFsOf s n).arm = .empty)
    ∧ (∀ r, (fsOf s r).leadMin = 4 ∧ (fsOf s r).leadMax = 16 ∧ (rasterOf s r).st = .stopped)
    ∧ (∀ n, (srcOf s n).target = 4 ∧ (srcOf s n).prio = 0 ∧ (srcOf s n).nowake = false ∧ (srcOf s n).pending = false
      ∧ (srcOf s n).claimed = false)
    ∧ (∀ n, (tgtOf s n).thresh = 0 ∧ (tgtOf s n).hold = false ∧ (tgtOf s n).count = 1)
    ∧ (∀ f q, (qpOf s f q).enable = false ∧ (qpOf s f q).running = false)
    ∧ s.pmu.pstate = 0 ∧ s.pmu.stage = 0 ∧ s.cp.fifo = [] ∧ s.pending = []

/-! ### Every packet -/

/-- R40, R72, R74, R88, R94: the checks of a packet in their order, for every opcode. A bad header answers BAD_PARAM; a
destination of another node, of no device or with no live route UNREACHABLE; a failed read of an indirect block
BUS_ERROR; once the block is read, in P2 an opcode that does not run there BUSY (DEDUCED, notes/assumptions/15.md). A packet
whose unit is busy waits for it (DEDUCED, notes/assumptions/72.md). A function that does not own what it names gets
NOT_OWNER, marked or not, and an owner of a marked unit DIVERGED. Each refusal leaves everything but the answer as it
was: for a packet of the host all but the output, the free values, the command port and the event concentrator, for
another device's also what waits on the links and the number of the next message. -/
def Obligations.RefusalsComeInOrder : Prop :=
  ∀ (c : Ticks → Packet → Instr) (sp : CmdSpec), (∀ t p s, exec (c t p) s = runPacket sp t p s) →
  ∀ (t : Ticks) (p : Packet) (s : State) (e : Entry) (s1 : State), Taken sp.opcode t p s e s1 →
    (p.origin = none →
      (headerOk p = false → exec (c t p) s = answers p e 0x101 none none s1)
      ∧ (headerOk p = true → destLocal s1 p.dest = false →
        (s1.cf.valid = false ∨ p.dest / 64 ≠ s1.cf.devid / 64 ∨ nodeSize s1 ≤ p.dest % 64
          ∨ (∀ r ∈ routeCandidates s1 (ownMember s1) (p.dest % 64), ∃ hop ∈ r, memberLanes s1 hop.1 hop.2 = 0)) →
        exec (c t p) s = answers p e 0x109 none none s1)
      ∧ (headerOk p = true → (destLocal s1 p.dest = true ∨ (routeTo s1 p.dest).isSome = true) → p.indirect = true →
        (p.env.blockFails = true ∨ bmeOf s1 p.func = false) → exec (c t p) s = answers p e 0x110 none none s1))
    ∧ (∀ s0, stays p s1 = true → p.atTime = false → readBlock p s1 = s0 →
      (s0.pmu.pstate = 2 → runsInP2 sp.opcode = false → exec (c t p) s = answers p e 0x107 none none s0)
      ∧ ((s0.pmu.pstate ≠ 2 ∨ runsInP2 sp.opcode = true) →
        (mustWait sp e s0 = true → exec (c t p) s = .next (afterwards p (holdPacket sp e s0)))
        ∧ (mustWait sp e s0 = false →
          (sp.owns p s0 = false → exec (c t p) s = answers p e 0x106 none none s0)
          ∧ (sp.owns p s0 = true → divergedHit sp p s0 = true →
            exec (c t p) s = answers p e 0x105 none none s0))))
    ∧ ∀ s0 st r0 r1 s', s0 = s1 ∨ s0 = readBlock p s1 → answers p e st r0 r1 s0 = .next s' →
      (p.origin = none → rest s' = rest (advance t s))
        ∧ beyond s' = beyond (advance t s) ∧ ∀ k, unladen s' k = unladen (advance t s) k

/-- R76, R78: for every opcode, a timed packet that passes the checks of its header is accepted into the timed list, at
its end, and acts later; one more than 10^15 ns ahead answers BAD_PARAM, and one that finds 256 packets waiting
NO_RESOURCE with source 11. -/
def Obligations.TimedPacketsAreAccepted : Prop :=
  ∀ (c : Ticks → Packet → Instr) (sp : CmdSpec), (∀ t p s, exec (c t p) s = runPacket sp t p s) →
  ∀ (t : Ticks) (p : Packet) (s : State) (e : Entry) (s1 s0 : State), Taken sp.opcode t p s e s1 →
    stays p s1 = true → p.atTime = true → readBlock p s1 = s0 →
    (now s0 + 1000000000000000 < p.execTime → exec (c t p) s = answers p e 0x101 none none s0)
    ∧ (p.execTime ≤ now s0 + 1000000000000000 → 256 ≤ timedWaiting s0 →
      exec (c t p) s = .next (afterwards p (raise 11 (finish e 0x102 none none s0))))
    ∧ (p.execTime ≤ now s0 + 1000000000000000 → timedWaiting s0 < 256 →
      exec (c t p) s = .next (afterwards p (acceptTimed e s0))
      ∧ (p.origin = none → rest (acceptTimed e s0) = rest (advance t s))
      ∧ beyond (acceptTimed e s0) = beyond (advance t s) ∧ (∀ k, unladen (acceptTimed e s0) k = unladen (advance t s) k)
      ∧ ∃ e', (acceptTimed e s0).cp.timed = s0.cp.timed ++ [⟨e', s0.cp.order⟩] ∧ e'.pkt = p
        ∧ (acceptTimed e s0).cp.order = s0.cp.order + 1)

/-- R72, R73, R80, R93, R541, R596: a packet that cannot be taken leaves everything but the time as it was: one with FENCE
while an earlier packet of its queue pair has not completed, one of a pair whose flush has still to reach its packet
boundary, one that the next read of the FIFO does not return, one that waits for a unit still busy, one of a function
that is not enabled, and any before READY, in P3 or after a shutdown. -/
def Obligations.HeldPacketsWait : Prop :=
  ∀ (c : Ticks → Packet → Instr) (sp : CmdSpec), (∀ t p s, exec (c t p) s = runPacket sp t p s) →
  ∀ (t : Ticks) (p : Packet) (s s1 : State), advance t s = s1 →
    (isRunning s1 = false → exec (c t p) s = .next s1)
    ∧ (p.origin = none → functionOn s1 p.func = false → exec (c t p) s = .next s1)
    ∧ (heldAt sp.opcode p s1 = none →
      (p.fence = true → earlierOpen s1 p.func p.qp p.origin = true → exec (c t p) s = .next s1)
      ∧ (p.origin = none → (qpOf s1 p.func p.qp).flush = true → (qpOf s1 p.func p.qp).flushTo = none →
        exec (c t p) s = .next s1)
      ∧ ((s1.cp.fifo.find? (ofPair p.func p.qp p.origin)).isSome = true →
        (∀ e, nextEntry s1 = some e → ofPair p.func p.qp p.origin e = false ∨ e.opcode ≠ sp.opcode
          ∨ samePacket e.pkt p = false) → exec (c t p) s = .next s1))
    ∧ ∀ i h, heldAt sp.opcode p s1 = some i → s1.cp.held[i]? = some h →
      (s1.pmu.pstate ≠ 2 ∨ runsInP2 sp.opcode = true) →
      unitsBusy (s1.cp.held.take i) sp { h.ent.pkt with env := p.env }
        { s1 with cp := { s1.cp with held := dropAt s1.cp.held i } } = true → exec (c t p) s = .next s1

/-- R63, R65, R67 to R69: a packet of a ring that completes with a failing status or with REPLY_ALWAYS gets one reply of
16 bytes in the next slot of its ring, with its TAG, status and results, the credits not yet reported and the phase of
the pass, and RPI moves on; without either it gets none. -/
def Obligations.RepliesAreWritten : Prop :=
  ∀ (e : Entry) (st r0 r1 : Nat) (s : State) (x : Qp), e.pkt.origin = none → e.counted = true → e.slots = 1 →
    qpOf s e.pkt.func e.pkt.qp = x → x.replyDead = false → bmeOf s e.pkt.func = true →
    let s' := complete e st r0 r1 s
    let x' := qpOf s' e.pkt.func e.pkt.qp
    let n := 2 ^ x.rlog2
    rest s' = rest s
    ∧ ((0x100 ≤ st ∨ e.pkt.replyAlways = true) →
      Out.hostWrite e.pkt.func (x.rbase + 16 * (x.rpi % n))
        (leBytes 2 e.pkt.tag ++ leBytes 2 st ++ leBytes 4 (wrap 32 r0) ++ leBytes 4 (wrap 32 r1)
          ++ leBytes 2 x.unreported ++ leBytes 1 (1 - x.rpi / n % 2) ++ [0#8]) ∈ s'.out
      ∧ x'.rpi = (x.rpi + 1) % 65536 ∧ x'.unreported = 0)
    ∧ (st < 0x100 → e.pkt.replyAlways = false →
      x'.rpi = x.rpi ∧ x'.unreported = x.unreported
      ∧ ∀ a b, Out.hostWrite e.pkt.func a b ∈ s'.out → Out.hostWrite e.pkt.func a b ∈ s.out)

/-! ### Device memory -/

/-- Device memory as bytes (R107, R571): what is written to consecutive addresses is read back there and every other byte
reads as before; the canonical form is kept, so that two memories that read alike are equal. -/
def Obligations.MemoryReadsBack : Prop :=
  (∀ (m : List Host.Cell) (a : Nat) (bs : List Byte) (k : Nat), Memory.wf m = true →
    memGet (memPutBytes m a bs) k = if a ≤ k ∧ k < a + bs.length then bs.getD (k - a) 0#8 else memGet m k)
  ∧ ∀ m n : List Host.Cell, Memory.wf m = true → Memory.wf n = true → (∀ k, memGet m k = memGet n k) → m = n

/-! ### Host packets -/

/-- R99, R580, R581: NOP answers the time at execution, GET_IDENTITY and GET_FIRMWARE the identity of the part, and
they change nothing else; the optional record goes to a buffer that can be written. -/
def Obligations.IdentityCommandsAnswer : Prop :=
  ∀ (t : Ticks) (p : Packet) (s : State) (e : Entry) (s0 : State),
    (Runs specNop t p s e s0 →
      exec (.nop t p) s = answers p e 0 (some (now s0 % 2 ^ 32)) (some (now s0 / 2 ^ 32)) s0)
    ∧ (Runs specGetIdentity t p s e s0 → bufferOk p s0 (prm p 0 8) 64 true = true →
      exec (.getIdentity t p) s = answers p e 0 (some s0.rel.partid) (some (s0.rel.uid % 2 ^ 32))
        (bufferWrite p (prm p 0 8) true
          (leBytes 4 s0.rel.partid ++ fitBytes 6 s0.rel.lot ++ leBytes 1 s0.rel.wafer ++ leBytes 1 s0.rel.dieX
            ++ leBytes 1 s0.rel.dieY ++ leBytes 3 0 ++ leBytes 8 s0.rel.uid ++ leBytes 4 s0.pmu.fwVersion
            ++ leBytes 4 (s0.cf.devid + shl (b2n s0.cf.valid) 18) ++ List.replicate 32 0#8) s0))
    ∧ (Runs specGetFirmware t p s e s0 →
      exec (.getFirmware t p) s = answers p e 0 (some s0.pmu.fwVersion) (some (s0.pmu.slot % 2)) s0)

/-- R39, R41, R103: QUERY_UNIT answers the management and the data-path state word of the unit named and changes
nothing; RECONCILE adopts the data-path state of a marked unit and adopts nothing on one that is not marked. -/
def Obligations.UnitCommandsAnswer : Prop :=
  ∀ (t : Ticks) (p : Packet) (s : State) (e : Entry) (s0 : State), unitOk (prm p 0 4) = true →
    (Runs specQueryUnit t p s e s0 →
      exec (.queryUnit t p) s = answers p e 0 (some (mgmtWord s0 (reportUnit s0 (prm p 0 4))))
        (some (dataWord s0 (reportUnit s0 (prm p 0 4)))) s0)
    ∧ (Runs specReconcile t p s e s0 → isMarked s0 (prm p 0 4) = true →
      exec (.reconcile t p) s = answers p e 0 (some (dataWord s0 (prm p 0 4))) (some 1) (adoptData (prm p 0 4) s0))
    ∧ (Runs specReconcile t p s e s0 → isMarked s0 (prm p 0 4) = false →
      exec (.reconcile t p) s = answers p e 0 none (some 0) s0)

/-- R79: CANCEL_TIMED takes the earliest-accepted timed packet of its function, its origin and the queue pair and
TAG named out of the list and completes it with FLUSHED; one whose time has come is left and gives BUSY. -/
def Obligations.CancelTimedAnswers : Prop :=
  ∀ (t : Ticks) (p : Packet) (s : State) (e : Entry) (s0 : State) (a b : List Timed) (x : Timed),
    Runs specCancelTimed t p s e s0 → s0.cp.timed = a ++ x :: b →
    (∀ y ∈ a, cancelMatch p y = false) → cancelMatch p x = true →
    (now s0 < x.ent.pkt.execTime →
      exec (.cancelTimed t p) s
        = answers p e 0 none none
            (settlePair x.ent (flushEntry x.ent { s0 with cp := { s0.cp with timed := a ++ b } })))
    ∧ (x.ent.pkt.execTime ≤ now s0 → exec (.cancelTimed t p) s = answers p e 0x107 none none s0)

/-- R27, R31, R99 to R102: ASSIGN of each kind. One that names a VF which is not enabled, a kind that is none, or fields that
the kind does not allow answers BAD_PARAM; idle rasters, a range of indices, queue pairs or the host event targets move to the
function named, counted by those that change owner; a raster, a range or a queue pair in use, or a range of another VF, gives
BUSY, and a crystal's pane or surface PROTECTED; and a refusal moves none. The opcode is PF0's. -/
def Obligations.AssignMoves : Prop :=
  ∀ (t : Ticks) (p : Packet) (s : State) (e : Entry) (s0 : State) (f first count k : Nat),
    Runs specAssign t p s e s0 → prmb p 0 1 3 0 = f → prm p 1 1 = k → prm p 4 4 = first → prm p 8 4 = count →
    (p.origin = none → functionOn s0 f = false → exec (.assign t p) s = answers p e 0x101 none none s0)
    ∧ (k ∉ [1, 2, 3, 4, 5, 6, 7] → exec (.assign t p) s = answers p e 0x101 none none s0)
    ∧ ((p.origin.isSome = true ∨ functionOn s0 f = true) →
      (k = 1 →
        (16 < first + count → exec (.assign t p) s = answers p e 0x101 none none s0)
        ∧ (first + count ≤ 16 →
          let rs := (List.range count).map (first + ·)
          let moved := rs.filter fun r => rasterOwner s0 r != f
          (moved.all (rasterIdle s0) = true → ∀ s1, forAll rs (assignRaster f) s0 = s1 →
            exec (.assign t p) s = answers p e 0 (some moved.length) none s1
            ∧ ∀ r, rasterOwner s1 r = if r ∈ rs then f else rasterOwner s0 r)
          ∧ (moved.all (rasterIdle s0) = false → exec (.assign t p) s = answers p e 0x107 none none s0)))
      ∧ (k = 4 →
        ((f = 0 ∨ first ≠ 0 ∨ 8 < count) → exec (.assign t p) s = answers p e 0x101 none none s0)
        ∧ (f ≠ 0 → first = 0 → count ≤ 8 →
          ((∀ q, count ≤ q → q < qpCount s0 f → (qpOf s0 f q).enable = false) → exec (.assign t p) s
            = answers p e 0 (some (max (qpCount s0 f) count - min (qpCount s0 f) count)) none
                { s0 with own := { s0.own with qpairs := Tbl.set s0.own.qpairs f count } })
          ∧ (∀ q, count ≤ q → q < qpCount s0 f → (qpOf s0 f q).enable = true →
            exec (.assign t p) s = answers p e 0x107 none none s0)))
      ∧ (k = 7 →
        ((f = 0 ∨ first ≠ 0 ∨ (count ≠ 0 ∧ count ≠ 4)) → exec (.assign t p) s = answers p e 0x101 none none s0)
        ∧ (f ≠ 0 → first = 0 → ∀ held, (held = true ∧ count = 4 ∨ held = false ∧ count = 0) →
          (Tbl.get s0.own.targets false f = held → exec (.assign t p) s = answers p e 0 (some 0) none s0)
          ∧ (Tbl.get s0.own.targets false f ≠ held →
            exec (.assign t p) s = answers p e 0 (some 4) none (forAll (List.range 4)
              (fun v s => rehomeTarget (4 + 4 * f + v) s)
              { s0 with own := { s0.own with targets := Tbl.set s0.own.targets f held } }))))
      ∧ (isRangeKind k = true → ∀ old new moved, rangesOf s0 k = old → newRanges f first count old = new →
        movedIndices k old new = moved →
        let legal := (first + count ≤ rangeLimit k ∨ (f ≠ 0 ∧ count = 0))
          ∧ (f ≠ 0 ∨ ∀ x ∈ old, splits first count x.2 = false)
        let apart := f = 0 ∨ ∀ x ∈ old, x.1 ≠ f → runMeets first count x.2 = false
        (¬legal → exec (.assign t p) s = answers p e 0x101 none none s0)
        ∧ (legal → holdsCrystal s0 k first count = true → exec (.assign t p) s = answers p e 0x10E none none s0)
        ∧ (legal → holdsCrystal s0 k first count = false → ¬apart → exec (.assign t p) s = answers p e 0x107 none none s0)
        ∧ (legal → holdsCrystal s0 k first count = false → indicesIdle s0 k new moved = false →
          exec (.assign t p) s = answers p e 0x107 none none s0)
        ∧ (legal → holdsCrystal s0 k first count = false → apart → indicesIdle s0 k new moved = true →
          ∀ s1, putRanges k new s0 = s1 → exec (.assign t p) s = answers p e 0 (some moved.length) none s1
            ∧ rangesOf s1 k = new ∧ s1 = { s0 with own := s1.own } ∧ ∀ j ≠ k, isRangeKind j = true →
              rangesOf s1 j = rangesOf s0 j)))

/-- R102: QUERY_OWNER answers the rasters, the queue pairs, the event targets or the range of indices that a function
holds, and for PF0 the lowest free run from FIRST; it changes nothing. -/
def Obligations.QueryOwnerAnswers : Prop :=
  ∀ (t : Ticks) (p : Packet) (s : State) (e : Entry) (s0 : State) (f : Nat),
    Runs specQueryOwner t p s e s0 → prmb p 0 1 3 0 = f →
    (prm p 1 1 = 1 →
      exec (.queryOwner t p) s
        = answers p e 0 (some (maskOf ((List.range 16).filter fun r => rasterOwner s0 r == f))) (some 0) s0)
    ∧ (prm p 1 1 = 4 → exec (.queryOwner t p) s = answers p e 0 (some 0) (some (qpCount s0 f)) s0)
    ∧ (prm p 1 1 = 7 →
      exec (.queryOwner t p) s
        = answers p e 0 (some 0) (some (if f = 0 ∨ Tbl.get s0.own.targets false f = true then 4 else 0)) s0)
    ∧ (isRangeKind (prm p 1 1) = true → f = 0 →
      let r := freeRun (rangesOf s0 (prm p 1 1)) (rangeLimit (prm p 1 1)) (prm p 4 4)
      exec (.queryOwner t p) s = answers p e 0 (some r.1) (some r.2) s0)
    ∧ (isRangeKind (prm p 1 1) = true → f ≠ 0 → ∀ r, Tbl.find? (rangesOf s0 (prm p 1 1)) f = some r →
      exec (.queryOwner t p) s = answers p e 0 (some r.1) (some r.2) s0)

/-- R146 to R153, R282: the surface commands. A create of a surface that is not valid allocates its extent and makes
it valid with its write slot claimed; a destroy of one that nothing refers to makes it invalid; sharing is set; a
publish of the held write slot publishes it; queries write their record. -/
def Obligations.SurfaceCommandsAnswer : Prop :=
  ∀ (t : Ticks) (p : Packet) (s : State) (e : Entry) (s0 : State) (i : Nat), prmb p 0 2 13 0 = i →
    (Runs specSurfaceCreate t p s e s0 → s0.mm.migrating = false → surfValid s0 i = false →
      surfaceOk p (prmSurface p) = true → ∀ base s1,
      allocate noSurface (allocLimit s0 p.func) (extentBytes (prmSurface p)) s0 = (some base, s1) →
      exec (.surfaceCreate t p) s = answers p e 0 (some (base / 4096)) (some (prmSurface p).stride)
        (putSurf i (claimSlot { prmSurface p with valid := true, base := base, newest := noSlot,
                                                     hdr := (takeFree s1).1 % headerPlaces }) (takeFree s1).2))
    ∧ (surfValid s0 i = true →
      (Runs specSurfaceDestroy t p s e s0 → (surfOf s0 i).crystal = false → (surfOf s0 i).frozen = false →
        committedRefers s0 i = false → hasAutoWriter s0 i = false → anyPinned (surfOf s0 i) = false →
        blRefers s0 i = false →
        exec (.surfaceDestroy t p) s = answers p e 0 none none (putSurf i { surfOf s0 i with valid := false } s0))
      ∧ (Runs specSurfaceQuery t p s e s0 → prmb p 2 2 9 0 ≤ (surfOf s0 i).slotsM1 →
        bufferOk p s0 (prm p 8 8) 32 true = true →
        exec (.surfaceQuery t p) s
          = answers p e 0 (some ((surfOf s0 i).wslot + shl (surfOf s0 i).newest 16)) (some (surfOf s0 i).pubSeq)
              (bufferWrite p (prm p 8 8) true (surfaceRecord (surfOwner s0 i) (surfOf s0 i) (prmb p 2 2 9 0)) s0))
      ∧ (Runs specSlotPublish t p s e s0 → ((surfOf s0 i).crystal = false ∨ isUnlocked s0 = true) →
        (surfOf s0 i).writer = 0 → (surfOf s0 i).frozen = false → prmbit p 2 0 = false →
        (surfOf s0 i).wslot ≠ noSlot → prmb p 4 2 9 0 = (surfOf s0 i).wslot →
        (surfOf s0 i).lastCap.getD 0 ≤ prm p 8 8 →
        exec (.slotPublish t p) s
          = answers p e 0 (some (surfOf (publishHost i (prm p 8 8) (surfOf s0 i) s0) i).pubSeq)
              (some (surfOf (publishHost i (prm p 8 8) (surfOf s0 i) s0) i).wslot)
              (useSlot i (publishHost i (prm p 8 8) (surfOf s0 i) s0)))
      ∧ (Runs specSurfaceSetSharing t p s e s0 → (surfOf s0 i).crystal = false →
        (prmbit p 2 0 = true ∨ (foreignPane s0 i = false ∧ foreignJob s0 i = false)) →
        exec (.surfaceSetSharing t p) s
          = answers p e 0 none none (putSurf i { surfOf s0 i with shared := prmbit p 2 0 } s0)))
    ∧ (Runs specMemQuery t p s e s0 → bufferOk p s0 (prm p 8 8) 64 true = true →
      exec (.memQuery t p) s = answers p e 0
        (some (s0.mm.live + shl (b2n s0.mm.ecc) 16 + shl s0.mm.cap 17 + shl (b2n s0.mm.migrating) 19))
        (some (sumOf (freeLengths s0) / 1048576)) (bufferWrite p (prm p 8 8) true (memRecord s0) s0))

/-- R162, R166 to R168, R181, R187, R193, R198 to R200: the commands of the escapement. A gate list is loaded into the
channels named, armed for a time that is at least 1 µs ahead once admission of the lists passes, or disarmed; shaper
and lead settings are stored; the queries write their records, and LATENCY_HIST_READ with CLEAR zeroes the bins. -/
def Obligations.EscapementCommandsAnswer : Prop :=
  ∀ (t : Ticks) (p : Packet) (s : State) (e : Entry) (s0 : State) (r : Nat), prmRaster p = r →
    (Runs specGatelistLoad t p s e s0 → ∀ l : List GateEntry,
      loadEntries p 16 (prmb p 2 2 8 0) = l.map (fun x => (x, 0)) → gateListOk l = true →
      namesLive p (takeOverDue s0) = true → (∀ n ∈ chMask p, (chanFsOf (takeOverDue s0) n).arm ≠ .pending) →
      exec (.gatelistLoad t p) s = answers p e 0 (some (cycleOf l)) (some (openTime 1 l))
        (writeGaps (forAll (chMask p) (fun n x => putChanFs n
          { chanFsOf x n with armed := l, arm := .loaded, taken := none } x) (takeOverDue s0))))
    ∧ (Runs specGatelistArm t p s e s0 → namesLive p s0 = true → (∀ n ∈ chMask p, takenTime s0 n = none) →
      (prmbit p 2 0 = true →
        exec (.gatelistArm t p) s = answers p e 0 none none (writeGaps (forAll (chMask p) (fun n x => putChanFs n
          { chanFsOf x n with arm := if (chanFsOf x n).arm = .pending then .loaded else (chanFsOf x n).arm } x) s0)))
      ∧ (prmbit p 2 0 = false → (∀ n ∈ chMask p, (chanFsOf s0 n).arm ≠ .empty) → now s0 + 1000 ≤ prm p 8 8 →
        admitLists s0 (fun n => if (chMask p).contains n then armedAt (prm p 8 8) false (chanFsOf s0 n)
          else chanFsOf s0 n) = none →
        exec (.gatelistArm t p) s = answers p e 0 (some (prm p 8 8)) (some (prm p 8 8 / 2 ^ 32))
          (writeGaps (forAll (chMask p) (fun n x => putChanFs n (armedAt (prm p 8 8) false (chanFsOf x n)) x) s0))))
    ∧ (Runs specGatelistQuery t p s e s0 → ∀ c, chanFsOf s0 (prmb p 0 1 3 0) = c →
      bufferOk p s0 (prm p 8 8) 16 true = true →
      (prmbit p 1 0 = true → exec (.gatelistQuery t p) s
        = answers p e 0 (some (cycleOf c.armed)) (some (openTime 1 c.armed)) (bufferWrite p (prm p 8 8) true
            (gateRecord (if c.arm = .pending then c.armT else 0) c.arm c.late c.armed) s0))
      ∧ (prmbit p 1 0 = false → exec (.gatelistQuery t p) s
        = answers p e 0 (some (cycleOf c.running)) (some (openTime 1 c.running)) (bufferWrite p (prm p 8 8) true
            (gateRecord c.swT c.arm c.late c.running) s0)))
    ∧ (Runs specShaperSet t p s e s0 → (rasterOf s0 r).orphan = false →
      (prmb p 1 1 5 0 = 0 ∨ (16 ≤ prmb p 1 1 5 0 ∧ prmb p 1 1 5 0 ≤ 32)) → burstOk (prmb p 4 4 20 0) = true →
      burstOk (prmb p 8 4 20 0) = true →
      let f : RasterFs := { fsOf s0 r with stPeak := (nonzero (prmb p 1 1 5 0)).or (fsOf s0 r).stPeak,
                                           stCbs := (nonzero (prmb p 4 4 20 0)).or (fsOf s0 r).stCbs,
                                           stPbs := (nonzero (prmb p 8 4 20 0)).or (fsOf s0 r).stPbs }
      exec (.shaperSet t p) s
        = answers p e 0 none none (putFs r (if rasterStopped s0 r then takeShaper f else f) s0))
    ∧ (Runs specLeadSet t p s e s0 → (rasterOf s0 r).orphan = false → 2 ≤ prmb p 1 1 4 0 →
      prmb p 1 1 4 0 ≤ prmb p 2 1 4 0 → prmb p 2 1 4 0 ≤ 16 →
      admitClaim s0 [(fsOf s0 r).leadMin, prmb p 1 1 4 0] r (claimOf s0 r) = none →
      exec (.leadSet t p) s = answers p e 0 (some (fsOf s0 r).cap) none
        (putFs r { fsOf s0 r with stLead := some (prmb p 1 1 4 0, prmb p 2 1 4 0) } s0))
    ∧ (Runs specDemandQuery t p s e s0 → (prmbit p 1 0 = true → pendingScenes s0 r ≠ []) →
      bufferOk p s0 (prm p 8 8) 16 false = true →
      let ds := if prmbit p 1 0 = true then (pendingScenes s0 r).headD [] else committedScene s0 r
      let all := crystalsOf s0 r
      let cry := if prmbit p 1 0 = true then all.drop (all.length - 1) else (activeCrystal s0 r).toList
      let tim := (timingsOf (rasterOf s0 r)).headD {}
      let d0 := (bandDemand s0 r tim ds).map fun b => channelRate tim (liveCount s0) b.1
      exec (.demandQuery t p) s = answers p e 0 (some (worstBand d0)) (some (mbps (maxOf d0)))
        (bufferWrite p (prm p 8 8) false (demandRecord s0 r tim ds cry) s0))
    ∧ (Runs specLatencyHistRead t p s e s0 → namesLive p s0 = true → bufferOk p s0 (prm p 8 8) 1 false = true →
      let s1 := bufferWrite p (prm p 8 8) false ((chMask p).flatMap fun n => latencyBlock (chanFsOf s0 n)) s0
      exec (.latencyHistRead t p) s = answers p e 0 none none (if prmbit p 2 0 = true then
        forAll (chMask p) (fun n x => putChanFs n { chanFsOf x n with hist := List.replicate 16 0, histMax := 0 } x) s1
        else s1))

/-- R177, R227 to R231, R238 to R241, R198, R199: the commands of scenes. A scene that passes the checks and admission
becomes the shadow scene, and ADMIT_CHECK answers the same and stores nothing; SCENE_COMMIT sets COMMIT; a fallback
scene is stored, or removed by one without panes; PANE_UPDATE writes the masked fields of a pane of the shadow
scene; the queries write their records. -/
def Obligations.SceneCommandsAnswer : Prop :=
  ∀ (t : Ticks) (p : Packet) (s : State) (e : Entry) (s0 : State) (r : Nat), prmRaster p = r →
    (rasterOf s0 r).orphan = false → isFollower s0 r = false →
    ((rasterOf s0 r).first.isSome = true → (prmb p 2 2 12 0 = 0 ∨ hostAccessFails p s0 = false) → hdrOk p = true →
      firstFault s0 r (prmDescs p) = none → (∀ d ∈ prmDescs p, notOwned s0 p.func d = false) →
      (Runs specFallbackSet t p s e s0 →
        exec (.fallbackSet t p) s = answers p e 0 none none (putScene r { sceneOf s0 r with
          fallback := if (prmDescs p).isEmpty then none else some (prmHdr p, prmDescs p) } s0))
      ∧ (strikeLocked s0 r = false → (∀ k, checkIds s0 r [] (prmDescs p) k = k) →
        admitScene s0 r (prmDescs p) = none →
        let peak := mbps (peak0 s0 r ⟨[prmDescs p], [], timingsOf (rasterOf s0 r)⟩)
        (Runs specSceneSubmit t p s e s0 →
          exec (.sceneSubmit t p) s = answers p e 0 (some (prmb p 4 4 23 0)) (some peak)
            (submitScene r (prmHdr p) (prmDescs p) (prmbit p 1 0) s0))
        ∧ (Runs specAdmitCheck t p s e s0 →
          exec (.admitCheck t p) s = answers p e 0 (some (prmb p 4 4 23 0)) (some peak) s0)))
    ∧ (Runs specSceneCommit t p s e s0 → strikeLocked s0 r = false →
      exec (.sceneCommit t p) s = answers p e 0 (some (sceneOf s0 r).shadow.scene) none (setCommit r s0))
    ∧ (Runs specPaneUpdate t p s e s0 → strikeLocked s0 r = false → ∀ d, shadowDesc s0 (prmb p 2 2 12 0) = d →
      inShadow s0 r (prmb p 2 2 12 0) = true → prmb p 4 4 31 11 = 0 →
      breaksRules p s0 (prmb p 2 2 12 0) (updated p d) = false →
      (∀ i, newSurface p s0 = some i →
        (surfOf s0 i).crystal = false ∧ sameSurface (surfOf s0 (dSurface d)) (surfOf s0 i) = true) →
      let s1 := putShadow (prmb p 2 2 12 0) (updated p d) (clearCommit r s0)
      exec (.paneUpdate t p) s = answers p e 0 none none (if prmbit p 1 0 = true then setCommit r s1 else s1))
    ∧ (Runs specSceneQuery t p s e s0 → prmb p 4 2 12 0 ≤ 4096 → bufferOk p s0 (prm p 8 8) 64 false = true →
      let h := if prmbit p 1 0 = true then (sceneOf s0 r).shadow else (sceneOf s0 r).active
      let ds := if prmbit p 1 0 = true then shadowScene s0 r else committedScene s0 r
      exec (.sceneQuery t p) s = answers p e 0 (some h.scene) (some ds.length)
        (bufferWrite p (prm p 8 8) false (sceneRecord s0 r h ds (prmb p 2 2 12 0) (prmb p 4 2 12 0)) s0))
    ∧ (Runs specPaneCountersRead t p s e s0 → 1 ≤ prmb p 4 2 12 0 → prmb p 4 2 12 0 ≤ 4096 →
      prmb p 2 2 12 0 + prmb p 4 2 12 0 ≤ 8192 → bufferOk p s0 (prm p 8 8) 32 false = true →
      let ids := (List.range (prmb p 4 2 12 0)).map (prmb p 2 2 12 0 + ·)
      let s1 := bufferWrite p (prm p 8 8) false (ids.flatMap (paneCounters s0 r)) s0
      exec (.paneCountersRead t p) s = answers p e 0 none none (if prmbit p 1 0 = true then
        forAll (ids.filter (inActive s1 r)) (fun id x => putRun id (zeroCounters (paneRun x id)) x) s1 else s1))

/-- R260, R264 to R272: the loads of colour tables. A table whose data the rules of R266 pass becomes the newest copy,
with the next load number as RESULT0, while no raster still goes on with an older copy; a vertical bank whose TAPS
change is admitted first; OUTPUT_COLOUR_SET stores the output settings of a raster. -/
def Obligations.ColourCommandsAnswer : Prop :=
  ∀ (t : Ticks) (p : Packet) (s : State) (e : Entry) (s0 : State) (b : List Byte),
    (Runs specCoefBankLoad t p s e s0 → bufferOk p s0 (prm p 8 8) 64 false = true →
      onlyBits p [(0, 1, 3), (1, 1, 0x3F), (2, 1, 3), allBits 8 8] = true →
      loadOpen s0 (tblKey (prmb p 0 1 1 0) (prmb p 1 1 5 0)) = false →
      let done := fun (taps : Nat) => loadTable (tblKey (prmb p 0 1 1 0) (prmb p 1 1 5 0)) ⟨b, taps⟩ allRasters s0
      (prmb p 0 1 1 0 = 0 → prmb p 1 1 5 0 < 32 → fitBytes 1024 p.env.data = b → badCoef 8 b = none →
        badPhase 8 b = none → prmb p 2 1 1 0 = 0 →
        exec (.coefBankLoad t p) s = answers p e 0 (some (done 0).col.loadSeq) (some 0) (done 0))
      ∧ (prmb p 0 1 1 0 = 1 → prmb p 1 1 5 0 < 32 → fitBytes 768 p.env.data = b → badCoef 6 b = none →
        badPhase 6 b = none → ∀ taps, prmb p 2 1 1 0 = taps → taps ≠ 3 →
        (tapsOf (newestCopy s0 (tblKey 1 (prmb p 1 1 5 0))) ≠ tapsOf (some ⟨b, taps⟩) →
          admitBank s0 (done taps) (prmb p 1 1 5 0) = none) →
        exec (.coefBankLoad t p) s = answers p e 0 (some (done taps).col.loadSeq) (some 0) (done taps))
      ∧ (prmb p 0 1 1 0 = 2 → fitBytes 64 p.env.data = b → prmb p 2 1 1 0 = 0 →
        8 ≤ prmb p 1 1 5 0 → zeroBytes b 42 64 = true →
        exec (.coefBankLoad t p) s = answers p e 0 (some (done 0).col.loadSeq) (some 0) (done 0)))
    ∧ (Runs specItfLutLoad t p s e s0 → bufferOk p s0 (prm p 8 8) 64 false = true →
      onlyBits p [(0, 1, 7), allBits 8 8] = true → loadOpen s0 (tblKey 3 (prmb p 0 1 2 0)) = false →
      fitBytes 2048 p.env.data = b → badEntry b = none →
      let s1 := loadTable (tblKey 3 (prmb p 0 1 2 0)) { data := b } allRasters s0
      exec (.itfLutLoad t p) s = answers p e 0 (some s1.col.loadSeq) (some 0) s1)
    ∧ (Runs specLut3dLoad t p s e s0 → bufferOk p s0 (prm p 8 8) 64 false = true →
      onlyBits p [(0, 1, 0xF), allBits 8 8] = true → loadOpen s0 (tblKey 4 (prmRaster p)) = false →
      fitBytes 39304 p.env.data = b → nodesReserved b = true → badNode b = none →
      let s1 := loadTable (tblKey 4 (prmRaster p)) { data := b } [prmRaster p] s0
      exec (.lut3dLoad t p) s = answers p e 0 (some s1.col.loadSeq) (some 0) s1)
    ∧ (Runs specOutputColourSet t p s e s0 →
      onlyBits p [(0, 1, 0xF), (1, 1, 0xF), (2, 1, 7), (3, 1, 0x33), allBits 8 24] = true →
      (prmOutSet p).wtf ≤ 4 → (prmOutSet p).otf ≤ 4 → (prmOutSet p).dither ≤ 2 →
      ((prmOutSet p).dither = 2 → hasAction s0 (prmRaster p) = false) →
      (rasterTbl s0 (prmRaster p)).oldOut = none →
      let s1 := setOutput (prmRaster p) (prmOutSet p) s0
      exec (.outputColourSet t p) s = answers p e 0 (some s1.col.loadSeq) (some 0) s1)

/-- R274 to R276: the key of the crystal layer. CRYSTAL_UNLOCK with the key opens the layer for DURATION ms; with
another key, with none programmed or within the second after a failure it answers KEY_REQUIRED, counts the failure
and raises source 8; only a key that was compared starts the second. CRYSTAL_LOCK ends an unlock, and
CRYSTAL_KEY_PROVISION stores a key when none is programmed or the old one is given, and refuses another old one and the
key 0. -/
def Obligations.CrystalKeyCommandsAnswer : Prop :=
  ∀ (t : Ticks) (p : Packet) (s : State) (e : Entry) (s0 : State),
    (Runs specCrystalUnlock t p s e s0 → onlyBits p [allBits 0 16, allBits 16 2] = true → 1 ≤ prm p 16 2 →
      prm p 16 2 ≤ 60000 →
      (s0.key.key ≠ 0 → isLockedOut s0 = false → prm p 0 16 = s0.key.key →
        exec (.crystalUnlock t p) s = answers p e 0 (some (prm p 16 2)) none
          { settleUnlock s0 with key := { (settleUnlock s0).key with
            until_ := some ((settleUnlock s0).clk.ticks + 1250000 * prm p 16 2) } })
      ∧ (s0.key.key ≠ 0 → isLockedOut s0 = false → prm p 0 16 ≠ s0.key.key →
        exec (.crystalUnlock t p) s = answers p e 0x111 none none (raise 8 { s0 with key := { s0.key with
          fails := sat 16 (s0.key.fails + 1), lockout := some (s0.clk.ticks + 1250000000) } }))
      ∧ (s0.key.key = 0 ∨ isLockedOut s0 = true →
        exec (.crystalUnlock t p) s = answers p e 0x111 none none (raise 8 { s0 with key := { s0.key with
          fails := sat 16 (s0.key.fails + 1) } })))
    ∧ (Runs specCrystalLock t p s e s0 → onlyBits p [] = true →
      exec (.crystalLock t p) s = answers p e 0 none none (endUnlock s0))
    ∧ (Runs specCrystalKeyProvision t p s e s0 → onlyBits p [allBits 0 16, allBits 16 16] = true →
      ((s0.key.key = 0 ∨ prm p 16 16 = s0.key.key) → prm p 0 16 ≠ 0 →
        exec (.crystalKeyProvision t p) s
          = answers p e 0 none none (savePst { s0 with key := { s0.key with key := prm p 0 16 } }))
      ∧ (s0.key.key ≠ 0 → prm p 16 16 ≠ s0.key.key →
        exec (.crystalKeyProvision t p) s = answers p e 0x111 none none s0)
      ∧ ((s0.key.key = 0 ∨ prm p 16 16 = s0.key.key) → prm p 0 16 = 0 →
        exec (.crystalKeyProvision t p) s = answers p e 0x101 none none s0))

/-- R278 to R285, R293: with the layer unlocked, CRYSTAL_PANE_SET stages a crystal that its rules and admission pass,
or a removal, and CRYSTAL_EXPECT_SET sets the crystal commit on the readable slot with the sequence number named, or
on a staged removal. -/
def Obligations.CrystalPaneCommandsAnswer : Prop :=
  ∀ (t : Ticks) (p : Packet) (s : State) (e : Entry) (s0 : State) (r : Nat), prmRaster p = r →
    isUnlocked s0 = true → isFollower s0 r = false →
    (Runs specCrystalPaneSet t p s e s0 → onlyBits p paneSetBits = true →
      (prmbit p 0 4 = true →
        exec (.crystalPaneSet t p) s
          = answers p e 0 none (some (crystalPeak (stage r none s0) r)) (stage r none s0))
      ∧ (prmbit p 0 4 = false → (∀ k, crystalChecks p s0 k = k) →
        let s1 := stage r (some (prmb p 2 2 12 0, crystalDesc p s0)) s0
        admitCrystal s1 r = none → exec (.crystalPaneSet t p) s = answers p e 0 none (some (crystalPeak s1 r)) s1))
    ∧ (Runs specCrystalExpectSet t p s e s0 →
      onlyBits p [(0, 1, 0xF), (1, 1, 0xF), allBits 4 4, allBits 8 4] = true → prmb p 1 1 1 0 ≠ 3 →
      (prmb p 1 1 1 0 = 0 ∨ ((outSetOf s0 r).dither ≠ 2 ∧ (Tbl.get s0.col.out {} r).dither ≠ 2)) →
      let k : CryCommit := { slot := 0, seq := prm p 4 4, surface := 0, action := prmb p 1 1 1 0,
                             learn := prmbit p 1 2, release := prmbit p 1 3, expect := prm p 8 4,
                             at_ := s0.clk.ticks, pinned := false }
      ((crystalOf s0 r).staged = some none →
        exec (.crystalExpectSet t p) s = answers p e 0 none none (setCrystalCommit r k s0))
      ∧ ((crystalOf s0 r).staged ≠ some none → ∀ sf n, committingSurface s0 r = some sf →
        (readableSlots (surfOf s0 sf)).find? (fun n => (slotOf (surfOf s0 sf) n).seq == prm p 4 4) = some n →
        exec (.crystalExpectSet t p) s
          = answers p e 0 none none (setCrystalCommit r { k with slot := n, surface := sf, pinned := true } s0)))

/-- R21, R298, R300, R305, R307, R310, R311, R340, R343, R345: the commands of raster timing, binding, starting and
stopping. A timing that is legal and admitted is in force on a stopped raster and staged on another; a binding takes
the slices named; a start plans the first frame and answers its time; a stop of a running raster is in flight until
the frame ends, one of a stopped raster completes at once. -/
def Obligations.RasterCommandsAnswer : Prop :=
  ∀ (t : Ticks) (p : Packet) (s : State) (e : Entry) (s0 : State) (r : Nat), prmRaster p = r →
    (Runs specRasterTimingSet t p s e s0 → (rasterOf s0 r).orphan = false → onlyBits p timingBits = true →
      isFollower s0 r = false → timingOk (if (rasterOf s0 r).first.isSome = true then (rasterOf s0 r).g else 4) (prmTiming p) = true →
      ((prmTiming p).tiles2 = true → r % 2 = 0 ∧ (rasterOf s0 r).first.isSome = true ∧ (rasterOf s0 r).g = 4
        ∧ ownsRaster p s0 (r + 1) = true ∧ isStarted (rasterOf s0 (r + 1)) = false
        ∧ (rasterOf s0 (r + 1)).orphan = false ∧ (rasterOf s0 (r + 1)).first = none) →
      (∀ d ∈ crystalsOf s0 r, insideArea (prmTiming p) d = true) →
      let s1 := setTiming r (prmTiming p) s0
      (hasClaim s0 r = true → admitClaim s0 (leadMins s0 r) r (claimOf s1 r) = none) →
      exec (.rasterTimingSet t p) s
        = answers p e 0
            (some (1200000000000 * (prmTiming p).n / ((prmTiming p).d * frameTotal (prmTiming p))))
            (some (mbps (peak0 s1 r (claimOf s1 r)))) s1)
    ∧ (Runs specRasterBind t p s e s0 → (rasterOf s0 r).orphan = false → isFollower s0 r = false →
      onlyBits p [(0, 1, 0xF), (1, 1, 0xF), (2, 1, 3), (3, 1, 1)] = true → isStarted (rasterOf s0 r) = false →
      (prmbit p 3 0 = true →
        exec (.rasterBind t p) s = answers p e 0 (some 0) none (clearMgmt (unitRaster r) (unbindSlices r s0)))
      ∧ (prmbit p 3 0 = false → ∀ c code, prmb p 1 1 3 0 = c → prmb p 2 1 1 0 = code → code ≠ 3 → c % 2 ^ code = 0 →
        (∀ i < 2 ^ code, (sliceOf s0 (c + i)).retired = false
          ∧ ((sliceOf s0 (c + i)).bound = true → (sliceOf s0 (c + i)).raster = r)) →
        ((rasterOf s0 r).g = 0 ∨ (rasterOf s0 r).g = 2 ^ code ∨ hasScene s0 r = false) →
        (rasterOf s0 r).rehome ≠ .stuck → (rasterOf s0 r).tim.tiles2 = false →
        ((rasterOf s0 r).tim.set = true → gangCarries (2 ^ code) (rasterOf s0 r).tim = true) →
        let s1 := bindSlices r c (2 ^ code) (unbindSlices r s0)
        exec (.rasterBind t p) s
          = answers p e 0 (some (sliceMask s1 r)) none (clearMgmt (unitRaster r) (startBuild r s1))))
    ∧ (Runs specRasterStart t p s e s0 → (rasterOf s0 r).orphan = false → isStarted (rasterOf s0 r) = false →
      onlyBits p [(0, 1, 0xF), (1, 1, 1), (4, 4, 0x3FFFFFFF), allBits 8 8] = true →
      (rasterOf s0 r).first.isSome = true → (rasterOf s0 r).tim.set = true →
      let ft := firstFt s0 (rasterOf s0 r).tim (prmbit p 1 0) (prm p 8 8)
      exec (.rasterStart t p) s = answers p e 0 (some ft) (some (ft / 2 ^ 32))
        (beginStart r ft (prmbit p 1 0) (putRaster r { rasterOf s0 r with blank := prmb p 4 4 29 0 } s0)))
    ∧ (Runs specRasterStop t p s e s0 → ((rasterOf s0 r).orphan = false ∨ p.func = 0) →
      onlyBits p [(0, 1, 0xF), (1, 1, 1)] = true →
      (isStarted (rasterOf s0 r) = false →
        let s1 := putRaster r { rasterOf s0 r with restart := false, orphan := false } s0
        exec (.rasterStop t p) s = answers p e 0 (some (rasterOf s0 r).lastEnd)
          (some ((rasterOf s0 r).lastEnd / 2 ^ 32)) (if prmbit p 1 0 = true then discardScenes r s1 else s1))
      ∧ (isStarted (rasterOf s0 r) = true → (rasterOf s0 r).st ≠ .stopped →
        exec (.rasterStop t p) s = pends p e (unitRaster r) (commandStop r (prmbit p 1 0) s0))
      ∧ (isStarted (rasterOf s0 r) = true → (rasterOf s0 r).st = .stopped →
        exec (.rasterStop t p) s = answers p e 0 (some (rasterOf s0 r).lastEnd)
          (some ((rasterOf s0 r).lastEnd / 2 ^ 32)) (stopRaster r (commandStop r (prmbit p 1 0) s0))))
    ∧ (Runs specRasterQuery t p s e s0 → onlyBits p [(0, 1, 0xF), allBits 8 8] = true →
      bufferOk p s0 (prm p 8 8) 64 false = true →
      exec (.rasterQuery t p) s
        = answers p e 0 none none (bufferWrite p (prm p 8 8) false (rasterRecord s0 r) s0))

/-- R323, R324, R327 to R336, R343, R344: SINK_ATTACH attaches the sink that its parameters describe, of a kind that
the RG has none of, once the DisplayPort link, the sender's flow, the writeback surface or the export link takes it;
SINK_DETACH drops a sink, at once on a stopped raster; DP_PORT_CONFIG stores the settings of a port and trains it. -/
def Obligations.SinkCommandsAnswer : Prop :=
  ∀ (t : Ticks) (p : Packet) (s : State) (e : Entry) (s0 : State) (k kind : Nat) (x : Sink),
    prmRaster p = k → prmb p 1 1 1 0 = kind →
    (Runs specSinkAttach t p s e s0 → (rasterOf s0 (leaderOf s0 k)).orphan = false →
      onlyBits p (attachBits kind) = true → (tileTiming s0 k).set = true → prmb p 2 1 1 0 ≠ 3 → prmb p 2 1 3 2 ≠ 3 →
      prmb p 3 1 1 0 ≠ 3 → sinkOf s0 k kind = none → prmSink p s0 = x →
      (kind = 0 → ∀ n, streamSlots (tileTiming s0 k) x (portLink (dpOf s0 x.port)).1 (portLink (dpOf s0 x.port)).2 = n →
        (dpOf s0 x.port).enabled = true → ((dpOf s0 x.port).mst = true ∨ x.stream = 0) →
        dscOk p (tileTiming s0 k) x = true → (∀ y ∈ portStreams s0 x.port, y.2.stream ≠ x.stream) →
        slotsFit (dpOf s0 x.port).mst (n :: (portStreams s0 x.port).map (·.2.slots)) = true →
        dscFits ((((portStreams s0 x.port).filter (·.2.dsc)).map fun y => tileTiming s0 y.1)
          ++ (if x.dsc = true then [tileTiming s0 k] else [])) = true →
        ((dpOf s0 x.port).mst = true ∨ portStreams s0 x.port = []) →
        let s1 := putSink k 0 { x with slots := n } s0
        exec (.sinkAttach t p) s = answers p e 0 (some n) none
          (if (dpOf s0 x.port).trained = true then idleVideo k s1 else rasterAlert k alDp s1))
      ∧ (kind = 1 → ∀ c, (egressOf s0 x.flow).staged.getD (egressOf s0 x.flow).cfg = c →
        isStarted (rasterOf s0 (leaderOf s0 k)) = true → (rasterOf s0 (leaderOf s0 k)).aligned = true → c.kind = 1 →
        (egressOf s0 x.flow).sender = none → c.blocks * 180 ≤ sinkBytes (tileTiming s0 k) x →
        let s1 := putQueue x.flow (senderQueue s0 (tileTiming s0 k) x c (queueOf s0 x.flow)) s0
        checkPort s1 c.port (tsPortOf s1 c.port) = none →
        exec (.sinkAttach t p) s = answers p e 0 (some 0) none
          (putSink k 1 x (putEgress x.flow { egressOf s0 x.flow with sender := some k } s1)))
      ∧ (kind = 2 → ∀ sf, surfOf s0 x.surface = sf → sf.valid = true → sf.crystal = false → sf.writer = 4 →
        wbFits s0 k x = true → formatFits sf.format x.enc (sinkBits x) = true → (sf.comp = 0 ∨ sf.comp = 2) →
        hasAutoWriter s0 x.surface = false →
        exec (.sinkAttach t p) s = answers p e 0 (some 0) none (putSink k 2 x s0))
      ∧ (kind = 3 → s0.cf.valid = true → x.dest / 64 = s0.cf.devid / 64 → x.dest % 64 < nodeSize s0 →
        x.dest ≠ s0.cf.devid → p.env.aux.headD 0 = 0 →
        (∀ j, firstHop s0 x.dest = some j →
          exportsFit (linkLanes s0 j) (exportRate (tileTiming s0 k) x :: exportLoad s0 j) = true) →
        exec (.sinkAttach t p) s = answers p e 0 (some 0) none
          (putSink k 3 x { s0 with cf := { s0.cf with expStop := setBit s0.cf.expStop k false } })))
    ∧ (Runs specSinkDetach t p s e s0 → (rasterOf s0 (leaderOf s0 k)).orphan = false →
      onlyBits p [(0, 1, 0xF), (1, 1, 3)] = true → sinkOf s0 k kind = some x →
      exec (.sinkDetach t p) s = answers p e 0 none none (if (rasterOf s0 (leaderOf s0 k)).st = .stopped ∧ wbWaits s0 k kind = false
        then dropSink k kind s0 else putSink k kind { x with leaving := true } s0))
    ∧ (Runs specDpPortConfig t p s e s0 → ∀ i rate lanes, prmb p 0 1 1 0 = i → prmb p 2 1 1 0 = rate →
      prmb p 3 1 2 0 = lanes → onlyBits p [(0, 1, 3), (1, 1, 3), (2, 1, 3), (3, 1, 7), (4, 1, 1)] = true →
      (prmbit p 1 0 = true → rate ≠ 0 ∧ (lanes = 1 ∨ lanes = 2 ∨ lanes = 4)) →
      (portStreams s0 i = [] ∨ (prmbit p 1 0 = true
        ∧ slotsFit (prmbit p 1 1) ((portStreams s0 i).map fun y => streamSlots (tileTiming s0 y.1) y.2 rate lanes) = true
        ∧ (prmbit p 1 1 = true ∨ ∀ y ∈ portStreams s0 i, y.2.stream = 0))) →
      let d : DpPort := { dpOf s0 i with enabled := prmbit p 1 0, mst := prmbit p 1 1, rate := rate, lanes := lanes,
                                         fallback := prmbit p 4 0, training := prmbit p 1 0 && (dpOf s0 i).hpd,
                                         hpdLost := false }
      let s1 := recountStreams i (dpDown i d s0)
      let s2 := if prmbit p 1 0 = true then setMgmt (unitDp i) (stateWord 0x42 (dpDetail lanes rate)) s1
        else clearMgmt (unitDp i) s1
      exec (.dpPortConfig t p) s = answers p e 0 (some (dpData s2 i)) none s2)

/-- R318, R320 to R322, R343: STRIKE_ARM arms the members of RMASK, all started, aligned and free, for the first
boundary that lies far enough ahead, and answers it, with LATE when that is not the first one after T; STRIKE_CANCEL
before the decision cancels the strike that holds a raster. -/
def Obligations.StrikeCommandsAnswer : Prop :=
  ∀ (t : Ticks) (p : Packet) (s : State) (e : Entry) (s0 : State),
    (Runs specStrikeArm t p s e s0 → onlyBits p [allBits 0 2, allBits 2 2, allBits 8 8] = true →
      armMembers p ≠ [] →
      (∀ r ∈ armMembers p, isFollower s0 r = false ∧ (rasterOf s0 r).orphan = false
        ∧ isStarted (rasterOf s0 r) = true ∧ (rasterOf s0 r).stopping = false ∧ (rasterOf s0 r).aligned = true
        ∧ strikeOf s0 r = none) → prm p 2 2 = 0 →
      let ms := strikeMembers s0 (prm p 0 2)
      let per := commonPeriod ms
      let first := firstStart per (prm p 8 8)
      let c := aheadBoundary per ms 0 (now s0) first
      first ≤ prm p 8 8 + 10000000000 →
      exec (.strikeArm t p) s = answers p e (if c = first then 0 else 0x10B) (some c) (some (c / 2 ^ 32))
        (armStrike (strikeFor p c (decisionTime per ms c) per) s0))
    ∧ (Runs specStrikeCancel t p s e s0 → onlyBits p [(0, 1, 0xF)] = true →
      (rasterOf s0 (prmRaster p)).orphan = false → ∀ k, strikeOf s0 (prmRaster p) = some k →
      strikeDecided s0 k = false →
      exec (.strikeCancel t p) s = answers p e 0 none none (cancelStrike (prmRaster p) s0))

/-- R348, R354, R358, R363 to R369, R379 to R382: the commands of the network engine. A port is configured and its link
restarts; an ingest flow is bound to a surface, or an FST subscription is, and either is ended; an egress flow is
set, or disabled; a multicast entry is added or removed; FLOW_QUERY writes a flow's record. -/
def Obligations.NetworkCommandsAnswer : Prop :=
  ∀ (t : Ticks) (p : Packet) (s : State) (e : Entry) (s0 : State) (f : Nat),
    (Runs specPortConfig t p s e s0 → prmb p 0 1 2 0 = f → onlyBits p portConfigBits = true →
      1518 ≤ prmb p 2 2 13 0 → prmb p 2 2 13 0 ≤ 9216 → ∀ mode lanes, prmb p 1 1 2 0 = mode →
      modeLanes f mode = some lanes → Nat.land lanes (etherLanes s0) = lanes →
      (∀ q < 8, q ≠ f → Nat.land lanes (ethOf s0 q).lanes = 0) → Nat.land lanes s0.ne.deadLanes = 0 →
      (mode = 0 → portNamed s0 f = false) →
      let s1 := putEth f (configuredPort p mode lanes (ethOf s0 f)) s0
      ((ethOf s0 f).mode ≠ 0 → ((ethOf s0 f).mode ≠ mode ∨ (ethOf s0 f).mtu ≠ prmb p 2 2 13 0) →
        checkPort s1 f (tsPortOf s1 f) = none) →
      let s2 := reportChanges s0 (setPortUp f false (setMgmt (unitPort f) (portWord (mode != 0) lanes) s1))
      exec (.portConfig t p) s = answers p e 0 (some (portData s2 f)) none s2)
    ∧ (Runs specIngestFlowSet t p s e s0 → prmb p 0 2 11 0 = f →
      onlyBits p ([(0, 2, 0xFFF), (2, 1, 0xF), (3, 1, 0x7F), (4, 2, 0x3FFF), allBits 8 4, (12, 1, 1)] ++ legBits 16
        ++ (if prmbit p 2 1 = true then legBits 64 else [allBits 64 48])) = true →
      (prmbit p 2 0 = false → exec (.ingestFlowSet t p) s = answers p e 0 none none (stopIngest f s0))
      ∧ (prmbit p 2 0 = true → (ingestOf s0 f).kind ≠ 2 → prmb p 2 1 3 2 ≠ 3 → ∀ sf, surfOf s0 (prmb p 4 2 13 0) = sf →
        sf.valid = true → sf.writer = 1 → 0x20 ≤ sf.format → sf.format ≤ 0x28 → sf.comp = 0 →
        sf.crystal = false → legOk p s0 16 = true → (prmbit p 2 1 = true → legOk p s0 64 = true) →
        boundElsewhere s0 f (prmb p 4 2 13 0) = false →
        let x : Ingest := { kind := 1, enabled := true, merge := prmbit p 2 1, fill := prmb p 2 1 3 2,
                            pt := prmb p 3 1 6 0, surface := prmb p 4 2 13 0, ssrc := prm p 8 4,
                            ssrcEn := prmbit p 12 0, legA := prmLeg p 16,
                            legB := if prmbit p 2 1 = true then prmLeg p 64 else {} }
        legsUnique s0 f (legsOf x) = true → membershipFits (setIngest f x s0) = true →
        exec (.ingestFlowSet t p) s = answers p e 0 none none (setIngest f x s0)))
    ∧ (Runs specFstSubscribe t p s e s0 → prmb p 0 2 11 0 = f →
      onlyBits p ([(0, 2, 0xFFF), (4, 2, 0x3FFF), allBits 8 4] ++ legBits 16) = true → (ingestOf s0 f).kind ≠ 1 →
      ∀ sf, surfOf s0 (prmb p 4 2 13 0) = sf → sf.valid = true → sf.writer = 2 → sf.comp = 2 →
      legOk p s0 16 = true → sf.crystal = false →
      boundElsewhere s0 f (prmb p 4 2 13 0) = false →
      let x : Ingest := { kind := 2, enabled := true, surface := prmb p 4 2 13 0, handle := prm p 8 4,
                          legA := prmLeg p 16 }
      legsUnique s0 f (legsOf x) = true → membershipFits (setIngest f x s0) = true →
      exec (.fstSubscribe t p) s = answers p e 0 none none (setIngest f x s0))
    ∧ (Runs specFstUnsubscribe t p s e s0 → prmb p 0 2 11 0 = f → onlyBits p [(0, 2, 0xFFF)] = true →
      (ingestOf s0 f).kind = 2 → exec (.fstUnsubscribe t p) s = answers p e 0 none none (stopIngest f s0))
    ∧ (Runs specEgressFlowSet t p s e s0 → prmb p 0 2 9 0 = f → onlyBits p egressBits = true →
      ((prmEgress p).kind = 0 → (egressOf s0 f).sender = none →
        exec (.egressFlowSet t p) s = answers p e 0 none none (stopEgress f s0))
      ∧ ((prmEgress p).kind ≠ 0 → (prmEgress p).kind ≠ 3 →
        ((egressOf s0 f).cfg.kind = 0 ∨ (egressOf s0 f).cfg.kind = (prmEgress p).kind) →
        (∀ k, egressCheck p s0 (prmEgress p) k = k) →
        let s1 := putEgress f { egressOf s0 f with cfg := prmEgress p } s0
        ((egressOf s0 f).cfg.kind = 0 ∨ (egressOf s0 f).stopped = true
            ∨ (egressOf s0 f).cfg.port ≠ (prmEgress p).port →
          checkPort s1 (prmEgress p).port (tsPortOf s1 (prmEgress p).port) = none) →
        exec (.egressFlowSet t p) s
          = answers p e 0 (some (largestPacket s0 (prmEgress p))) none (setEgress f (prmEgress p) s0)))
    ∧ (joinOk p = true →
      (Runs specMcastJoin t p s e s0 → prmJoin p ∈ s0.ne.joins →
        exec (.mcastJoin t p) s = answers p e 0 none none s0)
      ∧ (Runs specMcastJoin t p s e s0 → prmJoin p ∉ s0.ne.joins →
        let s1 := reportChanges s0 { s0 with ne := { s0.ne with joins := s0.ne.joins ++ [prmJoin p] } }
        membershipFits s1 = true → exec (.mcastJoin t p) s = answers p e 0 none none s1)
      ∧ (Runs specMcastLeave t p s e s0 → prmJoin p ∈ s0.ne.joins →
        exec (.mcastLeave t p) s = answers p e 0 none none
          (reportChanges s0 { s0 with ne := { s0.ne with joins := s0.ne.joins.erase (prmJoin p) } })))
    ∧ (Runs specFlowQuery t p s e s0 → prmb p 2 2 11 0 = f → onlyBits p [(0, 1, 1), (2, 2, 0xFFF), allBits 8 8] = true →
      bufferOk p s0 (prm p 8 8) 64 true = true →
      (prmbit p 0 0 = true → f < 1024 → exec (.flowQuery t p) s = answers p e 0
        (some ((egressOf s0 f).cfg.kind + shl (b2n ((egressOf s0 f).cfg.kind != 0)) 2))
        (some (egressOf s0 f).frameCnt) (bufferWrite p (prm p 8 8) true (egressRecord s0 f) s0))
      ∧ (prmbit p 0 0 = false → exec (.flowQuery t p) s = answers p e 0
        (some ((ingestOf s0 f).kind + shl (b2n ((ingestOf s0 f).kind != 0)) 2))
        (some (ingestOf s0 f).frames) (bufferWrite p (prm p 8 8) true (ingestRecord (ingestOf s0 f)) s0)))

/-- R386 to R388, R392 to R397, R404 to R407, R415 to R417: the commands of the traffic scheduler. A queue's shaper,
class, limit and alarm are set; a port gate list is loaded, armed for a time at least 1 µs ahead, or disarmed; a
meter is set with both buckets full; TS_STATS_READ writes the records and with CLEAR zeroes the counters. -/
def Obligations.TrafficCommandsAnswer : Prop :=
  ∀ (t : Ticks) (p : Packet) (s : State) (e : Entry) (s0 : State),
    (Runs specQueueShaperSet t p s e s0 → onlyBits p shaperBits = true → ∀ q x, prmb p 0 2 9 0 = q →
      shapedQueue s0 p (queueOf s0 q) = x → shaperOk s0 p x = true →
      (prmbit p 2 0 = true → (egressOf s0 q).sender = none) →
      let port := (egressOf s0 q).cfg.port
      let s1 := putQueue q x s0
      (queueOn s0 q = true → (x.cir ≠ (queueOf s0 q).cir ∨ x.cls ≠ (queueOf s0 q).cls) →
        checkPort s1 port (tsPortOf s1 port) = none) →
      exec (.queueShaperSet t p) s = answers p e 0 (some (portCir s1 port)) none s1)
    ∧ (Runs specQbvListLoad t p s e s0 → ∀ s1 n l, portsTakeOver s0 = s1 → prmb p 2 2 9 0 = n →
      ((List.range n).map fun i => (⟨prm p (16 + 4 * i) 3, prm p (19 + 4 * i) 1⟩ : GateEntry)) = l →
      onlyBits p [allBits 0 1, (2, 2, 0x3FF), allBits 4 1, allBits 16 (4 * n)] = true → portMaskOk p s1 = true →
      portListOk l = true → (∀ i ∈ portMask p, (tsPortOf s1 i).arm ≠ .pending) →
      exec (.qbvListLoad t p) s = answers p e 0 (some (portCycle l)) none (forAll (portMask p) (fun i x =>
        putTsPort i { tsPortOf x i with armed := l, arm := .loaded, taken := none, armOvh := prm p 4 1 } x) s1))
    ∧ (Runs specQbvListArm t p s e s0 → onlyBits p [allBits 0 1, (1, 1, 1), allBits 8 8] = true →
      portMaskOk p s0 = true → (∀ i ∈ portMask p, portTaken s0 i = none) →
      (prmbit p 1 0 = true →
        exec (.qbvListArm t p) s = answers p e 0 none none (forAll (portMask p) (fun i x => putTsPort i
          { tsPortOf x i with arm := if (tsPortOf x i).arm = .pending then .loaded else (tsPortOf x i).arm } x) s0))
      ∧ (prmbit p 1 0 = false → (∀ i ∈ portMask p, (tsPortOf s0 i).arm ≠ .empty) → now s0 + 1000 ≤ prm p 8 8 →
        (∀ i ∈ portMask p, checkPort s0 i (portArmedAt (prm p 8 8) false (tsPortOf s0 i)) = none) →
        exec (.qbvListArm t p) s = answers p e 0 (some (prm p 8 8)) (some (prm p 8 8 / 2 ^ 32))
          (forAll (portMask p) (fun i x => putTsPort i (portArmedAt (prm p 8 8) false (tsPortOf x i)) x) s0)))
    ∧ (Runs specMeterSet t p s e s0 → ∀ cir pir cbs pbs, prmb p 4 4 29 0 = cir → prmb p 8 4 29 0 = pir →
      prmb p 12 4 23 0 = cbs → prmb p 16 4 23 0 = pbs →
      onlyBits p [(0, 2, 0xFFF), (2, 1, 3), (4, 4, 0x3FFFFFFF), (8, 4, 0x3FFFFFFF), (12, 4, 0xFFFFFF),
        (16, 4, 0xFFFFFF)] = true → cir ≤ pir → 64 ≤ cbs → 64 ≤ pbs →
      exec (.meterSet t p) s = answers p e 0 none none (putMeter (prmb p 0 2 11 0)
        { meterOf s0 (prmb p 0 2 11 0) with en := prmbit p 2 0, aware := prmbit p 2 1, cir := cir, pir := pir,
                                            cbs := cbs, pbs := pbs, tc := cbs * 2 ^ 32, tp := pbs * 2 ^ 32,
                                            at_ := s0.clk.ticks } s0))
    ∧ (Runs specTsStatsRead t p s e s0 →
      onlyBits p [(0, 1, 1), (1, 1, 1), (2, 2, 0xFFF), (4, 2, 0xFFF), allBits 8 8] = true →
      1 ≤ prmb p 4 2 11 0 → prmb p 4 2 11 0 ≤ 64 → bufferOk p s0 (prm p 8 8) 64 false = true →
      (prmbit p 0 0 = true → prmb p 2 2 11 0 + prmb p 4 2 11 0 ≤ 4096 →
        let s1 := bufferWrite p (prm p 8 8) false ((statsRange p).flatMap (meterRecord s0)) s0
        exec (.tsStatsRead t p) s
          = answers p e 0 none none (if prmbit p 1 0 = true then forAll (statsRange p) clearMeter s1 else s1))
      ∧ (prmbit p 0 0 = false → prmb p 2 2 11 0 + prmb p 4 2 11 0 ≤ 1024 →
        let s1 := bufferWrite p (prm p 8 8) false ((statsRange p).flatMap (queueRecord s0)) s0
        exec (.tsStatsRead t p) s
          = answers p e 0 none none (if prmbit p 1 0 = true then forAll (statsRange p) clearQueue s1 else s1)))

/-- R419, R426, R431, R432, R438 to R442, R434 to R436, R456: the commands of the fabric and of time. A link is
configured and its bring-up begins, or it goes down; enumeration gives the node its shape; PTP is configured; the
reference rate is staged and the links calibrate; a transfer or an import begins; TIME_QUERY and ROUTE_QUERY answer. -/
def Obligations.FabricCommandsAnswer : Prop :=
  ∀ (t : Ticks) (p : Packet) (s : State) (e : Entry) (s0 : State) (k : Nat),
    (Runs specLinkConfig t p s e s0 → prmb p 0 1 1 0 = k → onlyBits p [(0, 1, 7), (1, 1, 0xF), (2, 1, 7)] = true →
      (prmbit p 0 2 = false →
        let sd := discardWaiting k s0
        let l : CfLink := { linkOf sd k with enabled := false, laneMap := 0, bringup := none, retraining := false,
                                             replay := [], degraded := false }
        let s1 := setLinkUp k false (setMgmt (unitLink k) (linkWord false 0) (putLink k l sd))
        exec (.linkConfig t p) s = answers p e 0 (some (linkData s1 k)) none s1)
      ∧ (prmbit p 0 2 = true → ∀ first width m, prmb p 1 1 3 0 = first → prmb p 2 1 2 0 = width →
        linkMask first width = m → (width = 1 ∨ width = 2 ∨ width = 4) → first % width = 0 →
        first / 4 = (first + width - 1) / 4 → Nat.land m (fabricLanes s0) = m →
        (∀ j < 4, j ≠ k → Nat.land m (heldLanes s0 j) = 0) → Nat.land m s0.ne.deadLanes = 0 →
        let s1 := setMgmt (unitLink k) (linkWord true width) (setLinkUp k false s0)
        let s2 := startBringup k (putLink k { linkOf s1 k with enabled := true, first := first, width := width,
                                                               degraded := false, adopt := false } s1)
        exec (.linkConfig t p) s = answers p e 0 (some (linkData s2 k)) none s2))
    ∧ (Runs specNodeEnumerate t p s e s0 → onlyBits p [(0, 1, 3), (2, 2, 0xFFF), (4, 1, 0x7F), (5, 1, 0xF)] = true →
      ∀ topo node w h, prmb p 0 1 1 0 = topo → prmb p 2 2 11 0 = node → prmb p 4 1 6 0 = w → prmb p 5 1 3 0 = h →
      topoOk topo w h = true → p.dest = 0x3FFFF → p.origin = none →
      (s0.cf.valid = true → anyRunning s0 = false ∧ s0.cp.routed = [] ∧ p.env.aux.headD 0 = 0) →
      enumFault s0 topo w h (p.env.aux.getD 1 0) = none → node ≠ 4095 →
      let s1 : State := { s0 with
        cf := { s0.cf with devid := node * 64, valid := true, anchor := true, topo := topo, wM1 := w - 1, hM1 := h - 1,
                           members := foundMembers 1 (p.env.aux.drop 2) },
        tk := { s0.tk with refN := 60, refD := 1, stRef := none } }
      exec (.nodeEnumerate t p) s = answers p e 0 (some (w * h)) (some 0xFFFFFFFF) (raise 658 (placeMembers s1)))
    ∧ (Runs specPtpConfig t p s e s0 →
      onlyBits p [(0, 1, 0x7F), (1, 1, 0xF), allBits 2 6, (8, 1, 1), (9, 1, 0x7F)] = true → prmb p 1 1 1 0 ≠ 3 →
      s0.cf.valid = true → s0.cf.anchor = true →
      let c : PtpCfg := { port := prmb p 0 1 2 0, backupEn := prmbit p 0 3, backup := prmb p 0 1 6 4,
                          role := prmb p 1 1 1 0, twoStep := prmbit p 1 2, ipv6 := prmbit p 1 3,
                          prio1 := prm p 3 1, prio2 := prm p 4 1, logAnn := sint 8 (prm p 5 1),
                          logSync := sint 8 (prm p 6 1), logDreq := sint 8 (prm p 7 1), steer := prmbit p 8 0,
                          dco := prmb p 9 1 6 0 }
      exec (.ptpConfig t p) s = answers p e 0 none none (setTkState (if prmb p 1 1 1 0 = 0 then 0 else 1)
        { s0 with tk := { s0.tk with ptp := c, domain := prm p 2 1, lastAnn := s0.clk.ticks } }))
    ∧ (Runs specTimeQuery t p s e s0 → onlyBits p [allBits 8 8] = true → bufferOk p s0 (prm p 8 8) 64 false = true →
      exec (.timeQuery t p) s = answers p e 0 (some (now s0)) (some (now s0 / 2 ^ 32))
        (bufferWrite p (prm p 8 8) false (timeRecord s0) s0))
    ∧ (Runs specBeatCalibrate t p s e s0 → onlyBits p [(0, 4, 0xFFFFFF), (4, 4, 0xFFFFFF)] = true →
      s0.cf.valid = true → s0.cf.anchor = true → ∀ n d, prmb p 0 4 23 0 = n → prmb p 4 4 23 0 = d → d ≠ 0 → d ≤ n →
      n ≤ 480 * d →
      let up := (List.range 4).filter fun j => (linkOf s0 j).up
      exec (.beatCalibrate t p) s
        = answers p e 0 (some (maxOf (up.map fun j => (linkOf s0 j).ldelay))) none
            (forAll (otherMembers s0) (fun dev s => sendMsg dev (.refRate n d (now s0 + 1000000000)) s)
              (stageRate n d (now s0 + 1000000000) s0)))
    ∧ (Runs specSurfaceTransfer t p s e s0 → onlyBits p transferBits = true → ∀ i, prmb p 2 2 13 0 = i →
      (prmb p 0 1 1 0 < 2 → ∀ slot ctx follow, decide (prmb p 0 1 1 0 = 1) = follow →
        slotBySeq (surfOf s0 i) (if follow = true then 0 else prm p 12 4) = some slot → freeCtx s0 = some ctx →
        (surfOf s0 i).valid = true → (surfOf s0 i).crystal = false → s0.cf.valid = true →
        prm p 8 4 / 16384 ≠ s0.cf.devid → prm p 8 4 / 16384 / 64 = s0.cf.devid / 64 →
        prm p 8 4 / 16384 % 64 < nodeSize s0 → (firstHop s0 (prm p 8 4 / 16384)).isSome = true →
        exec (.surfaceTransfer t p) s = pends p e (xferUnit ctx) (startXfer ctx slot
          { follow := follow, surface := i, handle := prm p 8 4, func := p.func, seq := 0 } s0))
      ∧ (prmb p 0 1 1 0 = 2 → ∀ c x, Tbl.first? s0.cf.xfers (fun _ y => y.follow && y.surface == i
          && y.handle == prm p 8 4) = some (c, x) →
        exec (.surfaceTransfer t p) s = answers p e 0 none none
          (if x.slot.isNone = true then dropXfer c s0 else putXfer c { x with stop := true } s0))
      ∧ (prmb p 0 1 1 0 = 3 → (surfOf s0 i).valid = true → (surfOf s0 i).writer = 3 → (surfOf s0 i).crystal = false →
        (∀ y ∈ s0.cf.imports, y.1 ≠ prmb p 4 1 3 0 → y.2.surface ≠ i) → (∀ y ∈ s0.cf.xfersIn, y.2.surface ≠ i) →
        exec (.surfaceTransfer t p) s = answers p e 0 none none { s0 with cf := { s0.cf with
          imports := Tbl.set s0.cf.imports (prmb p 4 1 3 0) { surface := i, device := prmb p 8 4 17 0 } } }))
    ∧ (Runs specRouteQuery t p s e s0 → onlyBits p [(0, 4, 0x3FFFF)] = true → ∀ dev, prmb p 0 4 17 0 = dev →
      (s0.cf.valid = true → dev = s0.cf.devid → exec (.routeQuery t p) s = answers p e 0 (some 256) none s0)
      ∧ (¬(s0.cf.valid = true ∧ dev = s0.cf.devid) → routeTo s0 dev = none →
        exec (.routeQuery t p) s = answers p e 0 (some 0) none s0)
      ∧ (¬(s0.cf.valid = true ∧ dev = s0.cf.devid) → ∀ r, routeTo s0 dev = some r →
        exec (.routeQuery t p) s = answers p e 0 (some (r.length + shl ((r.head?.map (·.2)).getD 0) 6 + 256))
          (some ((r.map fun h => memberLanes s0 h.1 h.2).foldl min 4)) s0))

/-- R457, R473, R480: the commands of the blitter. While fewer than 64 jobs are queued a blit or a list joins the queue
at its end, from any function; BLIT_DEADTIME_SET answers the old dead time and stores the new one. -/
def Obligations.BlitterCommandsAnswer : Prop :=
  ∀ (t : Ticks) (p : Packet) (s : State) (e : Entry) (s0 : State),
    let queued : Nat → Host.Outcome State Fault Refusal := fun op =>
      .next (afterwards p { s0 with
        bl := { s0.bl with queue := s0.bl.queue ++ [⟨{ e with opcode := op, pkt := p }, false, []⟩] } })
    (s0.bl.queue.length < 64 →
      (Runs specBlitCopy t p s e s0 → exec (.blitCopy t p) s = queued 0xA00)
      ∧ (Runs specBlitFill t p s e s0 → exec (.blitFill t p) s = queued 0xA01)
      ∧ (Runs specBlitBlend t p s e s0 → exec (.blitBlend t p) s = queued 0xA02)
      ∧ (Runs specBlitConvert t p s e s0 → exec (.blitConvert t p) s = queued 0xA03)
      ∧ (Runs specBlitMaskExpand t p s e s0 → exec (.blitMaskExpand t p) s = queued 0xA04)
      ∧ (Runs specBlitListRun t p s e s0 → exec (.blitListRun t p) s = queued 0xA05))
    ∧ (Runs specBlitDeadtimeSet t p s e s0 → exec (.blitDeadtimeSet t p) s
        = answers p e 0 (some s0.bl.dead) none { s0 with bl := { s0.bl with dead := prmb p 0 2 11 0 } })

/-- R481, R495, R499, R508: the commands of the housekeeping DMA. An idle channel is configured, or becomes READY with a
chain head, the packet completing at once or when the chain ends; HD_ABORT ends the chain; HD_QUERY answers the
channel's state and count. -/
def Obligations.HdCommandsAnswer : Prop :=
  ∀ (t : Ticks) (p : Packet) (s : State) (e : Entry) (s0 : State) (c : Nat), prmChan p = c →
    (Runs specHdChannelConfig t p s e s0 →
      onlyBits p [(0, 1, 0xF), (1, 1, 0x1F), (2, 1, 0x1F), (4, 4, 0x1FFFFF), allBits 8 8, (16, 4, 0xFFFFF)] = true →
      prm p 8 8 % 4096 = 0 → (hdOf s0 c).st = .idle →
      exec (.hdChannelConfig t p) s = answers p e 0 none none (putHd c
        { hdOf s0 c with prio := prmb p 1 1 1 0, burst := prmb p 1 1 4 2, cqLog2 := prmb p 2 1 3 0,
                         cqSpace := prmbit p 2 4, limit := prmb p 4 4 20 0, cqbase := prm p 8 8, cqpi := 0,
                         cqci := 0, ciAt := none, ctmo := prmb p 16 4 19 0, configured := true,
                         noRecords := false } s0))
    ∧ (Runs specHdStart t p s e s0 → onlyBits p [(0, 1, 0xF), (1, 1, 1), (8, 8, 0xBFFFFFFFFFFFFFE0)] = true →
      (hdOf s0 c).configured = true → (hdOf s0 c).burst ≤ 4 → 4 ≤ (hdOf s0 c).cqLog2 → (hdOf s0 c).cqLog2 ≤ 12 →
      (hdOf s0 c).st = .idle →
      let s1 := putHd c { hdOf s0 c with st := .ready, head := prm p 8 8, count := 0, resid := 0, desc := none,
                                         start := false } s0
      (prmbit p 1 0 = true → exec (.hdStart t p) s = answers p e 0 none none s1)
      ∧ (prmbit p 1 0 = false → exec (.hdStart t p) s = pends p e (hdStartUnit c) s1))
    ∧ (Runs specHdAbort t p s e s0 → onlyBits p [(0, 1, 0xF)] = true →
      ((hdOf s0 c).st = .idle → exec (.hdAbort t p) s
        = answers p e 0 (some (hdOf s0 c).count) (some (hdOf s0 c).resid) s0)
      ∧ ((hdOf (abortChan c s0) c).st = .idle → exec (.hdAbort t p) s
        = answers p e 0 (some (hdOf (abortChan c s0) c).count) (some (hdOf (abortChan c s0) c).resid)
            (abortChan c s0))
      ∧ ((hdOf (abortChan c s0) c).st ≠ .idle → exec (.hdAbort t p) s = pends p e (hdAbortUnit c) (abortChan c s0)))
    ∧ (Runs specHdQuery t p s e s0 → onlyBits p [(0, 1, 0xF)] = true →
      exec (.hdQuery t p) s
        = answers p e 0 (some (hdStatWord (hdOf s0 c))) (some (hdOf s0 c).count) s0)

/-- R510, R516, R517, R527, R528: the commands of the event concentrator. EVENT_ROUTE answers the first source's old word and
routes the range; EVENT_QUERY answers the word of a source and that of its target as the last arbitration cycle left it
(R516); EVENT_SOFT_SET raises a software
source. -/
def Obligations.EventCommandsAnswer : Prop :=
  ∀ (t : Ticks) (p : Packet) (s : State) (e : Entry) (s0 : State) (n : Nat), prm p 0 2 = n →
    (Runs specEventRoute t p s e s0 →
      onlyBits p [(0, 2, 0x3FF), (2, 2, 0x7FF), (4, 1, 0x7F), (5, 1, 0xF), (6, 1, 1)] = true → 1 ≤ n → n ≤ 1023 →
      1 ≤ prm p 2 2 → prm p 2 2 ≤ 1023 → n + prm p 2 2 ≤ 1024 → prm p 4 1 ≤ 67 →
      exec (.eventRoute t p) s = answers p e 0 (some (srcWord s0 n)) none
        (forAll ((List.range (prm p 2 2)).map (n + ·)) (setRoute (prm p 4 1) (prm p 5 1) (prmbit p 6 0)) s0))
    ∧ (Runs specEventQuery t p s e s0 → onlyBits p [(0, 2, 0x3FF)] = true → 1 ≤ n → n ≤ 1023 →
      exec (.eventQuery t p) s
        = answers p e 0 (some (srcWord s0 n)) (some (tstatWord (lastArb s0) (srcOf s0 n).target)) s0)
    ∧ (Runs specEventSoftSet t p s e s0 → onlyBits p [(0, 2, 0x3FF)] = true → 1008 ≤ n → n ≤ 1023 →
      exec (.eventSoftSet t p) s = answers p e 0 none none (raise n s0))

/-- R545 to R547, R558, R565, R566: the commands of power and of resets. A power state that asks for nothing more than
P0 or P1 is taken at once; a way into P2 or P3 begins with the drain, and the way back with the restart of every
channel. A loop window and the shed mask are stored; PMU_QUERY writes the record; a device reset answers first. -/
def Obligations.PowerCommandsAnswer : Prop :=
  ∀ (t : Ticks) (p : Packet) (s : State) (e : Entry) (s0 : State),
    (Runs specPowerStateSet t p s e s0 → s0.pmu.changing = false → onlyBits p [(0, 1, 3), allBits 4 4] = true →
      ∀ want old, prmb p 0 1 1 0 = want → s0.pmu.pstate = old → (prm p 4 4 = 0 ∨ want = 3) →
      let held : State := { s0 with cp := { s0.cp with inflight := s0.cp.inflight ++ [⟨e, pmuUnit, false⟩] } }
      (want = old → exec (.powerStateSet t p) s = answers p e 0 (some old) none (raise 992 s0))
      ∧ (want < 2 → old < 2 → want ≠ old → exec (.powerStateSet t p) s
          = answers p e 0 (some old) none (raise 992 { s0 with pmu := { s0.pmu with pstate := want } }))
      ∧ (want < 2 → 2 ≤ old →
          exec (.powerStateSet t p) s = .next (afterwards p (beginReturn want held)))
      ∧ (2 ≤ want → want ≠ old →
          exec (.powerStateSet t p) s = .next (afterwards p (beginDrain want (prm p 4 4) held))))
    ∧ (Runs specLoopWindowSet t p s e s0 → onlyBits p [(0, 1, 3), allBits 4 2, allBits 6 2] = true →
      ∀ loop lo hi, prmb p 0 1 1 0 = loop → prm p 4 2 = lo → prm p 6 2 = hi → windowOk loop lo hi = true →
      exec (.loopWindowSet t p) s
        = answers p e 0 (some (max lo (safetyFloor s0 loop) + shl (max hi (safetyFloor s0 loop)) 16)) none
            (noteClamp loop lo (storeWindow loop lo hi s0)))
    ∧ (Runs specShedMaskSet t p s e s0 → onlyBits p [(0, 1, 0x7C)] = true →
      exec (.shedMaskSet t p) s = answers p e 0 (some s0.pmu.noshed) none (setShedMask (prm p 0 1) s0))
    ∧ (Runs specPmuQuery t p s e s0 → onlyBits p [allBits 8 8] = true → bufferOk p s0 (prm p 8 8) 64 true = true →
      exec (.pmuQuery t p) s = answers p e 0 (some (pstateWord s0)) (some (tjWord s0))
        (bufferWrite p (prm p 8 8) true (pmuRecord s0) s0))
    ∧ (Runs specDeviceReset t p s e s0 → onlyBits p [(0, 1, 3)] = true →
      let s1 := checkpointNow 2 (finish e 0 none none s0)
      exec (.deviceReset t p) s = .next (afterwards p (deviceReset 2
        (if prmbit p 0 0 = true then savePst { s1 with rel := { s1.rel with eccSel := prmbit p 0 1 } } else s1))))

/-- R42, R552, R554: UNIT_RESET of each kind of unit, while no other packet acts on it. A raster that runs stops first,
and a memory channel, an enabled DisplayPort port with something plugged in and a busy blitter or DMA answer when they
are back; the others answer at once with their state word. -/
def Obligations.UnitResetAnswers : Prop :=
  ∀ (t : Ticks) (p : Packet) (s : State) (e : Entry) (s0 : State) (u i : Nat),
    Runs specUnitReset t p s e s0 → onlyBits p [allBits 0 4] = true → prm p 0 4 = u → resettable u = true →
    unitIndex u = i →
    let fresh : State → Host.Outcome State Fault Refusal := fun s1 =>
      answers p e 0 (some (mgmtWord (adoptData u s1) u)) none (adoptData u s1)
    (unitKind u = 1 → isFollower s0 i = false → ((rasterOf s0 i).orphan = false ∨ p.func = 0) → u = unitRaster i →
      let s1 := cancelStrike i s0
      let x := { rasterOf s1 i with stopping := true, resetting := true, restart := false }
      (isStarted x = false → exec (.unitReset t p) s = fresh (resetRaster i s1))
      ∧ (isStarted x = true → x.st = .stopped → exec (.unitReset t p) s = fresh (stopRaster i (putRaster i x s1)))
      ∧ (isStarted x = true → x.st ≠ .stopped → exec (.unitReset t p) s = pends p e u (putRaster i x s1)))
    ∧ (unitKind u = 2 → u = unitChan i → chanState s0 i ≠ 2 →
      exec (.unitReset t p) s = pends p e u (restartChannel i s0))
    ∧ (unitKind u = 3 → u = unitPort i → restartMode s0 i = (0, 0) →
      let o := ethOf s0 i
      let x : EthPort := { cfgMode := o.cfgMode, cr := o.cr, mtu := o.mtu, mac := o.mac, ipv4 := o.ipv4, ipv6 := o.ipv6,
                           up := o.up, fwSecond := o.fwSecond, fwCount := o.fwCount,
                           degraded := o.degraded && o.cfgMode != 0 }
      exec (.unitReset t p) s = fresh (setPortUp i false (setMgmt u (portWord false 0) (putEth i x s0))))
    ∧ (unitKind u = 3 → u = unitPort i → ∀ m lanes, restartMode s0 i = (m, lanes) → m ≠ 0 →
      let o := ethOf s0 i
      let x : EthPort := { cfgMode := o.cfgMode, mode := m, lanes := lanes, cr := o.cr, mtu := o.mtu, mac := o.mac,
                           ipv4 := o.ipv4, ipv6 := o.ipv6, up := o.up, coming := true, adopt := true,
                           fwSecond := o.fwSecond, fwCount := o.fwCount, degraded := o.degraded && m != o.cfgMode }
      exec (.unitReset t p) s = fresh (setPortUp i false (setMgmt u (portWord false lanes) (putEth i x s0))))
    ∧ (unitKind u = 4 → u = unitLink i →
      let s1 := dropLink i (setMgmt u (linkWord false (popcount 16 (linkOf s0 i).laneMap)) s0)
      exec (.unitReset t p) s = fresh (if (linkOf s0 i).enabled = true
        then startBringup i (putLink i { linkOf s1 i with adopt := true } s1) else s1))
    ∧ (unitKind u = 5 → u = unitDp i →
      ((dpOf s0 i).enabled = true → (dpOf s0 i).hpd = true → exec (.unitReset t p) s
        = pends p e u (dpDown i { dpOf s0 i with training := true, retrain := 0, hpdLost := false } s0))
      ∧ (((dpOf s0 i).enabled = false ∨ (dpOf s0 i).hpd = false) → exec (.unitReset t p) s
        = fresh (dpDown i { dpOf s0 i with training := false, retrain := 0, hpdLost := false } s0)))
    ∧ (unitKind u = 6 → u = unitFlow i →
      let s1 := stopEgress i (detachSender i s0)
      exec (.unitReset t p) s = fresh (putQueue i { ({} : TsQueue) with at_ := s1.clk.ticks } (putEgress i {} s1)))
    ∧ (u = unitBl → s0.bl.list = none →
      let s1 := forAll s0.bl.queue (fun j s => settlePair j.ent (flushEntry j.ent s)) { s0 with bl := { s0.bl with queue := [] } }
      (s0.bl.op = none → exec (.unitReset t p) s = answers p e 0 (some 0) none s1)
      ∧ (s0.bl.op.isSome = true → exec (.unitReset t p) s = pends p e u s1))
    ∧ (u = unitHd → let s1 := forAll (List.range 12) abortChan s0
      (hdQuiet s1 = true → exec (.unitReset t p) s = answers p e 0 (some 0) none (hdClear s1))
      ∧ (hdQuiet s1 = false → exec (.unitReset t p) s = pends p e u s1))

/-- R569, R583, R586, R590, R593: the commands of the reliability chapter. The retirement records and the ECC log are
written to a buffer, and the log emptied on request; a retired part returns when nothing migrates; a lifetime record is
read; a checkpoint begins when none is in progress. -/
def Obligations.ReliabilityCommandsAnswer : Prop :=
  ∀ (t : Ticks) (p : Packet) (s : State) (e : Entry) (s0 : State) (buf : Nat), prm p 8 8 = buf →
    (Runs specRetirementQuery t p s e s0 → onlyBits p [(0, 2, 0x7FF), (2, 2, 0x7FF), allBits 8 8] = true →
      prm p 2 2 ≤ 1792 → bufferOk p s0 buf 32 true = true →
      exec (.retirementQuery t p) s
        = answers p e 0 (some (relRetired s0)) (some (retiredMask s0 2 + shl s0.rel.retired.length 16))
            (bufferWrite p buf true ((List.range (prm p 2 2)).flatMap fun i =>
              match s0.rel.retired[prm p 0 2 + i]? with
              | some x => retireBytes x
              | none => List.replicate 32 0#8) s0))
    ∧ (Runs specRetirementClear t p s e s0 → onlyBits p [(0, 1, 3), (1, 1, 0xF)] = true → ∀ k i, prmb p 0 1 1 0 = k →
      prmb p 1 1 3 0 = i → isRetired s0 k i = true → s0.mm.migrating = false →
      exec (.retirementClear t p) s = answers p e 0 none none (clearRetired k i s0))
    ∧ (Runs specLtrRead t p s e s0 → onlyBits p [(0, 1, 3), (1, 1, 0xF), allBits 8 8] = true → ∀ src, prmb p 0 1 1 0 = src →
      src ≠ 3 → ∀ bytes r0 bad s1, ltrReadRecord src (prmb p 1 1 3 0) s0 = ((bytes, r0, bad), s1) →
      bufferOk p s0 buf 64 false = true →
      exec (.ltrRead t p) s = answers p e 0 r0 (some (b2n bad)) (bufferWrite p buf false bytes s1))
    ∧ (Runs specLtrCheckpoint t p s e s0 → onlyBits p [] = true → ltrBusy s0 = false →
      exec (.ltrCheckpoint t p) s = pends p e ltrUnit (startCheckpoint 4 s0))
    ∧ (Runs specEccLogRead t p s e s0 → onlyBits p [(0, 1, 0xF), (1, 1, 1), allBits 8 8] = true →
      ∀ n l, prmb p 0 1 3 0 = n → Tbl.get s0.rel.ecc [] n = l → bufferOk p s0 buf 16 false = true →
      ∀ tail s1, freeBytes (1024 - 16 * l.length) s0 = (tail, s1) →
      exec (.eccLogRead t p) s = answers p e 0 (some l.length) none (bufferWrite p buf false (l.flatMap eccBytes ++ tail)
        (if prmbit p 1 0 = true then { s1 with rel := { s1.rel with ecc := Tbl.set s1.rel.ecc n [] } } else s1)))

/-- R49, R51, R60, R80, R82, R83: writes of CP_QCTL and the packet boundary. ENABLE starts a stopped pair whose
configuration is good, with every index at its start, and otherwise gives the ERR code; clearing it stops the pair and
flushes, FLUSH reading 1 meanwhile (DESIGN CHOICE, notes/assumptions/73.md); FLUSH marks the pair, and at the boundary its
packets in the command FIFO complete with FLUSHED, and so will those up to the last PI. -/
def Obligations.QueueControlActs : Prop :=
  ∀ (t : Ticks) (s s1 : State) (f q v : Nat), f < 16 → q < 8 →
    ∀ x, { qpOf s1 f q with repEvent := tbit v 2, batch := bits v 15 8,
                            flushAt := if tbit v 1 && !(qpOf s1 f q).flush then some s1.clk.ticks else (qpOf s1 f q).flushAt,
                            flush := (qpOf s1 f q).flush || tbit v 1 } = x →
    (Reaches t f s s1 → tbit v 0 = true → x.enable = false → x.running = false → x.stopping = false →
      (q < qpCount s1 f → x.sbase % 4096 = 0 → x.rbase % 4096 = 0 → 4 ≤ x.slog2 → x.slog2 ≤ 12 → 4 ≤ x.rlog2 →
        x.rlog2 ≤ 12 → exec (.queueEnable t f q v) s = .next (putQp f q
          { x with enable := true, running := true, stopping := false, err := 0, outstanding := 0, pi := 0, ci := 0,
                   expected := 0, rpi := 0, granted := 2 ^ x.slog2, unreported := 0, reserved := 0, copied := 0,
                   flushTo := none, replyDead := false, held := [] } s1))
      ∧ (qpCount s1 f ≤ q → exec (.queueEnable t f q v) s = .next (putQp f q { x with err := 2 } s1))
      ∧ (q < qpCount s1 f → (x.sbase % 4096 ≠ 0 ∨ x.slog2 < 4 ∨ 12 < x.rlog2) →
        exec (.queueEnable t f q v) s = .next (putQp f q { x with err := 1 } s1)))
    ∧ (Reaches t f s s1 → tbit v 0 = false → x.enable = true → exec (.queueDisable t f q v) s
        = .next (flushTimed f q (putQp f q
            { x with enable := false, stopping := x.running, flush := x.flush || x.running } s1)))
    ∧ (Reaches t f s s1 → tbit v 0 = true → x.enable = true → tbit v 1 = true →
        exec (.queueFlush t f q v) s = .next (putQp f q { x with flush := true } s1))
    ∧ (Occurs t s s1 → (qpOf s1 f q).flush = true → (qpOf s1 f q).flushTo = none →
        let s2 := { s1 with cp := { s1.cp with fifo := s1.cp.fifo.filter fun e => !ofPair f q none e,
                                               hwm := max s1.cp.hwm (fifoLevel s1) } }
        let s3 := forAll (s1.cp.fifo.filter (ofPair f q none)) flushEntry s2
        let y := qpOf s3 f q
        exec (.flushBoundary t f q) s = .next (flushCheck f q (putQp f q
          { y with flushTo := some (if y.running && y.err == 0 then y.pi else y.copied) } s3)))

/-- R52 to R54, R61, R62, R64, R66, R67, R69, R71, R84, R85: doorbells, copying, credit-only replies and ring faults. A doorbell
within the granted credits moves PI, and in the tick of a flush whose boundary has passed its entries are flushed too; one
beyond them faults the pair; the next pair of the round has an entry copied into the command FIFO from its slot of the
ring, with its credit and its reply slot; an entry out of sequence faults the pair; unreported credits that reach the
batch are reported alone; a failed ring access faults the pair. -/
def Obligations.QueueTrafficActs : Prop :=
  ∀ (t : Ticks) (s s1 : State) (f q v : Nat), f < 16 → q < 8 → ∀ x, qpOf s1 f q = x →
    (Reaches t f s s1 → x.enable = true → x.running = true → x.stopping = false → v < 65536 →
      ((v + 65536 - x.pi) % 65536 ≤ (x.granted % 65536 + 65536 - x.pi) % 65536 →
        (x.flushAt ≠ some s1.clk.ticks ∨ (x.flush = true ∧ x.flushTo = none) →
          exec (.submitDoorbell t f q v) s = .next (putQp f q { x with pi := v } s1))
        ∧ (x.flushAt = some s1.clk.ticks → (x.flush = false ∨ x.flushTo.isSome = true) →
          exec (.submitDoorbell t f q v) s = .next (putQp f q { x with pi := v, flush := true, flushTo := some v } s1)))
      ∧ ((x.granted % 65536 + 65536 - x.pi) % 65536 < (v + 65536 - x.pi) % 65536 →
        exec (.submitDoorbell t f q v) s = .next (faultQp f q 3 s1)))
    ∧ (Reaches t f s s1 → exec (.replyDoorbell t f q v) s = .next (putQp f q { x with ci := v % 65536 } s1))
    ∧ (Occurs t s s1 → nextPair s1 = some (8 * f + q) → ∀ entry p n, parseEntry f q entry = p →
      (if p.atTime && p.replyAlways then 2 else 1) = n → n ≤ freeReplySlots x →
      let s2 := emit (.hostRead f (x.sbase + 64 * (x.copied % 2 ^ x.slog2)) 64)
        { s1 with cp := { s1.cp with roundPos := 8 * f + q + 1 } }
      let s3 := putQp f q { x with expected := (x.expected + 1) % 2 ^ 32, copied := (x.copied + 1) % 65536,
                                   granted := (x.granted + 1) % 65536, unreported := x.unreported + 1,
                                   outstanding := x.outstanding + 1, reserved := x.reserved + n } s2
      let e : Entry := { opcode := entryOpcode entry, pkt := p, slots := n, counted := true, arrived := s1.clk.ticks }
      (p.seq ≠ x.expected → exec (.cpEntryCopy t f q entry) s = .next (faultQp f q 4 s2))
      ∧ (p.seq = x.expected → x.flushTo = none → inCatalogue (entryOpcode entry) = true →
        s1.cp.fifo.find? (ofPair f q none) = none → p.func = f → p.qp = q → p.origin = none →
        exec (.cpEntryCopy t f q entry) s
          = .next (noteLevel { s3 with cp := { s3.cp with fifo := s3.cp.fifo ++ [e] } }))
      ∧ (p.seq = x.expected → x.flushTo.isSome = true →
        exec (.cpEntryCopy t f q entry) s = .next (flushEntry e s3)))
    ∧ (Occurs t s s1 → x.running = true → bmeOf s1 f = true → x.replyDead = false → x.batch ≠ 0 →
      x.batch ≤ x.unreported → 0 < freeReplySlots x →
      exec (.creditOnlyReply t f q) s = .next (putQp f q { x with rpi := (x.rpi + 1) % 65536, unreported := 0 }
        (emit (.hostWrite f (x.rbase + 16 * (x.rpi % 2 ^ x.rlog2))
          (replyBytes [0, 0, 0, 0, 2] x.unreported (1 - x.rpi / 2 ^ x.rlog2 % 2))) s1)))
    ∧ (Occurs t s s1 → x.running = true →
      exec (.ringFault t f q false) s = .next (faultQp f q 5 (putQp f q x s1))
      ∧ (x.replyDead = false → x.rpi ≠ x.ci → exec (.ringFault t f q true) s
        = .next (faultQp f q 5 (putQp f q { x with replyDead := true, rpi := (x.rpi + 65535) % 65536 } s1))))

/-- R76 to R78, R87, R89, R433: timed packets that are due, and packets routed between devices. The first due packet that
can begin, in order of EXEC_TIME and acceptance, leaves the timed list and executes; a packet for another device goes to it
as a command message, with a deadline, and one that gets no first response by then completes with TIMEOUT; a command message
acts with its last flit. An unknown opcode that stood behind the packet completes after it. -/
def Obligations.RoutedAndTimedAct : Prop :=
  ∀ (t : Ticks) (s s1 : State), Occurs t s s1 →
    (∀ env x s2, (heads (dueTimed s1)).findSome? (fun x => (beginTimed env x (noteLevel s1)).map fun s' => (x, s'))
        = some (x, s2) → exec (.timedPacketDue t env) s = .next (settlePair x.ent s2))
    ∧ (∀ op p e s2, destLocal s1 p.dest = false → p.origin = none → functionOn s1 p.func = true →
      inCatalogue op = true → takeEntry op p s1 = some (e, s2) → headerOk p = true → destLocal s2 p.dest = false →
      (routeTo s2 p.dest).isSome = true → (p.indirect = true → p.env.blockFails = false ∧ bmeOf s2 p.func = true) →
      (e.opcode = 0x005 → p.func = 0 → functionOn s2 (prmb p 0 1 3 0) = true) →
      let s3 := readBlock p s2
      let s4 := sendMsg p.dest (.request e.opcode { p with origin := some s3.cf.devid })
        { s3 with cp := { s3.cp with routed := s3.cp.routed ++
          [{ ent := e, device := p.dest, deadline := s3.clk.ticks + usTicks (max 1000 s3.cp.routeTmo) }] } }
      exec (.routeForward t op p) s = .next (afterwards p s4))
    ∧ (∀ r l, s1.cp.routed = r :: l → r.acked = false → r.deadline ≤ s1.clk.ticks → ∀ a b s2 s3,
      takeFree s1 = (a, s2) → takeFree s2 = (b, s3) →
      exec (.routeTimeout t) s
        = .next (settlePair r.ent (completeAs true r.ent 0x10A a b { s3 with cp := { s3.cp with routed := l } })))
    ∧ (∀ x m s2, Lands x [1, 2] s1 s2 → exec (.cmdFlitRx t x (some m)) s = .next (takeMessage m s2)
      ∧ exec (.cmdFlitRx t x none) s = .next s2)

/-- R14, R15, R17, R607, R608: accesses to registers through BAR0. A whole write acts on the register at its offset; a narrower
one is ignored and sets ACCESS_ERR, with source 13 as the bit goes to 1. A read answers the enabled bytes and clears the
RC fields of what it reads, but for what this tick has counted; a read of the low word of a pair keeps the high word for
the next read of it. -/
def Obligations.RegisterAccessesAct : Prop :=
  ∀ (t : Ticks) (s s1 : State) (f off be v : Nat), Reaches t f s s1 → f < 16 →
    (be % 16 = 15 →
      exec (.registerWrite t f off be v) s = .next (writeOne f (off / 4 * 4) (v % 2 ^ 32) s1)
      ∧ (∀ i < 4, f = 0 → off = 0x40 + 4 * i → v < 2 ^ 32 → exec (.registerWrite t f off be v) s
        = .next { s1 with host := { s1.host with scratch := Tbl.set s1.host.scratch i v } }))
    ∧ (be % 16 ≠ 15 → exec (.registerWrite t f off be v) s
        = .next (let s2 := noteSet (accErrKey f) 5 s1
          if tbit s1.host.accErr f = true then s2
          else raise 13 { s2 with host := { s2.host with accErr := setBit s2.host.accErr f true } }))
    ∧ (be < 16 → ∀ o, off / 4 * 4 = o →
      (inPair s1 f o false = false → inPair s1 f o true = false → claimTarget f o = none →
        exec (.rcRegisterRead t f off be) s
          = .next (emit (.readData f (enabledBytes be (liveWord s1 f o))) (clearRc f o s1)))
      ∧ (inPair s1 f o false = true → ¬(f = 0 ∧ o = 0x90000) → exec (.pairLowRead t f off be) s
        = .next (emit (.readData f (enabledBytes be (liveWord s1 f o))) { s1 with host := { s1.host with
            holding := Tbl.set s1.host.holding (f * 2 ^ 23 + o) (liveWord s1 f (o + 4)) } }))
      ∧ (inPair s1 f o false = false → inPair s1 f o true = true →
        (∀ w, Tbl.find? s1.host.holding (f * 2 ^ 23 + (o - 4)) = some w → exec (.pairHighRead t f off be) s
          = .next (emit (.readData f (enabledBytes be w)) { s1 with host := { s1.host with
              holding := Tbl.del s1.host.holding (f * 2 ^ 23 + (o - 4)) } }))
        ∧ (Tbl.find? s1.host.holding (f * 2 ^ 23 + (o - 4)) = none → exec (.pairHighRead t f off be) s
          = .next (emit (.readData f (enabledBytes be (liveWord s1 f o))) s1))))
    ∧ (∀ i < 16, f = 0 → off = 0x80 + 4 * i → exec (.rcRegisterRead t f off 15) s
        = .next (emit (.readData f (enabledBytes 15 (deniedOf s1 i % 2 ^ 32)))
            (let kept := keepNow s1 (0x80 + 4 * i) (deniedOf s1 i) (Tbl.get s1.prior.host.denied 0 i)
            { s1 with host := { s1.host with denied := Tbl.set s1.host.denied i kept },
                      prior := { s1.prior with cleared := insertNat (0x80 + 4 * i) s1.prior.cleared } })))

/-- R514 to R516, R518, R521, R526, R528: claims, completions and holds at an event target, by the function that holds it.
A claim takes the top source that the target had at the end of the previous arbitration cycle, if it was not held then; a
completion ends the claim, and of what the target has not claimed sets BADCOMP. -/
def Obligations.EventTargetsAct : Prop :=
  ∀ (t : Ticks) (s s1 : State) (f tg v : Nat), Reaches t f s s1 →
    (tg < 68 → tgtHolder s1 tg = f →
      (∀ n, claimTop s1 tg = n → n ≠ 0 →
        let s2 := putTgt tg { tgtOf s1 tg with armed := true, request := false, idle := false, waiting := false,
                                               tookAt := some s1.clk.ticks } s1
        exec (.evcClaim t f tg) s = .next (emit (.readData f n) (putSrc n
          { srcOf s2 n with pending := false, claimed := true, claimer := tg, moved := none, since := none } s2)))
      ∧ ((tgtHeld (lastArb s1) tg = true ∨ claimTop s1 tg = 0) → 4 ≤ tg → exec (.evcClaim t f tg) s
        = .next (emit (.readData f 0) (putTgt tg { tgtOf s1 tg with armed := true, request := false } s1)))
      ∧ (∀ n, bits v 9 0 = n → (srcOf s1 n).claimed = true → (srcOf s1 n).claimer = tg →
        let s2 := putTgt tg { tgtOf s1 tg with armed := true } s1
        let x := { srcOf s2 n with claimed := false, claimer := 0, since := none }
        (isLevelSource n = false → exec (.evcComplete t f tg v) s = .next (wakeFor n (putSrc n x s2)))
        ∧ (isLevelSource n = true → exec (.evcComplete t f tg v) s
          = .next (wakeFor n (putSrc n { x with pending := (srcOf s2 n).asserted, pendAt := s2.clk.ticks } s2))))
      ∧ (((srcOf s1 (bits v 9 0)).claimed = false ∨ (srcOf s1 (bits v 9 0)).claimer ≠ tg) →
        exec (.evcComplete t f tg v) s = .next (noteSet (tstatKey tg) 13 (putTgt tg { tgtOf s1 tg with badcomp := true } s1)))
      ∧ (∀ s2, putTgt tg { tgtOf s1 tg with
            hold := tbit v 0,
            idle := (tgtOf s1 tg).idle || (tbit v 1 && decide (4 ≤ tg) && !inThisArb s1 (tgtOf s1 tg).tookAt) } s1 = s2 →
        exec (.evcTargetHold t f tg v) s = .next s2 ∧ exec (.evcTargetIdle t f tg v) s = .next s2))
    ∧ (tg < 68 → tgtHolder s1 tg ≠ f → exec (.evcClaim t f tg) s = .next (emit (.readData f 0) s1)
      ∧ exec (.evcComplete t f tg v) s = .next s1 ∧ exec (.evcTargetHold t f tg v) s = .next s1)
    ∧ (f = 0 → exec (.evcGlobalHold t f v) s = .next { s1 with evc := { s1.evc with ghold := tbit v 0 } }
      ∧ exec (.evcSwsetWrite t f v) s = .next (forAll (bitList 16 v) (fun b s => raise (1008 + b) s) s1))

/-- R512, R519, R520, R522, R524, R609: edges, levels and deliveries. An edge makes its source pending, and one of a
source that is pending is counted as merged; a level follows its signal while unclaimed; a delivery that is due disarms
the target and sends the message of its entry, or sets the entry's pending bit; unmasking sends what is pending; a
NOWAKE source that has stood at a sleeping core for 50 µs moves to the core's fallback. -/
def Obligations.EventDeliveryActs : Prop :=
  ∀ (t : Ticks) (s s1 : State) (n : Nat), Occurs t s s1 →
    (n ≠ 0 → n ≤ 1023 → isLevelSource n = false → unusedSource n = false →
      let s2 := emit (.event n) s1
      ((srcOf s1 n).pending = true →
        exec (.evcEdge t n) s = .next { s2 with evc := { s2.evc with merges := sat 32 (s2.evc.merges + 1) } })
      ∧ ((srcOf s1 n).pending = false → exec (.evcEdge t n) s = .next (wakeFor n (putSrc n
          { srcOf s1 n with pending := true, pendAt := s1.clk.ticks, since := none } s2))))
    ∧ (∀ level, isLevelSource n = true → (srcOf s1 n).asserted ≠ level →
      let x := { srcOf s1 n with asserted := level }
      ((srcOf s1 n).claimed = true →
        exec (.evcLevelChange t n level) s = .next (wakeFor n (putSrc n x s1)))
      ∧ ((srcOf s1 n).claimed = false → exec (.evcLevelChange t n level) s = .next (wakeFor n (putSrc n
          { x with pending := level, pendAt := s1.clk.ticks, since := none, moved := none } s1))))
    ∧ (∀ tg, tg < 68 → deliveryDue s1 tg = true →
      let g := { tgtOf s1 tg with armed := false, idle := false, waiting := false, awake := false,
                                  last := some s1.clk.ticks, deliv := sat 32 ((tgtOf s1 tg).deliv + 1) }
      (tg < 4 → exec (.evcDelivery t tg) s
        = .next (emit (.coreRequest tg) (putTgt tg { g with request := true } s1)))
      ∧ (4 ≤ tg → ∀ f v s2, (tg - 4) / 4 = f → (tg - 4) % 4 = v → putTgt tg g s1 = s2 →
        exec (.evcDelivery t tg) s = .next (if msixReady s2 f v = true
          then emit (.msix f v (msixOf s2 f v).addr (msixOf s2 f v).data) s2
          else putMsix f v { msixOf s2 f v with pend := true } s2)))
    ∧ (∀ f v, Reaches t f s s1 → f < 16 → v < 4 → exec (.msixEntryUnmask t f v) s
        = .next (msixFlush f (putMsix f v { msixOf s1 f v with mask := false } s1)))
    ∧ (∀ x, srcOf s1 n = x → x.pending = true → x.claimed = false → x.nowake = true → x.moved = none →
      coreAsleep s1 x.target = true → x.pendAt + usTicks 50 ≤ s1.clk.ticks → exec (.evcNowakeFallback t n) s
        = .next (wakeFor n (putSrc n
            { x with moved := some ((tgtOf s1 x.target).fallback.getD ((x.target + 1) % 4)), since := none } s1)))

/-- R140 to R142, R534, R535, R551 to R553, R594, R597 to R601, R605: configuration, resets of functions, the link and BAR2. A
configuration write sets its bits, and with Bus Master Enable lets out the held replies and the pending messages; VF
Enable makes the VFs exist, and clearing it gives their resources back; a reset of a function acts here and on its node;
the link goes and comes; a BAR2 access reaches what its function may, and is denied elsewhere; behind an earlier one of its
function, or while its channel does not serve class C6, it waits. -/
def Obligations.FunctionsAct : Prop :=
  ∀ (t : Ticks) (s s1 : State) (f : Nat), advance t s = s1 →
    (∀ c, configReaches s1 f = true →
      let h : HostSt := { s1.host with
        bme := setBit s1.host.bme f c.bme, mse := setBit s1.host.mse f c.mse,
        msixEn := setBit s1.host.msixEn f c.msixEn,
        pfBar2 := if f = 0 ∧ 30 ≤ c.bar2 ∧ c.bar2 ≤ 37 then c.bar2 else s1.host.pfBar2 }
      let s2 := { s1 with host := h }
      (c.bme = false → exec (.busMasterEnableChange t f c) s = .next s2)
      ∧ (c.bme = true → exec (.busMasterEnableChange t f c) s
        = .next (msixFlush f (forAll (List.range 8) (writeHeld f) s2))))
    ∧ (∀ num bar2, configReaches s1 0 = true →
      (s1.host.vfEnable = false → num ≤ 15 → exec (.vfEnableSet t num bar2) s = .next (enableVfs num bar2 s1))
      ∧ (s1.host.vfEnable = true → exec (.vfEnableClear t) s = .next (disableVfs s1)))
    ∧ (configReaches s1 f = true → exec (.flr t f) s = .next (sendFlr f (flrHost f (flrItems f none (clearConfig f s1)))))
    ∧ (∀ device, Occurs t s s1 → f < 16 → exec (.flrRemoteApply t f device) s = .next (flrItems f (some device) s1))
    ∧ (clocked s1 = true →
      exec (.perstNAssert t) s
          = .next { linkReset s1 with pmu := { (linkReset s1).pmu with perstLow := true } }
      ∧ (s1.host.linkUp = true → exec (.hotReset t) s = .next (linkReset s1))
      ∧ exec (.pcieLinkTrained t) s
        = .next { s1 with host := { s1.host with linkUp := true }, pmu := { s1.pmu with perstLow := false } })
    ∧ exec (.pcieRefclkLoss t) s = .next { s1 with host := { s1.host with linkUp := false } }
    ∧ (f < 16 → hostReaches s1 f = true → mseOf s1 f = true → ∀ off s2, off < bar2Size s1 f → drainBar2 s1 = s2 →
      let waits : Prop := s2.host.posted.any (fun y => y.func == f) = true ∨ channelServes s2 6 (channelOf s2 off) = false
      let later : Bar2Op → State := fun x => { s2 with host := { s2.host with posted := s2.host.posted ++ [x] } }
      (∀ data, 0 < data.length → data.length ≤ 4096 - off % 4096 →
        (bar2Allowed s2 f true off = true →
          (¬waits → exec (.bar2Write t f off data) s = .next (memWrite off data (noteRace off data.length s2)))
          ∧ (waits → exec (.bar2Write t f off data) s
            = .next (later ⟨f, off, true, data, data.length, s2.clk.ticks⟩)))
        ∧ (bar2Allowed s2 f true off = false → exec (.bar2Write t f off data) s = .next (denyBar2 f s2)))
      ∧ (∀ n, 0 < n → n ≤ 4096 - off % 4096 →
        (bar2Allowed s2 f false off = true →
          (¬waits → fencedAt s2 off = false → exec (.bar2Read t f off n) s
            = .next (emit (.bar2Data f (memRead s2 off n) (sectorBad s2 off n)) (countRead off n s2)))
          ∧ (¬waits → fencedAt s2 off = true → exec (.bar2Read t f off n) s = .next (emit (.ur f) s2))
          ∧ (waits → exec (.bar2Read t f off n) s = .next (later ⟨f, off, false, [], n, s2.clk.ticks⟩)))
        ∧ (bar2Allowed s2 f false off = false →
          exec (.bar2Read t f off n) s = .next (emit (.ur f) (denyBar2 f s2))))
      ∧ exec (.bar2Atomicop t f off) s = .next (emit (.ur f) (denyBar2 f s1)))

/-- R195, R233, R313, R340, R459, R477, R492, R499, R502, R540: writes of the registers that command a unit, by PF0. COMMIT
is set and cleared on a raster that no VF owns, and a set in the latch cycle that neither a strike nor the hold of an
orphan keeps is counted as deferred; a word of a shadow descriptor is replaced; a blitter list starts and
stops; a channel of the DMA starts and is aborted; software lines request; in recovery a page is committed, programmed
and the image verified. -/
def Obligations.RegisterCommandsAct : Prop :=
  ∀ (t : Ticks) (s s1 : State) (v : Nat), Reaches t 0 s s1 →
    (∀ r < 16, rasterOwner s1 r = 0 → isFollower s1 r = false → strikeLocked s1 r = false →
      (tbit v 0 = true → (rasterOf s1 r).commit = false →
        let s2 := startBuild r (putRaster r { rasterOf s1 r with commit := true, commitAt := s1.clk.ticks } s1)
        (((rasterOf s1 r).latchAt ≠ some s1.clk.ticks ∨ (rasterOf s1 r).orphan = true ∨ (strikeOf s1 r).isSome = true) →
          exec (.rgCommitWrite t 0 r v) s = .next s2)
        ∧ ((rasterOf s1 r).latchAt = some s1.clk.ticks → (rasterOf s1 r).orphan = false → strikeOf s1 r = none →
          exec (.rgCommitWrite t 0 r v) s = .next (countDefer r s2)))
      ∧ (tbit v 0 = false →
        let s2 := putScene r { sceneOf s1 r with building := false, built := false } s1
        exec (.rgCommitWrite t 0 r v) s = .next (putRaster r { rasterOf s2 r with commit := false } s2)))
    ∧ (∀ off, 0x100000 ≤ off → off < 0x180000 → ∀ id old d, (off - 0x100000) / 64 = id → shadowDesc s1 id = old →
      putBytes old (off % 64 / 4 * 4) (leBytes 4 v) = d →
      (windowDenied s1 id d = false → exec (.paneWindowWrite t 0 off v) s
        = .next (clearCommit (dRaster d) (putShadow id d (clearCommit (dRaster old) s1))))
      ∧ (windowDenied s1 id d = true → exec (.paneWindowWrite t 0 off v) s = .next (denyWindow (dRaster old) s1)))
    ∧ (tbit v 0 = true → tbit v 1 = false → s1.bl.list = none →
      let s2 := { s1 with bl := { s1.bl with stopOnErr := tbit v 2, regWait := true } }
      ((blHolds s1 = true ∨ s1.bl.op.isSome = true ∨ s1.bl.job.isSome = true
          ∨ listWaits s2 s1.bl.laddr (listLimit s1.bl.lcount) = true) → exec (.blRegListStart t 0 v) s = .next s2)
      ∧ (blHolds s1 = false → s1.bl.op = none → s1.bl.job = none →
        listWaits s2 s1.bl.laddr (listLimit s1.bl.lcount) = false → exec (.blRegListStart t 0 v) s
          = .next (beginList s1.bl.laddr (listLimit s1.bl.lcount) (tbit v 2) true
              { s2 with bl := { s2.bl with regWait := false } })))
    ∧ (∀ l, tbit v 0 = false → tbit v 1 = true → s1.bl.list = some l →
      let s2 := { s1 with bl := { s1.bl with stopOnErr := tbit v 2, list := some { l with stop := true } } }
      (s1.bl.op.isSome = true → exec (.blRegListStop t 0 v) s = .next s2)
      ∧ (s1.bl.op = none → exec (.blRegListStop t 0 v) s = .next (endList 0x108 s2)))
    ∧ (∀ c < 12, ∀ x, hdOf s1 c = x →
      (x.st = .idle → hdStartable x = true → exec (.hdRegStart t 0 c) s = .next (putHd c
        { x with st := .ready, head := x.chead, count := 0, resid := 0, desc := none, start := true } s1))
      ∧ (x.st ≠ .idle → exec (.hdRegStart t 0 c) s = .next s1)
      ∧ (x.st ≠ .idle →
        exec (.hdRegAbort t 0 c) s = .next (abortChan c (putHd c { x with abort := true } s1)))
      ∧ (x.st = .idle → exec (.hdRegAbort t 0 c) s = .next s1))
    ∧ exec (.hdReqsetWrite t 0 v) s = .next
        (forAll ((List.range 16).filter fun i => tbit v (16 + i)) (fun i => addRequest (16 + i)) s1)

/-- R539, R540: the recovery that PF0 drives while no image verifies. A commit begins the programming of the page, its end
stores the window, and a verified image lets the boot go on from step 4. -/
def Obligations.RecoveryActs : Prop :=
  ∀ (t : Ticks) (s s1 : State), advance t s = s1 → s1.pmu.stage = 6 → clocked s1 = true →
    (hostReaches s1 0 = true → mseOf s1 0 = true → s1.pmu.busy = false →
      exec (.recoveryPageCommit t 0) s = .next { s1 with pmu := { s1.pmu with commit := true, busy := true } }
      ∧ exec (.recoveryDone t 0 true) s = .next { s1 with
          pmu := { s1.pmu with stage := 3, slot := 0, recovered := true, done := true, rcvErr := false } }
      ∧ exec (.recoveryDone t 0 false) s = .next { s1 with pmu := { s1.pmu with done := true, rcvErr := true } })
    ∧ (hostReaches s1 0 = true → mseOf s1 0 = true → s1.pmu.busy = true →
      exec (.recoveryPageCommit t 0) s = .next s1 ∧ exec (.recoveryDone t 0 true) s = .next s1)
    ∧ (s1.pmu.busy = true → exec (.recoveryPageProgrammed t) s = .next { s1 with pmu := { s1.pmu with
        busy := false, commit := false, flash := Tbl.set s1.pmu.flash s1.pmu.page s1.pmu.window } })

/-- R169, R531 to R536, R538, R539, R542, R548, R562, R564, R622, R623, R626, R627: the resets, the boot and the ways back from P3. A
POR, a PIN reset and a DEVICE reset each leave what they leave; the units leave reset with their time at 0; the straps are
sampled when a POR is released; the boot
runs to READY from the slot that verifies, or to recovery; the comparator shuts the part down until a reset below
115 °C; a wake in P3 is a DEVICE reset, and a silent core is warned of and then resets the device. -/
def Obligations.ResetsAct : Prop :=
  ∀ (t : Ticks) (s s1 : State), advance t s = s1 →
    (∀ s2, (if s1.pmu.off = true then emit (.thermtrip false) s1 else s1) = s2 →
      (s1.pmu.pstate ≠ 3 → exec (.powerOnReset t false) s = .next (afterReset (porPmu s2.pmu) {} (cutPst s2)))
      ∧ (s1.pmu.pstate = 3 → exec (.powerOnReset t false) s = .next s1)
      ∧ exec (.powerOnReset t true) s = .next (afterReset (porPmu s2.pmu) {} (cutPst s2)))
    ∧ (∀ w, s1.pmu.por = true → exec (.porRelease t w) s = .next { s1 with
        clk := (if s1.pmu.pinLow = true then s1.clk else { s1.clk with base := 0, at_ := s1.clk.ticks, rate := 0 })
        pmu := { s1.pmu with por := false, inReset := s1.pmu.pinLow, strapBoot := bits w 1 0, strapQ0 := tbit w 2,
                             strapQ1 := tbit w 3 }
        ne := { s1.ne with q0eth := tbit w 2, q1eth := tbit w 3 } })
    ∧ (s1.pmu.pinLow = false → s1.pmu.por = false → exec (.pinReset t) s = .next (afterReset
        { keptPmu s1.pmu with cause := 1, keptLive := none, inReset := true, pinLow := true } {} s1))
    ∧ (∀ starts : State, { (if s1.pmu.off = true then emit (.thermtrip false) s1 else s1) with
          clk := { s1.clk with base := 0, at_ := s1.clk.ticks, rate := 0 },
          pmu := { s1.pmu with pinLow := false, inReset := false, off := false, hotPend := false } } = starts →
      (∀ tj : Int, s1.pmu.pinLow = true → s1.pmu.por = false →
        (tj < 920 → exec (.resetNDeassert t tj) s = .next starts)
        ∧ (920 ≤ tj → exec (.resetNDeassert t tj) s = .next { (if s1.pmu.off = true then s1
            else emit (.thermtrip true) s1) with pmu := { s1.pmu with pinLow := false, off := true, hotPend := true } }))
      ∧ (∀ tj : Int, s1.pmu.hotPend = true → s1.pmu.pinLow = false → tj < 920 →
        exec (.tjBelow115BootStart t tj) s = .next starts))
    ∧ (s1.pmu.por = false → s1.pmu.off = false → exec (.thermtrip t) s
        = .next (emit (.thermtrip true) (noteSet 0xA0004 4 { s1 with
            pmu := { s1.pmu with off := true, thermtrip := true, tripped := true }
            host := { s1.host with linkUp := false } })))
    ∧ (clocked s1 = true → exec (.refclkLoss t) s = .next (deviceReset 4 s1)
      ∧ exec (.pllLockLoss t) s = .next (deviceReset 4 s1))
    ∧ (isRunning s1 = true → ∀ c < 4, (tgtOf s1 c).waiting = false →
      exec (.wdogWarn t c) s
        = .next (raise 1000 { s1 with pmu := { s1.pmu with warned := Tbl.set s1.pmu.warned c s1.clk.ticks } })
      ∧ (∀ a, Tbl.find? s1.pmu.warned c = some a → a + secTicks 1 ≤ s1.clk.ticks →
        exec (.watchdogReset t c) s = .next (deviceReset 3 s1)))
    ∧ (asleep s1 = true →
      exec (.wakePin t) s = .next (deviceReset 5 { raise 998 s1 with pmu := { (raise 998 s1).pmu with wake := 0 } })
      ∧ (∀ a, s1.pmu.wakeAt = some a → a ≤ s1.clk.ticks →
        let s2 := raise 1001 s1
        exec (.wakeTimer t) s = .next (deviceReset 5 { s2 with pmu := { s2.pmu with wake := 1 } }))
      ∧ (s1.pmu.perstLow = true → exec (.perstNWake t) s
        = .next (deviceReset 5 { s1 with pmu := { s1.pmu with perstLow := false, wake := 2 } })))
    ∧ (isRunning s1 = true → exec (.wakePin t) s = .next (raise 998 s1))
    ∧ (∀ x : BootResult, clocked s1 = true → s1.pmu.stage = 0 →
      let high : Pins := { s1.pins with ospiResetN := .high }
      (s1.pmu.strapBoot = 2 → exec (.bootReady t x) s
        = .next { s1 with pins := high, pmu := { s1.pmu with stage := 6 } })
      ∧ (x.first = false → x.second = false →
        exec (.bootReady t x) s = .next { s1 with pins := high, pmu := { s1.pmu with stage := 6 } })
      ∧ (s1.pmu.strapBoot ≠ 2 → x.first = true → exec (.bootReady t x) s = .next (bootOn x { s1 with
          pins := high, pmu := { s1.pmu with slot := if s1.pmu.strapBoot = 1 then 1 else 0, fallback := false } }))
      ∧ (s1.pmu.strapBoot ≠ 2 → x.first = false → x.second = true → exec (.bootReady t x) s = .next (bootOn x { s1 with
          pins := high, pmu := { s1.pmu with slot := if s1.pmu.strapBoot = 1 then 0 else 1, fallback := true } })))
    ∧ (∀ x : BootResult, clocked s1 = true → s1.pmu.stage = 3 → exec (.bootReady t x) s = .next (bootOn x s1))

/-- R112, R545, R547, R556 to R560, R564, R620: the events of power. The drain ends or times out; a channel that restarts
is back, or is retired after 2 ms; the power-fail warning takes a checkpoint; the loops and the governor follow their
samples. -/
def Obligations.PowerEventsAct : Prop :=
  ∀ (t : Ticks) (s s1 : State), Occurs t s s1 →
    (s1.pmu.drainAt.isSome = true → drained s1 = true → exec (.powerStateDrainEnd t) s = .next (startEntry s1))
    ∧ (∀ a, s1.pmu.drainAt = some a → a + msTicks 100 ≤ s1.clk.ticks → drained s1 = false →
      exec (.powerStateDrainTimeout t) s = .next (finishUnit pmuUnit 0x107 none none
        { s1 with pmu := { s1.pmu with drainAt := none, changing := false } }))
    ∧ (∀ n a, Tbl.find? s1.mm.restart n = some a → chanState s1 n = 1 →
      (s1.clk.ticks ≤ a + msTicks 2 →
        let s2 := setChan n 0 { s1 with mm := { s1.mm with restart := Tbl.del s1.mm.restart n } }
        let s3 := if unitBusy s2 (unitChan n) = true then adoptData (unitChan n) s2 else compareUnit (unitChan n) s2
        exec (.channelRestartDone t n) s = .next (settleResume
          (finishAll (fun i => i.unit == unitChan n) 0 (some (mgmtWord s3 (unitChan n))) none s3)))
      ∧ (a + msTicks 2 ≤ s1.clk.ticks →
        let s2 := retireChannel n 2 1 (raiseUnit (unitChan n) (256 + 4 * n + 3) s1)
        exec (.channelRestartTimeout t n) s = .next (settleResume (if chanState s2 n = 1
          then { s2 with mm := { s2.mm with restart := Tbl.set s2.mm.restart n s2.clk.ticks } } else s2))))
    ∧ (ltrBusy s1 = false → ltrBusy (raise 999 s1) = false →
      exec (.pfw t) s = .next (startCheckpoint 3 (raise 999 s1)))
    ∧ (ltrBusy (raise 999 s1) = true →
      exec (.pfw t) s = .next (writeCheckpoint 3 (raise 999 s1).rel.ltrWSeq (raise 999 s1)))
    ∧ (dueAfter s1 (msTicks 1) s1.pmu.tjAt = true → ∀ tj : Int, -2048 ≤ tj → tj ≤ 2047 →
      exec (.thermalSample t tj) s = .next (blankStep (restoreStep (overrideStep (shedStep
        { s1 with pmu := { s1.pmu with tj := tj, tjHwm := max s1.pmu.tjHwm tj, tjAt := some s1.clk.ticks } })))))
    ∧ (dueAfter s1 (msTicks 1) s1.pmu.avsAt = true → ∀ want m, roundUp want 25 = m → s1.pmu.vset ≤ m + 100 →
      m ≤ s1.pmu.vset + 100 → 10 * s1.pmu.vmin ≤ m → m ≤ 10 * s1.pmu.vmax → roundUp (10 * floorMv s1) 25 ≤ m →
      floorMv s1 ≤ s1.pmu.vmin →
      let s2 := { s1 with pmu := { s1.pmu with vset := m, avsAt := some s1.clk.ticks } }
      exec (.avsUpdate t want) s = .next (if m = s1.pmu.vset then s2 else emit (.supply m) s2))
    ∧ (dueAfter s1 (msTicks 16) s1.pmu.rfAt = true → ∀ mr4, mr4 ≤ s1.pmu.rfMin →
      let s2 := { s1 with pmu := { s1.pmu with mr4 := mr4, rfAt := some s1.clk.ticks } }
      ∀ want : Nat, wantedRefresh s2 = want → s1.pmu.rfMin ≤ want → want ≤ s1.pmu.rfMax → s1.pmu.rfMax ≤ 3 →
      exec (.refreshPoll t mr4) s = .next (if want = s1.pmu.refresh then s2
        else { s2 with pmu := { s2.pmu with refresh := want, rfSince := s2.clk.onTicks } }))
    ∧ (∀ lane code w, lane < 16 → Tbl.get s1.pmu.eqWin (0, 31) lane = w → w.1 ≤ code → code ≤ w.2 →
      exec (.serdesEqAdapt t lane code) s
        = .next { s1 with pmu := { s1.pmu with eq := Tbl.set s1.pmu.eq lane code } })

/-- R213, R300, R301, R305, R547, R639: the frames of a raster. Its start latch begins the lead-in at LATCH; the latch of
a frame is its line LATCH; at a frame start the frame before ends, a raster that stops is stopped, and otherwise a new
frame begins at line 0 with its state and its tiles composed; a line of a frame is emitted while the next is composed;
a build of an index ends. -/
def Obligations.RasterFramesAct : Prop :=
  ∀ (t : Ticks) (s s1 : State) (r : Nat), Occurs t s s1 → r < 16 → ∀ x, rasterOf s1 r = x →
    (x.waitingStart = true → s1.pmu.entering = false → x.startFt ≤ nsAt s1 (s1.clk.ticks + leadTicks x.tim) →
      let y := { x with waitingStart := false, leadIn := true, restart := false, line := x.tim.latch,
                        accAt := s1.clk.ticks, pos0 := x.tim.latch * linePixels x.tim, starts := 0 }
      let s2 := takeLatch r s1.clk.ticks (putRaster r y s1)
      (s2.pmu.resuming = false → exec (.rasterStartLatch t r) s = .next s2)
      ∧ (s2.pmu.resuming = true → (∀ k < 16, (rasterOf s2 k).restart = false) →
        exec (.rasterStartLatch t r) s = .next (finishUnit pmuUnit 0 (some 2) none
          (raise 992 { s2 with pmu := { s2.pmu with resuming := false, changing := false } }))))
    ∧ (x.st ≠ .stopped → x.latched = false → x.newFrame = false → x.tim.latch ≤ x.line + 1 →
      lineTick x x.tim.latch ≤ s1.clk.ticks →
      exec (.rasterLatch t r) s = .next (takeLatch r (lineTick x x.tim.latch) s1))
    ∧ ((x.st ≠ .stopped ∨ x.leadIn = true) → x.latched = true → x.newFrame = false → x.line + 1 = vTotal x.tim →
      ∀ due, frameTick x = due → due ≤ s1.clk.ticks → ∀ s2,
      (x.leadIn = true → s2 = s1) →
      (x.leadIn = false → let s' := putRaster r { x with lastEnd := nsAt s1 due } s1
        s2 = forAll (tilesOf s' r) endSinks s') →
      (x.stopping = true → exec (.rasterFrameStart t r) s = .next (stopRaster r s2))
      ∧ (x.stopping = false →
        let s3 := rehomeStep r s2
        let s4 := putRaster r (beginFrameAt due (nsAt s3 due) (rasterOf s3 r)) s3
        let s4 := if (rasterOf s3 r).nextTim.isSome = true then recountRaster r s4 else s4
        let s5 := setDpState r (upcoming s4 r) s4
        let s6 := if ((rasterOf s5 r).ready.isNone && (rasterOf s5 r).st != .halted) = true
          then composeTiles r 0 (rasterOf s5 r).frame s5 else s5
        exec (.rasterFrameStart t r) s
          = .next (compareUnit (unitRaster r) (forAll (tilesOf s6 r) startSinks s6))))
    ∧ (∀ y, lineDue s1 x y = true →
      let s2 := putRaster r { x with line := y, newFrame := false } s1
      (y + 1 < x.tim.vact → x.leadIn = false → exec (.rasterLineStart t r y) s
        = .next (openLine r (composeTiles r (y + 1) x.frame (forAll (tilesOf s2 r) (emitLine y) s2))))
      ∧ (x.tim.vact ≤ y → y + 1 < vTotal x.tim → exec (.rasterLineStart t r y) s = .next s2)
      ∧ (x.tim.vact ≤ y → y + 1 = vTotal x.tim →
        exec (.rasterLineStart t r y) s = .next (openLine r (composeNext r s2))))
    ∧ ((sceneOf s1 r).building = true →
      let s2 := putScene r { sceneOf s1 r with
        building := false, built := x.commit || (strikeOf s1 r).isSome } s1
      exec (.indexBuildDone t r) s = .next (if 147456 < shadowEntries s2 r then setCsStat r 5 s2 else s2))

/-- R126, R161, R163, R164, R166, R183, R188, R195, R197: the fetch scheduler. A free slot of a channel issues a request
of class 0, then of class 1, whose gate stays open for 8 ns, once the waits for a gate are counted; data that arrive leave
the flight for the raster's line, and a tile that fails to decode is counted; the entry shown follows the running list, and
a list whose time has come takes over with source 240. Accesses of other classes that waited go on with a slot (DESIGN
CHOICE, notes/assumptions/64.md). -/
def Obligations.FetchingActs : Prop :=
  ∀ (t : Ticks) (s s1 : State) (n : Nat), Occurs t s s1 → n < 16 → ∀ c, chanFsOf s1 n = c →
    (∀ left0 left1 s2 s3, openLeft s1 c 1 = left0 → openLeft s1 c 2 = left1 →
      guardClass n left0 ((List.range 16).filterMap fun r => (offer0 s1 r n).map fun o => (r, o.1)) s1 = s2 →
      guardClass n left1 ((List.range 16).filterMap fun r => (offer1 s2 r n).map fun o => (r, o.1)) s2 = s3 →
      ((∀ a, c.lastIssue = some a → a + 10 ≤ s1.clk.ticks) →
        (∀ r q g, 8 ≤ left0.getD 0 → choose0 s3 n = some (r, q, g) →
          exec (.fsRequestIssue t n) s = .next (drainAccesses (issueReq n r q g s3)))
        ∧ (∀ r q, (left0.getD 0 < 8 ∨ choose0 s3 n = none) → 8 ≤ left1.getD 0 → choose1 s3 n = some (r, q) →
          exec (.fsRequestIssue t n) s = .next (drainAccesses (issueReq n r q false s3)))
        ∧ ((left0.getD 0 < 8 ∨ choose0 s3 n = none) → (left1.getD 0 < 8 ∨ choose1 s3 n = none) →
          exec (.fsRequestIssue t n) s = .next (drainAccesses s3)))
      ∧ (∀ a, c.lastIssue = some a → s1.clk.ticks < a + 10 →
        exec (.fsRequestIssue t n) s = .next (drainAccesses s1)))
    ∧ (∀ r pane row k x l, s1.fs.flights = x :: l → x.raster = r → x.req = ⟨pane, row, k⟩ →
      chanState s1 x.channel ≠ 1 →
      let q : FetchReq := ⟨pane, row, k⟩
      ∀ s2, { s1 with fs := { s1.fs with flights := l } } = s2 → ∀ pd, reqPane s2 r q.pane = pd →
      ∀ sf, surfOf s2 (dSurface pd.1) = sf →
      let slot := pd.2.getD 0
      let perTile := uMax sf.format + 1
      let decodes := sf.comp ≠ 1 ∨ tileDecodes s2 sf slot (dSX pd.1 / 32 + k / perTile) row = true
      let bad := fenced s2 x.channel || (slotOf sf slot).invalid || sectorBad s2 (reqAddr s2 pd.1 slot q) 256
      exec (.fetchDataArrive t r pane row k false) s = .next s2
      ∧ (bad = true → exec (.fetchDataArrive t r pane row k true) s = .next s2)
      ∧ (bad = false → ¬decodes → exec (.fetchDataArrive t r pane row k true) s
        = .next (if k % perTile = 0 then ftcError (dSurface pd.1) s2 else s2))
      ∧ (bad = false → decodes →
        let s3 := noteLatency x.channel r x.cls ((s2.clk.ticks - x.issued) * 4 / 5) s2
        exec (.fetchDataArrive t r pane row k true) s
          = .next (if x.old = true then s3 else putFs r { fsOf s3 r with arrived := q :: (fsOf s3 r).arrived } s3)))
    ∧ exec (.mcgEntryAdvance t n) s
        = .next (putChanFs n { c with entry := indexAt c.running (gatePos s1 c) } s1)
    ∧ (c.arm = .pending → c.armT ≤ now s1 → exec (.gateSwitch t n) s
        = .next (raise 240 (writeGaps (forAll ((List.range 16).filter (takeoverDue s1)) takeOver s1))))

/-- R36, R39, R275, R276: comparisons and the times of the crystal key. Where the two states of a unit differ it is
marked; an unlock ends with its time, and so does the second after a failure. -/
def Obligations.FirmwareWatchActs : Prop :=
  ∀ (t : Ticks) (s s1 : State), Occurs t s s1 →
    (∀ u, unitOk u = true → (unitKind u = 1 → (rasterOf s1 (unitIndex u)).newFrame = true) → quiesced s1 = false →
      s1.pmu.resuming = false → isMarked s1 u = false →
      (differs s1 u = true → exec (.divergenceCompare t u) s = .next (markUnit u s1))
      ∧ (differs s1 u = false → exec (.divergenceCompare t u) s = .next s1))
    ∧ (isUnlocked s1 = false → exec (.crystalUnlockExpire t) s = .next (endUnlock s1))
    ∧ (isUnlocked s1 = true → exec (.crystalUnlockExpire t) s = .next s1)
    ∧ (isLockedOut s1 = false →
      exec (.crystalLockoutExpire t) s = .next { s1 with key := { s1.key with lockout := none } })

/-- R319, R450 to R452: the events of strikes. At its decision a local strike is struck if every member is ready and moves
on otherwise; a part votes 100 µs before D and the anchor gives its verdict 50 µs before D; the anchor registers the
parts, takes what they say and cancels a strike whose parts are missing 10 s after T; a part follows the anchor. -/
def Obligations.StrikesAct : Prop :=
  ∀ (t : Ticks) (s s1 : State), Occurs t s s1 →
    (∀ r k, strikeOf s1 r = some k → k.id = 0 → k.struck = false → k.d ≤ now s1 →
      (strikeReady s1 k.members = true → exec (.strikeDecision t r) s
        = .next (mapStrikes (fun x => x.members == k.members) (fun x => { x with struck := true }) s1))
      ∧ (strikeReady s1 k.members = false → exec (.strikeDecision t r) s = .next (moveOn k s1)))
    ∧ (∀ num k, partOf s1 num = some k → k.c ≠ 0 → k.voted = false → k.struck = false → k.d ≤ now s1 + 100000 →
      exec (.strikeVoteTime t num) s = .next (sayUp num (.vote (strikeReady s1 k.members))
        (mapStrikes (fun x => x.members == k.members) (fun x => { x with voted := true }) s1)))
    ∧ (∀ num o, openOf s1 num = some o → s1.cf.anchor = true → o.c ≠ 0 → o.struck = false → ∀ ms, openMembers o = ms →
      decisionTime (commonPeriod ms) ms o.c ≤ now s1 + 50000 →
      ((∀ x ∈ o.regs, (x.1, true) ∈ o.votes) → exec (.strikeVerdictDeadline t num) s
        = .next (tellParts o .struck (putOpen { o with struck := true } s1)))
      ∧ (¬(∀ x ∈ o.regs, (x.1, true) ∈ o.votes) → ∀ c, nextBoundary (commonPeriod ms) o.c = c →
        exec (.strikeVerdictDeadline t num) s = .next (tellParts o (.moved c (decisionTime (commonPeriod ms) ms c))
          (putOpen { o with c := c, votes := [] } s1))))
    ∧ (∀ x reg s2, Lands x [0xF] s1 s2 → s2.cf.valid = true → s2.cf.anchor = true → strikeNum reg.id ≠ 0 →
      reg.device ≠ s2.cf.devid → ∀ st c s3, registerPart reg s2 = (st, c, s3) →
      let s4 := sendTo reg.device (downFlit (strikeNum reg.id) (.answer st c)) s3
      exec (.strikeRegistrationRx t x reg) s = .next (if st = 0 then announce (strikeNum reg.id) s4 else s4))
    ∧ (∀ x device num s2 o, Lands x [0xF] s1 s2 → s2.cf.valid = true → s2.cf.anchor = true →
      openOf s2 num = some o →
      (∀ b ms, o.c ≠ 0 → o.struck = false → openMembers o = ms →
        now s2 + 50000 ≤ decisionTime (commonPeriod ms) ms o.c → exec (.strikeVoteRx t x device num (.vote b)) s
          = .next (putOpen { o with votes := (device, b) :: o.votes.filter fun y => y.1 != device } s2))
      ∧ exec (.strikeVoteRx t x device num .cancel) s = .next (tellParts o .cancelled (closeStrike num s2))
      ∧ (o.struck = true → exec (.strikeVoteRx t x device num .kept) s = .next (tellParts o .split s2)))
    ∧ (∀ x num s2 k, Lands x [0xF] s1 s2 → partOf s2 num = some k →
      (k.voted = true → exec (.strikeVerdictRx t x num .struck) s
        = .next (mapStrikes (fun y => y.members == k.members) (fun y => { y with struck := true }) s2))
      ∧ (∀ c d, exec (.strikeVerdictRx t x num (.moved c d)) s = .next (moveStrike k c d s2))
      ∧ exec (.strikeVerdictRx t x num .cancelled) s
        = .next (alertMembers k.members alCancelled (dropStrikes (fun y => y.members == k.members) s2))
      ∧ exec (.strikeVerdictRx t x num .split) s = .next (raise 656 s2))
    ∧ (∀ num o, openOf s1 num = some o → s1.cf.anchor = true → o.regs.length < o.parts →
      o.t + 10000000000 ≤ now s1 →
      exec (.strikeRegistrationTimeout t num) s = .next (tellParts o .cancelled (closeStrike num s1)))

/-- R349 to R351, R353, R356, R358, R359, R371, R374, R408: the events of the Ethernet ports. A bad frame is an error; a good
one is counted, and if the port accepts its address its packet goes by the legs, the header checks, the sequence window, the meter and
the buffer to its flow's slot, each step counting what it drops; firmware takes at most 10,000 frames of a port in a second
and answers for the port's own addresses; a link comes up, with its addresses announced, and goes down; an uncorrectable
burst starts a retrain. -/
def Obligations.EthernetEventsAct : Prop :=
  ∀ (t : Ticks) (s s1 : State) (port : Nat), Occurs t s s1 → port < 8 → ∀ e, ethOf s1 port = e →
    (∀ level fixed b s2 x, (if e.up = true then putEth port { e with feccor := (e.feccor + fixed) % 2 ^ 64 } s1 else s1) = s2 →
      ethOf s2 port = x →
      let wrong : EthPort → State → State := fun y s3 =>
        let s4 := putEth port { y with rxerr := sat 32 (y.rxerr + 1) } s3
        if y.rxerr = 0 then raiseUnit (unitPort port) (384 + 4 * port + 3) s4 else s4
      (portCarries s2 port = false → exec (.ethFrameRx t port level fixed b) s = .next s2)
      ∧ (portCarries s2 port = true → frameOk x.mtu b = false →
        exec (.ethFrameRx t port level fixed b) s = .next (wrong x s2))
      ∧ (portCarries s2 port = true → frameOk x.mtu b = true → ∀ y s3,
        { x with rxfr := (x.rxfr + 1) % 2 ^ 64, rxoct := (x.rxoct + b.length) % 2 ^ 64 } = y → putEth port y s2 = s3 →
        (acceptsAddress s3 port b = false → exec (.ethFrameRx t port level fixed b) s = .next s3)
        ∧ (acceptsAddress s3 port b = true →
          (parseFrame b = .error → exec (.ethFrameRx t port level fixed b) s = .next (wrong y s3))
          ∧ (parseFrame b = .control → exec (.ethFrameRx t port level fixed b) s = .next s3)
          ∧ (∀ u, parseFrame b = .udp u →
            (matchLeg s3 port u = none → exec (.ethFrameRx t port level fixed b) s
              = .next (putEth port { y with rxnoflow := sat 32 (y.rxnoflow + 1) } s3))
            ∧ (∀ f legB fl sf, matchLeg s3 port u = some (f, legB) → ingestOf s3 f = fl → surfOf s3 fl.surface = sf →
              ((fl.kind ≠ 2 ∧ rtpCheck fl sf (now s3) u.payload = none
                  ∨ fl.kind = 2 ∧ fstCheck fl sf u.payload = .malformed) → exec (.ethFrameRx t port level fixed b) s
                = .next (putIngest f { fl with malformed := sat 32 (fl.malformed + 1) } s3))
              ∧ (fl.kind = 2 → fstCheck fl sf u.payload = .mismatch → exec (.ethFrameRx t port level fixed b) s
                = .next (ingestAlert f (putIngest f { fl with mismatch := sat 32 (fl.mismatch + 1) } s3)))
              ∧ (∀ q, (fl.kind ≠ 2 ∧ rtpCheck fl sf (now s3) u.payload = some q
                  ∨ fl.kind = 2 ∧ fstCheck fl sf u.payload = .ok q) → ∀ z,
                ((window q.seq fl).2 = z → (window q.seq fl).1 ≠ .used →
                  exec (.ethFrameRx t port level fixed b) s = .next (putIngest f z s3))
                ∧ ((window q.seq fl).2 = z → (window q.seq fl).1 = .used → ∀ ok s4,
                  meterPacket f u.dscp b.length level (putIngest f { z with
                    packets := (z.packets + 1) % 2 ^ 64, cntA := if legB = true then z.cntA else sat 32 (z.cntA + 1),
                    cntB := if legB = true then sat 32 (z.cntB + 1) else z.cntB } s3) = (ok, s4) →
                  (ok = false → exec (.ethFrameRx t port level fixed b) s = .next s4)
                  ∧ (ok = true → ∀ held, max (level * 1024) (sumOf (s4.ne.ibuf.map (·.len))) + b.length = held →
                    (4194304 < held → exec (.ethFrameRx t port level fixed b) s = .next
                      (let s5 := { s4 with ne := { s4.ne with ibovf := sat 32 (s4.ne.ibovf + 1) } }
                      if s4.ne.ibovf = 0 then raise 418 s5 else s5))
                    ∧ (held ≤ 4194304 → ∀ s5,
                      drainIngest { s4 with ne := { s4.ne with ibufHwm := max s4.ne.ibufHwm (cdiv held 1024) } } = s5 →
                      ∀ s6, putIngest f { ingestOf s5 f with lastPkt := s4.clk.ticks } s5 = s6 →
                      exec (.ethFrameRx t port level fixed b) s = .next
                        (if s6.ne.ibuf.any (fun w => w.flow == f) = true ∨ packetServed s6 ⟨f, b.length, q⟩ = false
                          then { s6 with ne := { s6.ne with ibuf := s6.ne.ibuf ++ [⟨f, b.length, q⟩] } }
                          else assignPacket f q s6))))))))))
    ∧ (∀ req, (portCarries s1 port = false → exec (.fwFrameService t port req) s = .next s1)
      ∧ (portCarries s1 port = true → ∀ sec n, now s1 / 1000000000 = sec → (if e.fwSecond = sec then e.fwCount else 0) = n →
        (10000 ≤ n → exec (.fwFrameService t port req) s = .next (putEth port { e with fwdrop := sat 32 (e.fwdrop + 1) } s1))
        ∧ (n < 10000 → ∀ y s2, { e with fwSecond := sec, fwCount := n + 1 } = y → putEth port y s1 = s2 →
          let sent : Nat → Nat → List Nat → State := fun len kind words => emit (.fwFrame port kind words)
            (putEth port { y with txfr := (y.txfr + 1) % 2 ^ 64, txoct := (y.txoct + len) % 2 ^ 64 } s2)
          (∀ a, req = .arp a → exec (.fwFrameService t port req) s
            = .next (if a ≠ 0 ∧ a = e.ipv4 then sent 64 2 [e.mac, a] else s2))
          ∧ (∀ a, req = .solicit a → exec (.fwFrameService t port req) s
            = .next (if a ≠ 0 ∧ (a = e.ipv6 ∨ a = llAddress e.mac) then sent 90 3 [e.mac, a] else s2))
          ∧ (∀ v6 a data, req = .echo v6 a data → exec (.fwFrameService t port req) s
            = .next (if a ≠ 0 ∧ (if v6 = true then a = e.ipv6 ∨ a = llAddress e.mac else a = e.ipv4)
              then sent (fwFrameLen v6 (4 + data.length)) 4 (b2n v6 :: a :: data.map (·.toNat)) else s2))
          ∧ (∀ v6 v g s3, req = .query v6 v g → noteQuerier port v6 v s2 = s3 → exec (.fwFrameService t port req) s
            = .next (sendReport port v6 ((membership s3 port).filter fun j => g == 0 || j.group == g) s3))
          ∧ (req = .other → exec (.fwFrameService t port req) s = .next s2))))
    ∧ (e.mode ≠ 0 → e.up = false → ∀ s2,
      (if e.adopt = true then setMgmt (unitPort port) (portWord true e.lanes) s1 else s1) = s2 →
      exec (.ethLinkUp t port) s = .next (announceAddresses port (trainLanes e.lanes (setPortUp port true
        (putEth port { ethOf s1 port with coming := false, adopt := false } s2)))))
    ∧ (e.up = true → exec (.ethLinkDown t port) s = .next (compareUnit (unitPort port) (settleFlows port
        (raise (384 + 4 * port) (putEth port { e with retraining := false, up := false }
          (putEth port { e with retraining := false } s1))))))
    ∧ (e.up = false → exec (.ethLinkDown t port) s = .next s1)
    ∧ (∀ n, e.up = true → n ≠ 0 → ∀ x, { e with fecunc := sat 32 (e.fecunc + n) } = x →
      (e.retraining = true → exec (.fecUncorrectable t port n) s = .next (putEth port x s1))
      ∧ (e.retraining = false → exec (.fecUncorrectable t port n) s = .next (raiseUnit (unitPort port) (384 + 4 * port + 2)
          (putEth port { x with retraining := true, attempts := 0, retrain := sat 32 (e.retrain + 1) } s1))))

/-- R360, R361, R364, R365, R368, R390: the events of flows. A frame without a packet for 100 ms closes: one being discarded
is forgotten, an open one is published as INCOMPLETE or discarded as its flow's LOSS_FILL says; a packet of a raster's frame
enters its queue at its release time, or finds no room and is dropped; the packets of an FST slot go out while the queue has
room and memory serves them, its tiles in order and then END. -/
def Obligations.FlowEventsAct : Prop :=
  ∀ (t : Ticks) (s s1 : State) (f : Nat), Occurs t s s1 →
    (∀ x sf, f < 4096 → ingestOf s1 f = x → surfOf s1 x.surface = sf → x.lastPkt + msTicks 100 ≤ s1.clk.ticks →
      (∀ q ∈ s1.ne.ibuf, q.flow ≠ f) → servedAll s1 3 = true →
      let closed : State → Host.Outcome State Fault Refusal := fun s2 => .next (putIngest f
        { ingestOf s2 f with st := .idle, last := some (ingestOf s2 f).cur, lossBase := (ingestOf s2 f).frHigh, used := 0,
                             lineSegs := [], tiles := [] } s2)
      let published : Nat → State → State := fun loss s2 => ingestAlert f
        (let s3 := publishAuto (ingestOf s2 f).surface (ingestOf s2 f).capture true loss s2
        putIngest f { ingestOf s2 f with
          frames := sat 32 ((ingestOf s2 f).frames + 1), incomplete := sat 32 ((ingestOf s2 f).incomplete + 1),
          lastCap := ((surfOf s3 (ingestOf s2 f).surface).lastCap).getD 0 } s3)
      (x.st = .idle → exec (.ingestFrameTimeout t f) s = .next s1)
      ∧ (x.st = .discarding → exec (.ingestFrameTimeout t f) s = closed s1)
      ∧ (x.st = .opened → x.kind ≠ 2 →
        (x.fill = 2 → exec (.ingestFrameTimeout t f) s
          = closed (ingestAlert f (putIngest f { x with discarded := sat 32 (x.discarded + 1) } s1)))
        ∧ ((x.fill = 1 ∨ x.fill = 0 ∧ sf.newest = noSlot) →
          exec (.ingestFrameTimeout t f) s = closed (published (frameLoss x) s1))
        ∧ (x.fill = 0 → sf.newest ≠ noSlot → exec (.ingestFrameTimeout t f) s = closed (published (frameLoss x)
            (forAll ((List.range (sHeight sf)).filter fun y => !lineFull x (wireLine sf) y)
              (fun y s => copyFromNewest sf (sf.pitch * 256 * y) (wireLine sf) s) s1))))
      ∧ (x.st = .opened → x.kind = 2 → ∀ missing,
        ((List.range (tilesX (sWidth sf) * tilesY (sHeight sf))).filter fun i => !x.tiles.contains i) = missing →
        missing ≠ [] → exec (.ingestFrameTimeout t f) s = closed (published missing.length (forAll missing
          (fun i s => if sf.newest = noSlot
            then writeSlot sf (tileOffset sf i) (List.replicate (tileBytes sf.budget) 0#8) s
            else copyFromNewest sf (tileOffset sf i) (tileBytes sf.budget) s) s1))))
    ∧ (∀ x g rest, f < 1024 → egressOf s1 f = x → x.cfg.kind = 1 → x.stopped = false → x.frames = g :: rest →
      min g.total ((g.next + 1) * g.cfg.blocks * 180) ≤ g.data.length →
      g.ft + (g.ra + g.next * g.rb) / g.rc ≤ now s1 →
      let len := g.cfg.blocks * 180
      let start := g.next * len
      let n := min len (g.total - start)
      let last := g.next + 1 == g.npkt
      let frame := buildUdp (flowUdp s1 g.cfg) (rtpPacket last g.cfg.pt x.nextSeq (g.ft * 9 / 100000 % 2 ^ 32) g.cfg.ssrc
        (segments g.format g.lineLen start n) ((g.data.drop start).take n))
      ∀ s2, putEgress f { x with
          nextSeq := (x.nextSeq + 1) % 2 ^ 32
          frameCnt := if last then sat 32 (x.frameCnt + 1) else x.frameCnt
          frames := if last then rest else { g with next := g.next + 1 } :: rest } s1 = s2 →
      (queueRoom s2 f frame.length = true → exec (.st2110PacketRelease t f) s = .next (noteBuffer
        (putQueue f { queueOf s2 f with frames := (queueOf s2 f).frames ++ [⟨frame, s2.clk.ticks⟩] } s2)))
      ∧ (queueRoom s2 f frame.length = false → exec (.st2110PacketRelease t f) s = .next (queueAlert f
        (putEgress f { egressOf s2 f with dropped := sat 32 ((egressOf s2 f).dropped + 1) } s2))))
    ∧ (∀ x g sf, f < 1024 → egressOf s1 f = x → x.cfg.kind = 2 → x.stopped = false → x.fst = some g →
      surfOf s1 x.cfg.surface = sf → ∀ total len, tilesX (sWidth sf) * tilesY (sHeight sf) = total →
      tileBytes sf.budget = len →
      let addr : Nat → Nat := fun i => slotAddr sf g.slot + tileOffset sf (g.tile + i)
      let packet : Bool → Nat → List Byte → List Byte := fun ended n data => buildUdp (flowUdp s1 x.cfg) (fstBytes
        { version := 1, ty := if ended then 1 else 0, last := !ended && g.tile + n == total, tcount := n,
          handle := ownHandle s1 x.cfg.surface, pseq := x.nextSeq, slotSeq := g.seq,
          capture := (slotOf sf g.slot).capture, format := sf.format, budget := sf.budget, widthM1 := sf.widthM1,
          heightM1 := sf.heightM1, first := if ended then 0 else g.tile } ++ data)
      (g.tile = total → queueRoom s1 f (packet true 0 []).length = true →
        exec (.fstPacketSend t f) s = .next (fstNext f (dropFst f (enqueue f (packet true 0 []) (putEgress f
          { x with nextSeq := (x.nextSeq + 1) % 2 ^ 32, fst := some g, frameCnt := sat 32 (x.frameCnt + 1),
                   lastSent := some g.seq } s1)))))
      ∧ (∀ n, g.tile < total → 0 < x.cfg.blocks → min x.cfg.blocks (total - g.tile) = n →
        (∀ i < n, readable s1 (addr i) len = true ∧ served s1 3 (addr i) len = true) → ∀ data,
        ((List.range n).flatMap fun i => memRead s1 (addr i) len) = data →
        (queueRoom s1 f (packet false n data).length = true → exec (.fstPacketSend t f) s = .next (enqueue f
          (packet false n data) (putEgress f { x with nextSeq := (x.nextSeq + 1) % 2 ^ 32,
                                                      fst := some { g with tile := g.tile + n } }
            (forAll (List.range n) (fun i s => countRead (addr i) len s) s1))))
        ∧ (queueRoom s1 f (packet false n data).length = false → exec (.fstPacketSend t f) s = .next s1)))

/-- R440, R441: PTP. A message sets the offset, the rate and the state that the servo and the best master algorithm give,
and a master answers a Delay_Req; without a master for three announce intervals the clock holds over or becomes master;
messages go out at their intervals in the states that send them, a two-step Sync with its Follow_Up; and once a second the
oscillator is steered. -/
def Obligations.PtpEventsAct : Prop :=
  ∀ (t : Ticks) (s s1 : State) (port : Nat), Occurs t s s1 → runsPtp s1 = true →
    (∀ x : PtpResult, port < 8 → ptpPort s1 port = true → portCarries s1 port = true → x.delayReq = true →
      exec (.ptpMessageRx t port x) s = .next (if s1.tk.state = 4 then sendPtp port 14 s1 else s1))
    ∧ (∀ x : PtpResult, port < 8 → ptpPort s1 port = true → portCarries s1 port = true → x.delayReq = false →
      1 ≤ x.state → x.state ≤ 3 → stepAllowed s1 x.step = true →
      let s2 := slewTenths x.step s1
      let s3 := setRate (servoRate s2 x.rate) s2
      let s4 := setTkState x.state { s3 with tk := { s3.tk with
        offset := satInt x.offset, fofs := satInt x.fofs, gmId := x.gmId, tlv := x.tlv, port := port,
        lastAnn := if x.master = true then s3.clk.ticks else s3.tk.lastAnn } }
      exec (.ptpMessageRx t port x) s = .next { s4 with tk := { s4.tk with
        reachedLocked := s4.tk.reachedLocked || x.state == 3 } })
    ∧ (1 ≤ s1.tk.state → s1.tk.state ≤ 3 → s1.tk.lastAnn + 3 * logTicks s1.tk.ptp.logAnn ≤ s1.clk.ticks →
      exec (.ptpAnnounceTimeout t false) s = .next (raise 652 { s1 with tk := { s1.tk with state := 5 } })
      ∧ (s1.tk.ptp.role = 2 → exec (.ptpAnnounceTimeout t true) s
        = .next (raise 652 { s1 with tk := { s1.tk with state := 4 } })))
    ∧ (∀ kind, port < 8 → ptpPort s1 port = true → portCarries s1 port = true →
      (kind = 2 ∧ 1 ≤ s1.tk.state ∧ s1.tk.state ≤ 3 ∨ kind < 2 ∧ s1.tk.state = 4) →
      (∀ u, Tbl.find? s1.tk.lastMsg (4 * port + kind) = some u → u + ptpInterval s1.tk.ptp kind ≤ s1.clk.ticks) → ∀ s2,
      sendPtp port (10 + kind)
        { s1 with tk := { s1.tk with lastMsg := Tbl.set s1.tk.lastMsg (4 * port + kind) s1.clk.ticks } } = s2 →
      exec (.ptpMessageInterval t port kind) s
        = .next (if kind = 1 ∧ s2.tk.ptp.twoStep = true then sendPtp port 13 s2 else s2))
    ∧ (s1.tk.ptp.steer = true → s1.tk.lastDco + secTicks 1 ≤ s1.clk.ticks → exec (.dcoSteer t) s
        = .next (emit (.i2c s1.tk.ptp.dco 0 (beBytes 4 (uint 32 (-s1.tk.fofs))))
            { s1 with tk := { s1.tk with lastDco := s1.clk.ticks } }))

/-- R389, R394 to R397, R404: the events of the traffic scheduler. A free port drops what can never go, counts the waits
that begin, and sends the head frame of the queue that is next; its entry follows the running list, and an armed list
takes over at its time; each queue that was enabled before this cycle is sampled once in a µs. -/
def Obligations.TrafficEventsAct : Prop :=
  ∀ (t : Ticks) (s s1 : State) (port : Nat), Occurs t s s1 → port < 8 → ∀ x, tsPortOf s1 port = x →
    (portRate s1 port ≠ 0 → x.freeAt ≤ now s1 * 1000 →
      let s2 := countGuards port
        (forAll (queuesOf s1 port) (fun q s => dropHeads port q (queueOf s q).frames.length s) s1)
      (∀ q g, chooseQueue s2 port = some (q, g) → exec (.portTxSelect t port) s = .next (sendHead port q g s2))
      ∧ (chooseQueue s2 port = none → exec (.portTxSelect t port) s = .next s2))
    ∧ exec (.qbvEntryAdvance t port) s
        = .next (putTsPort port { x with entry := portIndexAt x.running (portPos s1 x) } s1)
    ∧ (x.arm = .pending → x.armT ≤ now s1 →
      let y := { x with running := x.armed, armed := [], arm := .empty, swT := x.armT, taken := some x.armT,
                        start := x.armT, ovh := x.armOvh }
      exec (.qbvGateSwitch t port) s = .next (raiseUnit (unitPort port) (448 + port)
        (putTsPort port { y with entry := portIndexAt y.running (portPos s1 y) } s1)))
    ∧ (now s1 / 1000 ≠ s1.ts.sampled → exec (.queueStatsSample t) s
        = .next (forAll ((s1.prior.ne.egress.filter fun e => e.2.cfg.kind != 0).map (·.1)) sampleQueue
            { s1 with ts := { s1.ts with sampled := now s1 / 1000 } }))

/-- R371, R372, R424, R426, R427, R429, R572: the events of links. A retrain ends, charged to one lane, or fails on some;
blocks that fail to decode start one; a bring-up ends with the link up, fails after 500 ms and is tried again after
1 s; a link goes down; it sends a waiting flit, or IDLE, and an IDLE flit gives credits. -/
def Obligations.LinksAct : Prop :=
  ∀ (t : Ticks) (s s1 : State), Occurs t s s1 →
    (∀ x lane, retrains s1 x = true → tbit (linkKeyLanes s1 x) lane = true →
      let s2 := trainLanes (linkKeyLanes s1 x) s1
      let s3 := if x < 8 then putEth x { ethOf s2 x with retraining := false, attempts := 0 } s2
        else endRetrain (x - 8) s2
      let l := (lane, s3.clk.onTicks) :: s3.rel.laneRt.filter fun e => withinLast s3 (hourTicks 1) e.2
      let s4 := { s3 with rel := { s3.rel with laneRt := l } }
      let n := (l.filter fun e => e.1 == lane).length
      exec (.retrainDone t x lane) s = .next (if 16 ≤ n then retireLane lane 0x11 n s4 else s4))
    ∧ (∀ x lanes mine bad, retrains s1 x = true → linkKeyLanes s1 x = mine → Nat.land lanes mine = bad → bad ≠ 0 →
      let l := (x, s1.clk.onTicks) :: s1.rel.attempts.filter fun e => withinLast s1 (secTicks 10) e.2
      let n := (l.filter fun e => e.1 == x).length
      let s2 := if x < 8 then putEth x { ethOf s1 x with attempts := (ethOf s1 x).attempts + 1 } s1
        else putLink (x - 8) { linkOf s1 (x - 8) with attempts := (linkOf s1 (x - 8)).attempts + 1 } s1
      (n < 3 → exec (.retrainAttemptFail t x lanes) s = .next { s2 with rel := { s2.rel with attempts := l } })
      ∧ (3 ≤ n →
        let s3 := { s2 with rel := { s2.rel with attempts := l.filter fun e => e.1 != x } }
        exec (.retrainAttemptFail t x lanes) s = .next (if bad = mine then trainingLost x s3
          else forAll (bitList 16 bad) (fun i s => retireLane i 0x10 n s) s3)))
    ∧ (∀ k, k < 4 → ∀ l, linkOf s1 k = l →
      (∀ n, l.up = true → n ≠ 0 → ∀ l', { l with fecunc := sat 32 (l.fecunc + n) } = l' →
        (l.retraining = true → exec (.cfBlockDecodeFail t k n) s = .next (putLink k l' s1))
        ∧ (l.retraining = false → exec (.cfBlockDecodeFail t k n) s = .next (raiseUnit (unitLink k) (648 + k)
            (putLink k { l' with retraining := true, attempts := 0, retrain := sat 32 (l.retrain + 1) } s1))))
      ∧ (∀ lanes m u n, l.enabled = true → l.bringup.isSome = true → l.peer = some (u, opposite k, n) →
        l.calibrated = true → maskOf ((bitList 16 (Nat.land lanes (linkMask l.first l.width))).filter fun i =>
          !tbit s1.ne.deadLanes i) = m → m ≠ 0 → l.adopt = false →
        let s2 := trainLanes m (setLinkUp k true (putLink k { l with bringup := none, laneMap := m, adopt := false } s1))
        exec (.cfLinkUp t k lanes) s = .next (if (!s2.cf.anchor && beatParent s2 == some k) = true
          then { s2 with tk := { s2.tk with beatSeen := false } } else s2))
      ∧ (∀ b, l.bringup = some b → b + msTicks 500 ≤ s1.clk.ticks → ∀ s2, discardWaiting k s1 = s2 →
        exec (.cfBringupTimeout t k) s
        = .next (compareUnit (unitLink k) (putLink k { linkOf s2 k with bringup := none, downAt := s2.clk.ticks } s2)))
      ∧ (l.enabled = true → l.up = false → l.bringup = none → l.downAt + secTicks 1 ≤ s1.clk.ticks →
        exec (.cfBringupRetry t k) s = .next (startBringup k s1))
      ∧ (l.up = true → exec (.cfLinkDown t k) s = .next (dropLink k s1))
      ∧ (l.enabled = true → l.up = true → l.retraining = false → l.replay.length < 1024 →
        (∀ f, nextWaiting l = some f → exec (.cfFlitTx t k) s = .next (transmit k f false s1))
        ∧ (∀ f s2, nextWaiting l = none → 0 < Tbl.get l.credits 0 (halfKey vcSurf false) →
          (∀ f ∈ l.waiting, f.vc ≠ vcSurf) → makeXferFlit k s1 = some (f, s2) →
          exec (.cfFlitTx t k) s = .next (transmit k f false s2))
        ∧ (nextWaiting l = none → makeXferFlit k s1 = none →
          exec (.cfFlitTx t k) s = .next (transmit k { vc := vcSync, ty := 0 } true s1)))
      ∧ (∀ x : FlitRx, x.link = k → x.ty = 0 → l.enabled = true → l.up = true → l.retraining = false →
        exec (.idleFlitRx t x) s = .next (putLink k (takeHeader x l) s1)))

/-- R426, R442 to R444, R543: the time of a node. A HELLO names the peer and starts the calibration, or leaves the link
miswired; calibration requests are answered, and the 65,536th round trip gives the delay; the anchor emits each beat and
the others follow the beats of their parent and hold over after three are missing. -/
def Obligations.NodeTimeActs : Prop :=
  ∀ (t : Ticks) (s s1 : State), Occurs t s s1 →
    (∀ x uid lanes s2 l, Lands x [0x10] s1 s2 → linkOf s2 x.link = l →
      (x.tagw ≠ opposite x.link → exec (.helloRx t x uid lanes) s
        = .next (putLink x.link { l with peer := some (uid, x.tagw, lanes), miswired := true } s2))
      ∧ (x.tagw = opposite x.link → l.peer = none → exec (.helloRx t x uid lanes) s
        = .next (restoreMember x.link uid (startCalibration x.link
            (putLink x.link { l with peer := some (uid, x.tagw, lanes), miswired := false } s2)))))
    ∧ (∀ x s2, Lands x [0xD] s1 s2 → exec (.calReqRx t x) s = .next (queueFlit x.link
        { vc := vcSync, ty := 0xE, tagw := x.tagw, payload := beBytes 8 (stamp s2) ++ beBytes 8 (stamp s2) } s2))
    ∧ (∀ x n (sum : Int) s2 l, Lands x [0xE] s1 s2 → linkOf s2 x.link = l → 0 < n →
      (l.calCount + n = 65536 → exec (.calRespRx t x n sum) s = .next (putLink x.link
        { l with calCount := 65536, calSum := l.calSum + sum, calibrated := true,
                 ldelay := oneWayDelay (l.calSum + sum) 65536 } s2))
      ∧ (l.calCount + n < 65536 → exec (.calRespRx t x n sum) s
        = .next (queueFlit x.link { vc := vcSync, ty := 0xD, tagw := l.calCount + n }
            (putLink x.link { l with calCount := l.calCount + n, calSum := l.calSum + sum } s2))))
    ∧ (s1.cf.valid = true → s1.cf.anchor = true → s1.tk.stRef = none → s1.tk.beatNo < beatNow s1 →
      exec (.beatEmit t) s = .next (alignAll (sendBeats (beatNow s1) s1.clk.rate
        { s1 with tk := { s1.tk with beatNo := beatNow s1 } })))
    ∧ (∀ x s2, Lands x [0xC] s1 s2 → s2.cf.valid = true → s2.cf.anchor = false → beatParent s2 = some x.link →
      exec (.beatRx t x) s = .next (takeBeat x.link (rdBE x.payload 0 8) (rdBE x.payload 8 8)
        (sint 32 (rdBE x.payload 16 4)) s2))
    ∧ (s1.cf.valid = true → s1.cf.anchor = false → s1.tk.state = 6 →
      s1.tk.lastBeat + cdiv (3 * 1000000000 * s1.tk.refD) s1.tk.refN ≤ now s1 →
      exec (.beatLoss t) s = .next (setTkState 5 (raise 653 s1)))

/-- R19, R134, R434 to R436, R561: transfers and imports. A flit waits behind an earlier one of its stream, or while
memory does not serve it. The destination checks a header and answers; data go into the write slot and the end publishes
it, unless the frame lost its slot; the answers end the transfer at its source; a stream's frame start publishes the frame
before and begins the next, its lines are taken, and a frame without a line for 100 ms is published. -/
def Obligations.TransfersAct : Prop :=
  ∀ (t : Ticks) (s s1 : State), Occurs t s s1 →
    (∀ dev src (x : FlitRx) c f s2,
      (c = .xferHdrRx t x src ∧ x.ty = 4 ∧ f = ⟨rdBE x.payload 0 3, x, some src, true⟩
        ∨ c = .xferDataRx t dev x ∧ x.ty = 5 ∧ f = ⟨dev, x, none, true⟩
        ∨ c = .xferEndRx t dev x ∧ x.ty = 6 ∧ f = ⟨dev, x, none, true⟩
        ∨ c = .frameStartRx t x ∧ x.ty = 8 ∧ f = ⟨rdBE x.payload 0 3, x, none, true⟩
        ∨ c = .lineDataRx t dev x ∧ x.ty = 9 ∧ f = ⟨dev, x, none, true⟩) → Arrives f s1 s2 →
      ((∃ y ∈ s2.cf.inbuf, streamOf y = streamOf f) ∨ flitServed s2 f = false) →
      exec c s = .next (let s3 := keepCredit x.link x.vc s2
        { s3 with cf := { s3.cf with inbuf := s3.cf.inbuf ++ [f] } }))
    ∧ (∀ (x : FlitRx) src f s2, f = ⟨rdBE x.payload 0 3, x, some src, true⟩ → x.ty = 4 → Arrives f s1 s2 → Goes f s2 →
      ∀ dev ctx i st, rdBE x.payload 0 3 = dev → x.tagw / 2 ^ 26 = ctx → rdBE x.payload 8 4 % 16384 = i →
      (if rdBE x.payload 8 4 / 16384 = s2.cf.devid then xferStatus s2 (dev * 64 + ctx) i src else 0x101) = st →
      let answered : Nat → State → State := fun status s3 =>
        sendMsg dev (.xferAnswer s3.cf.devid ctx false status 0) s3
      (st ≠ 0 → exec (.xferHdrRx t x src) s = .next (answered st s2))
      ∧ (st = 0 → (surfOf s2 i).wslot = noSlot →
        exec (.xferHdrRx t x src) s = .next (answered 0x107 (noWriteSlot i s2)))
      ∧ (st = 0 → (surfOf s2 i).wslot ≠ noSlot →
        exec (.xferHdrRx t x src) s = .next (answered 0 (useSlot i { s2 with cf := { s2.cf with
          xfersIn := Tbl.set s2.cf.xfersIn (dev * 64 + ctx)
            { source := dev, surface := i, capture := rdBE x.payload 12 8 } } }))))
    ∧ (∀ dev (x : FlitRx) f s2 m, f = ⟨dev, x, none, true⟩ → x.ty = 5 → Arrives f s1 s2 → Goes f s2 →
      Tbl.find? s2.cf.xfersIn (dev * 64 + x.tagw / 2 ^ 26) = some m →
      (m.lost = true → exec (.xferDataRx t dev x) s = .next s2)
      ∧ (m.lost = false → ∀ sf off, surfOf s2 m.surface = sf → 240 * (x.tagw % 2 ^ 26) = off →
        exec (.xferDataRx t dev x) s = .next (writeSlot sf off (x.payload.take (sf.stride * 4096 - off)) s2)))
    ∧ (∀ dev (x : FlitRx) f s2 m key, f = ⟨dev, x, none, true⟩ → x.ty = 6 → Arrives f s1 s2 → Goes f s2 →
      dev * 64 + x.tagw / 2 ^ 26 = key → Tbl.find? s2.cf.xfersIn key = some m → ∀ s3,
      { s2 with cf := { s2.cf with xfersIn := Tbl.del s2.cf.xfersIn key } } = s3 →
      let answered : Nat → Nat → State → State := fun status r0 s4 =>
        sendMsg dev (.xferAnswer s4.cf.devid (x.tagw / 2 ^ 26) true status r0) s4
      (m.lost = true → exec (.xferEndRx t dev x) s = .next (answered 0x107 0 s3))
      ∧ (m.lost = false → ∀ s4, publishAuto m.surface m.capture false 0 s3 = s4 →
        exec (.xferEndRx t dev x) s = .next (answered 0 (surfOf s4 m.surface).pubSeq s4)))
    ∧ (∀ dev ctx x, xferOf s1 ctx = some x → x.handle / 16384 = dev →
      (∀ st r0, x.slot.isSome = true → x.started = false →
        exec (.xferAnswerRx t dev ctx false st r0) s = .next (headerAnswer ctx st x s1))
      ∧ (∀ st r0, x.follow = false → x.ended = true → exec (.xferAnswerRx t dev ctx true st r0) s
        = .next (finishUnit (xferUnit ctx) st (some r0) none
            { s1 with cf := { s1.cf with xfers := Tbl.del s1.cf.xfers ctx } })))
    ∧ (∀ (x : FlitRx) f s2 n, f = ⟨rdBE x.payload 0 3, x, none, true⟩ → x.ty = 8 → Arrives f s1 s2 → Goes f s2 →
      x.tagw / 2 ^ 28 = n →
      (Tbl.find? s2.cf.imports n = none → exec (.frameStartRx t x) s = .next (badFlit x.link s2))
      ∧ (∀ m, Tbl.find? s2.cf.imports n = some m →
        (rdBE x.payload 0 3 ≠ m.device ∨ importFits (surfOf s2 m.surface) x.payload = false →
          exec (.frameStartRx t x) s = .next (badFlit x.link s2))
        ∧ (rdBE x.payload 0 3 = m.device → importFits (surfOf s2 m.surface) x.payload = true →
          exec (.frameStartRx t x) s = .next (beginImport n x.payload (publishImport n s2)))))
    ∧ (∀ dev (x : FlitRx) f s2 n m, f = ⟨dev, x, none, true⟩ → x.ty = 9 → Arrives f s1 s2 → Goes f s2 →
      x.tagw / 2 ^ 28 = n → Tbl.find? s2.cf.imports n = some m →
      (dev ≠ m.device → exec (.lineDataRx t dev x) s = .next (badFlit x.link s2))
      ∧ (dev = m.device → quiesced s2 = false → m.active = true → tbit x.tagw 27 = m.parity →
        exec (.lineDataRx t dev x) s
          = .next (importChunk n (bits x.tagw 26 13) (bits x.tagw 12 0) x.payload m s2)))
    ∧ (∀ n m, Tbl.find? s1.cf.imports n = some m → m.active = true → m.lastLine + msTicks 100 ≤ s1.clk.ticks →
      quiesced s1 = false → (∀ y ∈ s1.cf.inbuf, streamOf y ≠ (1, n)) →
      let loss := m.vact - m.lines.length
      exec (.importPublishTimeout t n) s = .next (publishAuto m.surface m.ft (decide (0 < loss)) loss
        { s1 with cf := { s1.cf with
            imports := Tbl.set s1.cf.imports n { m with active := false, parts := [], lines := [] } } }))

/-- R325, R327, R330, R331: the DisplayPort ports. A training that ends sets the link, counts its streams' slots and
completes a reset that waits; a plug is trained and an unplug takes the link down; the result of an authentication is
kept, and a lost one alerts the raster. -/
def Obligations.DisplayPortActs : Prop :=
  ∀ (t : Ticks) (s s1 : State) (p : Nat), Occurs t s s1 → p < 4 → ∀ d, dpOf s1 p = d →
    (∀ rate lanes, d.enabled = true → d.hpd = true → d.training = true → d.hpdLost = false →
      (rate = d.rate → lanes = d.lanes → lanes ≠ 0 →
        let s2 := recountStreams p (putDp p { d with training := false, trained := true, tRate := rate,
                                                     tLanes := lanes, hpdLost := false } s1)
        let s4 := stopStreams p (portStreams s2 p) s2
        let s3 := forAll ((portStreams s4 p).map (·.1)) idleVideo s4
        exec (.dpTrainingDone t p rate lanes) s
          = .next (finishUnit (unitDp p) 0 (some (dpData s3 p)) none (settleDp p s3)))
      ∧ (lanes = 0 →
        let s2 := recountStreams p (putDp p { d with training := false, trained := false, tRate := 0, tLanes := 0,
                                                     hpdLost := false } s1)
        let s3 := alertStreams p s2
        exec (.dpTrainingDone t p rate lanes) s
          = .next (finishUnit (unitDp p) 0 (some (dpData s3 p)) none (settleDp p s3))))
    ∧ (d.hpd = false → exec (.dpHpdChange t p true) s
        = .next (compareUnit (unitDp p) (putDp p { d with hpd := true, training := d.enabled } s1)))
    ∧ (d.hpd = true →
      let s2 := dpDown p { d with hpd := false, training := false, hpdLost := d.enabled } s1
      exec (.dpHpdChange t p false) s = .next (finishUnit (unitDp p) 0 (some (dpData s2 p)) none (settleDp p s2)))
    ∧ (∀ stream k x, (portStreams s1 p).find? (fun e => e.2.stream == stream) = some (k, x) → x.hdcp = true →
      (d.trained = true → ∀ ids, exec (.hdcpAuthResult t p stream true ids) s = .next (putDp p
        { d with auth := setBit d.auth stream true } (putSink k 0 { x with rxids := fitBytes 20 ids } s1)))
      ∧ (tbit d.auth stream = true → ∀ ids, exec (.hdcpAuthResult t p stream false ids) s
        = .next (rasterAlert k alDp (putDp p { d with auth := setBit d.auth stream false }
            (putSink k 0 { x with rxids := [] } s1)))))

/-- R457 to R459, R467 to R469, R473 to R475: the blitter at work. The first queued job starts when nothing runs and its
checks pass, or completes with the first that fails; a burst reads its units inside the clips and then writes them and leaves
the dead time, and a failed one is counted; an operation at its end completes with its pixels and faults (host-written bytes become
free, R470); a list goes on entry by entry to its END. -/
def Obligations.BlitterEventsAct : Prop :=
  ∀ (t : Ticks) (s s1 : State), Occurs t s s1 →
    (∀ j rest, blIdle s1 = true → s1.bl.regWait = false → s1.bl.queue = j :: rest →
      let s2 := { s1 with bl := { s1.bl with queue := rest } }
      let p := j.ent.pkt
      (j.ent.opcode ≠ 0xA05 →
        (blockGiven p = false → exec (.blJobStart t) s = .next (finishJob j 0x101 none none s2))
        ∧ (blockGiven p = true → ∀ st r0 r1,
          blitRefusal s2 p.func (j.ent.opcode % 256) (prms p)
            = some (st, r0, r1) →
          exec (.blJobStart t) s = .next (finishJob j st r0 r1 s2))
        ∧ (blockGiven p = true → blitRefusal s2 p.func (j.ent.opcode % 256) (prms p) = none →
          exec (.blJobStart t) s = .next (beginOp p.func (prms p) { s2 with bl := { s2.bl with job := some j } })))
      ∧ (j.ent.opcode = 0xA05 → ∀ a n, prmb p 0 8 39 0 = a → prmb p 8 4 16 0 = n →
        (listWaits s1 a n = true → exec (.blJobStart t) s = .next s1)
        ∧ (listWaits s1 a n = false → (n = 0 ∨ 65536 < n) →
          exec (.blJobStart t) s = .next (finishJob j 0x101 none none s2))
        ∧ (listWaits s1 a n = false → n ≠ 0 → n ≤ 65536 → exec (.blJobStart t) s
          = .next (beginList a n (prmbit p 12 0) false { s2 with bl := { s2.bl with job := some j } }))))
    ∧ (∀ o c e, s1.bl.op = some o → blitOf s1 o = c → walkLine c o.line = e → ∀ bs all us, burstsOf c e.1 e.2 = bs →
      bs.getD o.chunk [] = all → c.written e.1 e.2 all = us → opOver s1 o = false → (∀ a, s1.bl.burstEnd = some a → a ≤ s1.clk.ticks) →
      all ≠ [] →
      let addr := fun u => opndAddr c.dst + unitOff c.dst e.1 e.2 u
      (us ≠ [] → c4Open s1 (channelOf s1 (addr (us.headD 0))) = true) → burstServed s1 c e.1 e.2 us = true →
      ∀ v, (if hasSpare c.dst.sf.format = true then takeFree s1 else (0, s1)) = v →
      let rs := us.map fun u => (u, c.unit e.1 e.2 v.1 u)
      let reads := burstReads c e.1 e.2 us
      ∀ s2, forAll (c.failedTiles e.1 e.2 us) (fun _ s => ftcError c.src.surf s)
        (forAll reads (fun k s => countRead (256 * k) 256 s) v.2) = s2 →
      let s3 := forAll rs (fun r s => match r.2.1 with
        | some b => memWrite (addr r.1) b s
        | none => s) s2
      let last := decide (bs.length ≤ o.chunk + 1)
      ∀ s4, { s3 with bl := { s3.bl with
        op := some { o with line := if last then o.line + 1 else o.line, chunk := if last then 0 else o.chunk + 1 },
        burstEnd := some (s3.clk.ticks + memTicks (((reads.map (· / 16)).eraseDups.length + b2n (!us.isEmpty)) * s3.bl.dead)) } } = s4 →
      ((∀ r ∈ rs, r.2.2 = false ∧ (r.2.1.isSome = true → meetsFence s2 (addr r.1) 1 = false)) →
        exec (.blBurst t) s = .next s4)
      ∧ ((∃ r ∈ rs, r.2.2 = true ∨ (r.2.1.isSome = true ∧ meetsFence s2 (addr r.1) 1 = true)) →
        exec (.blBurst t) s = .next (accessFault s4)))
    ∧ (∀ o j, s1.bl.op = some o → o.src = none → o.stop = false → opLines s1 o ≤ o.line → s1.bl.list = none →
      s1.bl.job = some j → s1.bl.regWait = false →
      let s2 := { raceOut o s1 with bl := { s1.bl with op := none, list := none, job := none,
                                                       ops := (s1.bl.ops + 1) % 2 ^ 64 } }
      let s3 := finishJob j (lateStatus j.late 0) (some (pixelCount o.block)) (some o.faults) s2
      exec (.blJobEnd t) s = .next (beginRegList (finishUnit unitBl 0 (some 0) none s3)))
    ∧ (∀ l e, s1.bl.list = some l → s1.bl.op = none → blHolds s1 = false → l.addr + 256 * l.next = e →
      (∀ a, s1.bl.burstEnd = some a → a ≤ s1.clk.ticks) → served s1 4 e 256 = true →
      (readable s1 e 256 = false → exec (.blListEntryRun t) s = .next (beginRegList (entryDone 0x110 none none s1)))
      ∧ (readable s1 e 256 = true →
        let b := memRead s1 e 256
        let s2 := afterBursts 1 (countRead e 256 s1)
        (bOp b = 0xF → exec (.blListEntryRun t) s = .next (beginRegList (endList 0 s2)))
        ∧ (bOp b = 0xE → exec (.blListEntryRun t) s = .next (beginRegList (listStep { s2 with
            bl := { s2.bl with list := some { l with next := l.next + 1, run := l.run + 1 } } })))
        ∧ (bOp b ≠ 0xE → bOp b ≠ 0xF → ∀ st r0 r1, blitRefusal s2 0 (bOp b) b = some (st, r0, r1) →
          exec (.blListEntryRun t) s = .next (beginRegList (entryDone st r0 r1 s2)))
        ∧ (bOp b ≠ 0xE → bOp b ≠ 0xF → blitRefusal s2 0 (bOp b) b = none →
          exec (.blListEntryRun t) s = .next (beginRegList (beginOp 0 b s2)))))

/-- R482, R486 to R488, R492, R493, R498, R499: the housekeeping DMA at work. The free engine takes the next channel and
fetches its descriptor; a burst moves its bytes (free values where a COPY meets its source, R490); a descriptor at its end
is closed when its read-back returns; a
request counts on its line; a wait or an access that lasts too long ends the chain. -/
def Obligations.HdEventsAct : Prop :=
  ∀ (t : Ticks) (s s1 : State), Occurs t s s1 →
    (∀ c desc ok, hdRunning s1 = none → blHolds s1 = false → nextChannel s1 = some c →
      descWaits s1 (hdOf s1 c).head = false →
      let x := hdOf s1 c
      let s2 := putHd c { x with st := .running } s1
      exec (.hdChannelSelect t desc ok) s = .next (fetchDesc c x.head desc ok
        { s2 with hd := { s2.hd with cur := c, lastAt := Tbl.set s2.hd.lastAt x.prio c } }))
    ∧ (∀ line n, line < 12 → Tbl.get s1.hd.req 0 line = n → hdRunning s1 = none →
      (n < 255 → exec (.hdHwRequest t line) s
        = .next { s1 with hd := { s1.hd with req := Tbl.set s1.hd.req line (n + 1) } })
      ∧ (n = 255 → exec (.hdHwRequest t line) s = .next (noteSet 0x58000 5 { s1 with hd := { s1.hd with reqOvf := true } })))
    ∧ (∀ c x d src dst ok n, hdRunning s1 = some c → hdOf s1 c = x → x.desc = some d → x.st = .running →
      x.phase = .burst → x.waitreq = false → hPaced d = false → burstLen x d = n → c5Open s1 (hDst d) x.k = true →
      hdServed s1 (hDst d) x.k n = true →
      (hReads d = false → hWrites d = true →
        (∀ s2, burstWrite (hDst d) x.k (patternBytes d x.k n) ok s1 = .inr s2 →
          exec (.hdBurst t src dst ok) s = .next (burstDone c n s2))
        ∧ (∀ a, burstWrite (hDst d) x.k (patternBytes d x.k n) ok s1 = .inl a →
          exec (.hdBurst t src dst ok) s = .next (busFail c a s1)))
      ∧ (hReads d = true → hWrites d = true → c5Open s1 (hSrc d) x.k = true → hdServed s1 (hSrc d) x.k n = true →
        (∀ v w s2, burstData s1 (hSrc d) x.k n src ok = .inr v →
          copied d x.k v (noteRead (hSrc d) x.k n s1) = w → burstWrite (hDst d) x.k w.1 ok w.2 = .inr s2 →
          exec (.hdBurst t src dst ok) s = .next (burstDone c n s2))
        ∧ (∀ a, burstData s1 (hSrc d) x.k n src ok = .inl a →
          exec (.hdBurst t src dst ok) s = .next (busFail c a s1))))
    ∧ (∀ c x d desc ok back s2, hdRunning s1 = some c → hdOf s1 c = x → x.desc = some d → x.phase = .closing →
      (x.k ≠ 0 → hWrites d = true → hdServed s1 (hDst d) (x.k - 1) 1 = true) →
      (rdbit d 31 6 = false → descWaits s1 (nextDesc d) = false) →
      (if hWrites d = true ∧ x.k ≠ 0 then noteRead (hDst d) (x.k - 1) 1 s1 else s1) = s2 →
      (∀ a, readBackFails s2 x d back = some a → exec (.hdDescComplete t back desc ok) s = .next (busFail c a s2))
      ∧ (readBackFails s2 x d back = none → hLen d ≤ x.k →
        exec (.hdDescComplete t back desc ok) s = .next (closeDesc c desc ok d s2)))
    ∧ (∀ c x, hdRunning s1 = some c → hdOf s1 c = x →
      (x.waitreq = true → x.ctmo ≠ 0 → x.waitAt + usTicks x.ctmo < s1.clk.ticks → exec (.hdReqTimeout t) s
        = .next (endChain c { status := 0x10A, residue := hLen (x.desc.getD []) - x.k,
                              mismatch := x.mismatch.isSome } s1))
      ∧ (∀ d, x.desc = some d → x.st = .running → x.phase = .burst → x.waitreq = false →
        x.accessAt + usTicks 10 ≤ s1.clk.ticks →
        let o := if hReads d = true then hSrc d else hDst d
        c5Open s1 o x.k = true → exec (.hdAccessTimeout t) s = .next (busFail c (hAddr o x.k) s1)))

/-- R142 to R144, R569, R571, R572, R576: errors of memory and the migration. A corrected error on a channel that serves
the address is logged and counted, and one that makes 8 of its row in 24 h schedules the row's repair, unless it is
scheduled already or its bank has used its repair; an uncorrectable error marks its sector and is logged and counted,
and a sector that was not logged in 24 h and makes more than 4 of the channel retires it; the surface that is moved goes to its
new base and claims a write slot, or is LOST with source 322, and the next one follows; at the end of the migration the
granules that the channel did not return are zero, the channel is no longer live, the slots hit are INVALID with source
323, source 321 is raised, and the migration that waits begins; a line buffer's parity error is counted, marks its line
where a raster runs on the slice, and retires the slice when there are more than 16 in 1 s. -/
def Obligations.MemoryEventsAct : Prop :=
  ∀ (t : Ticks) (s s1 : State), Occurs t s s1 →
    (∀ x n w, eccInReach s1 x = true → channelOf s1 x.addr = n → (⟨n, x.die, x.bank, x.row⟩ : RowRef) = w →
      let s2 := logEcc n (if x.link = true then 2 else 0) x
        (ltrAdd (0x200 + 64 * n) 1 (raiseUnit (unitChan n) (256 + 4 * n + 1) s1))
      let corr := (w, s2.clk.onTicks) :: s2.rel.corr.filter fun e => withinLast s2 (hourTicks 24) e.2
      let errs := (n, s2.clk.onTicks) :: s2.pmu.rfErrs.filter fun e => withinLast s2 (secTicks 600) e.2
      let s3 := { s2 with rel := { s2.rel with corr := corr }, pmu := { s2.pmu with rfErrs := errs } }
      let known := s3.rel.pprPending.contains w || s3.rel.pprExhausted.contains w
      ((corr.filter fun e => e.1 == w).length < 8 ∨ known = true → exec (.eccCorrected t x) s = .next s3)
      ∧ (8 ≤ (corr.filter fun e => e.1 == w).length → known = false →
        (bankUsed s3 w = false → exec (.eccCorrected t x) s = .next (raise 963 (savePst
          { s3 with rel := { s3.rel with pprPending := s3.rel.pprPending ++ [w] } })))
        ∧ (bankUsed s3 w = true →
          let s4 := ltrAdd (0x200 + 64 * n + 20) 1 (ltrAdd 0x4C 1 s3)
          exec (.eccCorrected t x) s = .next (raise 965 (savePst
            { s4 with rel := { s4.rel with pprExhausted := s4.rel.pprExhausted ++ [w] } })))))
    ∧ (∀ x n q, eccInReach s1 x = true → channelOf s1 x.addr = n → x.addr / 256 = q →
      let s2 := logEcc n (if x.link = true then 3 else 1) x
        (ltrAdd (0x200 + 64 * n + 8) 1 (raiseUnit (unitChan n) (256 + 4 * n + 2) s1))
      let s3 := { s2 with mm := { s2.mm with badSect := insertNat q s2.mm.badSect } }
      let l := s3.rel.sectors.filter fun e => withinLast s3 (hourTicks 24) e.2.2
      let known := s3.rel.errAt.filter fun e => withinLast s3 (hourTicks 24) e.2.2
      let errAt := known.filter (·.2.1 != q) ++ [(n, q, s3.clk.onTicks)]
      ((∃ e ∈ known, e.2.1 = q) →
        exec (.eccUncorrectable t x) s = .next { s3 with rel := { s3.rel with sectors := l, errAt := errAt } })
      ∧ (¬(∃ e ∈ known, e.2.1 = q) →
        let s4 := { s3 with rel := { s3.rel with sectors := l ++ [(n, q, s3.clk.onTicks)], errAt := errAt } }
        let count := (s4.rel.sectors.filter fun e => e.1 == n && withinLast s4 (hourTicks 24) e.2.2).length
        (count ≤ 4 → exec (.eccUncorrectable t x) s = .next s4)
        ∧ (4 < count → exec (.eccUncorrectable t x) s = .next (retireChannel n 1 count s4))))
    ∧ (∀ m i x a, s1.mm.migr = some m → m.moving = some i → surfOf s1 i = x →
      allocate 16384 (allocLimit s1 (surfOwner s1 i)) (extentBytes x) s1 = a →
      (a.1 = none → exec (.migrationSurfaceMoved t i) s = .next (nextMove (raise 322 (putSurf i
          { x with lost := true, frozen := false, wslot := noSlot, newest := noSlot } a.2))))
      ∧ (∀ b, a.1 = some b →
        let s2 := copySlots x b a.2
        exec (.migrationSurfaceMoved t i) s
          = .next (nextMove (putSurf i (claimSlot { surfOf s2 i with base := b, frozen := false }) s2))))
    ∧ (∀ m lost, s1.mm.migr = some m → m.moving = none → ∀ zero hits copied,
      lostGranules s1 m.channel lost = zero → switchHits s1 m zero = hits → granulesOn s1 m.channel = copied →
      let s2 := forAll zero (fun g s => memPoke (4096 * g) (List.replicate 4096 0#8) s)
        (forAll copied (fun g s => countRead (4096 * g) 4096 s) s1)
      let s3 := forAll copied (fun g s => countWrite (4096 * g) 4096 s) { s2 with mm := { s2.mm with
        live := setBit s2.mm.live m.channel false
        badSect := s2.mm.badSect.filter fun q => channelOf s2 (256 * q) != m.channel } }
      let s4 := invalidateSlots hits
        { s3 with mm := { s3.mm with mem := s3.mm.mem.filter fun c => decide (c.1 < deviceTop s3) } }
      let s5 := raise 321 (if hits = [] then s4 else raise 323 s4)
      (s5.mm.waiting = [] →
        exec (.migrationDone t lost) s = .next { s5 with mm := { s5.mm with migr := none, migrating := false } })
      ∧ (∀ w rest, s5.mm.waiting = w :: rest → exec (.migrationDone t lost) s
        = .next (nextMove { s5 with mm := { s5.mm with migr := some w, waiting := rest } })))
    ∧ (∀ c pane y x, c < 16 → sliceOf s1 c = x → ∀ s2,
      (if x.bound = true ∧ (rasterOf s1 x.raster).st ≠ .stopped then putFs x.raster { fsOf s1 x.raster with
          parity := (pane, y) :: (fsOf s1 x.raster).parity.filter (· != (pane, y)) } s1 else s1) = s2 →
      let l := (c, s2.clk.onTicks) :: s2.rel.parity.filter fun e => withinLast s2 (secTicks 1) e.2
      let n := (l.filter fun e => e.1 == c).length
      let s3 := raise 968 { s2 with rel := { s2.rel with parity := l, parityCnt := sat 32 (s2.rel.parityCnt + 1) } }
      (n ≤ 16 → exec (.parity t c pane y) s = .next s3)
      ∧ (16 < n → exec (.parity t c pane y) s = .next (retireSlice c n s3)))

/-- R585 to R587, R591: the lifetime recorder. A checkpoint is due after 10 minutes of power-on time; one that is good is
kept with source 966, and one that fails raises 967 and is retried once in the next bank; each power-on second adds to
the histograms. -/
def Obligations.LifetimeEventsAct : Prop :=
  ∀ (t : Ticks) (s s1 : State), Occurs t s s1 →
    (ltrBusy s1 = false → s1.rel.lastCkpt + secTicks 600 ≤ s1.clk.onTicks →
      exec (.ltrPeriodic t) s = .next (startCheckpoint 1 s1))
    ∧ (∀ x, s1.rel.ltrPend = some x → ∀ y, s1.rel = y →
      (exec (.ltrCheckpointDone t true) s = .next (finishUnit ltrUnit 0 (some y.ltrWSeq) (some y.ltrBank)
        (raise 966 { s1 with rel := { y with
          ltrPend := none, ltrRetry := false, ltrSeq := y.ltrWSeq, ltrSnap := x,
          banks := Tbl.set y.banks y.ltrBank (ltrRecord y.uid y.ltrTrigger y.ltrWSeq x),
          live := Tbl.upd y.live 0 0x48 (· + 1) } })))
      ∧ (let s2 := raise 967 (noteSet 0xB0000 8
          { s1 with rel := { y with ltrFault := true, banks := Tbl.del y.banks y.ltrBank } })
        (y.ltrRetry = false → let s3 := writeCheckpoint y.ltrTrigger ((y.ltrWSeq + 1) % 2 ^ 32) s2
          exec (.ltrCheckpointDone t false) s = .next { s3 with rel := { s3.rel with ltrRetry := true } })
        ∧ (y.ltrRetry = true → exec (.ltrCheckpointDone t false) s = .next (finishUnit ltrUnit 0x110 none none
            { s2 with rel := { s2.rel with ltrPend := none, ltrRetry := false } }))))
    ∧ (∀ ber n, powerOn s1 = n → s1.rel.lastSec < n →
      ∀ s2, ltrAdd (0xD0 + 4 * voltBin s1.pmu.vset) 1 (ltrAdd (0x50 + 4 * tjBin s1.pmu.tj) 1 s1) = s2 →
      n / 3600 ≤ s2.rel.berAt →
      exec (.ltrSecondSample t ber) s = .next { s2 with rel := { s2.rel with lastSec := n } })
end

