-- ==== Sys2Proof/Laws/Events.lean ====
section
/-! SUPPORT. Events that act: what an event or a register access answers once its condition holds. -/
namespace Sys2Proof.Laws
open Sys2Proof Sys2Proof.Machine

variable {t : Ticks} {s s1 : State}

theorem whenRunning_of (h : Occurs t s s1) (f : State → State) : whenRunning t f s = .next (f s1) := by
  obtain ⟨rfl, h⟩ := h
  unfold whenRunning
  simp [h]

theorem regAccess_of {f : Nat} (h : Reaches t f s s1) (act early : State → State) :
    regAccess t f act early s = .next (act s1) := by
  obtain ⟨rfl, h1, h2, h3⟩ := h
  unfold regAccess
  simp [h1, h2, h3]

theorem qpAccess_of {f q : Nat} (h : Reaches t f s s1) (hf : f < 16) (hq : q < 8) (act : State → State) :
    qpAccess t f q act s = .next (act s1) := by
  unfold qpAccess
  rw [regAccess_of h]
  simp [hf, hq]

theorem flitRx_of {x : FlitRx} {types : List Nat} (h : Lands x types s s1) (f : State → State) :
    flitRx x types f s = f s1 := by
  obtain ⟨h1, h2, h3, h4, h5, h6, h7, h8, h9, rfl⟩ := h
  unfold flitRx
  dsimp only
  rw [if_neg, if_neg (by simp [h5]), if_neg h6, if_neg (by simp [h8]), if_neg (by simp [h7]), if_pos]
  · exact h9
  · simp only [h1, h2, h3, decide_true, Bool.true_and, Bool.not_false, Bool.and_true, Bool.not_eq_true',
      Bool.not_eq_false, Bool.or_eq_true, Bool.and_eq_true]
    exact h4

theorem streamRx_of {ty : Nat} {f : InFlit} {s2 : State} (h : Occurs t s s1) (hty : f.flit.ty = ty)
    (ha : Arrives f s1 s2) (hg : Goes f s2) : streamRx t ty f s = .next (actFlit f s2) := by
  obtain ⟨s3, h1, rfl⟩ := ha
  obtain ⟨h2, h3⟩ := hg
  subst hty
  unfold streamRx takeFlit
  rw [whenRunning_of h, flitRx_of h1, if_neg]
  rw [Bool.or_eq_true, not_or]
  exact ⟨by simpa using h2, by simp [h3]⟩

theorem streamRx_holds {ty : Nat} {f : InFlit} {s2 : State} (h : Occurs t s s1) (hty : f.flit.ty = ty)
    (ha : Arrives f s1 s2) (hg : (∃ y ∈ s2.cf.inbuf, streamOf y = streamOf f) ∨ flitServed s2 f = false) :
    streamRx t ty f s = .next (holdFlit f s2) := by
  obtain ⟨s3, h1, rfl⟩ := ha
  subst hty
  unfold streamRx takeFlit
  rw [whenRunning_of h, flitRx_of h1, if_pos]
  rw [Bool.or_eq_true]
  exact hg.imp (by simp) (by simp)

end Sys2Proof.Laws
end

