-- ==== Sys2Proof/Laws/Frames.lean ====
section
/-! SUPPORT. What alerts, answers and the time of a step leave alone: everything outside the output, the free values,
the command port and the event concentrator. -/
namespace Sys2Proof.Laws
open Sys2Proof Sys2Proof.Machine

/-! ### Alerts -/

@[simp] theorem quiet_emit (o : Out) (s : State) : quiet (emit o s) = quiet s := rfl
@[simp] theorem quiet_putSrc (n : Nat) (x : EvcSrc) (s : State) : quiet (putSrc n x s) = quiet s := rfl
@[simp] theorem quiet_putTgt (n : Nat) (x : EvcTgt) (s : State) : quiet (putTgt n x s) = quiet s := rfl
@[simp] theorem quiet_wakeFor (n : Nat) (s : State) : quiet (wakeFor n s) = quiet s := by
  unfold wakeFor
  dsimp only
  split <;> simp
@[simp] theorem quiet_evcEdge (n : Nat) (s : State) : quiet (Machine.evcEdge n s) = quiet s := by
  unfold Machine.evcEdge
  dsimp only
  split
  · rfl
  · split
    · rfl
    · simp
@[simp] theorem quiet_raise (n : Nat) (s : State) : quiet (raise n s) = quiet s := by
  unfold raise
  simp
@[simp] theorem quiet_evcLevel (n : Nat) (b : Bool) (s : State) : quiet (evcLevel n b s) = quiet s := by
  unfold evcLevel
  dsimp only
  split
  · rfl
  · simp

/-! ### Answers -/

theorem rest_of_quiet {s s' : State} (h : quiet s = quiet s') : rest s = rest s' := by
  have e : ∀ x : State, rest x = { quiet x with fresh := 0, cp := {} } := fun _ => rfl
  rw [e, e, h]
@[simp] theorem rest_emit (o : Out) (s : State) : rest (emit o s) = rest s := rfl
@[simp] theorem rest_takeFree (s : State) : rest (takeFree s).2 = rest s := rfl
@[simp] theorem rest_raise (n : Nat) (s : State) : rest (raise n s) = rest s := rest_of_quiet (quiet_raise n s)
@[simp] theorem rest_evcLevel (n : Nat) (b : Bool) (s : State) : rest (evcLevel n b s) = rest s :=
  rest_of_quiet (quiet_evcLevel n b s)
@[simp] theorem rest_putQp (f q : Nat) (x : Qp) (s : State) : rest (putQp f q x s) = rest s := by
  unfold putQp
  rw [rest_evcLevel]
  rfl
@[simp] theorem rest_releaseSlots (f q n : Nat) (s : State) : rest (releaseSlots f q n s) = rest s := by
  unfold releaseSlots
  simp
@[simp] theorem rest_putReply (f q : Nat) (r : Reply) (s : State) : rest (putReply f q r s) = rest s := by
  unfold putReply
  simp
@[simp] theorem rest_sendReply (f q : Nat) (r : Reply) (s : State) : rest (sendReply f q r s) = rest s := by
  unfold sendReply
  dsimp only
  split
  · simp
  · split <;> simp
@[simp] theorem rest_stopCheck (f q : Nat) (s : State) : rest (stopCheck f q s) = rest s := by
  unfold stopCheck
  dsimp only
  split <;> simp
@[simp] theorem rest_flushCheck (f q : Nat) (s : State) : rest (flushCheck f q s) = rest s := by
  unfold flushCheck
  dsimp only
  split
  · split <;> simp
  · simp
@[simp] theorem rest_takeFree2 (s : State) : rest (takeFree (takeFree s).2).2 = rest s := rfl
@[simp] theorem rest_resultOr (r : Option Nat) (s : State) : rest (resultOr r s).2 = rest s := by
  cases r <;> rfl
/-- Completing a packet of the host touches nothing but the output, the free values, the command port and the event
concentrator. -/
theorem rest_completeAs {e : Entry} (h : e.pkt.origin = none) (b : Bool) (st r0 r1 : Nat) (s : State) :
    rest (completeAs b e st r0 r1 s) = rest s := by
  unfold completeAs
  simp only [h]
  split
  · rfl
  · split <;> simp
theorem rest_finish {e : Entry} (h : e.pkt.origin = none) (st : Nat) (r0 r1 : Option Nat) (s : State) :
    rest (finish e st r0 r1 s) = rest s := by
  unfold finish complete
  simp only [rest_completeAs h, rest_resultOr]
@[simp] theorem rest_popEntry (f q : Nat) (o : Option Nat) (s : State) : rest (popEntry f q o s) = rest s := by
  unfold popEntry
  split <;> rfl
@[simp] theorem rest_noteLevel (s : State) : rest (noteLevel s) = rest s := rfl
@[simp] theorem rest_readBlock (p : Packet) (s : State) : rest (readBlock p s) = rest s := by
  unfold readBlock
  split <;> rfl
@[simp] theorem rest_holdPacket (sp : CmdSpec) (e : Entry) (s : State) : rest (holdPacket sp e s) = rest s := rfl
@[simp] theorem rest_settleFifo (f q n : Nat) (s : State) : rest (settleFifo f q n s) = rest s := by
  induction n generalizing s with
  | zero => rfl
  | succ n ih =>
    unfold settleFifo
    split
    · rfl
    · split
      · rfl
      · rename_i e he _
        have ho : e.pkt.origin = none := by
          have := List.find?_some he
          simp only [ofPair, Bool.and_eq_true, beq_iff_eq] at this
          exact this.2
        rw [ih, rest_finish ho, rest_popEntry]
@[simp] theorem rest_settlePair (e : Entry) (s : State) : rest (settlePair e s) = rest s := by
  unfold settlePair
  split <;> simp
@[simp] theorem rest_afterwards (p : Packet) (s : State) : rest (afterwards p s) = rest s := by
  unfold afterwards
  simp
/-- What a packet that is taken leaves alone before it acts. -/
theorem rest_of_taken {op : Nat} {p : Packet} {s : State} {e : Entry} {s0 : State}
    (h : takeEntry op p s = some (e, s0)) : rest s0 = rest s := by
  unfold takeEntry at h
  split at h
  · cases h
  · split at h
    · cases h
      rfl
    · split at h
      · cases h
      · split at h
        · cases h
          simp
        · cases h

/-! ### Answers to another device -/

/-- A part of the state that no step of a walk changes is as it was after the walk. -/
theorem forAll_same {α β : Type} (π : State → β) (l : List α) (f : α → State → State)
    (h : ∀ a s, π (f a s) = π s) (s : State) : π (forAll l f s) = π s := by
  induction l generalizing s with
  | nil => rfl
  | cons a l ih => exact (ih (f a s)).trans (h a s)

theorem get_set {α : Type} (d : α) (t : Tbl α) (k j : Nat) (v : α) :
    Tbl.get (Tbl.set t k v) d j = if j = k then v else Tbl.get t d j := by
  induction t with
  | nil =>
    by_cases h : j = k
    · simp [Tbl.set, Tbl.get, Tbl.find?, h]
    · simp [Tbl.set, Tbl.get, Tbl.find?, h, Ne.symm h]
  | cons c t ih =>
    obtain ⟨a, w⟩ := c
    unfold Tbl.get at ih
    unfold Tbl.set
    split
    · subst a
      by_cases h : j = k
      · simp [Tbl.get, Tbl.find?, h]
      · simp [Tbl.get, Tbl.find?, h, Ne.symm h]
    · split
      · by_cases h : j = k
        · simp [Tbl.get, Tbl.find?, h]
        · simp only [Tbl.get, Tbl.find?, h, Ne.symm h, if_false]
          by_cases h3 : j < k
          · rw [if_pos h3, if_neg (by omega), if_pos (by omega)]
          · rw [if_neg h3]
      · rename_i h1 h2
        unfold Tbl.get Tbl.find?
        by_cases ha : a = j
        · subst a
          rw [if_pos rfl, if_neg (fun hh => h1 hh), if_pos rfl]
        · rw [if_neg ha, if_neg ha]
          by_cases h3 : j < a
          · rw [if_pos h3, if_neg (by omega), if_pos h3]
          · rw [if_neg h3, if_neg h3, ih]

theorem beyond_of_rest {s s' : State} (h : rest s = rest s') : beyond s = beyond s' := by
  have e : ∀ x : State, beyond x = { rest x with cf := { (rest x).cf with links := [], msgNo := 0 } } := fun _ => rfl
  rw [e, e, h]
theorem unladen_of_rest {s s' : State} (h : rest s = rest s') (k : Nat) : unladen s k = unladen s' k := by
  have e : ∀ x : State, unladen x k = { linkOf (rest x) k with waiting := [] } := fun _ => rfl
  rw [e, e, h]
@[simp] theorem beyond_queueFlit (k : Nat) (f : Flit) (s : State) : beyond (queueFlit k f s) = beyond s := rfl
@[simp] theorem unladen_queueFlit (k : Nat) (f : Flit) (s : State) (j : Nat) :
    unladen (queueFlit k f s) j = unladen s j := by
  unfold unladen queueFlit
  dsimp only
  rw [show linkOf (putLink k _ s) j = if j = k then _ else linkOf s j from get_set _ _ _ _ _]
  split
  · subst j
    rfl
  · rfl
@[simp] theorem beyond_sendTo (dev : Nat) (f : Flit) (s : State) : beyond (sendTo dev f s) = beyond s := by
  unfold sendTo
  split
  · simp
  · rfl
@[simp] theorem unladen_sendTo (dev : Nat) (f : Flit) (s : State) (j : Nat) : unladen (sendTo dev f s) j = unladen s j := by
  unfold sendTo
  split
  · simp
  · rfl
/-- A command message adds flits to links that stand as they are, and takes the next message number. -/
@[simp] theorem beyond_sendMsg (dev : Nat) (m : CmdMsg) (s : State) : beyond (sendMsg dev m s) = beyond s := by
  unfold sendMsg
  rw [beyond_of_rest (rest_emit _ _), forAll_same beyond _ _ (fun _ _ => beyond_sendTo _ _ _)]
  rfl
@[simp] theorem unladen_sendMsg (dev : Nat) (m : CmdMsg) (s : State) (j : Nat) :
    unladen (sendMsg dev m s) j = unladen s j := by
  unfold sendMsg
  rw [unladen_of_rest (rest_emit _ _), forAll_same (unladen · j) _ _ (fun _ _ => unladen_sendTo _ _ _ _)]
  rfl
/-- Completing a packet of any origin touches no more than an answer to another device does. -/
@[simp] theorem beyond_completeAs (b : Bool) (e : Entry) (st r0 r1 : Nat) (s : State) :
    beyond (completeAs b e st r0 r1 s) = beyond s := by
  cases h : e.pkt.origin with
  | none => exact beyond_of_rest (rest_completeAs h _ _ _ _ _)
  | some d =>
    unfold completeAs
    simp [h]
@[simp] theorem unladen_completeAs (b : Bool) (e : Entry) (st r0 r1 : Nat) (s : State) (j : Nat) :
    unladen (completeAs b e st r0 r1 s) j = unladen s j := by
  cases h : e.pkt.origin with
  | none => exact unladen_of_rest (rest_completeAs h _ _ _ _ _) j
  | some d =>
    unfold completeAs
    simp [h]
@[simp] theorem beyond_finish (e : Entry) (st : Nat) (r0 r1 : Option Nat) (s : State) :
    beyond (finish e st r0 r1 s) = beyond s := by
  unfold finish complete
  rw [beyond_completeAs, beyond_of_rest (rest_resultOr _ _), beyond_of_rest (rest_resultOr _ _)]
@[simp] theorem unladen_finish (e : Entry) (st : Nat) (r0 r1 : Option Nat) (s : State) (j : Nat) :
    unladen (finish e st r0 r1 s) j = unladen s j := by
  unfold finish complete
  rw [unladen_completeAs, unladen_of_rest (rest_resultOr _ _), unladen_of_rest (rest_resultOr _ _)]
@[simp] theorem beyond_settlePair (e : Entry) (s : State) : beyond (settlePair e s) = beyond s :=
  beyond_of_rest (rest_settlePair e s)
@[simp] theorem beyond_afterwards (p : Packet) (s : State) : beyond (afterwards p s) = beyond s :=
  beyond_of_rest (rest_afterwards p s)
@[simp] theorem beyond_finishInflight (p : Inflight → Bool) (st : Nat) (r0 r1 : Option Nat) (s : State) :
    beyond (finishInflight p st r0 r1 s) = beyond s := by
  unfold finishInflight
  split
  · rfl
  · split
    · rfl
    · rw [beyond_settlePair, beyond_finish]
      rfl
@[simp] theorem beyond_finishUnit (u st : Nat) (r0 r1 : Option Nat) (s : State) :
    beyond (finishUnit u st r0 r1 s) = beyond s := by
  unfold finishUnit
  simp
@[simp] theorem beyond_flushEntry (e : Entry) (s : State) : beyond (flushEntry e s) = beyond s := by
  unfold flushEntry complete
  rw [beyond_completeAs]
  rfl

/-! ### Writes of device memory -/

theorem bl_countWrite (a n : Nat) (s : State) : (countWrite a n s).bl = s.bl := by
  unfold countWrite
  refine forAll_same State.bl _ _ ?_ s
  intro _ _
  rfl
theorem bl_writeRun (a : Nat) (bs : List Byte) (s : State) : (writeRun a bs s).bl = s.bl := by
  unfold writeRun
  split
  · rfl
  · exact bl_countWrite _ _ _
theorem bl_memWrite (a : Nat) (bs : List Byte) (s : State) : (memWrite a bs s).bl = s.bl :=
  forAll_same State.bl _ _ (fun _ _ => bl_writeRun _ _ _) s

/-- Freeing the bytes that host software wrote leaves the blitter's state alone (R470). -/
theorem bl_raceOut (o : BlOp) (s : State) : (raceOut o s).bl = s.bl :=
  forAll_same State.bl _ _ (fun _ s => bl_memWrite _ _ (takeFree s).2) s

end Sys2Proof.Laws
end

