-- ==== Sys2Proof/Laws/Memory.lean ====
section
/-! SUPPORT. The canonical form of memory: every operation keeps it. -/
namespace Sys2Proof.Laws
open Sys2Proof Sys2Proof.Machine

theorem wf_cons {a : Nat} {b : Byte} {t : List Host.Cell} :
    Memory.wf ((a, b) :: t) = true ↔ b ≠ memDefault ∧ (∀ c ∈ t, a < c.1) ∧ Memory.wf t = true := by
  simp [Memory.wf, and_assoc]

theorem wf_filter {m : List Host.Cell} (f : Host.Cell → Bool) (h : Memory.wf m = true) : Memory.wf (m.filter f) = true := by
  induction m with
  | nil => rfl
  | cons c m ih =>
    obtain ⟨a, b⟩ := c
    rw [wf_cons] at h
    rw [List.filter_cons]
    split
    · rw [wf_cons]
      exact ⟨h.1, fun c hc => h.2.1 c (List.mem_filter.1 hc).1, ih h.2.2⟩
    · exact ih h.2.2

theorem wf_append {m n : List Host.Cell} (hm : Memory.wf m = true) (hn : Memory.wf n = true)
    (h : ∀ c ∈ m, ∀ d ∈ n, c.1 < d.1) : Memory.wf (m ++ n) = true := by
  induction m with
  | nil => exact hn
  | cons c m ih =>
    obtain ⟨a, b⟩ := c
    rw [wf_cons] at hm
    rw [List.cons_append, wf_cons]
    refine ⟨hm.1, fun d hd => ?_, ih hm.2.2 fun c hc => h c (List.mem_cons_of_mem _ hc)⟩
    rcases List.mem_append.1 hd with hd | hd
    · exact hm.2.1 d hd
    · exact h (a, b) List.mem_cons_self d hd

theorem memCells_bounds (a : Nat) (bs : List Byte) : ∀ c ∈ memCells a bs, a ≤ c.1 ∧ c.1 < a + bs.length := by
  induction bs generalizing a with
  | nil => intro c hc; simp [memCells] at hc
  | cons b bs ih =>
    intro c hc
    have key : c ∈ memCells (a + 1) bs → a ≤ c.1 ∧ c.1 < a + (b :: bs).length := fun h => by
      have := ih (a + 1) c h
      simp only [List.length_cons]
      omega
    simp only [memCells] at hc
    split at hc
    · exact key hc
    · rcases List.mem_cons.1 hc with rfl | hc
      · simp
      · exact key hc

theorem wf_memCells (a : Nat) (bs : List Byte) : Memory.wf (memCells a bs) = true := by
  induction bs generalizing a with
  | nil => rfl
  | cons b bs ih =>
    simp only [memCells]
    split
    · exact ih (a + 1)
    · rw [wf_cons]
      exact ⟨by assumption, fun c hc => (memCells_bounds (a + 1) bs c hc).1, ih (a + 1)⟩

theorem wf_memPutBytes {m : List Host.Cell} (a : Nat) (bs : List Byte) (h : Memory.wf m = true) :
    Memory.wf (memPutBytes m a bs) = true := by
  unfold memPutBytes
  refine wf_append (wf_filter _ h) (wf_append (wf_memCells a bs) (wf_filter _ h) ?_) ?_
  · intro c hc d hd
    have h1 := memCells_bounds a bs c hc
    have h2 := (List.mem_filter.1 hd).2
    simp only [decide_eq_true_eq] at h2
    omega
  · intro c hc d hd
    have h1 := (List.mem_filter.1 hc).2
    simp only [decide_eq_true_eq] at h1
    rcases List.mem_append.1 hd with hd | hd
    · have := memCells_bounds a bs d hd
      omega
    · have h2 := (List.mem_filter.1 hd).2
      simp only [decide_eq_true_eq] at h2
      omega

end Sys2Proof.Laws
end

