-- ==== Sys2Proof/Laws/KeepsBase.lean ====
section
/-! SUPPORT. What every operation of the machine keeps, as one relation between a state and a later one: the queue
of commands, time that never goes back, the canonical form of memory and a legal mode. -/
namespace Sys2Proof.Laws
open Sys2Proof Sys2Proof.Machine

/-- What a step keeps, over the fields that it speaks of. -/
def KeepsAll (a : State) (p : List Instr) (ticks : Ticks) (mem : List Host.Cell) (pstate target stage : Nat) : Prop :=
  p = a.pending ∧ a.clk.ticks ≤ ticks ∧ (Memory.wf a.mm.mem = true → Memory.wf mem = true)
    ∧ (legalMode a.pmu.pstate a.pmu.target a.pmu.stage → legalMode pstate target stage)

def Keeps (a b : State) : Prop :=
  KeepsAll a b.pending b.clk.ticks b.mm.mem b.pmu.pstate b.pmu.target b.pmu.stage

def KeepsO (a : State) (o : Option State) : Prop := ∀ s, o = some s → Keeps a s
def KeepsR (a : State) : Res → Prop
  | .ok _ _ s => Keeps a s
  | .fail _ _ _ => True
  | .done _ _ _ s => Keeps a s
  | .pend _ s => Keeps a s
  | .keep f => ∀ e b, Keeps a (f e b)
  | .wait => True
def KeepsX (a : State) (o : Host.Outcome State Fault Refusal) : Prop := ∀ s, o = .next s → Keeps a s
def KeepsC (sp : CmdSpec) : Prop := ∀ a p s, Keeps a s → KeepsR a (sp.body p s)

theorem Keeps.refl (a : State) : Keeps a a := ⟨rfl, Nat.le_refl _, id, id⟩

theorem keeps_mk {a p out fresh clk host own cp evc mm fs pn col key rg un ne ts cf tk bl hd pmu rel pins prior} :
    Keeps a (State.mk p out fresh clk host own cp evc mm fs pn col key rg un ne ts cf tk bl hd pmu rel pins prior)
      = KeepsAll a p clk.ticks mm.mem pmu.pstate pmu.target pmu.stage := rfl
theorem keepsAll_of {a s : State} (h : Keeps a s) :
    KeepsAll a s.pending s.clk.ticks s.mm.mem s.pmu.pstate s.pmu.target s.pmu.stage := h
theorem keeps_ite {a x y : State} {c : Prop} [Decidable c] (hx : Keeps a x) (hy : Keeps a y) : Keeps a (if c then x else y) := by
  split <;> assumption

theorem keepsAll_mem {a s : State} {m : List Host.Cell} (h : Keeps a s) (hm : Memory.wf s.mm.mem = true → Memory.wf m = true) :
    KeepsAll a s.pending s.clk.ticks m s.pmu.pstate s.pmu.target s.pmu.stage :=
  ⟨h.1, h.2.1, fun w => hm (h.2.2.1 w), h.2.2.2⟩
theorem keepsAll_mode {a s : State} {p t g : Nat} (h : Keeps a s)
    (hm : legalMode s.pmu.pstate s.pmu.target s.pmu.stage → legalMode p t g) :
    KeepsAll a s.pending s.clk.ticks s.mm.mem p t g :=
  ⟨h.1, h.2.1, h.2.2.1, fun w => hm (h.2.2.2 w)⟩

theorem keepsAll_pstate {a s : State} {p : Nat} (hp : p ≤ 3) (h : Keeps a s) :
    KeepsAll a s.pending s.clk.ticks s.mm.mem p s.pmu.target s.pmu.stage := keepsAll_mode h fun w => ⟨hp, w.2⟩
theorem keepsAll_target {a s : State} {p : Nat} (hp : p ≤ 3) (h : Keeps a s) :
    KeepsAll a s.pending s.clk.ticks s.mm.mem s.pmu.pstate p s.pmu.stage := keepsAll_mode h fun w => ⟨w.1, hp, w.2.2⟩
theorem keepsAll_stage {a s : State} {g : Nat} (hg : g = 0 ∨ g = 3 ∨ g = 5 ∨ g = 6) (h : Keeps a s) :
    KeepsAll a s.pending s.clk.ticks s.mm.mem s.pmu.pstate s.pmu.target g := keepsAll_mode h fun w => ⟨w.1, w.2.1, hg⟩
theorem keepsAll_now {a s : State} (h : Keeps a s) :
    KeepsAll a s.pending s.clk.ticks s.mm.mem s.pmu.target s.pmu.target s.pmu.stage :=
  keepsAll_mode h fun w => ⟨w.2.1, w.2⟩

theorem keepsP_use {a s : State} {α : Type} {x : α × State} {v : α} (e : x = (v, s)) (h : Keeps a x.2) : Keeps a s := by
  subst e; exact h

theorem keepsR_ok {a s : State} {r0 r1} (h : Keeps a s) : KeepsR a (.ok r0 r1 s) := h
theorem keepsR_done {a s : State} {st r0 r1} (h : Keeps a s) : KeepsR a (.done st r0 r1 s) := h
theorem keepsR_pend {a s : State} {u} (h : Keeps a s) : KeepsR a (.pend u s) := h
theorem keepsR_fail {a : State} {st r0 r1} : KeepsR a (.fail st r0 r1) := trivial
theorem keepsR_wait {a : State} : KeepsR a .wait := trivial
theorem keepsR_keep {a : State} {f} (h : ∀ e b, Keeps a (f e b)) : KeepsR a (.keep f) := h
theorem keepsO_some {a s : State} (h : Keeps a s) : KeepsO a (some s) := fun _ e => by cases e; exact h
theorem keepsO_none {a : State} : KeepsO a none := fun _ e => by cases e
theorem keepsO_use {a : State} {o : Option State} {s : State} (e : o = some s) (h : KeepsO a o) : Keeps a s := h s e
theorem keepsR_useOk {a s : State} {r : Res} {r0 r1} (e : r = .ok r0 r1 s) (h : KeepsR a r) : Keeps a s := by subst e; exact h
theorem keepsR_useDone {a s : State} {r : Res} {st r0 r1} (e : r = .done st r0 r1 s) (h : KeepsR a r) : Keeps a s := by subst e; exact h
theorem keepsR_usePend {a s : State} {r : Res} {u} (e : r = .pend u s) (h : KeepsR a r) : Keeps a s := by subst e; exact h
theorem keepsR_useKeep {a : State} {r : Res} {f x b} (e : r = .keep f) (h : KeepsR a r) : Keeps a (f x b) := by subst e; exact h x b
theorem keepsX_next {a s : State} (h : Keeps a s) : KeepsX a (.next s) := fun _ e => by cases e; exact h

end Sys2Proof.Laws
end

