-- ==== Sys2Proof/Laws/KeepsPackets.lean ====
section
/-! SUPPORT. What the shared operations, flits, replies, packets and the command port keep: the queue, time that
never goes back, the canonical form of memory and a legal mode. One lemma per operation. -/
namespace Sys2Proof.Laws
open Sys2Proof Sys2Proof.Machine

/-! ### Ops -/

theorem keeps_emit {a : State} (o : Out) (s : State) (h : Keeps a s) : Keeps a (emit o s) := h

theorem keeps_takeFree {a : State} (s : State) (h : Keeps a s) : Keeps a (takeFree s).2 := h

theorem keeps_setStamp {a : State} (v : Nat) (s : State) (h : Keeps a s) : Keeps a (setStamp v s) := h

theorem keeps_slewTenths {a : State} (d : ℤ) (s : State) (h : Keeps a s) : Keeps a (slewTenths d s) := h

theorem keeps_setRate {a : State} (r : ℤ) (s : State) (h : Keeps a s) : Keeps a (setRate r s) := h

theorem keeps_noteSet {a : State} (key : Nat) (i : Nat) (s : State) (h : Keeps a s) : Keeps a (noteSet key i s) := h

theorem keeps_advance {a : State} (t : Ticks) (s : State) (h : Keeps a s) : Keeps a (advance t s) := by
  refine ⟨h.1, ?_, h.2.2.1, h.2.2.2⟩
  exact Nat.le_trans h.2.1 (Nat.le_max_left _ _)

theorem keeps_lastCycle {a : State} (s : State) (h : Keeps a s) : Keeps a (lastCycle s) := h

theorem keeps_lastArb {a : State} (s : State) (h : Keeps a s) : Keeps a (lastArb s) := h

theorem keeps_putSrc {a : State} (n : Nat) (x : EvcSrc) (s : State) (h : Keeps a s) : Keeps a (putSrc n x s) := h

theorem keeps_putTgt {a : State} (tg : Nat) (x : EvcTgt) (s : State) (h : Keeps a s) : Keeps a (putTgt tg x s) := h

theorem keeps_wakeFor {a : State} (n : Nat) (s : State) (h : Keeps a s) : Keeps a (wakeFor n s) := by
  unfold wakeFor; try dsimp only
  with_reducible repeat' first | assumption | refine keeps_putTgt _ _ _ ?_ | refine keeps_ite ?_ ?_

theorem keeps_evcEdge {a : State} (n : Nat) (s : State) (h : Keeps a s) : Keeps a (evcEdge n s) := by
  unfold evcEdge; try dsimp only
  with_reducible repeat' first
      | assumption | refine keeps_wakeFor _ _ ?_ | refine keeps_putSrc _ _ _ ?_ | refine keeps_ite ?_ ?_
      | simp only [keeps_mk] | refine keepsAll_of ?_

theorem keeps_raise {a : State} (n : Nat) (s : State) (h : Keeps a s) : Keeps a (raise n s) := by
  unfold raise; try dsimp only
  with_reducible repeat' first | assumption | refine keeps_evcEdge _ _ ?_ | refine keeps_emit _ _ ?_

theorem keeps_evcLevel {a : State} (n : Nat) (lvl : Bool) (s : State) (h : Keeps a s) : Keeps a
    (evcLevel n lvl s) := by
  unfold evcLevel; try dsimp only
  with_reducible repeat' first
      | assumption | refine keeps_wakeFor _ _ ?_ | refine keeps_putSrc _ _ _ ?_ | refine keeps_ite ?_ ?_

theorem keeps_evcRehomeSrc {a : State} (n : Nat) (s : State) (h : Keeps a s) : Keeps a (evcRehomeSrc n s) := by
  unfold evcRehomeSrc; try dsimp only
  with_reducible repeat' first | assumption | refine keeps_putSrc _ _ _ ?_

theorem keeps_forAll {a : State} {α : Type} (l : List α) (f : α → State → State) (s : State)
    (hf : ∀ x s, Keeps a s → Keeps a (f x s)) (h : Keeps a s) : Keeps a (forAll l f s) := by
  unfold forAll
  induction l generalizing s with
  | nil => exact h
  | cons x l ih => exact ih _ (hf x s h)

theorem keeps_putSurf {a : State} (i : Nat) (x : Surface) (s : State) (h : Keeps a s) : Keeps a (putSurf i x s) := h

theorem keeps_putRaster {a : State} (r : Nat) (x : Raster) (s : State) (h : Keeps a s) : Keeps a
    (putRaster r x s) := h

theorem keeps_putScene {a : State} (r : Nat) (x : SceneSt) (s : State) (h : Keeps a s) : Keeps a (putScene r x s) := h

theorem keeps_putCrystal {a : State} (r : Nat) (x : Crystal) (s : State) (h : Keeps a s) : Keeps a
    (putCrystal r x s) := h

theorem keeps_putSlice {a : State} (c : Nat) (x : Slice) (s : State) (h : Keeps a s) : Keeps a (putSlice c x s) := h

theorem keeps_putDp {a : State} (p : Nat) (x : DpPort) (s : State) (h : Keeps a s) : Keeps a (putDp p x s) := h

theorem keeps_putFs {a : State} (r : Nat) (x : RasterFs) (s : State) (h : Keeps a s) : Keeps a (putFs r x s) := h

theorem keeps_putChanFs {a : State} (n : Nat) (x : ChanFs) (s : State) (h : Keeps a s) : Keeps a
    (putChanFs n x s) := h

theorem keeps_putEth {a : State} (p : Nat) (x : EthPort) (s : State) (h : Keeps a s) : Keeps a (putEth p x s) := h

theorem keeps_putIngest {a : State} (f : Nat) (x : Ingest) (s : State) (h : Keeps a s) : Keeps a
    (putIngest f x s) := h

theorem keeps_putEgress {a : State} (f : Nat) (x : Egress) (s : State) (h : Keeps a s) : Keeps a
    (putEgress f x s) := h

theorem keeps_putQueue {a : State} (q : Nat) (x : TsQueue) (s : State) (h : Keeps a s) : Keeps a (putQueue q x s) := h

theorem keeps_putTsPort {a : State} (p : Nat) (x : TsPort) (s : State) (h : Keeps a s) : Keeps a
    (putTsPort p x s) := h

theorem keeps_putMeter {a : State} (f : Nat) (x : Meter) (s : State) (h : Keeps a s) : Keeps a (putMeter f x s) := h

theorem keeps_putLink {a : State} (k : Nat) (x : CfLink) (s : State) (h : Keeps a s) : Keeps a (putLink k x s) := h

theorem keeps_putHd {a : State} (c : Nat) (x : HdChan) (s : State) (h : Keeps a s) : Keeps a (putHd c x s) := h

theorem keeps_ltrAdd {a : State} (off : Nat) (n : Nat) (s : State) (h : Keeps a s) : Keeps a (ltrAdd off n s) := h

theorem keeps_trainLanes {a : State} (lanes : Nat) (s : State) (h : Keeps a s) : Keeps a (trainLanes lanes s) := by
  unfold trainLanes; try dsimp only
  with_reducible repeat' first
      | assumption | refine keeps_forAll _ _ _ ?_ ?_ | intro _ | simp only [keeps_mk] | refine keepsAll_of ?_

theorem keeps_endUnlock {a : State} (s : State) (h : Keeps a s) : Keeps a (endUnlock s) := by
  unfold endUnlock; try dsimp only
  with_reducible repeat' first
      | assumption | refine keeps_raise _ _ ?_ | refine keeps_ite ?_ ?_ | simp only [keeps_mk] | refine keepsAll_of ?_

/-! ### Flits -/

theorem keeps_queueFlit {a : State} (k : Nat) (f : Flit) (s : State) (h : Keeps a s) : Keeps a (queueFlit k f s) := by
  unfold queueFlit; try dsimp only
  with_reducible repeat' first | assumption | refine keeps_putLink _ _ _ ?_

theorem keeps_giveBack {a : State} (f : Flit) (s : State) (h : Keeps a s) : Keeps a (giveBack f s) := by
  unfold giveBack; try dsimp only
  with_reducible repeat' first | assumption | refine keeps_putLink _ _ _ ?_ | split

theorem keeps_discardWaiting {a : State} (k : Nat) (s : State) (h : Keeps a s) : Keeps a (discardWaiting k s) := by
  unfold discardWaiting; try dsimp only
  with_reducible repeat' first
      | assumption | refine keeps_giveBack _ _ ?_ | refine keeps_putLink _ _ _ ?_ | refine keeps_forAll _ _ _ ?_ ?_
      | intro _

theorem keeps_forgetBuffers {a : State} (k : Nat) (s : State) (h : Keeps a s) : Keeps a (forgetBuffers k s) := h

theorem keeps_sendTo {a : State} (dev : Nat) (f : Flit) (s : State) (h : Keeps a s) : Keeps a (sendTo dev f s) := by
  unfold sendTo; try dsimp only
  with_reducible repeat' first | assumption | refine keeps_queueFlit _ _ _ ?_ | split

theorem keeps_sendOn {a : State} (k : Nat) (m : CmdMsg) (s : State) (h : Keeps a s) : Keeps a (sendOn k m s) := by
  unfold sendOn; try dsimp only
  with_reducible repeat' first
      | assumption | refine keeps_queueFlit _ _ _ ?_ | refine keeps_forAll _ _ _ ?_ ?_ | intro _
      | simp only [keeps_mk] | refine keepsAll_of ?_

theorem keeps_sendMsg {a : State} (dev : Nat) (m : CmdMsg) (s : State) (h : Keeps a s) : Keeps a
    (sendMsg dev m s) := by
  unfold sendMsg; try dsimp only
  with_reducible repeat' first
      | assumption | refine keeps_emit _ _ ?_ | refine keeps_sendTo _ _ _ ?_ | refine keeps_forAll _ _ _ ?_ ?_
      | intro _ | simp only [keeps_mk] | refine keepsAll_of ?_

theorem keeps_sendFlrTo {a : State} (f : Nat) (d : Nat) (s : State) (h : Keeps a s) : Keeps a (sendFlrTo f d s) := by
  unfold sendFlrTo; try dsimp only
  with_reducible repeat' first
      | assumption | refine keeps_sendMsg _ _ _ ?_ | refine keeps_ite ?_ ?_ | simp only [keeps_mk]
      | refine keepsAll_of ?_

theorem keeps_sendOwed {a : State} (s : State) (h : Keeps a s) : Keeps a (sendOwed s) := by
  unfold sendOwed; try dsimp only
  with_reducible repeat' first
      | assumption | refine keeps_sendFlrTo _ _ _ ?_ | refine keeps_forAll _ _ _ ?_ ?_ | intro _
      | simp only [keeps_mk] | refine keepsAll_of ?_

theorem keeps_announceLinks {a : State} (s : State) (h : Keeps a s) : Keeps a (announceLinks s) := by
  unfold announceLinks; try dsimp only
  with_reducible repeat' first
      | assumption | refine keeps_sendOwed _ ?_ | refine keeps_sendMsg _ _ _ ?_ | refine keeps_forAll _ _ _ ?_ ?_
      | intro _ | refine keeps_ite ?_ ?_

/-! ### CpReply -/

theorem keeps_putQp {a : State} (f : Nat) (q : Nat) (x : Qp) (s : State) (h : Keeps a s) : Keeps a
    (putQp f q x s) := by
  unfold putQp; try dsimp only
  with_reducible repeat' first
      | assumption | refine keeps_evcLevel _ _ _ ?_ | simp only [keeps_mk] | refine keepsAll_of ?_

theorem keeps_putReply {a : State} (f : Nat) (q : Nat) (r : Reply) (s : State) (h : Keeps a s) : Keeps a
    (putReply f q r s) := by
  unfold putReply; try dsimp only
  with_reducible repeat' first | assumption | refine keeps_putQp _ _ _ _ ?_ | refine keeps_emit _ _ ?_

theorem keeps_releaseSlots {a : State} (f : Nat) (q : Nat) (n : Nat) (s : State) (h : Keeps a s) : Keeps a
    (releaseSlots f q n s) := by
  unfold releaseSlots; try dsimp only
  with_reducible repeat' first | assumption | refine keeps_putQp _ _ _ _ ?_

theorem keeps_sendReply {a : State} (f : Nat) (q : Nat) (r : Reply) (s : State) (h : Keeps a s) : Keeps a
    (sendReply f q r s) := by
  unfold sendReply; try dsimp only
  with_reducible repeat' first
      | assumption | refine keeps_releaseSlots _ _ _ _ ?_ | refine keeps_putReply _ _ _ _ ?_
      | refine keeps_putQp _ _ _ _ ?_ | refine keeps_ite ?_ ?_

theorem keeps_stopCheck {a : State} (f : Nat) (q : Nat) (s : State) (h : Keeps a s) : Keeps a (stopCheck f q s) := by
  unfold stopCheck; try dsimp only
  with_reducible repeat' first | assumption | refine keeps_putQp _ _ _ _ ?_ | refine keeps_ite ?_ ?_

theorem keeps_flushCheck {a : State} (f : Nat) (q : Nat) (s : State) (h : Keeps a s) : Keeps a
    (flushCheck f q s) := by
  unfold flushCheck; try dsimp only
  with_reducible repeat' first
      | assumption | refine keeps_stopCheck _ _ _ ?_ | refine keeps_putQp _ _ _ _ ?_ | refine keeps_ite ?_ ?_ | split

theorem keeps_completeAs {a : State} (routed : Bool) (e : Entry) (status : Nat) (r0 : Nat) (r1 : Nat) (s : State) (h
    : Keeps a s) : Keeps a (completeAs routed e status r0 r1 s) := by
  unfold completeAs; try dsimp only
  with_reducible repeat' first
      | assumption | refine keeps_sendMsg _ _ _ ?_ | refine keeps_emit _ _ ?_ | refine keeps_putQp _ _ _ _ ?_
      | refine keeps_flushCheck _ _ _ ?_ | refine keeps_sendReply _ _ _ _ ?_ | refine keeps_releaseSlots _ _ _ _ ?_
      | refine keeps_ite ?_ ?_ | split

theorem keeps_complete {a : State} (e : Entry) (status : Nat) (r0 : Nat) (r1 : Nat) (s : State) (h : Keeps a s)
    : Keeps a (complete e status r0 r1 s) := by
  unfold complete; try dsimp only
  with_reducible repeat' first | assumption | refine keeps_completeAs _ _ _ _ _ _ ?_

theorem keeps_flushEntry {a : State} (e : Entry) (s : State) (h : Keeps a s) : Keeps a (flushEntry e s) := by
  unfold flushEntry; try dsimp only
  with_reducible repeat' first | assumption | refine keeps_takeFree _ ?_ | refine keeps_complete _ _ _ _ _ ?_

theorem keeps_resultOr {a : State} (r : Option Nat) (s : State) (h : Keeps a s) : Keeps a (resultOr r s).2 := by
  unfold resultOr; try dsimp only
  with_reducible repeat' first | assumption | refine keeps_takeFree _ ?_ | split

theorem keeps_finish {a : State} (e : Entry) (status : Nat) (r0 : Option Nat) (r1 : Option Nat) (s : State) (h
    : Keeps a s) : Keeps a (finish e status r0 r1 s) := by
  unfold finish; try dsimp only
  with_reducible repeat' first | assumption | refine keeps_resultOr _ _ ?_ | refine keeps_complete _ _ _ _ _ ?_

theorem keeps_popEntry {a : State} (f : Nat) (q : Nat) (o : Option Nat) (s : State) (h : Keeps a s) : Keeps a
    (popEntry f q o s) := by
  unfold popEntry; try dsimp only
  with_reducible repeat' first | assumption | simp only [keeps_mk] | refine keepsAll_of ?_ | split

theorem keeps_settleFifo {a : State} (f : Nat) (q : Nat) (n : Nat) (s : State) (h : Keeps a s) : Keeps a
    (settleFifo f q n s) := by
  induction n generalizing s with
  | zero => exact h
  | succ n ih =>
    unfold settleFifo
    with_reducible repeat' first | assumption | apply ih | apply keeps_finish | apply keeps_popEntry | split

theorem keeps_settlePair {a : State} (e : Entry) (s : State) (h : Keeps a s) : Keeps a (settlePair e s) := by
  unfold settlePair; try dsimp only
  with_reducible repeat' first | assumption | refine keeps_settleFifo _ _ _ _ ?_ | refine keeps_ite ?_ ?_

theorem keeps_finishInflight {a : State} (p : Inflight → Bool) (status : Nat) (r0 : Option Nat) (r1 : Option Nat) (s
    : State) (h : Keeps a s) : Keeps a (finishInflight p status r0 r1 s) := by
  unfold finishInflight; try dsimp only
  with_reducible repeat' first
      | assumption | refine keeps_settlePair _ _ ?_ | refine keeps_finish _ _ _ _ _ ?_ | simp only [keeps_mk]
      | refine keepsAll_of ?_ | split

theorem keeps_finishUnit {a : State} (unit : Nat) (status : Nat) (r0 : Option Nat) (r1 : Option Nat) (s : State) (h
    : Keeps a s) : Keeps a (finishUnit unit status r0 r1 s) := by
  unfold finishUnit; try dsimp only
  with_reducible repeat' first | assumption | refine keeps_finishInflight _ _ _ _ _ ?_

theorem keeps_flushWaiting {a : State} (f : Nat) (q : Nat) (o : Option Nat) (s : State) (h : Keeps a s) : Keeps a
    (flushWaiting f q o s) := by
  unfold flushWaiting; try dsimp only
  with_reducible repeat' first
      | assumption | refine keeps_flushEntry _ _ ?_ | refine keeps_forAll _ _ _ ?_ ?_ | intro _ | simp only [keeps_mk]
      | refine keepsAll_of ?_

theorem keeps_flushTimed {a : State} (f : Nat) (q : Nat) (s : State) (h : Keeps a s) : Keeps a
    (flushTimed f q s) := by
  unfold flushTimed; try dsimp only
  with_reducible repeat' first
      | assumption | refine keeps_flushWaiting _ _ _ _ ?_ | refine keeps_sendMsg _ _ _ ?_
      | refine keeps_settleFifo _ _ _ _ ?_ | refine keeps_forAll _ _ _ ?_ ?_ | intro _

theorem keeps_faultQp {a : State} (f : Nat) (q : Nat) (code : Nat) (s : State) (h : Keeps a s) : Keeps a
    (faultQp f q code s) := by
  unfold faultQp; try dsimp only
  with_reducible repeat' first
      | assumption | refine keeps_putQp _ _ _ _ ?_ | refine keeps_stopCheck _ _ _ ?_
      | refine keeps_flushTimed _ _ _ ?_

/-! ### CpRun -/

theorem keeps_bad {a : State} (status : Nat) : KeepsR a (bad status) := by
  unfold bad; try dsimp only
  with_reducible exact keepsR_fail

theorem keeps_badParam {a : State} : KeepsR a badParam := by
  unfold badParam; try dsimp only
  with_reducible exact keeps_bad _

theorem keeps_noResource {a : State} : KeepsR a noResource := by
  unfold noResource; try dsimp only
  with_reducible exact keeps_bad _

theorem keeps_notOwner {a : State} : KeepsR a notOwner := by
  unfold notOwner; try dsimp only
  with_reducible exact keeps_bad _

theorem keeps_busy {a : State} : KeepsR a busy := by
  unfold busy; try dsimp only
  with_reducible exact keeps_bad _

theorem keeps_retired {a : State} : KeepsR a retired := by
  unfold retired; try dsimp only
  with_reducible exact keeps_bad _

theorem keeps_busError {a : State} : KeepsR a busError := by
  unfold busError; try dsimp only
  with_reducible exact keeps_bad _

theorem keeps_okay {a : State} (s : State) (h : Keeps a s) : KeepsR a (okay s) := by
  unfold okay; try dsimp only
  with_reducible repeat' first | assumption | refine keepsR_ok ?_

theorem keeps_executeBehind {a : State} (ahead : List Held) (sp : CmdSpec) (e : Entry) (late : Bool) (s : State) (hsp
    : KeepsC sp) (h : Keeps a s) : KeepsO a (executeBehind ahead sp e late s) := by
  unfold executeBehind
  have hb := hsp a e.pkt s h
  with_reducible repeat' first
      | assumption | apply keepsO_some | exact keepsO_none | apply keeps_finish | simp only [keeps_mk]
      | apply keepsAll_of | refine keepsR_useOk (by assumption) ?_ | refine keepsR_useDone (by assumption) ?_
      | refine keepsR_usePend (by assumption) ?_ | refine keepsR_useKeep (by assumption) ?_ | split

theorem keeps_executeNow {a : State} (sp : CmdSpec) (e : Entry) (late : Bool) (s : State) (hsp : KeepsC sp) (h
    : Keeps a s) : KeepsO a (executeNow sp e late s) := by
  unfold executeNow; try dsimp only
  with_reducible repeat' first | assumption | refine keeps_executeBehind _ _ _ _ _ ?_ ?_

theorem keeps_noteLevel {a : State} (s : State) (h : Keeps a s) : Keeps a (noteLevel s) := h

theorem keeps_acceptTimed {a : State} (e : Entry) (s : State) (h : Keeps a s) : Keeps a (acceptTimed e s) := by
  unfold acceptTimed; try dsimp only
  with_reducible repeat' first
      | assumption | refine keeps_takeFree _ ?_ | refine keeps_sendMsg _ _ _ ?_ | refine keeps_emit _ _ ?_
      | refine keeps_sendReply _ _ _ _ ?_ | refine keeps_noteLevel _ ?_ | refine keeps_ite ?_ ?_
      | simp only [keeps_mk] | refine keepsAll_of ?_ | split

theorem keeps_atDestination {a : State} (sp : CmdSpec) (e : Entry) (s : State) (hsp : KeepsC sp) (h : Keeps a s)
    : KeepsO a (atDestination sp e s) := by
  unfold atDestination; try dsimp only
  with_reducible repeat' first
      | assumption | refine keeps_finish _ _ _ _ _ ?_ | refine keeps_raise _ _ ?_ | refine keeps_acceptTimed _ _ ?_
      | refine keeps_executeNow _ _ _ _ ?_ ?_ | refine keepsO_some ?_ | split

theorem keeps_forwardPacket {a : State} (e : Entry) (s : State) (h : Keeps a s) : Keeps a (forwardPacket e s) := by
  unfold forwardPacket; try dsimp only
  with_reducible repeat' first
      | assumption | refine keeps_sendMsg _ _ _ ?_ | simp only [keeps_mk] | refine keepsAll_of ?_

theorem keeps_readBlock {a : State} (p : Packet) (s : State) (h : Keeps a s) : Keeps a (readBlock p s) := by
  unfold readBlock; try dsimp only
  with_reducible repeat' first | assumption | refine keeps_emit _ _ ?_ | refine keeps_ite ?_ ?_

theorem keeps_atReceiver {a : State} (e : Entry) (here : State → Option State) (s : State) (hhere
    : ∀ y0, Keeps a y0 → KeepsO a (here y0)) (h : Keeps a s) : KeepsO a (atReceiver e here s) := by
  unfold atReceiver; try dsimp only
  with_reducible repeat' first
      | assumption | apply hhere | refine keeps_finish _ _ _ _ _ ?_ | refine keeps_readBlock _ _ ?_
      | refine keeps_forwardPacket _ _ ?_ | refine keepsO_some ?_ | split

theorem keeps_takeEntry {a : State} (op : Nat) (p : Packet) (s : State) (h : Keeps a s) : ∀ x,
    (takeEntry op p s) = some x → Keeps a x.2 := by
  intro x e
  unfold takeEntry at e
  split at e
  · exact absurd e (by simp)
  · split at e
    · rw [← Option.some.inj e]
      exact h
    · split at e
      · exact absurd e (by simp)
      · split at e
        · rw [← Option.some.inj e]
          exact keeps_popEntry _ _ _ _ (keeps_noteLevel _ h)
        · exact absurd e (by simp)

theorem keeps_runTaken {a : State} (sp : CmdSpec) (e : Entry) (s : State) (hsp : KeepsC sp) (h : Keeps a s) : KeepsO a
    (runTaken sp e s) := by
  unfold runTaken; try dsimp only
  with_reducible repeat' first
      | assumption | refine keeps_atDestination _ _ _ ?_ ?_ | refine keeps_atReceiver _ _ _ ?_ ?_ | intro _ | split

theorem keeps_holdPacket {a : State} (sp : CmdSpec) (e : Entry) (s : State) (hsp : KeepsC sp) (h : Keeps a s)
    : Keeps a (holdPacket sp e s) := h

theorem keeps_beginHeld {a : State} (sp : CmdSpec) (p : Packet) (i : Nat) (s : State) (hsp : KeepsC sp) (h
    : Keeps a s) : Keeps a (beginHeld sp p i s) := by
  unfold beginHeld; try dsimp only
  with_reducible repeat' first
      | assumption | refine keeps_executeBehind _ _ _ _ _ ?_ ?_ | refine keeps_settlePair _ _ ?_
      | refine keepsO_use (by assumption) ?_ | simp only [keeps_mk] | refine keepsAll_of ?_ | split

theorem keeps_runPacket {a : State} (sp : CmdSpec) (t : Ticks) (p : Packet) (s : State) (hsp : KeepsC sp) (h
    : Keeps a s) : KeepsX a (runPacket sp t p s) := by
  unfold runPacket; try dsimp only
  with_reducible repeat' first
      | assumption | refine keeps_advance _ _ ?_ | refine keeps_beginHeld _ _ _ _ ?_ ?_
      | refine keeps_runTaken _ _ _ ?_ ?_ | refine keeps_holdPacket _ _ _ ?_ ?_ | refine keeps_readBlock _ _ ?_
      | refine keeps_settleFifo _ _ _ _ ?_ | refine keepsX_next ?_ | refine keepsO_use (by assumption) ?_
      | refine keeps_takeEntry _ _ _ ?_ _ (by assumption) | split

/-! ### Buffers -/

theorem keeps_withBuf {a : State} (p : Packet) (s : State) (buf : Nat) (align : Nat) (optional : Bool) (bytes
    : List Byte) (k : (State → State) → Res) (hk : ∀ y0, (∀ s, Keeps a s → Keeps a (y0 s)) → KeepsR a (k y0)) (h
    : Keeps a s) : KeepsR a (withBuf p s buf align optional bytes k) := by
  unfold withBuf; try dsimp only
  with_reducible repeat' first
      | assumption | apply hk | exact keeps_badParam | exact keeps_busError | refine keeps_emit _ _ ?_ | intro _
      | simp only [id_eq] | split

theorem keeps_withData {a : State} (p : Packet) (s : State) (buf : Nat) (align : Nat) (n : Nat) (k : List Byte → Res)
    (hk : ∀ y0, KeepsR a (k y0)) (h : Keeps a s) : KeepsR a (withData p s buf align n k) := by
  unfold withData; try dsimp only
  with_reducible repeat' first | apply hk | exact keeps_badParam | exact keeps_busError | split

theorem keeps_require {a : State} (c : Bool) (fail : Res) (k : Res) (hfail : KeepsR a fail) (hk : KeepsR a k)
    : KeepsR a (require c fail k) := by
  unfold require; try dsimp only
  with_reducible repeat' first | assumption | split

/-! ### CommandPort -/

theorem keeps_whenRunning {a : State} (t : Ticks) (f : State → State) (s : State) (hf : ∀ y0, Keeps a y0 → Keeps a
    (f y0)) (h : Keeps a s) : KeepsX a (whenRunning t f s) := by
  unfold whenRunning; try dsimp only
  with_reducible repeat' first
      | assumption | apply hf | refine keeps_advance _ _ ?_ | refine keepsX_next ?_ | refine keeps_ite ?_ ?_

theorem keeps_regAccess {a : State} (t : Ticks) (f : Nat) (act : State → State) (early : State → State) (s : State)
    (hact : ∀ y0, Keeps a y0 → Keeps a (act y0)) (hearly : ∀ y0, Keeps a y0 → Keeps a (early y0)) (h : Keeps a s)
    : KeepsX a (regAccess t f act early s) := by
  unfold regAccess; try dsimp only
  with_reducible repeat' first
      | assumption | apply hact | apply hearly | refine keeps_advance _ _ ?_ | refine keeps_emit _ _ ?_
      | refine keepsX_next ?_ | refine keeps_ite ?_ ?_

theorem keeps_qpAccess {a : State} (t : Ticks) (f : Nat) (q : Nat) (act : State → State) (s : State) (hact
    : ∀ y0, Keeps a y0 → Keeps a (act y0)) (h : Keeps a s) : KeepsX a (qpAccess t f q act s) := by
  unfold qpAccess; try dsimp only
  with_reducible repeat' first
      | assumption | apply hact | refine keeps_regAccess _ _ _ _ _ ?_ ?_ ?_ | intro _ | refine keeps_ite ?_ ?_
      | simp only [id_eq]

theorem keeps_writeQctl {a : State} (f : Nat) (q : Nat) (v : Nat) (s : State) (h : Keeps a s) : Keeps a
    (writeQctl f q v s) := by
  unfold writeQctl; try dsimp only
  with_reducible repeat' first
      | assumption | refine keeps_putQp _ _ _ _ ?_ | refine keeps_flushTimed _ _ _ ?_ | refine keeps_ite ?_ ?_

theorem keeps_execQueueEnable {a : State} (t : Ticks) (f : Nat) (q : Nat) (v : Nat) (s : State) (h : Keeps a s)
    : KeepsX a (execQueueEnable t f q v s) := by
  unfold execQueueEnable; try dsimp only
  with_reducible repeat' first
      | assumption | refine keeps_qpAccess _ _ _ _ _ ?_ ?_ | refine keeps_writeQctl _ _ _ _ ?_ | intro _

theorem keeps_execQueueDisable {a : State} (t : Ticks) (f : Nat) (q : Nat) (v : Nat) (s : State) (h : Keeps a s)
    : KeepsX a (execQueueDisable t f q v s) := by
  unfold execQueueDisable; try dsimp only
  with_reducible repeat' first
      | assumption | refine keeps_qpAccess _ _ _ _ _ ?_ ?_ | refine keeps_writeQctl _ _ _ _ ?_ | intro _

theorem keeps_execQueueFlush {a : State} (t : Ticks) (f : Nat) (q : Nat) (v : Nat) (s : State) (h : Keeps a s)
    : KeepsX a (execQueueFlush t f q v s) := by
  unfold execQueueFlush; try dsimp only
  with_reducible repeat' first
      | assumption | refine keeps_qpAccess _ _ _ _ _ ?_ ?_ | refine keeps_writeQctl _ _ _ _ ?_ | intro _

theorem keeps_flushBoundary {a : State} (f : Nat) (q : Nat) (s : State) (h : Keeps a s) : Keeps a
    (flushBoundary f q s) := by
  unfold flushBoundary; try dsimp only
  with_reducible repeat' first
      | assumption | refine keeps_noteLevel _ ?_ | refine keeps_flushEntry _ _ ?_ | refine keeps_flushCheck _ _ _ ?_
      | refine keeps_putQp _ _ _ _ ?_ | refine keeps_forAll _ _ _ ?_ ?_ | intro _ | refine keeps_ite ?_ ?_
      | simp only [keeps_mk] | refine keepsAll_of ?_

theorem keeps_execFlushBoundary {a : State} (t : Ticks) (f : Nat) (q : Nat) (s : State) (h : Keeps a s) : KeepsX a
    (execFlushBoundary t f q s) := by
  unfold execFlushBoundary; try dsimp only
  with_reducible repeat' first
      | assumption | refine keeps_whenRunning _ _ _ ?_ ?_ | refine keeps_flushBoundary _ _ _ ?_ | intro _

theorem keeps_submitDoorbell {a : State} (f : Nat) (q : Nat) (v : Nat) (s : State) (h : Keeps a s) : Keeps a
    (submitDoorbell f q v s) := by
  unfold submitDoorbell; try dsimp only
  with_reducible repeat' first
      | assumption | refine keeps_faultQp _ _ _ _ ?_ | refine keeps_putQp _ _ _ _ ?_ | refine keeps_ite ?_ ?_

theorem keeps_execSubmitDoorbell {a : State} (t : Ticks) (f : Nat) (q : Nat) (v : Nat) (s : State) (h : Keeps a s)
    : KeepsX a (execSubmitDoorbell t f q v s) := by
  unfold execSubmitDoorbell; try dsimp only
  with_reducible repeat' first
      | assumption | refine keeps_qpAccess _ _ _ _ _ ?_ ?_ | refine keeps_submitDoorbell _ _ _ _ ?_ | intro _

theorem keeps_replyDoorbell {a : State} (f : Nat) (q : Nat) (v : Nat) (s : State) (h : Keeps a s) : Keeps a
    (replyDoorbell f q v s) := by
  unfold replyDoorbell; try dsimp only
  with_reducible repeat' first | assumption | refine keeps_putQp _ _ _ _ ?_

theorem keeps_execReplyDoorbell {a : State} (t : Ticks) (f : Nat) (q : Nat) (v : Nat) (s : State) (h : Keeps a s)
    : KeepsX a (execReplyDoorbell t f q v s) := by
  unfold execReplyDoorbell; try dsimp only
  with_reducible repeat' first
      | assumption | refine keeps_qpAccess _ _ _ _ _ ?_ ?_ | refine keeps_replyDoorbell _ _ _ _ ?_ | intro _

theorem keeps_copyEntry {a : State} (f : Nat) (q : Nat) (b : List Byte) (s : State) (h : Keeps a s) : Keeps a
    (copyEntry f q b s) := by
  unfold copyEntry; try dsimp only
  with_reducible repeat' first
      | assumption | refine keeps_emit _ _ ?_ | refine keeps_faultQp _ _ _ _ ?_ | refine keeps_putQp _ _ _ _ ?_
      | refine keeps_flushEntry _ _ ?_ | refine keeps_noteLevel _ ?_ | refine keeps_settleFifo _ _ _ _ ?_
      | refine keeps_ite ?_ ?_ | simp only [keeps_mk] | refine keepsAll_of ?_

theorem keeps_execCpEntryCopy {a : State} (t : Ticks) (f : Nat) (q : Nat) (entry : List Byte) (s : State) (h
    : Keeps a s) : KeepsX a (execCpEntryCopy t f q entry s) := by
  unfold execCpEntryCopy; try dsimp only
  with_reducible repeat' first
      | assumption | refine keeps_whenRunning _ _ _ ?_ ?_ | refine keeps_copyEntry _ _ _ _ ?_ | intro _
      | refine keeps_ite ?_ ?_

theorem keeps_creditOnly {a : State} (f : Nat) (q : Nat) (s : State) (h : Keeps a s) : Keeps a
    (creditOnly f q s) := by
  unfold creditOnly; try dsimp only
  with_reducible repeat' first | assumption | refine keeps_putReply _ _ _ _ ?_ | refine keeps_ite ?_ ?_

theorem keeps_execCreditOnlyReply {a : State} (t : Ticks) (f : Nat) (q : Nat) (s : State) (h : Keeps a s) : KeepsX a
    (execCreditOnlyReply t f q s) := by
  unfold execCreditOnlyReply; try dsimp only
  with_reducible repeat' first
      | assumption | refine keeps_whenRunning _ _ _ ?_ ?_ | refine keeps_creditOnly _ _ _ ?_ | intro _

theorem keeps_ringFault {a : State} (f : Nat) (q : Nat) (onReply : Bool) (s : State) (h : Keeps a s) : Keeps a
    (ringFault f q onReply s) := by
  unfold ringFault; try dsimp only
  with_reducible repeat' first
      | assumption | refine keeps_faultQp _ _ _ _ ?_ | refine keeps_putQp _ _ _ _ ?_ | refine keeps_ite ?_ ?_

theorem keeps_execRingFault {a : State} (t : Ticks) (f : Nat) (q : Nat) (onReply : Bool) (s : State) (h : Keeps a s)
    : KeepsX a (execRingFault t f q onReply s) := by
  unfold execRingFault; try dsimp only
  with_reducible repeat' first
      | assumption | refine keeps_whenRunning _ _ _ ?_ ?_ | refine keeps_ringFault _ _ _ _ ?_ | intro _

theorem keepsO_forward {a : State} (op : Nat) (p : Packet) (s : State) (h : Keeps a s) :
    KeepsO a ((takeEntry op p s).bind fun x => atReceiver x.1 (fun _ => none) x.2) := by
  cases e : takeEntry op p s with
  | none => exact keepsO_none
  | some x => exact keeps_atReceiver _ _ _ (fun _ _ => keepsO_none) (keeps_takeEntry _ _ _ h _ e)

theorem keeps_execRouteForward {a : State} (t : Ticks) (op : Nat) (p : Packet) (s : State) (h : Keeps a s) : KeepsX a
    (execRouteForward t op p s) := by
  unfold execRouteForward; try dsimp only
  with_reducible repeat' first
      | assumption | refine keeps_whenRunning _ _ _ ?_ ?_ | refine keeps_settleFifo _ _ _ _ ?_
      | refine keepsO_use (by assumption) ?_ | intro _ | refine keeps_ite ?_ ?_ | refine keepsO_forward _ _ _ ?_
      | split

theorem keeps_endRouted {a : State} (i : Nat) (status : Nat) (r0 : Nat) (r1 : Nat) (r : Routed) (s : State) (h
    : Keeps a s) : Keeps a (endRouted i status r0 r1 r s) := by
  unfold endRouted; try dsimp only
  with_reducible repeat' first
      | assumption | refine keeps_settlePair _ _ ?_ | refine keeps_completeAs _ _ _ _ _ _ ?_ | simp only [keeps_mk]
      | refine keepsAll_of ?_

theorem keeps_timeoutRouted {a : State} (i : Nat) (r : Routed) (s : State) (h : Keeps a s) : Keeps a
    (timeoutRouted i r s) := by
  unfold timeoutRouted; try dsimp only
  with_reducible repeat' first | assumption | refine keeps_takeFree _ ?_ | refine keeps_endRouted _ _ _ _ _ _ ?_

theorem keeps_execRouteTimeout {a : State} (t : Ticks) (s : State) (h : Keeps a s) : KeepsX a
    (execRouteTimeout t s) := by
  unfold execRouteTimeout; try dsimp only
  with_reducible repeat' first
      | assumption | refine keeps_whenRunning _ _ _ ?_ ?_ | refine keeps_timeoutRouted _ _ _ ?_ | intro _ | split

theorem keeps_lateReply {a : State} (s : State) (h : Keeps a s) : Keeps a (lateReply s) := by
  unfold lateReply; try dsimp only
  with_reducible repeat' first
      | assumption | refine keeps_raise _ _ ?_ | refine keeps_ite ?_ ?_ | simp only [keeps_mk] | refine keepsAll_of ?_

theorem keeps_routedAccept {a : State} (i : Nat) (r0 : Nat) (r1 : Nat) (r : Routed) (s : State) (h : Keeps a s)
    : Keeps a (routedAccept i r0 r1 r s) := by
  unfold routedAccept; try dsimp only
  with_reducible repeat' first
      | assumption | refine keeps_emit _ _ ?_ | refine keeps_sendReply _ _ _ _ ?_ | refine keeps_ite ?_ ?_
      | simp only [keeps_mk] | refine keepsAll_of ?_

theorem keeps_routedReply {a : State} (device : Nat) (f : Nat) (q : Nat) (tag : Nat) (status : Nat) (r0 : Nat) (r1
    : Nat) (s : State) (h : Keeps a s) : Keeps a (routedReply device f q tag status r0 r1 s) := by
  unfold routedReply; try dsimp only
  with_reducible repeat' first
      | assumption | refine keeps_lateReply _ ?_ | refine keeps_timeoutRouted _ _ _ ?_
      | refine keeps_routedAccept _ _ _ _ _ ?_ | refine keeps_endRouted _ _ _ _ _ _ ?_ | refine keeps_ite ?_ ?_
      | split

end Sys2Proof.Laws
end

