-- ==== Sys2Proof/Laws/KeepsMemory.lean ====
section
/-! SUPPORT. What memory, panes, surfaces, tables, admission, the persistent records and the lifetime recorder keep: the queue, time that
never goes back, the canonical form of memory and a legal mode. One lemma per operation. -/
namespace Sys2Proof.Laws
open Sys2Proof Sys2Proof.Machine

/-! ### Memory -/

theorem keeps_memPoke {a : State} (a_0 : Nat) (bs : List Byte) (s : State) (h : Keeps a s) : Keeps a
    (memPoke a_0 bs s) := by
  exact keepsAll_mem (s := s) h (wf_memPutBytes _ _)

theorem keeps_memForget {a : State} (s : State) (h : Keeps a s) : Keeps a (memForget s) := by
  exact keepsAll_mem (s := s) h fun _ => rfl

theorem keeps_countRead {a : State} (a_0 : Nat) (n : Nat) (s : State) (h : Keeps a s) : Keeps a
    (countRead a_0 n s) := by
  unfold countRead; try dsimp only
  with_reducible repeat' first
      | assumption | refine keeps_forAll _ _ _ ?_ ?_ | intro _ | simp only [keeps_mk] | refine keepsAll_of ?_

theorem keeps_countWrite {a : State} (a_0 : Nat) (n : Nat) (s : State) (h : Keeps a s) : Keeps a
    (countWrite a_0 n s) := by
  unfold countWrite; try dsimp only
  with_reducible repeat' first
      | assumption | refine keeps_forAll _ _ _ ?_ ?_ | intro _ | simp only [keeps_mk] | refine keepsAll_of ?_

theorem keeps_healSectors {a : State} (a_0 : Nat) (n : Nat) (s : State) (h : Keeps a s) : Keeps a
    (healSectors a_0 n s) := h

theorem keeps_writeRun {a : State} (a_0 : Nat) (bs : List Byte) (s : State) (h : Keeps a s) : Keeps a
    (writeRun a_0 bs s) := by
  unfold writeRun; try dsimp only
  with_reducible repeat' first
      | assumption | refine keeps_countWrite _ _ _ ?_ | refine keeps_healSectors _ _ _ ?_
      | refine keeps_memPoke _ _ _ ?_ | refine keeps_ite ?_ ?_

theorem keeps_memWrite {a : State} (a_0 : Nat) (bs : List Byte) (s : State) (h : Keeps a s) : Keeps a
    (memWrite a_0 bs s) := by
  unfold memWrite; try dsimp only
  with_reducible repeat' first
      | assumption | refine keeps_writeRun _ _ _ ?_ | refine keeps_forAll _ _ _ ?_ ?_ | intro _

/-! ### Pane -/

theorem keeps_putShadow {a : State} (id : Nat) (d : Desc) (s : State) (h : Keeps a s) : Keeps a
    (putShadow id d s) := h

theorem keeps_putActive {a : State} (id : Nat) (d : Desc) (s : State) (h : Keeps a s) : Keeps a
    (putActive id d s) := h

theorem keeps_putRun {a : State} (id : Nat) (x : PaneRun) (s : State) (h : Keeps a s) : Keeps a (putRun id x s) := h

/-! ### Surfaces -/

theorem keeps_useSlot {a : State} (i : Nat) (s : State) (h : Keeps a s) : Keeps a (useSlot i s) := by
  unfold useSlot; try dsimp only
  with_reducible repeat' first | assumption | refine keeps_putSurf _ _ _ ?_

theorem keeps_pinSlot {a : State} (i : Nat) (k : Nat) (key : Nat) (s : State) (h : Keeps a s) : Keeps a
    (pinSlot i k key s) := by
  unfold pinSlot; try dsimp only
  with_reducible repeat' first | assumption | refine keeps_putSurf _ _ _ ?_

theorem keeps_pinResolved {a : State} (i : Nat) (k : Nat) (key : Nat) (s : State) (h : Keeps a s) : Keeps a
    (pinResolved i k key s) := by
  unfold pinResolved; try dsimp only
  with_reducible repeat' first
      | assumption | refine keeps_pinSlot _ _ _ _ ?_ | refine keeps_putSurf _ _ _ ?_ | refine keeps_ite ?_ ?_

theorem keeps_unpinSlot {a : State} (i : Nat) (k : Nat) (key : Nat) (s : State) (h : Keeps a s) : Keeps a
    (unpinSlot i k key s) := by
  unfold unpinSlot; try dsimp only
  with_reducible repeat' first | assumption | refine keeps_putSurf _ _ _ ?_

theorem keeps_allocate {a : State} (skip : Nat) (limit : Nat) (n : Nat) (s : State) (h : Keeps a s) : Keeps a
    (allocate skip limit n s).2 := by
  unfold allocate; try dsimp only
  with_reducible repeat' first | assumption | refine keeps_takeFree _ ?_ | split

/-! ### Tables -/

theorem keeps_putRasterTbl {a : State} (r : Nat) (x : RasterTbl) (s : State) (h : Keeps a s) : Keeps a
    (putRasterTbl r x s) := h

theorem keeps_takeTables {a : State} (r : Nat) (s : State) (h : Keeps a s) : Keeps a (takeTables r s) := by
  unfold takeTables; try dsimp only
  with_reducible repeat' first | assumption | refine keeps_putRasterTbl _ _ _ ?_

/-! ### Admission -/

theorem keeps_writeGaps {a : State} (s : State) (h : Keeps a s) : Keeps a (writeGaps s) := by
  unfold writeGaps; try dsimp only
  with_reducible repeat' first | assumption | refine keeps_putFs _ _ _ ?_ | refine keeps_forAll _ _ _ ?_ ?_ | intro _

/-! ### Pst -/

theorem keeps_writePst {a : State} (r : PstRecord) (s : State) (h : Keeps a s) : Keeps a (writePst r s) := by
  unfold writePst; try dsimp only
  with_reducible repeat' first | assumption | refine keeps_ite ?_ ?_ | simp only [keeps_mk] | refine keepsAll_of ?_

theorem keeps_savePst {a : State} (s : State) (h : Keeps a s) : Keeps a (savePst s) := by
  unfold savePst; try dsimp only
  with_reducible repeat' first | assumption | refine keeps_writePst _ _ ?_ | refine keeps_forAll _ _ _ ?_ ?_ | intro _

theorem keeps_cutPst {a : State} (s : State) (h : Keeps a s) : Keeps a (cutPst s) := h

theorem keeps_loadRecord {a : State} (r : PstRecord) (s : State) (h : Keeps a s) : Keeps a (loadRecord r s) := by
  unfold loadRecord; try dsimp only
  with_reducible repeat' first | assumption | simp only [keeps_mk] | refine keepsAll_of ?_ | split

theorem keeps_loadPst {a : State} (s : State) (h : Keeps a s) : Keeps a (loadPst s) := by
  unfold loadPst; try dsimp only
  with_reducible repeat' first
      | assumption | refine keeps_loadRecord _ _ ?_ | refine keeps_forAll _ _ _ ?_ ?_ | intro _

/-! ### Lifetime -/

theorem keeps_freeBytes {a : State} (n : Nat) (s : State) (h : Keeps a s) : Keeps a (freeBytes n s).2 := h

theorem keeps_writeCheckpoint {a : State} (trigger : Nat) (seq : Nat) (s : State) (h : Keeps a s) : Keeps a
    (writeCheckpoint trigger seq s) := h

theorem keeps_startCheckpoint {a : State} (trigger : Nat) (s : State) (h : Keeps a s) : Keeps a
    (startCheckpoint trigger s) := by
  unfold startCheckpoint; try dsimp only
  with_reducible repeat' first
      | assumption | refine keeps_writeCheckpoint _ _ _ ?_ | simp only [keeps_mk] | refine keepsAll_of ?_

theorem keeps_checkpointGood {a : State} (x : LtrSnap) (s : State) (h : Keeps a s) : Keeps a
    (checkpointGood x s) := by
  unfold checkpointGood; try dsimp only
  with_reducible repeat' first
      | assumption | refine keeps_finishUnit _ _ _ _ _ ?_ | refine keeps_raise _ _ ?_ | simp only [keeps_mk]
      | refine keepsAll_of ?_

theorem keeps_checkpointBad {a : State} (s : State) (h : Keeps a s) : Keeps a (checkpointBad s) := by
  unfold checkpointBad; try dsimp only
  with_reducible repeat' first
      | assumption | refine keeps_raise _ _ ?_ | refine keeps_noteSet _ _ _ ?_ | refine keeps_finishUnit _ _ _ _ _ ?_
      | refine keeps_writeCheckpoint _ _ _ ?_ | refine keeps_ite ?_ ?_ | simp only [keeps_mk] | refine keepsAll_of ?_

theorem keeps_checkpointDone {a : State} (ok : Bool) (s : State) (h : Keeps a s) : Keeps a (checkpointDone ok s) := by
  unfold checkpointDone; try dsimp only
  with_reducible repeat' first
      | assumption | refine keeps_checkpointGood _ _ ?_ | refine keeps_checkpointBad _ ?_ | refine keeps_ite ?_ ?_
      | split

theorem keeps_checkpointNow {a : State} (trigger : Nat) (s : State) (h : Keeps a s) : Keeps a
    (checkpointNow trigger s) := by
  unfold checkpointNow; try dsimp only
  with_reducible repeat' first | assumption | refine keeps_checkpointDone _ _ ?_ | refine keeps_startCheckpoint _ _ ?_

theorem keeps_execLtrCheckpointDone {a : State} (t : Ticks) (ok : Bool) (s : State) (h : Keeps a s) : KeepsX a
    (execLtrCheckpointDone t ok s) := by
  unfold execLtrCheckpointDone; try dsimp only
  with_reducible repeat' first
      | assumption | refine keeps_whenRunning _ _ _ ?_ ?_ | refine keeps_checkpointDone _ _ ?_ | intro _

theorem keeps_execLtrPeriodic {a : State} (t : Ticks) (s : State) (h : Keeps a s) : KeepsX a
    (execLtrPeriodic t s) := by
  unfold execLtrPeriodic; try dsimp only
  with_reducible repeat' first
      | assumption | refine keeps_whenRunning _ _ _ ?_ ?_ | refine keeps_startCheckpoint _ _ ?_ | intro _
      | refine keeps_ite ?_ ?_

theorem keeps_execPfw {a : State} (t : Ticks) (s : State) (h : Keeps a s) : KeepsX a (execPfw t s) := by
  unfold execPfw; try dsimp only
  with_reducible repeat' first
      | assumption | refine keeps_whenRunning _ _ _ ?_ ?_ | refine keeps_raise _ _ ?_
      | refine keeps_writeCheckpoint _ _ _ ?_ | refine keeps_startCheckpoint _ _ ?_ | intro _ | refine keeps_ite ?_ ?_

theorem sec_aux {a : State} (ber : List (Nat × Nat)) (n : Nat) (s1 : State) (h1 : Keeps a s1) : Keeps a (
      let s := { s1 with rel := { s1.rel with lastSec := n } }
      if n / 3600 ≤ s.rel.berAt then s
      else
        let s := forAll ((List.range 16).filterMap fun l => (ber.find? fun e => e.1 == l && decide (e.2 < 8)))
          (fun e s => ltrAdd (0xE00 + 32 * e.1 + 4 * e.2) 1 s) s
        { s with rel := { s.rel with berAt := n / 3600 } }) := by
  have h2 : Keeps a { s1 with rel := { s1.rel with lastSec := n } } := h1
  revert h2
  generalize ({ s1 with rel := { s1.rel with lastSec := n } } : State) = s2
  intro h2
  dsimp only
  refine keeps_ite h2 ?_
  have h3 : Keeps a (forAll ((List.range 16).filterMap fun l => (ber.find? fun e => e.1 == l && decide (e.2 < 8)))
          (fun e s => ltrAdd (0xE00 + 32 * e.1 + 4 * e.2) 1 s) s2) := keeps_forAll _ _ _ (fun e s h => keeps_ltrAdd _ _ _ h) h2
  revert h3
  generalize forAll ((List.range 16).filterMap fun l => (ber.find? fun e => e.1 == l && decide (e.2 < 8)))
          (fun e s => ltrAdd (0xE00 + 32 * e.1 + 4 * e.2) 1 s) s2 = s3
  intro h3
  simp only [keeps_mk]
  exact keepsAll_of h3
theorem keeps_execLtrSecondSample {a : State} (t : Ticks) (ber : List (Nat × Nat)) (s : State) (h : Keeps a s)
    : KeepsX a (execLtrSecondSample t ber s) := by
  unfold execLtrSecondSample
  refine keeps_whenRunning _ _ _ (fun s h => ?_) h
  show Keeps a (if powerOn s ≤ s.rel.lastSec then s else _)
  refine keeps_ite h ?_
  have h1 : Keeps a (ltrAdd (0xD0 + 4 * voltBin s.pmu.vset) 1 (ltrAdd (0x50 + 4 * tjBin s.pmu.tj) 1 s)) :=
    keeps_ltrAdd _ _ _ (keeps_ltrAdd _ _ _ h)
  exact sec_aux ber (powerOn s) _ h1

theorem keeps_recordRetirement {a : State} (kind : Nat) (index : Nat) (cause : Nat) (count : Nat) (s : State) (h
    : Keeps a s) : Keeps a (recordRetirement kind index cause count s) := by
  unfold recordRetirement; try dsimp only
  with_reducible repeat' first | assumption | refine keeps_savePst _ ?_ | simp only [keeps_mk] | refine keepsAll_of ?_

theorem keeps_retirementQueryBody {a : State} (p : Packet) (s : State) (h : Keeps a s) : KeepsR a
    (retirementQueryBody p s) := by
  unfold retirementQueryBody; try dsimp only
  with_reducible repeat' first
      | assumption | refine keeps_require _ _ _ ?_ ?_ | exact keeps_badParam
      | refine keeps_withBuf _ _ _ _ _ _ _ ?_ ?_ | refine keepsR_ok ?_ | intro _ | apply_assumption

theorem keeps_specRetirementQuery : KeepsC specRetirementQuery := by
  intro a p s h
  unfold specRetirementQuery; try dsimp only
  with_reducible repeat' first | assumption | refine keeps_retirementQueryBody _ _ ?_

theorem keeps_execRetirementQuery {a : State} (t : Ticks) (p : Packet) (s : State) (h : Keeps a s) : KeepsX a
    (execRetirementQuery t p s) := by
  unfold execRetirementQuery; try dsimp only
  with_reducible repeat' first | assumption | refine keeps_runPacket _ _ _ _ ?_ ?_ | exact keeps_specRetirementQuery

theorem keeps_ltrReadRecord {a : State} (source : Nat) (bank : Nat) (s : State) (h : Keeps a s) : Keeps a
    (ltrReadRecord source bank s).2 := by
  unfold ltrReadRecord; try dsimp only
  with_reducible repeat' first | assumption | refine keeps_takeFree _ ?_ | refine keeps_freeBytes _ _ ?_ | split

theorem keeps_ltrReadBody {a : State} (p : Packet) (s : State) (h : Keeps a s) : KeepsR a (ltrReadBody p s) := by
  unfold ltrReadBody; try dsimp only
  with_reducible repeat' first
      | assumption | refine keeps_require _ _ _ ?_ ?_ | exact keeps_badParam | refine keeps_ltrReadRecord _ _ _ ?_
      | refine keeps_withBuf _ _ _ _ _ _ _ ?_ ?_ | refine keepsR_ok ?_ | intro _ | apply_assumption

theorem keeps_specLtrRead : KeepsC specLtrRead := by
  intro a p s h
  unfold specLtrRead; try dsimp only
  with_reducible repeat' first | assumption | refine keeps_ltrReadBody _ _ ?_

theorem keeps_execLtrRead {a : State} (t : Ticks) (p : Packet) (s : State) (h : Keeps a s) : KeepsX a
    (execLtrRead t p s) := by
  unfold execLtrRead; try dsimp only
  with_reducible repeat' first | assumption | refine keeps_runPacket _ _ _ _ ?_ ?_ | exact keeps_specLtrRead

theorem keeps_ltrCheckpointBody {a : State} (p : Packet) (s : State) (h : Keeps a s) : KeepsR a
    (ltrCheckpointBody p s) := by
  unfold ltrCheckpointBody; try dsimp only
  with_reducible repeat' first
      | assumption | refine keeps_require _ _ _ ?_ ?_ | exact keeps_badParam | exact keeps_busy
      | refine keeps_startCheckpoint _ _ ?_ | refine keepsR_pend ?_

theorem keeps_specLtrCheckpoint : KeepsC specLtrCheckpoint := by
  intro a p s h
  unfold specLtrCheckpoint; try dsimp only
  with_reducible repeat' first | assumption | refine keeps_ltrCheckpointBody _ _ ?_

theorem keeps_execLtrCheckpoint {a : State} (t : Ticks) (p : Packet) (s : State) (h : Keeps a s) : KeepsX a
    (execLtrCheckpoint t p s) := by
  unfold execLtrCheckpoint; try dsimp only
  with_reducible repeat' first | assumption | refine keeps_runPacket _ _ _ _ ?_ ?_ | exact keeps_specLtrCheckpoint

theorem keeps_eccLogReadBody {a : State} (p : Packet) (s : State) (h : Keeps a s) : KeepsR a
    (eccLogReadBody p s) := by
  unfold eccLogReadBody; try dsimp only
  with_reducible repeat' first
      | assumption | refine keeps_require _ _ _ ?_ ?_ | exact keeps_badParam | refine keeps_freeBytes _ _ ?_
      | refine keeps_withBuf _ _ _ _ _ _ _ ?_ ?_ | refine keepsR_ok ?_ | intro _ | refine keeps_ite ?_ ?_
      | simp only [keeps_mk] | refine keepsAll_of ?_ | apply_assumption

theorem keeps_specEccLogRead : KeepsC specEccLogRead := by
  intro a p s h
  unfold specEccLogRead; try dsimp only
  with_reducible repeat' first | assumption | refine keeps_eccLogReadBody _ _ ?_

theorem keeps_execEccLogRead {a : State} (t : Ticks) (p : Packet) (s : State) (h : Keeps a s) : KeepsX a
    (execEccLogRead t p s) := by
  unfold execEccLogRead; try dsimp only
  with_reducible repeat' first | assumption | refine keeps_runPacket _ _ _ _ ?_ ?_ | exact keeps_specEccLogRead

/-! ### Repairs -/

theorem keeps_exhaustRow {a : State} (w : RowRef) (s : State) (h : Keeps a s) : Keeps a (exhaustRow w s) := by
  unfold exhaustRow; try dsimp only
  with_reducible repeat' first
      | assumption | refine keeps_ltrAdd _ _ _ ?_ | refine keeps_raise _ _ ?_ | refine keeps_savePst _ ?_
      | simp only [keeps_mk] | refine keepsAll_of ?_

theorem keeps_repairRow {a : State} (w : RowRef) (s : State) (h : Keeps a s) : Keeps a (repairRow w s) := by
  unfold repairRow; try dsimp only
  with_reducible repeat' first
      | assumption | refine keeps_exhaustRow _ _ ?_ | refine keeps_raise _ _ ?_ | refine keeps_ltrAdd _ _ _ ?_
      | refine keeps_savePst _ ?_ | refine keeps_ite ?_ ?_ | simp only [keeps_mk] | refine keepsAll_of ?_

theorem keeps_runRepairs {a : State} (s : State) (h : Keeps a s) : Keeps a (runRepairs s) := by
  unfold runRepairs; try dsimp only
  with_reducible repeat' first
      | assumption | refine keeps_repairRow _ _ ?_ | refine keeps_forAll _ _ _ ?_ ?_ | intro _

end Sys2Proof.Laws
end

