-- ==== Sys2Proof/Laws/KeepsFlows.lean ====
section
/-! SUPPORT. What transfers, the traffic scheduler, ingest, fetching and the escapement keep: the queue, time that
never goes back, the canonical form of memory and a legal mode. One lemma per operation. -/
namespace Sys2Proof.Laws
open Sys2Proof Sys2Proof.Machine

/-! ### Flags -/

theorem keeps_setMgmt {a : State} (u : Nat) (w : Nat) (s : State) (h : Keeps a s) : Keeps a (setMgmt u w s) := h

theorem keeps_clearMgmt {a : State} (u : Nat) (s : State) (h : Keeps a s) : Keeps a (clearMgmt u s) := h

theorem keeps_markUnit {a : State} (u : Nat) (s : State) (h : Keeps a s) : Keeps a (markUnit u s) := by
  unfold markUnit; try dsimp only
  with_reducible repeat' first | assumption | refine keeps_raise _ _ ?_ | simp only [keeps_mk] | refine keepsAll_of ?_

theorem keeps_compareUnit {a : State} (u : Nat) (s : State) (h : Keeps a s) : Keeps a (compareUnit u s) := by
  unfold compareUnit; try dsimp only
  with_reducible repeat' first | assumption | refine keeps_markUnit _ _ ?_ | refine keeps_ite ?_ ?_

theorem keeps_raiseUnit {a : State} (u : Nat) (n : Nat) (s : State) (h : Keeps a s) : Keeps a (raiseUnit u n s) := by
  unfold raiseUnit; try dsimp only
  with_reducible repeat' first | assumption | refine keeps_compareUnit _ _ ?_ | refine keeps_raise _ _ ?_

theorem keeps_setChan {a : State} (n : Nat) (v : Nat) (s : State) (h : Keeps a s) : Keeps a (setChan n v s) := by
  unfold setChan; try dsimp only
  with_reducible repeat' first
      | assumption | refine keeps_raiseUnit _ _ _ ?_ | refine keeps_ite ?_ ?_ | simp only [keeps_mk]
      | refine keepsAll_of ?_

theorem keeps_clearMark {a : State} (u : Nat) (s : State) (h : Keeps a s) : Keeps a (clearMark u s) := by
  unfold clearMark; try dsimp only
  with_reducible repeat' first
      | assumption | refine keeps_raise _ _ ?_ | refine keeps_ite ?_ ?_ | simp only [keeps_mk] | refine keepsAll_of ?_

theorem keeps_adoptData {a : State} (u : Nat) (s : State) (h : Keeps a s) : Keeps a (adoptData u s) := by
  unfold adoptData; try dsimp only
  with_reducible repeat' first
      | assumption | refine keeps_clearMark _ _ ?_ | refine keeps_clearMgmt _ _ ?_ | refine keeps_setMgmt _ _ _ ?_
      | refine keeps_ite ?_ ?_

/-! ### CfOps -/

theorem keeps_putXfer {a : State} (ctx : Nat) (x : Xfer) (s : State) (h : Keeps a s) : Keeps a (putXfer ctx x s) := h

theorem keeps_dropXfer {a : State} (ctx : Nat) (s : State) (h : Keeps a s) : Keeps a (dropXfer ctx s) := h

theorem keeps_startXfer {a : State} (ctx : Nat) (k : Nat) (x : Xfer) (s : State) (h : Keeps a s) : Keeps a
    (startXfer ctx k x s) := by
  unfold startXfer; try dsimp only
  with_reducible repeat' first
      | assumption | refine keeps_sendTo _ _ _ ?_ | refine keeps_pinSlot _ _ _ _ ?_ | refine keeps_putXfer _ _ _ ?_

theorem keeps_followNext {a : State} (ctx : Nat) (s : State) (h : Keeps a s) : Keeps a (followNext ctx s) := by
  unfold followNext; try dsimp only
  with_reducible repeat' first | assumption | refine keeps_startXfer _ _ _ _ ?_ | refine keeps_ite ?_ ?_ | split

theorem keeps_releaseXfer {a : State} (ctx : Nat) (s : State) (h : Keeps a s) : Keeps a (releaseXfer ctx s) := by
  unfold releaseXfer; try dsimp only
  with_reducible repeat' first
      | assumption | refine keeps_unpinSlot _ _ _ _ ?_ | refine keeps_putXfer _ _ _ ?_ | split

theorem keeps_endXferSlot {a : State} (ctx : Nat) (s : State) (h : Keeps a s) : Keeps a (endXferSlot ctx s) := by
  unfold endXferSlot; try dsimp only
  with_reducible repeat' first
      | assumption | refine keeps_releaseXfer _ _ ?_ | refine keeps_putXfer _ _ _ ?_ | refine keeps_dropXfer _ _ ?_
      | refine keeps_followNext _ _ ?_ | refine keeps_ite ?_ ?_ | split

/-! ### TsOps -/

theorem keeps_alertBit {a : State} (key : Nat) (word : Nat) (i : Nat) (src : Nat) (store : Nat → State → State) (s
    : State) (hstore : ∀ y0 y1, Keeps a y1 → Keeps a (store y0 y1)) (h : Keeps a s) : Keeps a
    (alertBit key word i src store s) := by
  unfold alertBit; try dsimp only
  with_reducible repeat' first
      | assumption | apply hstore | refine keeps_noteSet _ _ _ ?_ | refine keeps_raise _ _ ?_ | refine keeps_ite ?_ ?_

theorem keeps_queueAlert {a : State} (q : Nat) (s : State) (h : Keeps a s) : Keeps a (queueAlert q s) := by
  unfold queueAlert; try dsimp only
  with_reducible repeat' first
      | assumption | refine keeps_alertBit _ _ _ _ _ _ ?_ ?_ | intro _ | simp only [keeps_mk] | refine keepsAll_of ?_

theorem keeps_meterAlert {a : State} (f : Nat) (s : State) (h : Keeps a s) : Keeps a (meterAlert f s) := by
  unfold meterAlert; try dsimp only
  with_reducible repeat' first
      | assumption | refine keeps_alertBit _ _ _ _ _ _ ?_ ?_ | intro _ | simp only [keeps_mk] | refine keepsAll_of ?_

theorem keeps_ingestAlert {a : State} (f : Nat) (s : State) (h : Keeps a s) : Keeps a (ingestAlert f s) := by
  unfold ingestAlert; try dsimp only
  with_reducible repeat' first
      | assumption | refine keeps_alertBit _ _ _ _ _ _ ?_ ?_ | intro _ | simp only [keeps_mk] | refine keepsAll_of ?_

theorem keeps_egressAlert {a : State} (f : Nat) (s : State) (h : Keeps a s) : Keeps a (egressAlert f s) := by
  unfold egressAlert; try dsimp only
  with_reducible repeat' first
      | assumption | refine keeps_alertBit _ _ _ _ _ _ ?_ ?_ | intro _ | simp only [keeps_mk] | refine keepsAll_of ?_

theorem keeps_settleSending {a : State} (f : Nat) (s : State) (h : Keeps a s) : Keeps a (settleSending f s) := by
  unfold settleSending; try dsimp only
  with_reducible repeat' first
      | assumption | refine keeps_putEgress _ _ _ ?_ | refine keeps_compareUnit _ _ ?_
      | refine keeps_egressAlert _ _ ?_ | refine keeps_ite ?_ ?_

theorem keeps_countDropped {a : State} (q : Nat) (n : Nat) (s : State) (h : Keeps a s) : Keeps a
    (countDropped q n s) := by
  unfold countDropped; try dsimp only
  with_reducible repeat' first | assumption | refine keeps_putEgress _ _ _ ?_

theorem keeps_discardQueue {a : State} (q : Nat) (s : State) (h : Keeps a s) : Keeps a (discardQueue q s) := by
  unfold discardQueue; try dsimp only
  with_reducible repeat' first | assumption | refine keeps_countDropped _ _ _ ?_ | refine keeps_putQueue _ _ _ ?_

theorem keeps_noteBuffer {a : State} (s : State) (h : Keeps a s) : Keeps a (noteBuffer s) := h

theorem keeps_enqueue {a : State} (q : Nat) (data : List Byte) (s : State) (h : Keeps a s) : Keeps a
    (enqueue q data s) := by
  unfold enqueue; try dsimp only
  with_reducible repeat' first | assumption | refine keeps_noteBuffer _ ?_ | refine keeps_putQueue _ _ _ ?_

theorem keeps_enqueueOrDrop {a : State} (q : Nat) (data : List Byte) (s : State) (h : Keeps a s) : Keeps a
    (enqueueOrDrop q data s) := by
  unfold enqueueOrDrop; try dsimp only
  with_reducible repeat' first
      | assumption | refine keeps_enqueue _ _ _ ?_ | refine keeps_queueAlert _ _ ?_
      | refine keeps_countDropped _ _ _ ?_ | refine keeps_ite ?_ ?_

theorem keeps_dropHead {a : State} (q : Nat) (s : State) (h : Keeps a s) : Keeps a (dropHead q s) := by
  unfold dropHead; try dsimp only
  with_reducible repeat' first
      | assumption | refine keeps_queueAlert _ _ ?_ | refine keeps_countDropped _ _ _ ?_
      | refine keeps_putQueue _ _ _ ?_

theorem keeps_dropHeads {a : State} (p : Nat) (q : Nat) (n : Nat) (s : State) (h : Keeps a s) : Keeps a
    (dropHeads p q n s) := by
  induction n generalizing s with
  | zero => exact h
  | succ n ih =>
    unfold dropHeads
    with_reducible repeat' first
        | assumption | apply ih | apply keeps_dropHead | apply keeps_raiseUnit | apply keeps_putTsPort | split

theorem keeps_countGuards {a : State} (p : Nat) (s : State) (h : Keeps a s) : Keeps a (countGuards p s) := by
  unfold countGuards; try dsimp only
  with_reducible repeat' first
      | assumption | refine keeps_putQueue _ _ _ ?_ | refine keeps_putTsPort _ _ _ ?_
      | refine keeps_forAll _ _ _ ?_ ?_ | intro _ | refine keeps_ite ?_ ?_ | split

theorem keeps_sendHead {a : State} (p : Nat) (q : Nat) (green : Bool) (s : State) (h : Keeps a s) : Keeps a
    (sendHead p q green s) := by
  unfold sendHead; try dsimp only
  with_reducible repeat' first
      | assumption | refine keeps_putQueue _ _ _ ?_ | refine keeps_putTsPort _ _ _ ?_
      | refine keeps_putEgress _ _ _ ?_ | refine keeps_emit _ _ ?_ | refine keeps_putEth _ _ _ ?_
      | refine keeps_ite ?_ ?_ | split

theorem keeps_portSelect {a : State} (p : Nat) (s : State) (h : Keeps a s) : Keeps a (portSelect p s) := by
  unfold portSelect; try dsimp only
  with_reducible repeat' first
      | assumption | refine keeps_dropHeads _ _ _ _ ?_ | refine keeps_countGuards _ _ ?_
      | refine keeps_sendHead _ _ _ _ ?_ | refine keeps_forAll _ _ _ ?_ ?_ | intro _ | refine keeps_ite ?_ ?_ | split

theorem keeps_sampleQueue {a : State} (q : Nat) (s : State) (h : Keeps a s) : Keeps a (sampleQueue q s) := by
  unfold sampleQueue; try dsimp only
  with_reducible repeat' first
      | assumption | refine keeps_putQueue _ _ _ ?_ | refine keeps_queueAlert _ _ ?_ | refine keeps_ite ?_ ?_

theorem keeps_meterPacket {a : State} (f : Nat) (dscp : Nat) (len : Nat) (level : Nat) (s : State) (h : Keeps a s)
    : Keeps a (meterPacket f dscp len level s).2 := by
  unfold meterPacket; try dsimp only
  with_reducible repeat' first | assumption | refine keeps_putMeter _ _ _ ?_ | refine keeps_meterAlert _ _ ?_ | split

/-! ### Publish -/

theorem keeps_takeChange {a : State} (f : Nat) (s : State) (h : Keeps a s) : Keeps a (takeChange f s) := by
  unfold takeChange; try dsimp only
  with_reducible repeat' first
      | assumption | refine keeps_settleSending _ _ ?_ | refine keeps_putEgress _ _ _ ?_ | refine keeps_ite ?_ ?_

theorem keeps_fstNext {a : State} (f : Nat) (s0 : State) (h : Keeps a s0) : Keeps a (fstNext f s0) := by
  unfold fstNext; try dsimp only
  with_reducible repeat' first
      | assumption | refine keeps_takeChange _ _ ?_ | refine keeps_putEgress _ _ _ ?_
      | refine keeps_pinSlot _ _ _ _ ?_ | refine keeps_compareUnit _ _ ?_ | refine keeps_egressAlert _ _ ?_
      | refine keeps_ite ?_ ?_

theorem keeps_afterPublish {a : State} (i : Nat) (s : State) (h : Keeps a s) : Keeps a (afterPublish i s) := by
  unfold afterPublish; try dsimp only
  with_reducible repeat' first
      | assumption | refine keeps_followNext _ _ ?_ | refine keeps_fstNext _ _ ?_ | refine keeps_forAll _ _ _ ?_ ?_
      | intro _

theorem keeps_publishAuto {a : State} (i : Nat) (capture : Nat) (incomplete : Bool) (loss : Nat) (s : State) (h
    : Keeps a s) : Keeps a (publishAuto i capture incomplete loss s) := by
  unfold publishAuto; try dsimp only
  with_reducible repeat' first
      | assumption | refine keeps_putSurf _ _ _ ?_ | refine keeps_afterPublish _ _ ?_ | refine keeps_raise _ _ ?_
      | refine keeps_ite ?_ ?_

theorem keeps_noWriteSlot {a : State} (i : Nat) (s : State) (h : Keeps a s) : Keeps a (noWriteSlot i s) := by
  unfold noWriteSlot; try dsimp only
  with_reducible repeat' first | assumption | refine keeps_raise _ _ ?_ | refine keeps_putSurf _ _ _ ?_

theorem keeps_copyFromNewest {a : State} (x : Surface) (off : Nat) (n : Nat) (s : State) (h : Keeps a s) : Keeps a
    (copyFromNewest x off n s) := by
  unfold copyFromNewest; try dsimp only
  with_reducible repeat' first
      | assumption | refine keeps_memWrite _ _ _ ?_ | refine keeps_countRead _ _ _ ?_ | refine keeps_ite ?_ ?_

theorem keeps_writeSlot {a : State} (x : Surface) (off : Nat) (b : List Byte) (s : State) (h : Keeps a s) : Keeps a
    (writeSlot x off b s) := by
  unfold writeSlot; try dsimp only
  with_reducible repeat' first | assumption | refine keeps_memWrite _ _ _ ?_ | refine keeps_ite ?_ ?_

/-! ### NeOps -/

theorem keeps_settleFlows {a : State} (p : Nat) (s : State) (h : Keeps a s) : Keeps a (settleFlows p s) := by
  unfold settleFlows; try dsimp only
  with_reducible repeat' first
      | assumption | refine keeps_settleSending _ _ ?_ | refine keeps_forAll _ _ _ ?_ ?_ | intro _

theorem keeps_setPortUp {a : State} (p : Nat) (v : Bool) (s : State) (h : Keeps a s) : Keeps a (setPortUp p v s) := by
  unfold setPortUp; try dsimp only
  with_reducible repeat' first
      | assumption | refine keeps_settleFlows _ _ ?_ | refine keeps_compareUnit _ _ ?_ | refine keeps_raise _ _ ?_
      | refine keeps_putEth _ _ _ ?_ | refine keeps_ite ?_ ?_

theorem keeps_rxError {a : State} (p : Nat) (s : State) (h : Keeps a s) : Keeps a (rxError p s) := by
  unfold rxError; try dsimp only
  with_reducible repeat' first
      | assumption | refine keeps_putEth _ _ _ ?_ | refine keeps_raiseUnit _ _ _ ?_ | refine keeps_ite ?_ ?_

theorem keeps_sendFw {a : State} (p : Nat) (len : Nat) (kind : Nat) (words : List Nat) (s : State) (h : Keeps a s)
    : Keeps a (sendFw p len kind words s) := by
  unfold sendFw; try dsimp only
  with_reducible repeat' first
      | assumption | refine keeps_emit _ _ ?_ | refine keeps_putEth _ _ _ ?_ | refine keeps_ite ?_ ?_

theorem keeps_sendReport {a : State} (p : Nat) (ipv6 : Bool) (l : List Join) (s : State) (h : Keeps a s) : Keeps a
    (sendReport p ipv6 l s) := by
  unfold sendReport; try dsimp only
  with_reducible repeat' first | assumption | refine keeps_sendFw _ _ _ _ _ ?_ | refine keeps_ite ?_ ?_

theorem keeps_reportChange {a : State} (p : Nat) (old : List Join) (s : State) (h : Keeps a s) : Keeps a
    (reportChange p old s) := by
  unfold reportChange; try dsimp only
  with_reducible repeat' first | assumption | refine keeps_sendReport _ _ _ _ ?_

theorem keeps_reportChanges {a : State} (before : State) (s : State) (h : Keeps a s) : Keeps a
    (reportChanges before s) := by
  unfold reportChanges; try dsimp only
  with_reducible repeat' first
      | assumption | refine keeps_reportChange _ _ _ ?_ | refine keeps_forAll _ _ _ ?_ ?_ | intro _

theorem keeps_publishFlow {a : State} (f : Nat) (incomplete : Bool) (loss : Nat) (s : State) (h : Keeps a s) : Keeps a
    (publishFlow f incomplete loss s) := by
  unfold publishFlow; try dsimp only
  with_reducible repeat' first
      | assumption | refine keeps_publishAuto _ _ _ _ _ ?_ | refine keeps_putIngest _ _ _ ?_
      | refine keeps_ingestAlert _ _ ?_ | refine keeps_ite ?_ ?_

theorem keeps_discardFrame {a : State} (f : Nat) (s : State) (h : Keeps a s) : Keeps a (discardFrame f s) := by
  unfold discardFrame; try dsimp only
  with_reducible repeat' first | assumption | refine keeps_ingestAlert _ _ ?_ | refine keeps_putIngest _ _ _ ?_

theorem keeps_closeVideo {a : State} (f : Nat) (marker : Bool) (s : State) (h : Keeps a s) : Keeps a
    (closeVideo f marker s) := by
  unfold closeVideo; try dsimp only
  with_reducible repeat' first
      | assumption | refine keeps_publishFlow _ _ _ _ ?_ | refine keeps_discardFrame _ _ ?_
      | refine keeps_copyFromNewest _ _ _ _ ?_ | refine keeps_forAll _ _ _ ?_ ?_ | intro _ | refine keeps_ite ?_ ?_

theorem keeps_closeFst {a : State} (f : Nat) (s : State) (h : Keeps a s) : Keeps a (closeFst f s) := by
  unfold closeFst; try dsimp only
  with_reducible repeat' first
      | assumption | refine keeps_writeSlot _ _ _ _ ?_ | refine keeps_copyFromNewest _ _ _ _ ?_
      | refine keeps_publishFlow _ _ _ _ ?_ | refine keeps_forAll _ _ _ ?_ ?_ | intro _ | refine keeps_ite ?_ ?_

theorem keeps_closeFrame {a : State} (f : Nat) (marker : Bool) (s : State) (h : Keeps a s) : Keeps a
    (closeFrame f marker s) := by
  unfold closeFrame; try dsimp only
  with_reducible repeat' first
      | assumption | refine keeps_closeFst _ _ ?_ | refine keeps_closeVideo _ _ _ ?_ | refine keeps_putIngest _ _ _ ?_
      | refine keeps_ite ?_ ?_ | split

theorem keeps_dropWaiting {a : State} (f : Nat) (s : State) (h : Keeps a s) : Keeps a (dropWaiting f s) := h

theorem keeps_abandonFrame {a : State} (f : Nat) (s : State) (h : Keeps a s) : Keeps a (abandonFrame f s) := by
  unfold abandonFrame; try dsimp only
  with_reducible repeat' first
      | assumption | refine keeps_putIngest _ _ _ ?_ | refine keeps_dropWaiting _ _ ?_ | refine keeps_ite ?_ ?_

theorem keeps_beginFlow {a : State} (f : Nat) (q : FlowPkt) (s : State) (h : Keeps a s) : Keeps a
    (beginFlow f q s) := by
  unfold beginFlow; try dsimp only
  with_reducible repeat' first
      | assumption | refine keeps_discardFrame _ _ ?_ | refine keeps_putIngest _ _ _ ?_
      | refine keeps_noWriteSlot _ _ ?_ | refine keeps_useSlot _ _ ?_ | refine keeps_ite ?_ ?_

theorem keeps_writePacket {a : State} (f : Nat) (q : FlowPkt) (s : State) (h : Keeps a s) : Keeps a
    (writePacket f q s) := by
  unfold writePacket; try dsimp only
  with_reducible repeat' first
      | assumption | refine keeps_writeSlot _ _ _ _ ?_ | refine keeps_putIngest _ _ _ ?_
      | refine keeps_closeFrame _ _ _ ?_ | refine keeps_forAll _ _ _ ?_ ?_ | intro _ | refine keeps_ite ?_ ?_

theorem keeps_lateFrame {a : State} (f : Nat) (s : State) (h : Keeps a s) : Keeps a (lateFrame f s) := by
  unfold lateFrame; try dsimp only
  with_reducible repeat' first | assumption | refine keeps_putIngest _ _ _ ?_

theorem keeps_assignPacket {a : State} (f : Nat) (q : FlowPkt) (s : State) (h : Keeps a s) : Keeps a
    (assignPacket f q s) := by
  unfold assignPacket; try dsimp only
  with_reducible repeat' first
      | assumption | refine keeps_closeFrame _ _ _ ?_ | refine keeps_putIngest _ _ _ ?_
      | refine keeps_writePacket _ _ _ ?_ | refine keeps_lateFrame _ _ ?_ | refine keeps_beginFlow _ _ _ ?_
      | refine keeps_ite ?_ ?_

theorem keeps_takePacket {a : State} (q : IngestPkt) (s : State) (h : Keeps a s) : Keeps a (takePacket q s) := by
  unfold takePacket; try dsimp only
  with_reducible repeat' first
      | assumption | refine keeps_assignPacket _ _ _ ?_ | refine keeps_ite ?_ ?_ | simp only [keeps_mk]
      | refine keepsAll_of ?_

theorem keeps_drainIngest {a : State} (s : State) (h : Keeps a s) : Keeps a (drainIngest s) := by
  unfold drainIngest; try dsimp only
  with_reducible repeat' first
      | assumption | refine keeps_takePacket _ _ ?_ | refine keeps_forAll _ _ _ ?_ ?_ | intro _ | simp only [keeps_mk]
      | refine keepsAll_of ?_

theorem keeps_bufferPacket {a : State} (q : IngestPkt) (s : State) (h : Keeps a s) : Keeps a (bufferPacket q s) := by
  unfold bufferPacket; try dsimp only
  with_reducible repeat' first
      | assumption | refine keeps_takePacket _ _ ?_ | refine keeps_putIngest _ _ _ ?_ | refine keeps_drainIngest _ ?_

/-! ### Ingest -/

theorem keeps_flowPacket {a : State} (f : Nat) (legB : Bool) (dscp : Nat) (len : Nat) (level : Nat) (q : FlowPkt) (s
    : State) (h : Keeps a s) : Keeps a (flowPacket f legB dscp len level q s) := by
  unfold flowPacket; try dsimp only
  with_reducible repeat' first
      | assumption | refine keeps_putIngest _ _ _ ?_ | refine keeps_meterPacket _ _ _ _ _ ?_
      | refine keeps_raise _ _ ?_ | refine keeps_bufferPacket _ _ ?_ | refine keeps_ite ?_ ?_ | simp only [keeps_mk]
      | refine keepsAll_of ?_ | split

theorem keeps_udpPacket {a : State} (p : Nat) (len : Nat) (level : Nat) (u : UdpRx) (s : State) (h : Keeps a s)
    : Keeps a (udpPacket p len level u s) := by
  unfold udpPacket; try dsimp only
  with_reducible repeat' first
      | assumption | refine keeps_putEth _ _ _ ?_ | refine keeps_putIngest _ _ _ ?_ | refine keeps_ingestAlert _ _ ?_
      | refine keeps_flowPacket _ _ _ _ _ _ _ ?_ | refine keeps_ite ?_ ?_ | split

theorem keeps_frameRx {a : State} (p : Nat) (level : Nat) (b : List Byte) (s : State) (h : Keeps a s) : Keeps a
    (frameRx p level b s) := by
  unfold frameRx; try dsimp only
  with_reducible repeat' first
      | assumption | refine keeps_rxError _ _ ?_ | refine keeps_putEth _ _ _ ?_ | refine keeps_udpPacket _ _ _ _ _ ?_
      | refine keeps_ite ?_ ?_ | split

theorem keeps_countFixed {a : State} (p : Nat) (n : Nat) (s : State) (h : Keeps a s) : Keeps a
    (countFixed p n s) := by
  unfold countFixed; try dsimp only
  with_reducible repeat' first | assumption | refine keeps_putEth _ _ _ ?_ | refine keeps_ite ?_ ?_

theorem keeps_execEthFrameRx {a : State} (t : Ticks) (port : Nat) (level : Nat) (fixed : Nat) (frame : List Byte) (s
    : State) (h : Keeps a s) : KeepsX a (execEthFrameRx t port level fixed frame s) := by
  unfold execEthFrameRx; try dsimp only
  with_reducible repeat' first
      | assumption | refine keeps_whenRunning _ _ _ ?_ ?_ | refine keeps_frameRx _ _ _ _ ?_
      | refine keeps_countFixed _ _ _ ?_ | intro _ | refine keeps_ite ?_ ?_

theorem keeps_noteQuerier {a : State} (p : Nat) (ipv6 : Bool) (v : Nat) (s : State) (h : Keeps a s) : Keeps a
    (noteQuerier p ipv6 v s) := by
  unfold noteQuerier; try dsimp only
  with_reducible repeat' first | assumption | refine keeps_putEth _ _ _ ?_ | refine keeps_ite ?_ ?_

theorem keeps_fwAnswer {a : State} (p : Nat) (x : FwRequest) (s : State) (h : Keeps a s) : Keeps a
    (fwAnswer p x s) := by
  unfold fwAnswer; try dsimp only
  with_reducible repeat' first
      | assumption | refine keeps_sendFw _ _ _ _ _ ?_ | refine keeps_noteQuerier _ _ _ _ ?_
      | refine keeps_sendReport _ _ _ _ ?_ | refine keeps_ite ?_ ?_ | split

theorem keeps_execFwFrameService {a : State} (t : Ticks) (port : Nat) (x : FwRequest) (s : State) (h : Keeps a s)
    : KeepsX a (execFwFrameService t port x s) := by
  unfold execFwFrameService; try dsimp only
  with_reducible repeat' first
      | assumption | refine keeps_whenRunning _ _ _ ?_ ?_ | refine keeps_putEth _ _ _ ?_
      | refine keeps_fwAnswer _ _ _ ?_ | intro _ | refine keeps_ite ?_ ?_

theorem keeps_execIngestFrameTimeout {a : State} (t : Ticks) (flow : Nat) (s : State) (h : Keeps a s) : KeepsX a
    (execIngestFrameTimeout t flow s) := by
  unfold execIngestFrameTimeout; try dsimp only
  with_reducible repeat' first
      | assumption | refine keeps_whenRunning _ _ _ ?_ ?_ | refine keeps_closeFrame _ _ _ ?_ | intro _
      | refine keeps_ite ?_ ?_

/-! ### FetchOps -/

theorem keeps_settleLine {a : State} (r : Nat) (s : State) (h : Keeps a s) : Keeps a (settleLine r s) := by
  unfold settleLine; try dsimp only
  with_reducible repeat' first | assumption | refine keeps_putFs _ _ _ ?_ | refine keeps_ite ?_ ?_

theorem keeps_openLine {a : State} (r : Nat) (s : State) (h : Keeps a s) : Keeps a (openLine r s) := by
  unfold openLine; try dsimp only
  with_reducible repeat' first | assumption | refine keeps_settleLine _ _ ?_ | refine keeps_putFs _ _ _ ?_

theorem keeps_issueReq {a : State} (n : Nat) (r : Nat) (q : LineReq) (green : Bool) (s : State) (h : Keeps a s)
    : Keeps a (issueReq n r q green s) := by
  unfold issueReq; try dsimp only
  with_reducible repeat' first
      | assumption | refine keeps_putChanFs _ _ _ ?_ | refine keeps_putFs _ _ _ ?_ | refine keeps_settleLine _ _ ?_
      | refine keeps_countRead _ _ _ ?_ | simp only [keeps_mk] | refine keepsAll_of ?_

theorem keeps_guardWait {a : State} (n : Nat) (r : Nat) (q : FetchReq) (runEnd : Nat) (s : State) (h : Keeps a s)
    : Keeps a (guardWait n r q runEnd s) := by
  unfold guardWait; try dsimp only
  with_reducible repeat' first | assumption | refine keeps_putChanFs _ _ _ ?_ | refine keeps_ite ?_ ?_

theorem keeps_guardClass {a : State} (n : Nat) (left : Option Nat) (offers : List (Nat × LineReq)) (s : State) (h
    : Keeps a s) : Keeps a (guardClass n left offers s) := by
  unfold guardClass; try dsimp only
  with_reducible repeat' first
      | assumption | refine keeps_guardWait _ _ _ _ _ ?_ | refine keeps_forAll _ _ _ ?_ ?_ | intro _
      | refine keeps_ite ?_ ?_ | split

theorem keeps_serviceSlot {a : State} (n : Nat) (s : State) (h : Keeps a s) : Keeps a (serviceSlot n s) := by
  unfold serviceSlot; try dsimp only
  with_reducible repeat' first
      | assumption | refine keeps_guardClass _ _ _ _ ?_ | refine keeps_issueReq _ _ _ _ _ ?_ | refine keeps_ite ?_ ?_
      | split

theorem keeps_noteLatency {a : State} (n : Nat) (r : Nat) (cls : Nat) (ns : Nat) (s : State) (h : Keeps a s) : Keeps a
    (noteLatency n r cls ns s) := by
  unfold noteLatency; try dsimp only
  with_reducible repeat' first
      | assumption | refine keeps_putChanFs _ _ _ ?_ | refine keeps_ltrAdd _ _ _ ?_ | refine keeps_putFs _ _ _ ?_
      | refine keeps_ite ?_ ?_

theorem keeps_ftcError {a : State} (i : Nat) (s : State) (h : Keeps a s) : Keeps a (ftcError i s) := by
  unfold ftcError; try dsimp only
  with_reducible repeat' first | assumption | refine keeps_raise _ _ ?_ | refine keeps_putSurf _ _ _ ?_

theorem keeps_arrive {a : State} (r : Nat) (q : FetchReq) (ok : Bool) (s : State) (h : Keeps a s) : Keeps a
    (arrive r q ok s) := by
  unfold arrive; try dsimp only
  with_reducible repeat' first
      | assumption | refine keeps_ftcError _ _ ?_ | refine keeps_noteLatency _ _ _ _ _ ?_
      | refine keeps_putFs _ _ _ ?_ | refine keeps_ite ?_ ?_ | simp only [keeps_mk] | refine keepsAll_of ?_ | split

/-! ### Escapement -/

theorem keeps_takeOver {a : State} (n : Nat) (s : State) (h : Keeps a s) : Keeps a (takeOver n s) := by
  unfold takeOver; try dsimp only
  with_reducible repeat' first | assumption | refine keeps_putChanFs _ _ _ ?_

theorem keeps_takeOverDue {a : State} (s : State) (h : Keeps a s) : Keeps a (takeOverDue s) := by
  unfold takeOverDue; try dsimp only
  with_reducible repeat' first
      | assumption | refine keeps_raise _ _ ?_ | refine keeps_writeGaps _ ?_ | refine keeps_takeOver _ _ ?_
      | refine keeps_forAll _ _ _ ?_ ?_ | intro _ | refine keeps_ite ?_ ?_

theorem keeps_execGateSwitch {a : State} (t : Ticks) (n : Nat) (s : State) (h : Keeps a s) : KeepsX a
    (execGateSwitch t n s) := by
  unfold execGateSwitch; try dsimp only
  with_reducible repeat' first
      | assumption | refine keeps_whenRunning _ _ _ ?_ ?_ | refine keeps_takeOverDue _ ?_ | intro _
      | refine keeps_ite ?_ ?_

theorem keeps_execMcgEntryAdvance {a : State} (t : Ticks) (n : Nat) (s : State) (h : Keeps a s) : KeepsX a
    (execMcgEntryAdvance t n s) := by
  unfold execMcgEntryAdvance; try dsimp only
  with_reducible repeat' first
      | assumption | refine keeps_whenRunning _ _ _ ?_ ?_ | refine keeps_putChanFs _ _ _ ?_ | intro _
      | refine keeps_ite ?_ ?_

theorem keeps_gatelistLoadBody {a : State} (p : Packet) (s0 : State) (h : Keeps a s0) : KeepsR a
    (gatelistLoadBody p s0) := by
  unfold gatelistLoadBody; try dsimp only
  with_reducible repeat' first
      | assumption | refine keeps_takeOverDue _ ?_ | refine keeps_require _ _ _ ?_ ?_ | exact keeps_badParam
      | exact keeps_busy | refine keeps_writeGaps _ ?_ | refine keeps_putChanFs _ _ _ ?_
      | refine keeps_forAll _ _ _ ?_ ?_ | refine keepsR_ok ?_ | intro _

theorem keeps_specGatelistLoad : KeepsC specGatelistLoad := by
  intro a p s h
  unfold specGatelistLoad; try dsimp only
  with_reducible repeat' first | assumption | refine keeps_gatelistLoadBody _ _ ?_

theorem keeps_execGatelistLoad {a : State} (t : Ticks) (p : Packet) (s : State) (h : Keeps a s) : KeepsX a
    (execGatelistLoad t p s) := by
  unfold execGatelistLoad; try dsimp only
  with_reducible repeat' first | assumption | refine keeps_runPacket _ _ _ _ ?_ ?_ | exact keeps_specGatelistLoad

theorem keeps_armBusy {a : State} (t : Nat) : KeepsR a (armBusy t) := by
  unfold armBusy; try dsimp only
  with_reducible exact keepsR_fail

theorem keeps_gatelistArmBody {a : State} (p : Packet) (s : State) (h : Keeps a s) : KeepsR a
    (gatelistArmBody p s) := by
  unfold gatelistArmBody; try dsimp only
  with_reducible repeat' first
      | assumption | refine keeps_require _ _ _ ?_ ?_ | exact keeps_badParam | exact keeps_armBusy _
      | refine keeps_writeGaps _ ?_ | refine keeps_putChanFs _ _ _ ?_ | refine keeps_forAll _ _ _ ?_ ?_
      | exact keepsR_fail | refine keepsR_ok ?_ | refine keepsR_done ?_ | intro _ | split

theorem keeps_specGatelistArm : KeepsC specGatelistArm := by
  intro a p s h
  unfold specGatelistArm; try dsimp only
  with_reducible repeat' first | assumption | refine keeps_gatelistArmBody _ _ ?_

theorem keeps_execGatelistArm {a : State} (t : Ticks) (p : Packet) (s : State) (h : Keeps a s) : KeepsX a
    (execGatelistArm t p s) := by
  unfold execGatelistArm; try dsimp only
  with_reducible repeat' first | assumption | refine keeps_runPacket _ _ _ _ ?_ ?_ | exact keeps_specGatelistArm

theorem keeps_gatelistQueryBody {a : State} (p : Packet) (s : State) (h : Keeps a s) : KeepsR a
    (gatelistQueryBody p s) := by
  unfold gatelistQueryBody; try dsimp only
  with_reducible repeat' first
      | assumption | refine keeps_withBuf _ _ _ _ _ _ _ ?_ ?_ | refine keepsR_ok ?_ | intro _ | apply_assumption

theorem keeps_specGatelistQuery : KeepsC specGatelistQuery := by
  intro a p s h
  unfold specGatelistQuery; try dsimp only
  with_reducible repeat' first | assumption | refine keeps_gatelistQueryBody _ _ ?_

theorem keeps_execGatelistQuery {a : State} (t : Ticks) (p : Packet) (s : State) (h : Keeps a s) : KeepsX a
    (execGatelistQuery t p s) := by
  unfold execGatelistQuery; try dsimp only
  with_reducible repeat' first | assumption | refine keeps_runPacket _ _ _ _ ?_ ?_ | exact keeps_specGatelistQuery

theorem keeps_shaperSetBody {a : State} (p : Packet) (s : State) (h : Keeps a s) : KeepsR a (shaperSetBody p s) := by
  unfold shaperSetBody; try dsimp only
  with_reducible repeat' first
      | assumption | refine keeps_require _ _ _ ?_ ?_ | exact keeps_busy | exact keeps_badParam
      | refine keeps_okay _ ?_ | refine keeps_putFs _ _ _ ?_

theorem keeps_rasterSpec (op : Nat) (body : Packet → State → Res) (hbody : ∀ a p s, Keeps a s → KeepsR a (body p s))
    : KeepsC (rasterSpec op body) := by
  intro a p s h
  unfold rasterSpec; try dsimp only
  with_reducible repeat' first | assumption | apply hbody

theorem keeps_specShaperSet : KeepsC specShaperSet := by
  intro a p s h
  unfold specShaperSet rasterSpec; try dsimp only
  with_reducible repeat' first | assumption | refine keeps_shaperSetBody _ _ ?_

theorem keeps_execShaperSet {a : State} (t : Ticks) (p : Packet) (s : State) (h : Keeps a s) : KeepsX a
    (execShaperSet t p s) := by
  unfold execShaperSet; try dsimp only
  with_reducible repeat' first | assumption | refine keeps_runPacket _ _ _ _ ?_ ?_ | exact keeps_specShaperSet

theorem keeps_verdictRes {a : State} (v : Verdict) (k : Res) (hk : KeepsR a k) : KeepsR a (verdictRes v k) := by
  unfold verdictRes; try dsimp only
  with_reducible repeat' first | assumption | exact keepsR_fail | split

theorem keeps_leadSetBody {a : State} (p : Packet) (s : State) (h : Keeps a s) : KeepsR a (leadSetBody p s) := by
  unfold leadSetBody; try dsimp only
  with_reducible repeat' first
      | assumption | refine keeps_require _ _ _ ?_ ?_ | exact keeps_busy | exact keeps_badParam
      | refine keeps_verdictRes _ _ ?_ | refine keeps_putFs _ _ _ ?_ | refine keepsR_ok ?_

theorem keeps_specLeadSet : KeepsC specLeadSet := by
  intro a p s h
  unfold specLeadSet rasterSpec; try dsimp only
  with_reducible repeat' first | assumption | refine keeps_leadSetBody _ _ ?_

theorem keeps_execLeadSet {a : State} (t : Ticks) (p : Packet) (s : State) (h : Keeps a s) : KeepsX a
    (execLeadSet t p s) := by
  unfold execLeadSet; try dsimp only
  with_reducible repeat' first | assumption | refine keeps_runPacket _ _ _ _ ?_ ?_ | exact keeps_specLeadSet

theorem keeps_demandQueryBody {a : State} (p : Packet) (s : State) (h : Keeps a s) : KeepsR a
    (demandQueryBody p s) := by
  unfold demandQueryBody; try dsimp only
  with_reducible repeat' first
      | assumption | refine keeps_require _ _ _ ?_ ?_ | exact keeps_badParam
      | refine keeps_withBuf _ _ _ _ _ _ _ ?_ ?_ | refine keepsR_ok ?_ | intro _ | apply_assumption

theorem keeps_specDemandQuery : KeepsC specDemandQuery := by
  intro a p s h
  unfold specDemandQuery rasterSpec; try dsimp only
  with_reducible repeat' first | assumption | refine keeps_demandQueryBody _ _ ?_

theorem keeps_execDemandQuery {a : State} (t : Ticks) (p : Packet) (s : State) (h : Keeps a s) : KeepsX a
    (execDemandQuery t p s) := by
  unfold execDemandQuery; try dsimp only
  with_reducible repeat' first | assumption | refine keeps_runPacket _ _ _ _ ?_ ?_ | exact keeps_specDemandQuery

theorem keeps_latencyHistReadBody {a : State} (p : Packet) (s : State) (h : Keeps a s) : KeepsR a
    (latencyHistReadBody p s) := by
  unfold latencyHistReadBody; try dsimp only
  with_reducible repeat' first
      | assumption | refine keeps_require _ _ _ ?_ ?_ | exact keeps_badParam
      | refine keeps_withBuf _ _ _ _ _ _ _ ?_ ?_ | refine keeps_okay _ ?_ | refine keeps_putChanFs _ _ _ ?_
      | refine keeps_forAll _ _ _ ?_ ?_ | intro _ | refine keeps_ite ?_ ?_ | apply_assumption

theorem keeps_specLatencyHistRead : KeepsC specLatencyHistRead := by
  intro a p s h
  unfold specLatencyHistRead; try dsimp only
  with_reducible repeat' first | assumption | refine keeps_latencyHistReadBody _ _ ?_

theorem keeps_execLatencyHistRead {a : State} (t : Ticks) (p : Packet) (s : State) (h : Keeps a s) : KeepsX a
    (execLatencyHistRead t p s) := by
  unfold execLatencyHistRead; try dsimp only
  with_reducible repeat' first | assumption | refine keeps_runPacket _ _ _ _ ?_ ?_ | exact keeps_specLatencyHistRead

theorem keeps_execFetchDataArrive {a : State} (t : Ticks) (r : Nat) (pane : Nat) (row : Nat) (k : Nat) (ok : Bool) (s
    : State) (h : Keeps a s) : KeepsX a (execFetchDataArrive t r pane row k ok s) := by
  unfold execFetchDataArrive; try dsimp only
  with_reducible repeat' first
      | assumption | refine keeps_whenRunning _ _ _ ?_ ?_ | refine keeps_arrive _ _ _ _ ?_ | intro _
      | refine keeps_ite ?_ ?_

end Sys2Proof.Laws
end

