-- ==== Sys2Proof/Laws/KeepsNode.lean ====
section
/-! SUPPORT. What the network engine, the fabric, slot resolution, composition and time keep: the queue, time that
never goes back, the canonical form of memory and a legal mode. One lemma per operation. -/
namespace Sys2Proof.Laws
open Sys2Proof Sys2Proof.Machine

/-! ### Network -/

theorem keeps_portConfigBody {a : State} (p : Packet) (s : State) (h : Keeps a s) : KeepsR a
    (portConfigBody p s) := by
  unfold portConfigBody; try dsimp only
  with_reducible repeat' first
      | assumption | refine keeps_require _ _ _ ?_ ?_ | exact keeps_badParam | exact keeps_busy | exact keeps_retired
      | refine keeps_putEth _ _ _ ?_ | refine keeps_verdictRes _ _ ?_ | refine keeps_setMgmt _ _ _ ?_
      | refine keeps_reportChanges _ _ ?_ | refine keeps_setPortUp _ _ _ ?_ | refine keepsR_ok ?_ | split

theorem keeps_specPortConfig : KeepsC specPortConfig := by
  intro a p s h
  unfold specPortConfig; try dsimp only
  with_reducible repeat' first | assumption | refine keeps_portConfigBody _ _ ?_

theorem keeps_execPortConfig {a : State} (t : Ticks) (p : Packet) (s : State) (h : Keeps a s) : KeepsX a
    (execPortConfig t p s) := by
  unfold execPortConfig; try dsimp only
  with_reducible repeat' first | assumption | refine keeps_runPacket _ _ _ _ ?_ ?_ | exact keeps_specPortConfig

theorem keeps_stopIngest {a : State} (f : Nat) (s : State) (h : Keeps a s) : Keeps a (stopIngest f s) := by
  unfold stopIngest; try dsimp only
  with_reducible repeat' first
      | assumption | refine keeps_abandonFrame _ _ ?_ | refine keeps_reportChanges _ _ ?_
      | refine keeps_putIngest _ _ _ ?_

theorem keeps_setIngest {a : State} (f : Nat) (x : Ingest) (s : State) (h : Keeps a s) : Keeps a
    (setIngest f x s) := by
  unfold setIngest; try dsimp only
  with_reducible repeat' first
      | assumption | refine keeps_abandonFrame _ _ ?_ | refine keeps_reportChanges _ _ ?_
      | refine keeps_putIngest _ _ _ ?_ | refine keeps_ite ?_ ?_

theorem keeps_bindIngest {a : State} (p : Packet) (s : State) (f : Nat) (x : Ingest) (offs : List Nat) (surfOk : Bool)
    (h : Keeps a s) : KeepsR a (bindIngest p s f x offs surfOk) := by
  unfold bindIngest; try dsimp only
  with_reducible repeat' first
      | assumption | refine keeps_require _ _ _ ?_ ?_ | exact keeps_bad _ | exact keeps_badParam | exact keeps_busy
      | refine keeps_setIngest _ _ _ ?_ | exact keeps_noResource | refine keeps_okay _ ?_

theorem keeps_ingestFlowSetBody {a : State} (p : Packet) (s : State) (h : Keeps a s) : KeepsR a
    (ingestFlowSetBody p s) := by
  unfold ingestFlowSetBody; try dsimp only
  with_reducible repeat' first
      | assumption | refine keeps_require _ _ _ ?_ ?_ | exact keeps_badParam | refine keeps_okay _ ?_
      | refine keeps_stopIngest _ _ ?_ | exact keeps_busy | refine keeps_bindIngest _ _ _ _ _ _ ?_ | split

theorem keeps_specIngestFlowSet : KeepsC specIngestFlowSet := by
  intro a p s h
  unfold specIngestFlowSet; try dsimp only
  with_reducible repeat' first | assumption | refine keeps_ingestFlowSetBody _ _ ?_

theorem keeps_execIngestFlowSet {a : State} (t : Ticks) (p : Packet) (s : State) (h : Keeps a s) : KeepsX a
    (execIngestFlowSet t p s) := by
  unfold execIngestFlowSet; try dsimp only
  with_reducible repeat' first | assumption | refine keeps_runPacket _ _ _ _ ?_ ?_ | exact keeps_specIngestFlowSet

theorem keeps_fstSubscribeBody {a : State} (p : Packet) (s : State) (h : Keeps a s) : KeepsR a
    (fstSubscribeBody p s) := by
  unfold fstSubscribeBody; try dsimp only
  with_reducible repeat' first
      | assumption | refine keeps_require _ _ _ ?_ ?_ | exact keeps_badParam | exact keeps_busy
      | refine keeps_bindIngest _ _ _ _ _ _ ?_

theorem keeps_specFstSubscribe : KeepsC specFstSubscribe := by
  intro a p s h
  unfold specFstSubscribe; try dsimp only
  with_reducible repeat' first | assumption | refine keeps_fstSubscribeBody _ _ ?_

theorem keeps_execFstSubscribe {a : State} (t : Ticks) (p : Packet) (s : State) (h : Keeps a s) : KeepsX a
    (execFstSubscribe t p s) := by
  unfold execFstSubscribe; try dsimp only
  with_reducible repeat' first | assumption | refine keeps_runPacket _ _ _ _ ?_ ?_ | exact keeps_specFstSubscribe

theorem keeps_fstUnsubscribeBody {a : State} (p : Packet) (s : State) (h : Keeps a s) : KeepsR a
    (fstUnsubscribeBody p s) := by
  unfold fstUnsubscribeBody; try dsimp only
  with_reducible repeat' first
      | assumption | refine keeps_require _ _ _ ?_ ?_ | exact keeps_badParam | refine keeps_okay _ ?_
      | refine keeps_stopIngest _ _ ?_

theorem keeps_specFstUnsubscribe : KeepsC specFstUnsubscribe := by
  intro a p s h
  unfold specFstUnsubscribe; try dsimp only
  with_reducible repeat' first | assumption | refine keeps_fstUnsubscribeBody _ _ ?_

theorem keeps_execFstUnsubscribe {a : State} (t : Ticks) (p : Packet) (s : State) (h : Keeps a s) : KeepsX a
    (execFstUnsubscribe t p s) := by
  unfold execFstUnsubscribe; try dsimp only
  with_reducible repeat' first | assumption | refine keeps_runPacket _ _ _ _ ?_ ?_ | exact keeps_specFstUnsubscribe

theorem keeps_mcastJoinBody {a : State} (p : Packet) (s : State) (h : Keeps a s) : KeepsR a (mcastJoinBody p s) := by
  unfold mcastJoinBody; try dsimp only
  with_reducible repeat' first
      | assumption | refine keeps_require _ _ _ ?_ ?_ | exact keeps_badParam | refine keeps_okay _ ?_
      | refine keeps_reportChanges _ _ ?_ | exact keeps_noResource | simp only [keeps_mk] | refine keepsAll_of ?_
      | split

theorem keeps_specMcastJoin : KeepsC specMcastJoin := by
  intro a p s h
  unfold specMcastJoin; try dsimp only
  with_reducible repeat' first | assumption | refine keeps_mcastJoinBody _ _ ?_

theorem keeps_execMcastJoin {a : State} (t : Ticks) (p : Packet) (s : State) (h : Keeps a s) : KeepsX a
    (execMcastJoin t p s) := by
  unfold execMcastJoin; try dsimp only
  with_reducible repeat' first | assumption | refine keeps_runPacket _ _ _ _ ?_ ?_ | exact keeps_specMcastJoin

theorem keeps_mcastLeaveBody {a : State} (p : Packet) (s : State) (h : Keeps a s) : KeepsR a
    (mcastLeaveBody p s) := by
  unfold mcastLeaveBody; try dsimp only
  with_reducible repeat' first
      | assumption | refine keeps_require _ _ _ ?_ ?_ | exact keeps_badParam | refine keeps_okay _ ?_
      | refine keeps_reportChanges _ _ ?_ | simp only [keeps_mk] | refine keepsAll_of ?_

theorem keeps_specMcastLeave : KeepsC specMcastLeave := by
  intro a p s h
  unfold specMcastLeave; try dsimp only
  with_reducible repeat' first | assumption | refine keeps_mcastLeaveBody _ _ ?_

theorem keeps_execMcastLeave {a : State} (t : Ticks) (p : Packet) (s : State) (h : Keeps a s) : KeepsX a
    (execMcastLeave t p s) := by
  unfold execMcastLeave; try dsimp only
  with_reducible repeat' first | assumption | refine keeps_runPacket _ _ _ _ ?_ ?_ | exact keeps_specMcastLeave

theorem keeps_dropFst {a : State} (f : Nat) (s : State) (h : Keeps a s) : Keeps a (dropFst f s) := by
  unfold dropFst; try dsimp only
  with_reducible repeat' first
      | assumption | refine keeps_unpinSlot _ _ _ _ ?_ | refine keeps_putEgress _ _ _ ?_ | split

theorem keeps_stopEgress {a : State} (f : Nat) (s : State) (h : Keeps a s) : Keeps a (stopEgress f s) := by
  unfold stopEgress; try dsimp only
  with_reducible repeat' first
      | assumption | refine keeps_discardQueue _ _ ?_ | refine keeps_dropFst _ _ ?_ | refine keeps_setMgmt _ _ _ ?_
      | refine keeps_putEgress _ _ _ ?_

theorem keeps_setEgress {a : State} (f : Nat) (c : EgressCfg) (s : State) (h : Keeps a s) : Keeps a
    (setEgress f c s) := by
  unfold setEgress; try dsimp only
  with_reducible repeat' first
      | assumption | refine keeps_settleSending _ _ ?_ | refine keeps_setMgmt _ _ _ ?_
      | refine keeps_putEgress _ _ _ ?_

theorem keeps_egressCheck {a : State} (p : Packet) (s : State) (c : EgressCfg) (k : Res) (hk : KeepsR a k) (h
    : Keeps a s) : KeepsR a (egressCheck p s c k) := by
  unfold egressCheck; try dsimp only
  with_reducible repeat' first
      | assumption | refine keeps_require _ _ _ ?_ ?_ | exact keeps_badParam | exact keeps_bad _

theorem keeps_egressFlowSetBody {a : State} (p : Packet) (s : State) (h : Keeps a s) : KeepsR a
    (egressFlowSetBody p s) := by
  unfold egressFlowSetBody; try dsimp only
  with_reducible repeat' first
      | assumption | refine keeps_require _ _ _ ?_ ?_ | exact keeps_badParam | exact keeps_busy
      | refine keeps_okay _ ?_ | refine keeps_stopEgress _ _ ?_ | refine keeps_egressCheck _ _ _ _ ?_ ?_
      | refine keeps_verdictRes _ _ ?_ | refine keeps_setEgress _ _ _ ?_ | refine keepsR_ok ?_ | split

theorem keeps_specEgressFlowSet : KeepsC specEgressFlowSet := by
  intro a p s h
  unfold specEgressFlowSet; try dsimp only
  with_reducible repeat' first | assumption | refine keeps_egressFlowSetBody _ _ ?_

theorem keeps_execEgressFlowSet {a : State} (t : Ticks) (p : Packet) (s : State) (h : Keeps a s) : KeepsX a
    (execEgressFlowSet t p s) := by
  unfold execEgressFlowSet; try dsimp only
  with_reducible repeat' first | assumption | refine keeps_runPacket _ _ _ _ ?_ ?_ | exact keeps_specEgressFlowSet

theorem keeps_flowQueryBody {a : State} (p : Packet) (s : State) (h : Keeps a s) : KeepsR a (flowQueryBody p s) := by
  unfold flowQueryBody; try dsimp only
  with_reducible repeat' first
      | assumption | refine keeps_require _ _ _ ?_ ?_ | exact keeps_badParam
      | refine keeps_withBuf _ _ _ _ _ _ _ ?_ ?_ | refine keepsR_ok ?_ | intro _ | apply_assumption

theorem keeps_specFlowQuery : KeepsC specFlowQuery := by
  intro a p s h
  unfold specFlowQuery; try dsimp only
  with_reducible repeat' first | assumption | refine keeps_flowQueryBody _ _ ?_

theorem keeps_execFlowQuery {a : State} (t : Ticks) (p : Packet) (s : State) (h : Keeps a s) : KeepsX a
    (execFlowQuery t p s) := by
  unfold execFlowQuery; try dsimp only
  with_reducible repeat' first | assumption | refine keeps_runPacket _ _ _ _ ?_ ?_ | exact keeps_specFlowQuery

theorem keeps_fstSend {a : State} (f : Nat) (s : State) (h : Keeps a s) : Keeps a (fstSend f s) := by
  unfold fstSend; try dsimp only
  with_reducible repeat' first
      | assumption | refine keeps_countRead _ _ _ ?_ | refine keeps_enqueue _ _ _ ?_ | refine keeps_putEgress _ _ _ ?_
      | refine keeps_fstNext _ _ ?_ | refine keeps_dropFst _ _ ?_ | refine keeps_forAll _ _ _ ?_ ?_ | intro _
      | refine keeps_ite ?_ ?_ | split

theorem keeps_execFstPacketSend {a : State} (t : Ticks) (flow : Nat) (s : State) (h : Keeps a s) : KeepsX a
    (execFstPacketSend t flow s) := by
  unfold execFstPacketSend; try dsimp only
  with_reducible repeat' first
      | assumption | refine keeps_whenRunning _ _ _ ?_ ?_ | refine keeps_fstSend _ _ ?_ | intro _
      | refine keeps_ite ?_ ?_

theorem keeps_announceAddresses {a : State} (p : Nat) (s : State) (h : Keeps a s) : Keeps a
    (announceAddresses p s) := by
  unfold announceAddresses; try dsimp only
  with_reducible repeat' first
      | assumption | refine keeps_sendFw _ _ _ _ _ ?_ | refine keeps_forAll _ _ _ ?_ ?_ | intro _
      | refine keeps_ite ?_ ?_

theorem keeps_execEthLinkUp {a : State} (t : Ticks) (port : Nat) (s : State) (h : Keeps a s) : KeepsX a
    (execEthLinkUp t port s) := by
  unfold execEthLinkUp; try dsimp only
  with_reducible repeat' first
      | assumption | refine keeps_whenRunning _ _ _ ?_ ?_ | refine keeps_setMgmt _ _ _ ?_
      | refine keeps_trainLanes _ _ ?_ | refine keeps_setPortUp _ _ _ ?_ | refine keeps_putEth _ _ _ ?_
      | refine keeps_announceAddresses _ _ ?_ | intro _ | refine keeps_ite ?_ ?_

theorem keeps_execEthLinkDown {a : State} (t : Ticks) (port : Nat) (s : State) (h : Keeps a s) : KeepsX a
    (execEthLinkDown t port s) := by
  unfold execEthLinkDown; try dsimp only
  with_reducible repeat' first
      | assumption | refine keeps_whenRunning _ _ _ ?_ ?_ | refine keeps_setPortUp _ _ _ ?_
      | refine keeps_putEth _ _ _ ?_ | intro _ | refine keeps_ite ?_ ?_

theorem keeps_execFecUncorrectable {a : State} (t : Ticks) (port : Nat) (n : Nat) (s : State) (h : Keeps a s)
    : KeepsX a (execFecUncorrectable t port n s) := by
  unfold execFecUncorrectable; try dsimp only
  with_reducible repeat' first
      | assumption | refine keeps_whenRunning _ _ _ ?_ ?_ | refine keeps_putEth _ _ _ ?_
      | refine keeps_raiseUnit _ _ _ ?_ | intro _ | refine keeps_ite ?_ ?_

theorem keeps_haltFlow {a : State} (f : Nat) (s : State) (h : Keeps a s) : Keeps a (haltFlow f s) := by
  unfold haltFlow; try dsimp only
  with_reducible repeat' first
      | assumption | refine keeps_discardQueue _ _ ?_ | refine keeps_dropFst _ _ ?_ | refine keeps_putEgress _ _ _ ?_
      | refine keeps_compareUnit _ _ ?_ | refine keeps_egressAlert _ _ ?_ | refine keeps_ite ?_ ?_

theorem keeps_stopUntilFits {a : State} (p : Nat) (n : List Nat) (s : State) (h : Keeps a s) : Keeps a
    (stopUntilFits p n s) := by
  induction n generalizing s with
  | nil => exact h
  | cons f fs ih =>
    unfold stopUntilFits
    dsimp only
    with_reducible repeat' first | assumption | refine ih _ ?_ | refine keeps_haltFlow _ _ ?_ | refine keeps_ite ?_ ?_

theorem keeps_degradePort {a : State} (p : Nat) (s : State) (h : Keeps a s) : Keeps a (degradePort p s) := by
  unfold degradePort; try dsimp only
  with_reducible repeat' first
      | assumption | refine keeps_setMgmt _ _ _ ?_ | refine keeps_putEth _ _ _ ?_ | refine keeps_setPortUp _ _ _ ?_
      | refine keeps_raiseUnit _ _ _ ?_ | refine keeps_stopUntilFits _ _ _ ?_ | refine keeps_ite ?_ ?_

/-! ### Fabric -/

theorem keeps_startBringup {a : State} (k : Nat) (s : State) (h : Keeps a s) : Keeps a (startBringup k s) := by
  unfold startBringup; try dsimp only
  with_reducible repeat' first
      | assumption | refine keeps_forgetBuffers _ _ ?_ | refine keeps_discardWaiting _ _ ?_
      | refine keeps_queueFlit _ _ _ ?_ | refine keeps_putLink _ _ _ ?_

theorem keeps_setLinkUp {a : State} (k : Nat) (v : Bool) (s : State) (h : Keeps a s) : Keeps a (setLinkUp k v s) := by
  unfold setLinkUp; try dsimp only
  with_reducible repeat' first
      | assumption | refine keeps_announceLinks _ ?_ | refine keeps_compareUnit _ _ ?_ | refine keeps_raise _ _ ?_
      | refine keeps_putLink _ _ _ ?_ | refine keeps_ite ?_ ?_

theorem keeps_linkConfigBody {a : State} (p : Packet) (s : State) (h : Keeps a s) : KeepsR a
    (linkConfigBody p s) := by
  unfold linkConfigBody; try dsimp only
  with_reducible repeat' first
      | assumption | refine keeps_require _ _ _ ?_ ?_ | exact keeps_badParam | refine keeps_discardWaiting _ _ ?_
      | refine keeps_setLinkUp _ _ _ ?_ | refine keeps_setMgmt _ _ _ ?_ | refine keeps_putLink _ _ _ ?_
      | exact keeps_busy | exact keeps_retired | refine keeps_startBringup _ _ ?_ | refine keepsR_ok ?_ | split

theorem keeps_specLinkConfig : KeepsC specLinkConfig := by
  intro a p s h
  unfold specLinkConfig; try dsimp only
  with_reducible repeat' first | assumption | refine keeps_linkConfigBody _ _ ?_

theorem keeps_execLinkConfig {a : State} (t : Ticks) (p : Packet) (s : State) (h : Keeps a s) : KeepsX a
    (execLinkConfig t p s) := by
  unfold execLinkConfig; try dsimp only
  with_reducible repeat' first | assumption | refine keeps_runPacket _ _ _ _ ?_ ?_ | exact keeps_specLinkConfig

theorem keeps_startCalibration {a : State} (k : Nat) (s : State) (h : Keeps a s) : Keeps a
    (startCalibration k s) := by
  unfold startCalibration; try dsimp only
  with_reducible repeat' first | assumption | refine keeps_queueFlit _ _ _ ?_ | refine keeps_putLink _ _ _ ?_

theorem keeps_execCfBringupTimeout {a : State} (t : Ticks) (k : Nat) (s : State) (h : Keeps a s) : KeepsX a
    (execCfBringupTimeout t k s) := by
  unfold execCfBringupTimeout; try dsimp only
  with_reducible repeat' first
      | assumption | refine keeps_whenRunning _ _ _ ?_ ?_ | refine keeps_discardWaiting _ _ ?_
      | refine keeps_compareUnit _ _ ?_ | refine keeps_putLink _ _ _ ?_ | intro _ | refine keeps_ite ?_ ?_ | split

theorem keeps_execCfBringupRetry {a : State} (t : Ticks) (k : Nat) (s : State) (h : Keeps a s) : KeepsX a
    (execCfBringupRetry t k s) := by
  unfold execCfBringupRetry; try dsimp only
  with_reducible repeat' first
      | assumption | refine keeps_whenRunning _ _ _ ?_ ?_ | refine keeps_startBringup _ _ ?_ | intro _
      | refine keeps_ite ?_ ?_

theorem keeps_execCfLinkUp {a : State} (t : Ticks) (k : Nat) (lanes : Nat) (s : State) (h : Keeps a s) : KeepsX a
    (execCfLinkUp t k lanes s) := by
  unfold execCfLinkUp; try dsimp only
  with_reducible repeat' first
      | assumption | refine keeps_whenRunning _ _ _ ?_ ?_ | refine keeps_setMgmt _ _ _ ?_
      | refine keeps_trainLanes _ _ ?_ | refine keeps_setLinkUp _ _ _ ?_ | refine keeps_putLink _ _ _ ?_ | intro _
      | refine keeps_ite ?_ ?_ | simp only [keeps_mk] | refine keepsAll_of ?_

theorem keeps_keepCredit {a : State} (k : Nat) (vc : Nat) (s : State) (h : Keeps a s) : Keeps a
    (keepCredit k vc s) := by
  unfold keepCredit; try dsimp only
  with_reducible repeat' first | assumption | refine keeps_putLink _ _ _ ?_

theorem keeps_flitRx {a : State} (x : FlitRx) (types : List Nat) (f : State → State) (s : State) (hf
    : ∀ y0, Keeps a y0 → Keeps a (f y0)) (h : Keeps a s) : Keeps a (flitRx x types f s) := by
  unfold flitRx; try dsimp only
  with_reducible repeat' first
      | assumption | apply hf | refine keeps_putLink _ _ _ ?_ | refine keeps_queueFlit _ _ _ ?_
      | refine keeps_keepCredit _ _ _ ?_ | refine keeps_ite ?_ ?_ | split

theorem keeps_badFlit {a : State} (k : Nat) (s : State) (h : Keeps a s) : Keeps a (badFlit k s) := by
  unfold badFlit; try dsimp only
  with_reducible repeat' first | assumption | refine keeps_putLink _ _ _ ?_

theorem keeps_execIdleFlitRx {a : State} (t : Ticks) (x : FlitRx) (s : State) (h : Keeps a s) : KeepsX a
    (execIdleFlitRx t x s) := by
  unfold execIdleFlitRx; try dsimp only
  with_reducible repeat' first
      | assumption | refine keeps_whenRunning _ _ _ ?_ ?_ | refine keeps_flitRx _ _ _ _ ?_ ?_ | intro _
      | simp only [id_eq]

theorem keeps_restoreMember {a : State} (k : Nat) (uid : Nat) (s : State) (h : Keeps a s) : Keeps a
    (restoreMember k uid s) := by
  unfold restoreMember; try dsimp only
  with_reducible repeat' first
      | assumption | refine keeps_raise _ _ ?_ | refine keeps_sendOn _ _ _ ?_ | refine keeps_ite ?_ ?_ | split

theorem keeps_execHelloRx {a : State} (t : Ticks) (x : FlitRx) (uid : Nat) (lanes : Nat) (s : State) (h : Keeps a s)
    : KeepsX a (execHelloRx t x uid lanes s) := by
  unfold execHelloRx; try dsimp only
  with_reducible repeat' first
      | assumption | refine keeps_whenRunning _ _ _ ?_ ?_ | refine keeps_flitRx _ _ _ _ ?_ ?_
      | refine keeps_putLink _ _ _ ?_ | refine keeps_restoreMember _ _ _ ?_ | refine keeps_startCalibration _ _ ?_
      | intro _ | refine keeps_ite ?_ ?_

theorem keeps_execCalReqRx {a : State} (t : Ticks) (x : FlitRx) (s : State) (h : Keeps a s) : KeepsX a
    (execCalReqRx t x s) := by
  unfold execCalReqRx; try dsimp only
  with_reducible repeat' first
      | assumption | refine keeps_whenRunning _ _ _ ?_ ?_ | refine keeps_flitRx _ _ _ _ ?_ ?_
      | refine keeps_queueFlit _ _ _ ?_ | intro _

theorem keeps_execCalRespRx {a : State} (t : Ticks) (x : FlitRx) (n : Nat) (sum : ℤ) (s : State) (h : Keeps a s)
    : KeepsX a (execCalRespRx t x n sum s) := by
  unfold execCalRespRx; try dsimp only
  with_reducible repeat' first
      | assumption | refine keeps_whenRunning _ _ _ ?_ ?_ | refine keeps_flitRx _ _ _ _ ?_ ?_
      | refine keeps_putLink _ _ _ ?_ | refine keeps_queueFlit _ _ _ ?_ | intro _ | refine keeps_ite ?_ ?_

theorem keeps_makeXferFlit {a : State} (k : Nat) (s : State) (h : Keeps a s) : ∀ x,
    (makeXferFlit k s) = some x → Keeps a x.2 := by
  intro x e
  unfold makeXferFlit at e
  dsimp only at e
  split at e
  · cases e
  · split at e
    · cases e
    · split at e <;> cases e
      · exact keeps_putXfer _ _ _ (keeps_countRead _ _ _ h)
      · exact keeps_endXferSlot _ _ h

theorem keeps_transmit {a : State} (k : Nat) (f : Flit) (idle : Bool) (s : State) (h : Keeps a s) : Keeps a
    (transmit k f idle s) := by
  unfold transmit; try dsimp only
  with_reducible repeat' first
      | assumption | refine keeps_emit _ _ ?_ | refine keeps_putLink _ _ _ ?_ | refine keeps_giveBack _ _ ?_
      | refine keeps_ite ?_ ?_

theorem keeps_xferStep {a s s' : State} {k : Nat} {c : Bool} {f} (e :
    (if c = true then makeXferFlit k s else none) = some (f, s'))
    (h : Keeps a s) : Keeps a s' := by
  split at e
  · exact keeps_makeXferFlit k s h _ e
  · cases e

theorem keeps_sendFlit {a : State} (k : Nat) (s : State) (h : Keeps a s) : Keeps a (sendFlit k s) := by
  unfold sendFlit; try dsimp only
  with_reducible repeat' first
      | assumption | refine keeps_transmit _ _ _ _ ?_ | refine keeps_xferStep (by assumption) ?_ | split

theorem keeps_execCfFlitTx {a : State} (t : Ticks) (k : Nat) (s : State) (h : Keeps a s) : KeepsX a
    (execCfFlitTx t k s) := by
  unfold execCfFlitTx; try dsimp only
  with_reducible repeat' first
      | assumption | refine keeps_whenRunning _ _ _ ?_ ?_ | refine keeps_sendFlit _ _ ?_ | intro _
      | refine keeps_ite ?_ ?_

theorem keeps_execCfBlockDecodeFail {a : State} (t : Ticks) (k : Nat) (n : Nat) (s : State) (h : Keeps a s) : KeepsX a
    (execCfBlockDecodeFail t k n s) := by
  unfold execCfBlockDecodeFail; try dsimp only
  with_reducible repeat' first
      | assumption | refine keeps_whenRunning _ _ _ ?_ ?_ | refine keeps_putLink _ _ _ ?_
      | refine keeps_raiseUnit _ _ _ ?_ | intro _ | refine keeps_ite ?_ ?_

theorem keeps_loseXfer {a : State} (ctx : Nat) (s : State) (h : Keeps a s) : Keeps a (loseXfer ctx s) := by
  unfold loseXfer; try dsimp only
  with_reducible repeat' first
      | assumption | refine keeps_releaseXfer _ _ ?_ | refine keeps_finishUnit _ _ _ _ _ ?_
      | refine keeps_dropXfer _ _ ?_ | refine keeps_ite ?_ ?_ | split

theorem keeps_loseXferIn {a : State} (key : Nat) (s : State) (h : Keeps a s) : Keeps a (loseXferIn key s) := by
  unfold loseXferIn; try dsimp only
  with_reducible repeat' first
      | assumption | refine keeps_raise _ _ ?_ | refine keeps_ite ?_ ?_ | simp only [keeps_mk] | refine keepsAll_of ?_

theorem keeps_afterRouteChange {a : State} (s : State) (h : Keeps a s) : Keeps a (afterRouteChange s) := by
  unfold afterRouteChange; try dsimp only
  with_reducible repeat' first
      | assumption | refine keeps_sendOwed _ ?_ | refine keeps_loseXferIn _ _ ?_ | refine keeps_loseXfer _ _ ?_
      | refine keeps_forAll _ _ _ ?_ ?_ | intro _

theorem keeps_takeLinks {a : State} (device : Nat) (lanes : List Nat) (s : State) (h : Keeps a s) : Keeps a
    (takeLinks device lanes s) := by
  unfold takeLinks; try dsimp only
  with_reducible repeat' first
      | assumption | refine keeps_afterRouteChange _ ?_ | refine keeps_ite ?_ ?_ | simp only [keeps_mk]
      | refine keepsAll_of ?_ | split

theorem keeps_dropLink {a : State} (k : Nat) (s : State) (h : Keeps a s) : Keeps a (dropLink k s) := by
  unfold dropLink; try dsimp only
  with_reducible repeat' first
      | assumption | refine keeps_discardWaiting _ _ ?_ | refine keeps_afterRouteChange _ ?_
      | refine keeps_setLinkUp _ _ _ ?_ | refine keeps_putLink _ _ _ ?_

theorem keeps_execCfLinkDown {a : State} (t : Ticks) (k : Nat) (s : State) (h : Keeps a s) : KeepsX a
    (execCfLinkDown t k s) := by
  unfold execCfLinkDown; try dsimp only
  with_reducible repeat' first
      | assumption | refine keeps_whenRunning _ _ _ ?_ ?_ | refine keeps_dropLink _ _ ?_ | intro _
      | refine keeps_ite ?_ ?_

theorem keeps_endRetrain {a : State} (k : Nat) (s : State) (h : Keeps a s) : Keeps a (endRetrain k s) := by
  unfold endRetrain; try dsimp only
  with_reducible repeat' first
      | assumption | refine keeps_emit _ _ ?_ | refine keeps_putLink _ _ _ ?_ | refine keeps_forAll _ _ _ ?_ ?_
      | intro _

theorem keeps_routeQueryBody {a : State} (p : Packet) (s : State) (h : Keeps a s) : KeepsR a
    (routeQueryBody p s) := by
  unfold routeQueryBody; try dsimp only
  with_reducible repeat' first
      | assumption | refine keeps_require _ _ _ ?_ ?_ | exact keeps_badParam | refine keepsR_ok ?_ | split

theorem keeps_specRouteQuery : KeepsC specRouteQuery := by
  intro a p s h
  unfold specRouteQuery; try dsimp only
  with_reducible repeat' first | assumption | refine keeps_routeQueryBody _ _ ?_

theorem keeps_execRouteQuery {a : State} (t : Ticks) (p : Packet) (s : State) (h : Keeps a s) : KeepsX a
    (execRouteQuery t p s) := by
  unfold execRouteQuery; try dsimp only
  with_reducible repeat' first | assumption | refine keeps_runPacket _ _ _ _ ?_ ?_ | exact keeps_specRouteQuery

/-! ### Resolve -/

theorem keeps_onLead {a : State} (r : Nat) (f : Slice → Slice) (s : State) (h : Keeps a s) : Keeps a
    (onLead r f s) := by
  unfold onLead; try dsimp only
  with_reducible repeat' first | assumption | refine keeps_putSlice _ _ _ ?_ | split

theorem keeps_setCsStat {a : State} (r : Nat) (i : Nat) (s : State) (h : Keeps a s) : Keeps a (setCsStat r i s) := by
  unfold setCsStat; try dsimp only
  with_reducible repeat' first | assumption | refine keeps_noteSet _ _ _ ?_ | refine keeps_putSlice _ _ _ ?_ | split

theorem keeps_raiseSlice {a : State} (r : Nat) (k : Nat) (s : State) (h : Keeps a s) : Keeps a
    (raiseSlice r k s) := by
  unfold raiseSlice; try dsimp only
  with_reducible repeat' first | assumption | refine keeps_raiseUnit _ _ _ ?_ | split

theorem keeps_resolvePane {a : State} (r : Nat) (ft : Nat) (id : Nat) (d : Desc) (s : State) (h : Keeps a s) : Keeps a
    (resolvePane r ft id d s) := by
  unfold resolvePane; try dsimp only
  with_reducible repeat' first
      | assumption | refine keeps_putRun _ _ _ ?_ | refine keeps_raiseSlice _ _ _ ?_ | refine keeps_setCsStat _ _ _ ?_
      | refine keeps_pinResolved _ _ _ _ ?_ | refine keeps_ite ?_ ?_ | split

theorem keeps_releasePins {a : State} (l : List (Nat × Nat × Nat)) (s : State) (h : Keeps a s) : Keeps a
    (releasePins l s) := by
  unfold releasePins; try dsimp only
  with_reducible repeat' first
      | assumption | refine keeps_unpinSlot _ _ _ _ ?_ | refine keeps_forAll _ _ _ ?_ ?_ | intro _

theorem keeps_clearUses {a : State} (ids : List Nat) (s : State) (h : Keeps a s) : Keeps a (clearUses ids s) := by
  unfold clearUses; try dsimp only
  with_reducible repeat' first | assumption | refine keeps_putRun _ _ _ ?_ | refine keeps_forAll _ _ _ ?_ ?_ | intro _

theorem keeps_resolveAll {a : State} (r : Nat) (ft : Nat) (old : List (Nat × Nat × Nat)) (s : State) (h : Keeps a s)
    : Keeps a (resolveAll r ft old s) := by
  unfold resolveAll; try dsimp only
  with_reducible repeat' first
      | assumption | refine keeps_clearUses _ _ ?_ | refine keeps_releasePins _ _ ?_
      | refine keeps_resolvePane _ _ _ _ _ ?_ | refine keeps_forAll _ _ _ ?_ ?_ | intro _

/-! ### Compose -/

theorem keeps_cryLine {a : State} (s : State) (r : Nat) (y : Nat) (d : Desc) (subst : Bool) (alphas : List Nat) (codes
    : List (List Nat)) (h : Keeps a s) : Keeps a (cryLine s r y d subst alphas codes) := by
  unfold cryLine; try dsimp only
  with_reducible repeat' first | assumption | refine keeps_putCrystal _ _ _ ?_

theorem keeps_cryCompare {a : State} (r : Nat) (v : Nat) (subst : Bool) (s : State) (h : Keeps a s) : Keeps a
    (cryCompare r v subst s) := by
  unfold cryCompare; try dsimp only
  with_reducible repeat' first
      | assumption | refine keeps_putCrystal _ _ _ ?_ | refine keeps_noteSet _ _ _ ?_
      | refine keeps_raiseUnit _ _ _ ?_ | refine keeps_ltrAdd _ _ _ ?_ | refine keeps_ite ?_ ?_

theorem keeps_cryUnchecked {a : State} (r : Nat) (s : State) (h : Keeps a s) : Keeps a (cryUnchecked r s) := by
  unfold cryUnchecked; try dsimp only
  with_reducible repeat' first | assumption | refine keeps_putCrystal _ _ _ ?_ | refine keeps_ite ?_ ?_

theorem keeps_cryFinish {a : State} (r : Nat) (y : Nat) (s : State) (h : Keeps a s) : Keeps a (cryFinish r y s) := by
  unfold cryFinish; try dsimp only
  with_reducible repeat' first
      | assumption | refine keeps_cryUnchecked _ _ ?_ | refine keeps_cryCompare _ _ _ _ ?_ | refine keeps_ite ?_ ?_
      | split

theorem keeps_noteCond {a : State} (r : Nat) (bit : Nat) (src : Nat) (s : State) (h : Keeps a s) : Keeps a
    (noteCond r bit src s) := by
  unfold noteCond; try dsimp only
  with_reducible repeat' first
      | assumption | refine keeps_noteSet _ _ _ ?_ | refine keeps_putSlice _ _ _ ?_ | refine keeps_raiseUnit _ _ _ ?_
      | refine keeps_ite ?_ ?_ | split

theorem keeps_eachRun {a : State} (ids : List Nat) (f : PaneRun → PaneRun) (s : State) (h : Keeps a s) : Keeps a
    (eachRun ids f s) := by
  unfold eachRun; try dsimp only
  with_reducible repeat' first | assumption | refine keeps_putRun _ _ _ ?_ | refine keeps_forAll _ _ _ ?_ ?_ | intro _

theorem keeps_countSubst {a : State} (r : Nat) (ids : List Nat) (s : State) (h : Keeps a s) : Keeps a
    (countSubst r ids s) := by
  unfold countSubst; try dsimp only
  with_reducible repeat' first
      | assumption | refine keeps_eachRun _ _ _ ?_ | refine keeps_putFs _ _ _ ?_ | refine keeps_ltrAdd _ _ _ ?_
      | refine keeps_raiseUnit _ _ _ ?_ | refine keeps_ite ?_ ?_

theorem keeps_countLine {a : State} (r : Nat) (l : List LinePane) (skipped : List Nat) (s : State) (h : Keeps a s)
    : Keeps a (countLine r l skipped s) := by
  unfold countLine; try dsimp only
  with_reducible repeat' first
      | assumption | refine keeps_ltrAdd _ _ _ ?_ | refine keeps_noteCond _ _ _ _ ?_ | refine keeps_onLead _ _ _ ?_
      | refine keeps_eachRun _ _ _ ?_ | refine keeps_ite ?_ ?_

theorem keeps_noteFanout {a : State} (r : Nat) (y : Nat) (s : State) (h : Keeps a s) : Keeps a
    (noteFanout r y s) := by
  unfold noteFanout; try dsimp only
  with_reducible repeat' first | assumption | refine keeps_onLead _ _ _ ?_ | refine keeps_ite ?_ ?_

theorem keeps_beginFrame {a : State} (r : Nat) (s : State) (h : Keeps a s) : Keeps a (beginFrame r s) := by
  unfold beginFrame; try dsimp only
  with_reducible repeat' first
      | assumption | refine keeps_putRaster _ _ _ ?_ | refine keeps_onLead _ _ _ ?_ | refine keeps_putFs _ _ _ ?_
      | refine keeps_forAll _ _ _ ?_ ?_ | intro _

theorem keeps_composeLine {a : State} (r : Nat) (y : Nat) (n : Nat) (s : State) (h : Keeps a s) : Keeps a
    (composeLine r y n s) := by
  unfold composeLine; try dsimp only
  with_reducible repeat' first
      | assumption | refine keeps_putRaster _ _ _ ?_ | refine keeps_cryLine _ _ _ _ _ _ _ ?_
      | refine keeps_noteFanout _ _ _ ?_ | refine keeps_countLine _ _ _ _ ?_ | refine keeps_countSubst _ _ _ ?_
      | refine keeps_putFs _ _ _ ?_ | refine keeps_ite ?_ ?_ | split

theorem keeps_composeTiles {a : State} (r : Nat) (y : Nat) (n : Nat) (s : State) (h : Keeps a s) : Keeps a
    (composeTiles r y n s) := by
  unfold composeTiles; try dsimp only
  with_reducible repeat' first
      | assumption | refine keeps_beginFrame _ _ ?_ | refine keeps_composeLine _ _ _ _ ?_
      | refine keeps_cryFinish _ _ _ ?_ | refine keeps_ite ?_ ?_

/-! ### NodeTime -/

theorem keeps_placeMembers {a : State} (s : State) (h : Keeps a s) : Keeps a (placeMembers s) := by
  unfold placeMembers; try dsimp only
  with_reducible repeat' first
      | assumption | refine keeps_sendMsg _ _ _ ?_ | refine keeps_forAll _ _ _ ?_ ?_ | intro _

theorem keeps_nodeEnumerateBody {a : State} (p : Packet) (s : State) (h : Keeps a s) : KeepsR a
    (nodeEnumerateBody p s) := by
  unfold nodeEnumerateBody; try dsimp only
  with_reducible repeat' first
      | assumption | refine keeps_require _ _ _ ?_ ?_ | exact keeps_busy | refine keeps_raise _ _ ?_
      | refine keeps_placeMembers _ ?_ | exact keepsR_fail | refine keepsR_ok ?_ | simp only [keeps_mk]
      | refine keepsAll_of ?_ | split

theorem keeps_specNodeEnumerate : KeepsC specNodeEnumerate := by
  intro a p s h
  unfold specNodeEnumerate; try dsimp only
  with_reducible repeat' first | assumption | refine keeps_nodeEnumerateBody _ _ ?_

theorem keeps_execNodeEnumerate {a : State} (t : Ticks) (p : Packet) (s : State) (h : Keeps a s) : KeepsX a
    (execNodeEnumerate t p s) := by
  unfold execNodeEnumerate; try dsimp only
  with_reducible repeat' first | assumption | refine keeps_runPacket _ _ _ _ ?_ ?_ | exact keeps_specNodeEnumerate

theorem keeps_takeId {a : State} (devid : Nat) (topo : Nat) (wM1 : Nat) (hM1 : Nat) (members : List (Nat × List Nat))
    (s : State) (h : Keeps a s) : Keeps a (takeId devid topo wM1 hM1 members s) := by
  unfold takeId; try dsimp only
  with_reducible repeat' first
      | assumption | refine keeps_raise _ _ ?_ | refine keeps_ite ?_ ?_ | simp only [keeps_mk] | refine keepsAll_of ?_

theorem keeps_setTkState {a : State} (v : Nat) (s : State) (h : Keeps a s) : Keeps a (setTkState v s) := by
  unfold setTkState; try dsimp only
  with_reducible repeat' first
      | assumption | refine keeps_raise _ _ ?_ | refine keeps_ite ?_ ?_ | simp only [keeps_mk] | refine keepsAll_of ?_

theorem keeps_ptpConfigBody {a : State} (p : Packet) (s : State) (h : Keeps a s) : KeepsR a (ptpConfigBody p s) := by
  unfold ptpConfigBody; try dsimp only
  with_reducible repeat' first
      | assumption | refine keeps_require _ _ _ ?_ ?_ | exact keeps_badParam | refine keeps_okay _ ?_
      | refine keeps_setTkState _ _ ?_ | simp only [keeps_mk] | refine keepsAll_of ?_

theorem keeps_specPtpConfig : KeepsC specPtpConfig := by
  intro a p s h
  unfold specPtpConfig; try dsimp only
  with_reducible repeat' first | assumption | refine keeps_ptpConfigBody _ _ ?_

theorem keeps_execPtpConfig {a : State} (t : Ticks) (p : Packet) (s : State) (h : Keeps a s) : KeepsX a
    (execPtpConfig t p s) := by
  unfold execPtpConfig; try dsimp only
  with_reducible repeat' first | assumption | refine keeps_runPacket _ _ _ _ ?_ ?_ | exact keeps_specPtpConfig

theorem keeps_sendPtp {a : State} (port : Nat) (kind : Nat) (s : State) (h : Keeps a s) : Keeps a
    (sendPtp port kind s) := by
  unfold sendPtp; try dsimp only
  with_reducible repeat' first | assumption | refine keeps_sendFw _ _ _ _ _ ?_

theorem keeps_ptpMessage {a : State} (port : Nat) (x : PtpResult) (s : State) (h : Keeps a s) : Keeps a
    (ptpMessage port x s) := by
  unfold ptpMessage; try dsimp only
  with_reducible repeat' first
      | assumption | refine keeps_sendPtp _ _ _ ?_ | refine keeps_slewTenths _ _ ?_ | refine keeps_setRate _ _ ?_
      | refine keeps_setTkState _ _ ?_ | refine keeps_ite ?_ ?_ | simp only [keeps_mk] | refine keepsAll_of ?_

theorem keeps_execPtpMessageRx {a : State} (t : Ticks) (port : Nat) (x : PtpResult) (s : State) (h : Keeps a s)
    : KeepsX a (execPtpMessageRx t port x s) := by
  unfold execPtpMessageRx; try dsimp only
  with_reducible repeat' first
      | assumption | refine keeps_whenRunning _ _ _ ?_ ?_ | refine keeps_ptpMessage _ _ _ ?_ | intro _
      | refine keeps_ite ?_ ?_

theorem keeps_execPtpAnnounceTimeout {a : State} (t : Ticks) (becomesMaster : Bool) (s : State) (h : Keeps a s)
    : KeepsX a (execPtpAnnounceTimeout t becomesMaster s) := by
  unfold execPtpAnnounceTimeout; try dsimp only
  with_reducible repeat' first
      | assumption | refine keeps_whenRunning _ _ _ ?_ ?_ | refine keeps_setTkState _ _ ?_ | intro _
      | refine keeps_ite ?_ ?_

theorem keeps_execPtpMessageInterval {a : State} (t : Ticks) (port : Nat) (kind : Nat) (s : State) (h : Keeps a s)
    : KeepsX a (execPtpMessageInterval t port kind s) := by
  unfold execPtpMessageInterval; try dsimp only
  with_reducible repeat' first
      | assumption | refine keeps_whenRunning _ _ _ ?_ ?_ | refine keeps_sendPtp _ _ _ ?_ | intro _
      | refine keeps_ite ?_ ?_ | simp only [keeps_mk] | refine keepsAll_of ?_

theorem keeps_execDcoSteer {a : State} (t : Ticks) (s : State) (h : Keeps a s) : KeepsX a (execDcoSteer t s) := by
  unfold execDcoSteer; try dsimp only
  with_reducible repeat' first
      | assumption | refine keeps_whenRunning _ _ _ ?_ ?_ | refine keeps_emit _ _ ?_ | intro _
      | refine keeps_ite ?_ ?_ | simp only [keeps_mk] | refine keepsAll_of ?_

theorem keeps_timeQueryBody {a : State} (p : Packet) (s : State) (h : Keeps a s) : KeepsR a (timeQueryBody p s) := by
  unfold timeQueryBody; try dsimp only
  with_reducible repeat' first
      | assumption | refine keeps_require _ _ _ ?_ ?_ | exact keeps_badParam
      | refine keeps_withBuf _ _ _ _ _ _ _ ?_ ?_ | refine keepsR_ok ?_ | intro _ | apply_assumption

theorem keeps_specTimeQuery : KeepsC specTimeQuery := by
  intro a p s h
  unfold specTimeQuery; try dsimp only
  with_reducible repeat' first | assumption | refine keeps_timeQueryBody _ _ ?_

theorem keeps_execTimeQuery {a : State} (t : Ticks) (p : Packet) (s : State) (h : Keeps a s) : KeepsX a
    (execTimeQuery t p s) := by
  unfold execTimeQuery; try dsimp only
  with_reducible repeat' first | assumption | refine keeps_runPacket _ _ _ _ ?_ ?_ | exact keeps_specTimeQuery

theorem keeps_alignRaster {a : State} (r : Nat) (s : State) (h : Keeps a s) : Keeps a (alignRaster r s) := by
  unfold alignRaster; try dsimp only
  with_reducible repeat' first
      | assumption | refine keeps_raise _ _ ?_ | refine keeps_ite ?_ ?_ | simp only [keeps_mk] | refine keepsAll_of ?_

theorem keeps_alignAll {a : State} (s : State) (h : Keeps a s) : Keeps a (alignAll s) := by
  unfold alignAll; try dsimp only
  with_reducible repeat' first
      | assumption | refine keeps_alignRaster _ _ ?_ | refine keeps_forAll _ _ _ ?_ ?_ | intro _

theorem keeps_stageRate {a : State} (n : Nat) (d : Nat) (start : Nat) (s : State) (h : Keeps a s) : Keeps a
    (stageRate n d start s) := by
  unfold stageRate; try dsimp only
  with_reducible repeat' first
      | assumption | refine keeps_startCalibration _ _ ?_ | refine keeps_forAll _ _ _ ?_ ?_ | intro _
      | simp only [keeps_mk] | refine keepsAll_of ?_

theorem keeps_beatCalibrateBody {a : State} (p : Packet) (s : State) (h : Keeps a s) : KeepsR a
    (beatCalibrateBody p s) := by
  unfold beatCalibrateBody; try dsimp only
  with_reducible repeat' first
      | assumption | refine keeps_require _ _ _ ?_ ?_ | exact keeps_badParam | refine keeps_sendMsg _ _ _ ?_
      | refine keeps_stageRate _ _ _ _ ?_ | refine keeps_forAll _ _ _ ?_ ?_ | refine keepsR_ok ?_ | intro _

theorem keeps_specBeatCalibrate : KeepsC specBeatCalibrate := by
  intro a p s h
  unfold specBeatCalibrate; try dsimp only
  with_reducible repeat' first | assumption | refine keeps_beatCalibrateBody _ _ ?_

theorem keeps_execBeatCalibrate {a : State} (t : Ticks) (p : Packet) (s : State) (h : Keeps a s) : KeepsX a
    (execBeatCalibrate t p s) := by
  unfold execBeatCalibrate; try dsimp only
  with_reducible repeat' first | assumption | refine keeps_runPacket _ _ _ _ ?_ ?_ | exact keeps_specBeatCalibrate

theorem keeps_sendBeats {a : State} (no : Nat) (rate : ℤ) (s : State) (h : Keeps a s) : Keeps a
    (sendBeats no rate s) := by
  unfold sendBeats; try dsimp only
  with_reducible repeat' first
      | assumption | refine keeps_queueFlit _ _ _ ?_ | refine keeps_forAll _ _ _ ?_ ?_ | intro _

theorem keeps_takeRef {a : State} (s : State) (h : Keeps a s) : Keeps a (takeRef s) := by
  unfold takeRef; try dsimp only
  with_reducible repeat' first
      | assumption | refine keeps_ite ?_ ?_ | simp only [keeps_mk] | refine keepsAll_of ?_ | split

theorem keeps_execBeatEmit {a : State} (t : Ticks) (s : State) (h : Keeps a s) : KeepsX a (execBeatEmit t s) := by
  unfold execBeatEmit; try dsimp only
  with_reducible repeat' first
      | assumption | refine keeps_whenRunning _ _ _ ?_ ?_ | refine keeps_takeRef _ ?_ | refine keeps_alignAll _ ?_
      | refine keeps_sendBeats _ _ _ ?_ | intro _ | refine keeps_ite ?_ ?_ | simp only [keeps_mk]
      | refine keepsAll_of ?_

theorem keeps_takeBeat {a : State} (k : Nat) (no : Nat) (tx : Nat) (rate : ℤ) (s : State) (h : Keeps a s) : Keeps a
    (takeBeat k no tx rate s) := by
  unfold takeBeat; try dsimp only
  with_reducible repeat' first
      | assumption | refine keeps_takeRef _ ?_ | refine keeps_setRate _ _ ?_ | refine keeps_slewTenths _ _ ?_
      | refine keeps_setTkState _ _ ?_ | refine keeps_alignAll _ ?_ | refine keeps_sendBeats _ _ _ ?_
      | refine keeps_raise _ _ ?_ | refine keeps_ite ?_ ?_ | simp only [keeps_mk] | refine keepsAll_of ?_

theorem keeps_execBeatRx {a : State} (t : Ticks) (x : FlitRx) (s : State) (h : Keeps a s) : KeepsX a
    (execBeatRx t x s) := by
  unfold execBeatRx; try dsimp only
  with_reducible repeat' first
      | assumption | refine keeps_whenRunning _ _ _ ?_ ?_ | refine keeps_flitRx _ _ _ _ ?_ ?_
      | refine keeps_takeBeat _ _ _ _ _ ?_ | intro _ | refine keeps_ite ?_ ?_

theorem keeps_execBeatLoss {a : State} (t : Ticks) (s : State) (h : Keeps a s) : KeepsX a (execBeatLoss t s) := by
  unfold execBeatLoss; try dsimp only
  with_reducible repeat' first
      | assumption | refine keeps_whenRunning _ _ _ ?_ ?_ | refine keeps_setTkState _ _ ?_ | refine keeps_raise _ _ ?_
      | intro _ | refine keeps_ite ?_ ?_

/-! ### RasterOps -/

theorem keeps_raiseRaster {a : State} (r : Nat) (k : Nat) (s : State) (h : Keeps a s) : Keeps a
    (raiseRaster r k s) := by
  unfold raiseRaster; try dsimp only
  with_reducible repeat' first | assumption | refine keeps_raiseUnit _ _ _ ?_

theorem keeps_rasterAlert {a : State} (r : Nat) (bit : Nat) (s : State) (h : Keeps a s) : Keeps a
    (rasterAlert r bit s) := by
  unfold rasterAlert; try dsimp only
  with_reducible repeat' first
      | assumption | refine keeps_raiseRaster _ _ _ ?_ | refine keeps_noteSet _ _ _ ?_
      | refine keeps_putRaster _ _ _ ?_

theorem keeps_setDpState {a : State} (r : Nat) (v : DpState) (s : State) (h : Keeps a s) : Keeps a
    (setDpState r v s) := by
  unfold setDpState; try dsimp only
  with_reducible repeat' first
      | assumption | refine keeps_rasterAlert _ _ _ ?_ | refine keeps_putRaster _ _ _ ?_ | refine keeps_ite ?_ ?_

theorem keeps_startBuild {a : State} (r : Nat) (s : State) (h : Keeps a s) : Keeps a (startBuild r s) := by
  unfold startBuild; try dsimp only
  with_reducible repeat' first | assumption | refine keeps_putScene _ _ _ ?_

theorem keeps_finishBuild {a : State} (r : Nat) (s : State) (h : Keeps a s) : Keeps a (finishBuild r s) := by
  unfold finishBuild; try dsimp only
  with_reducible repeat' first
      | assumption | refine keeps_putScene _ _ _ ?_ | refine keeps_setCsStat _ _ _ ?_ | refine keeps_ite ?_ ?_

theorem keeps_settleBuild {a : State} (r : Nat) (s : State) (h : Keeps a s) : Keeps a (settleBuild r s) := by
  unfold settleBuild; try dsimp only
  with_reducible repeat' first | assumption | refine keeps_finishBuild _ _ ?_ | refine keeps_ite ?_ ?_

theorem keeps_countDefer {a : State} (r : Nat) (s : State) (h : Keeps a s) : Keeps a (countDefer r s) := by
  unfold countDefer; try dsimp only
  with_reducible repeat' first
      | assumption | refine keeps_raiseRaster _ _ _ ?_ | refine keeps_ltrAdd _ _ _ ?_
      | refine keeps_putRaster _ _ _ ?_

theorem keeps_clearCommit {a : State} (r : Nat) (s : State) (h : Keeps a s) : Keeps a (clearCommit r s) := by
  unfold clearCommit; try dsimp only
  with_reducible repeat' first | assumption | refine keeps_putScene _ _ _ ?_ | refine keeps_putRaster _ _ _ ?_

theorem keeps_setCommit {a : State} (r : Nat) (s : State) (h : Keeps a s) : Keeps a (setCommit r s) := by
  unfold setCommit; try dsimp only
  with_reducible repeat' first
      | assumption | refine keeps_putRaster _ _ _ ?_ | refine keeps_startBuild _ _ ?_ | refine keeps_countDefer _ _ ?_
      | refine keeps_ite ?_ ?_

theorem keeps_latchCommit {a : State} (r : Nat) (s : State) (h : Keeps a s) : Keeps a (latchCommit r s) := by
  unfold latchCommit; try dsimp only
  with_reducible repeat' first
      | assumption | refine keeps_countDefer _ _ ?_ | refine keeps_startBuild _ _ ?_ | refine keeps_clearCommit _ _ ?_
      | refine keeps_ite ?_ ?_

theorem keeps_writeShadow {a : State} (r : Nat) (h_1 : SceneHdr) (ds : List Desc) (s : State) (h : Keeps a s)
    : Keeps a (writeShadow r h_1 ds s) := by
  unfold writeShadow; try dsimp only
  with_reducible repeat' first
      | assumption | refine keeps_putScene _ _ _ ?_ | simp only [keeps_mk] | refine keepsAll_of ?_

theorem keeps_discardScenes {a : State} (r : Nat) (s : State) (h : Keeps a s) : Keeps a (discardScenes r s) := by
  unfold discardScenes; try dsimp only
  with_reducible repeat' first
      | assumption | refine keeps_putScene _ _ _ ?_ | refine keeps_startBuild _ _ ?_ | refine keeps_ite ?_ ?_
      | simp only [keeps_mk] | refine keepsAll_of ?_

theorem keeps_installPane {a : State} (r : Nat) (id : Nat) (d : Desc) (s : State) (h : Keeps a s) : Keeps a
    (installPane r id d s) := by
  unfold installPane; try dsimp only
  with_reducible repeat' first
      | assumption | refine keeps_putActive _ _ _ ?_ | refine keeps_putRun _ _ _ ?_ | refine keeps_ite ?_ ?_

theorem keeps_takeShadow {a : State} (p : State) (r : Nat) (s : State) (h : Keeps a s) : Keeps a
    (takeShadow p r s) := by
  unfold takeShadow; try dsimp only
  with_reducible repeat' first
      | assumption | refine keeps_installPane _ _ _ _ ?_ | refine keeps_putScene _ _ _ ?_
      | refine keeps_clearMgmt _ _ ?_ | refine keeps_latchCommit _ _ ?_ | refine keeps_forAll _ _ _ ?_ ?_ | intro _

theorem keeps_takeReadmit {a : State} (r : Nat) (m : SceneHdr × List Desc) (s : State) (h : Keeps a s) : Keeps a
    (takeReadmit r m s) := by
  unfold takeReadmit; try dsimp only
  with_reducible repeat' first
      | assumption | refine keeps_putActive _ _ _ ?_ | refine keeps_installPane _ _ _ _ ?_
      | refine keeps_putScene _ _ _ ?_ | refine keeps_forAll _ _ _ ?_ ?_ | intro _

theorem keeps_settleIndex {a : State} (r : Nat) (s : State) (h : Keeps a s) : Keeps a (settleIndex r s) := by
  unfold settleIndex; try dsimp only
  with_reducible repeat' first | assumption | refine keeps_putScene _ _ _ ?_

theorem keeps_dropCrystalPane {a : State} (id : Nat) (s : State) (h : Keeps a s) : Keeps a
    (dropCrystalPane id s) := by
  unfold dropCrystalPane; try dsimp only
  with_reducible repeat' first | assumption | refine keeps_putActive _ _ _ ?_ | refine keeps_putShadow _ _ _ ?_

theorem keeps_settleCrystalBit {a : State} (surf : Nat) (s : State) (h : Keeps a s) : Keeps a
    (settleCrystalBit surf s) := by
  unfold settleCrystalBit; try dsimp only
  with_reducible repeat' first | assumption | refine keeps_putSurf _ _ _ ?_ | refine keeps_ite ?_ ?_

theorem keeps_unpinCrystal {a : State} (r : Nat) (s : State) (h : Keeps a s) : Keeps a (unpinCrystal r s) := by
  unfold unpinCrystal; try dsimp only
  with_reducible repeat' first | assumption | refine keeps_unpinSlot _ _ _ _ ?_ | split

theorem keeps_takeStagedCrystal {a : State} (p : State) (r : Nat) (s : State) (h : Keeps a s) : Keeps a
    (takeStagedCrystal p r s) := by
  unfold takeStagedCrystal; try dsimp only
  with_reducible repeat' first
      | assumption | refine keeps_putCrystal _ _ _ ?_ | refine keeps_dropCrystalPane _ _ ?_
      | refine keeps_installPane _ _ _ _ ?_ | refine keeps_settleCrystalBit _ _ ?_ | refine keeps_ite ?_ ?_ | split

theorem keeps_repinCommit {a : State} (r : Nat) (k : CryCommit) (s : State) (h : Keeps a s) : Keeps a
    (repinCommit r k s) := by
  unfold repinCommit; try dsimp only
  with_reducible repeat' first | assumption | refine keeps_pinSlot _ _ _ _ ?_ | refine keeps_ite ?_ ?_

theorem keeps_takeCrystal {a : State} (p : State) (r : Nat) (k : CryCommit) (s : State) (h : Keeps a s) : Keeps a
    (takeCrystal p r k s) := by
  unfold takeCrystal; try dsimp only
  with_reducible repeat' first
      | assumption | refine keeps_takeStagedCrystal _ _ _ ?_ | refine keeps_unpinCrystal _ _ ?_
      | refine keeps_repinCommit _ _ _ ?_ | refine keeps_putCrystal _ _ _ ?_

theorem keeps_latchCrystal {a : State} (r : Nat) (s : State) (h : Keeps a s) : Keeps a (latchCrystal r s).2 := by
  unfold latchCrystal; try dsimp only
  with_reducible repeat' first
      | assumption | refine keeps_putCrystal _ _ _ ?_ | refine keeps_countDefer _ _ ?_
      | refine keeps_takeCrystal _ _ _ _ ?_ | refine keeps_ite ?_ ?_ | split

theorem keeps_latchTables {a : State} (r : Nat) (expectation : Bool) (s : State) (h : Keeps a s) : Keeps a
    (latchTables r expectation s) := by
  unfold latchTables; try dsimp only
  with_reducible repeat' first
      | assumption | refine keeps_takeTables _ _ ?_ | refine keeps_putCrystal _ _ _ ?_ | refine keeps_ite ?_ ?_

theorem keeps_retarget {a : State} (r : Nat) (s : State) (h : Keeps a s) : Keeps a (retarget r s) := by
  unfold retarget; try dsimp only
  with_reducible repeat' first
      | assumption | refine keeps_putFs _ _ _ ?_ | refine keeps_raiseUnit _ _ _ ?_ | refine keeps_ite ?_ ?_

theorem keeps_beginFetch {a : State} (r : Nat) (s : State) (h : Keeps a s) : Keeps a (beginFetch r s) := by
  unfold beginFetch; try dsimp only
  with_reducible repeat' first
      | assumption | refine keeps_settleLine _ _ ?_ | refine keeps_putFs _ _ _ ?_ | simp only [keeps_mk]
      | refine keepsAll_of ?_

theorem keeps_rehomeSlices {a : State} (before : State) (s : State) (h : Keeps a s) : Keeps a
    (rehomeSlices before s) := by
  unfold rehomeSlices; try dsimp only
  with_reducible repeat' first
      | assumption | refine keeps_evcRehomeSrc _ _ ?_ | refine keeps_forAll _ _ _ ?_ ?_ | intro _
      | refine keeps_ite ?_ ?_

theorem keeps_unbindSlices {a : State} (r : Nat) (s : State) (h : Keeps a s) : Keeps a (unbindSlices r s) := by
  unfold unbindSlices; try dsimp only
  with_reducible repeat' first
      | assumption | refine keeps_putSlice _ _ _ ?_ | refine keeps_rehomeSlices _ _ ?_
      | refine keeps_putRaster _ _ _ ?_ | refine keeps_forAll _ _ _ ?_ ?_ | intro _

theorem keeps_bindSlices {a : State} (r : Nat) (c : Nat) (g : Nat) (s : State) (h : Keeps a s) : Keeps a
    (bindSlices r c g s) := by
  unfold bindSlices; try dsimp only
  with_reducible repeat' first
      | assumption | refine keeps_putSlice _ _ _ ?_ | refine keeps_rehomeSlices _ _ ?_
      | refine keeps_putRaster _ _ _ ?_ | refine keeps_forAll _ _ _ ?_ ?_ | intro _

end Sys2Proof.Laws
end

