-- ==== Sys2Proof/Laws/KeepsRaster.lean ====
section
/-! SUPPORT. What strikes, sinks, rasters and scenes keep: the queue, time that
never goes back, the canonical form of memory and a legal mode. One lemma per operation. -/
namespace Sys2Proof.Laws
open Sys2Proof Sys2Proof.Machine

/-! ### Strikes -/

theorem keeps_mapStrikes {a : State} (p : Strike → Bool) (f : Strike → Strike) (s : State) (h : Keeps a s) : Keeps a
    (mapStrikes p f s) := h

theorem keeps_dropStrikes {a : State} (p : Strike → Bool) (s : State) (h : Keeps a s) : Keeps a (dropStrikes p s) := h

theorem keeps_alertMembers {a : State} (mask : Nat) (bit : Nat) (s : State) (h : Keeps a s) : Keeps a
    (alertMembers mask bit s) := by
  unfold alertMembers; try dsimp only
  with_reducible repeat' first
      | assumption | refine keeps_rasterAlert _ _ _ ?_ | refine keeps_forAll _ _ _ ?_ ?_ | intro _

theorem keeps_armStrike {a : State} (k : Strike) (s : State) (h : Keeps a s) : Keeps a (armStrike k s) := by
  unfold armStrike; try dsimp only
  with_reducible repeat' first
      | assumption | refine keeps_startBuild _ _ ?_ | refine keeps_forAll _ _ _ ?_ ?_ | intro _ | simp only [keeps_mk]
      | refine keepsAll_of ?_

theorem keeps_moveStrike {a : State} (k : Strike) (c : Nat) (d : Nat) (s : State) (h : Keeps a s) : Keeps a
    (moveStrike k c d s) := by
  unfold moveStrike; try dsimp only
  with_reducible repeat' first | assumption | refine keeps_alertMembers _ _ _ ?_ | refine keeps_mapStrikes _ _ _ ?_

theorem keeps_moveOn {a : State} (k : Strike) (s : State) (h : Keeps a s) : Keeps a (moveOn k s) := by
  unfold moveOn; try dsimp only
  with_reducible repeat' first | assumption | refine keeps_moveStrike _ _ _ _ ?_

theorem keeps_decideStrike {a : State} (k : Strike) (s : State) (h : Keeps a s) : Keeps a (decideStrike k s) := by
  unfold decideStrike; try dsimp only
  with_reducible repeat' first
      | assumption | refine keeps_mapStrikes _ _ _ ?_ | refine keeps_moveOn _ _ ?_ | refine keeps_ite ?_ ?_

theorem keeps_strikeResult {a : State} (status : Nat) (c : Nat) (s : State) (h : Keeps a s) : KeepsR a
    (strikeResult status c s) := by
  unfold strikeResult; try dsimp only
  with_reducible repeat' first | assumption | refine keepsR_done ?_

theorem keeps_partWord {a : State} (num : Nat) (w : StrikeDown) (s : State) (h : Keeps a s) : Keeps a
    (partWord num w s) := by
  unfold partWord; try dsimp only
  with_reducible repeat' first
      | assumption | refine keeps_finishUnit _ _ _ _ _ ?_ | refine keeps_armStrike _ _ ?_ | refine keeps_raise _ _ ?_
      | refine keeps_mapStrikes _ _ _ ?_ | refine keeps_alertMembers _ _ _ ?_ | refine keeps_moveStrike _ _ _ _ ?_
      | refine keeps_dropStrikes _ _ ?_ | refine keeps_ite ?_ ?_ | split

theorem keeps_tellParts {a : State} (o : OpenStrike) (w : StrikeDown) (s : State) (h : Keeps a s) : Keeps a
    (tellParts o w s) := by
  unfold tellParts; try dsimp only
  with_reducible repeat' first
      | assumption | refine keeps_partWord _ _ _ ?_ | refine keeps_sendTo _ _ _ ?_ | refine keeps_forAll _ _ _ ?_ ?_
      | intro _ | refine keeps_ite ?_ ?_

theorem keeps_putOpen {a : State} (o : OpenStrike) (s : State) (h : Keeps a s) : Keeps a (putOpen o s) := h

theorem keeps_closeStrike {a : State} (num : Nat) (s : State) (h : Keeps a s) : Keeps a (closeStrike num s) := h

theorem keeps_registerPart {a : State} (reg : StrikeReg) (s : State) (h : Keeps a s) : Keeps a
    (registerPart reg s).2.2 := by
  unfold registerPart; try dsimp only
  with_reducible repeat' first | assumption | refine keeps_putOpen _ _ ?_ | split

theorem keeps_announce {a : State} (num : Nat) (s : State) (h : Keeps a s) : Keeps a (announce num s) := by
  unfold announce; try dsimp only
  with_reducible repeat' first | assumption | refine keeps_tellParts _ _ _ ?_ | refine keeps_ite ?_ ?_ | split

theorem keeps_anchorTake {a : State} (num : Nat) (dev : Nat) (v : StrikeUp) (s : State) (h : Keeps a s) : Keeps a
    (anchorTake num dev v s) := by
  unfold anchorTake; try dsimp only
  with_reducible repeat' first
      | assumption | refine keeps_putOpen _ _ ?_ | refine keeps_tellParts _ _ _ ?_ | refine keeps_closeStrike _ _ ?_
      | refine keeps_ite ?_ ?_ | split

theorem keeps_sayUp {a : State} (num : Nat) (v : StrikeUp) (s : State) (h : Keeps a s) : Keeps a (sayUp num v s) := by
  unfold sayUp; try dsimp only
  with_reducible repeat' first
      | assumption | refine keeps_anchorTake _ _ _ _ ?_ | refine keeps_sendTo _ _ _ ?_ | refine keeps_ite ?_ ?_

theorem keeps_giveVerdict {a : State} (o : OpenStrike) (s : State) (h : Keeps a s) : Keeps a (giveVerdict o s) := by
  unfold giveVerdict; try dsimp only
  with_reducible repeat' first
      | assumption | refine keeps_tellParts _ _ _ ?_ | refine keeps_putOpen _ _ ?_ | refine keeps_ite ?_ ?_

theorem keeps_cancelStrike {a : State} (r : Nat) (s : State) (h : Keeps a s) : Keeps a (cancelStrike r s) := by
  unfold cancelStrike; try dsimp only
  with_reducible repeat' first
      | assumption | refine keeps_alertMembers _ _ _ ?_ | refine keeps_dropStrikes _ _ ?_
      | refine keeps_sayUp _ _ _ ?_ | refine keeps_ite ?_ ?_ | split

theorem keeps_latchStrike {a : State} (r : Nat) (s : State) (h : Keeps a s) : Keeps a (latchStrike r s).2 := by
  unfold latchStrike; try dsimp only
  with_reducible repeat' first
      | assumption | refine keeps_decideStrike _ _ ?_ | refine keeps_dropStrikes _ _ ?_
      | refine keeps_mapStrikes _ _ _ ?_ | refine keeps_sayUp _ _ _ ?_ | refine keeps_moveOn _ _ ?_
      | refine keeps_ite ?_ ?_ | split

theorem keeps_armLocal {a : State} (p : Packet) (s : State) (h : Keeps a s) : KeepsR a (armLocal p s) := by
  unfold armLocal; try dsimp only
  with_reducible repeat' first
      | assumption | refine keeps_require _ _ _ ?_ ?_ | exact keeps_badParam | refine keeps_strikeResult _ _ _ ?_
      | refine keeps_armStrike _ _ ?_

theorem keeps_armPart {a : State} (p : Packet) (s : State) (h : Keeps a s) : KeepsR a (armPart p s) := by
  unfold armPart; try dsimp only
  with_reducible repeat' first
      | assumption | refine keeps_require _ _ _ ?_ ?_ | exact keeps_badParam | exact keeps_bad _
      | refine keeps_registerPart _ _ ?_ | refine keeps_strikeResult _ _ _ ?_ | refine keeps_announce _ _ ?_
      | refine keeps_armStrike _ _ ?_ | exact keeps_busy | refine keeps_sendTo _ _ _ ?_ | refine keepsR_pend ?_
      | split

theorem keeps_strikeArmBody {a : State} (p : Packet) (s : State) (h : Keeps a s) : KeepsR a (strikeArmBody p s) := by
  unfold strikeArmBody; try dsimp only
  with_reducible repeat' first
      | assumption | refine keeps_require _ _ _ ?_ ?_ | exact keeps_badParam | exact keeps_busy
      | refine keeps_armLocal _ _ ?_ | refine keeps_armPart _ _ ?_ | split

theorem keeps_specStrikeArm : KeepsC specStrikeArm := by
  intro a p s h
  unfold specStrikeArm; try dsimp only
  with_reducible repeat' first | assumption | refine keeps_strikeArmBody _ _ ?_

theorem keeps_execStrikeArm {a : State} (t : Ticks) (p : Packet) (s : State) (h : Keeps a s) : KeepsX a
    (execStrikeArm t p s) := by
  unfold execStrikeArm; try dsimp only
  with_reducible repeat' first | assumption | refine keeps_runPacket _ _ _ _ ?_ ?_ | exact keeps_specStrikeArm

theorem keeps_strikeCancelBody {a : State} (p : Packet) (s : State) (h : Keeps a s) : KeepsR a
    (strikeCancelBody p s) := by
  unfold strikeCancelBody; try dsimp only
  with_reducible repeat' first
      | assumption | refine keeps_require _ _ _ ?_ ?_ | exact keeps_badParam | exact keeps_busy
      | refine keeps_okay _ ?_ | refine keeps_cancelStrike _ _ ?_ | split

theorem keeps_specStrikeCancel : KeepsC specStrikeCancel := by
  intro a p s h
  unfold specStrikeCancel rasterSpec; try dsimp only
  with_reducible repeat' first | assumption | refine keeps_strikeCancelBody _ _ ?_

theorem keeps_execStrikeCancel {a : State} (t : Ticks) (p : Packet) (s : State) (h : Keeps a s) : KeepsX a
    (execStrikeCancel t p s) := by
  unfold execStrikeCancel; try dsimp only
  with_reducible repeat' first | assumption | refine keeps_runPacket _ _ _ _ ?_ ?_ | exact keeps_specStrikeCancel

theorem keeps_execStrikeDecision {a : State} (t : Ticks) (r : Nat) (s : State) (h : Keeps a s) : KeepsX a
    (execStrikeDecision t r s) := by
  unfold execStrikeDecision; try dsimp only
  with_reducible repeat' first
      | assumption | refine keeps_whenRunning _ _ _ ?_ ?_ | refine keeps_decideStrike _ _ ?_ | intro _
      | refine keeps_ite ?_ ?_ | split

theorem keeps_execStrikeVoteTime {a : State} (t : Ticks) (num : Nat) (s : State) (h : Keeps a s) : KeepsX a
    (execStrikeVoteTime t num s) := by
  unfold execStrikeVoteTime; try dsimp only
  with_reducible repeat' first
      | assumption | refine keeps_whenRunning _ _ _ ?_ ?_ | refine keeps_mapStrikes _ _ _ ?_
      | refine keeps_sayUp _ _ _ ?_ | intro _ | refine keeps_ite ?_ ?_ | split

theorem keeps_execStrikeVerdictDeadline {a : State} (t : Ticks) (num : Nat) (s : State) (h : Keeps a s) : KeepsX a
    (execStrikeVerdictDeadline t num s) := by
  unfold execStrikeVerdictDeadline; try dsimp only
  with_reducible repeat' first
      | assumption | refine keeps_whenRunning _ _ _ ?_ ?_ | refine keeps_giveVerdict _ _ ?_ | intro _
      | refine keeps_ite ?_ ?_ | split

theorem keeps_execStrikeRegistrationRx {a : State} (t : Ticks) (x : FlitRx) (reg : StrikeReg) (s : State) (h
    : Keeps a s) : KeepsX a (execStrikeRegistrationRx t x reg s) := by
  unfold execStrikeRegistrationRx; try dsimp only
  with_reducible repeat' first
      | assumption | refine keeps_whenRunning _ _ _ ?_ ?_ | refine keeps_flitRx _ _ _ _ ?_ ?_
      | refine keeps_registerPart _ _ ?_ | refine keeps_sendTo _ _ _ ?_ | refine keeps_announce _ _ ?_ | intro _
      | refine keeps_ite ?_ ?_

theorem keeps_execStrikeVoteRx {a : State} (t : Ticks) (x : FlitRx) (device : Nat) (num : Nat) (v : StrikeUp) (s
    : State) (h : Keeps a s) : KeepsX a (execStrikeVoteRx t x device num v s) := by
  unfold execStrikeVoteRx; try dsimp only
  with_reducible repeat' first
      | assumption | refine keeps_whenRunning _ _ _ ?_ ?_ | refine keeps_flitRx _ _ _ _ ?_ ?_
      | refine keeps_anchorTake _ _ _ _ ?_ | intro _ | refine keeps_ite ?_ ?_

theorem keeps_execStrikeVerdictRx {a : State} (t : Ticks) (x : FlitRx) (num : Nat) (w : StrikeDown) (s : State) (h
    : Keeps a s) : KeepsX a (execStrikeVerdictRx t x num w s) := by
  unfold execStrikeVerdictRx; try dsimp only
  with_reducible repeat' first
      | assumption | refine keeps_whenRunning _ _ _ ?_ ?_ | refine keeps_flitRx _ _ _ _ ?_ ?_
      | refine keeps_partWord _ _ _ ?_ | intro _

theorem keeps_execStrikeRegistrationTimeout {a : State} (t : Ticks) (num : Nat) (s : State) (h : Keeps a s) : KeepsX a
    (execStrikeRegistrationTimeout t num s) := by
  unfold execStrikeRegistrationTimeout; try dsimp only
  with_reducible repeat' first
      | assumption | refine keeps_whenRunning _ _ _ ?_ ?_ | refine keeps_tellParts _ _ _ ?_
      | refine keeps_closeStrike _ _ ?_ | intro _ | refine keeps_ite ?_ ?_ | split

/-! ### Sinks -/

theorem keeps_putSink {a : State} (k : Nat) (kind : Nat) (x : Sink) (s : State) (h : Keeps a s) : Keeps a
    (putSink k kind x s) := by
  unfold putSink; try dsimp only
  with_reducible repeat' first | assumption | refine keeps_putRaster _ _ _ ?_

theorem keeps_dropSink {a : State} (k : Nat) (kind : Nat) (s : State) (h : Keeps a s) : Keeps a
    (dropSink k kind s) := by
  unfold dropSink; try dsimp only
  with_reducible repeat' first
      | assumption | refine keeps_putRaster _ _ _ ?_ | refine keeps_putDp _ _ _ ?_ | refine keeps_putEgress _ _ _ ?_
      | refine keeps_ite ?_ ?_ | split

theorem keeps_dropLine {a : State} (k : Nat) (s : State) (h : Keeps a s) : Keeps a (dropLine k s) := by
  unfold dropLine; try dsimp only
  with_reducible repeat' first | assumption | refine keeps_rasterAlert _ _ _ ?_ | refine keeps_putRaster _ _ _ ?_

theorem keeps_alertStreams {a : State} (p : Nat) (s : State) (h : Keeps a s) : Keeps a (alertStreams p s) := by
  unfold alertStreams; try dsimp only
  with_reducible repeat' first
      | assumption | refine keeps_rasterAlert _ _ _ ?_ | refine keeps_forAll _ _ _ ?_ ?_ | intro _

theorem keeps_stopStreams {a : State} (p : Nat) (n : List (Nat × Sink)) (s : State) (h : Keeps a s) : Keeps a
    (stopStreams p n s) := by
  induction n generalizing s with
  | nil => exact h
  | cons e t ih =>
    unfold stopStreams
    try dsimp only
    with_reducible repeat' first
        | assumption | refine ih _ ?_ | refine keeps_ite ?_ ?_ | refine keeps_rasterAlert _ _ _ ?_
        | refine keeps_putSink _ _ _ _ ?_

theorem keeps_recountStreams {a : State} (p : Nat) (s : State) (h : Keeps a s) : Keeps a (recountStreams p s) := by
  unfold recountStreams; try dsimp only
  with_reducible repeat' first
      | assumption | refine keeps_putSink _ _ _ _ ?_ | refine keeps_forAll _ _ _ ?_ ?_ | intro _

theorem keeps_recountRaster {a : State} (r : Nat) (s : State) (h : Keeps a s) : Keeps a (recountRaster r s) := by
  unfold recountRaster; try dsimp only
  with_reducible repeat' first
      | assumption | refine keeps_putSink _ _ _ _ ?_ | refine keeps_stopStreams _ _ _ ?_
      | refine keeps_forAll _ _ _ ?_ ?_ | intro _ | split

theorem keeps_idleVideo {a : State} (k : Nat) (s : State) (h : Keeps a s) : Keeps a (idleVideo k s) := by
  unfold idleVideo; try dsimp only
  with_reducible repeat' first | assumption | refine keeps_emit _ _ ?_ | refine keeps_ite ?_ ?_ | split

theorem keeps_sendSdp {a : State} (k : Nat) (x : Sink) (s : State) (h : Keeps a s) : Keeps a (sendSdp k x s) := by
  unfold sendSdp; try dsimp only
  with_reducible repeat' first | assumption | refine keeps_emit _ _ ?_ | refine keeps_ite ?_ ?_

theorem keeps_dpTake {a : State} (k : Nat) (y : Nat) (d : Nat) (x : Sink) (codes : List (List Nat)) (s : State) (h
    : Keeps a s) : Keeps a (dpTake k y d x codes s) := by
  unfold dpTake; try dsimp only
  with_reducible repeat' first | assumption | refine keeps_emit _ _ ?_ | refine keeps_ite ?_ ?_

theorem keeps_beginSend {a : State} (k : Nat) (ft : Nat) (x : Sink) (s : State) (h : Keeps a s) : Keeps a
    (beginSend k ft x s) := by
  unfold beginSend; try dsimp only
  with_reducible repeat' first | assumption | refine keeps_takeChange _ _ ?_ | refine keeps_putEgress _ _ _ ?_

theorem keeps_sendTake {a : State} (k : Nat) (d : Nat) (x : Sink) (codes : List (List Nat)) (s : State) (h
    : Keeps a s) : Keeps a (sendTake k d x codes s) := by
  unfold sendTake; try dsimp only
  with_reducible repeat' first | assumption | refine keeps_dropLine _ _ ?_ | refine keeps_putEgress _ _ _ ?_ | split

theorem keeps_releasePacket {a : State} (f : Nat) (g : SendFrame) (rest : List SendFrame) (s : State) (h : Keeps a s)
    : Keeps a (releasePacket f g rest s) := by
  unfold releasePacket; try dsimp only
  with_reducible repeat' first | assumption | refine keeps_enqueueOrDrop _ _ _ ?_ | refine keeps_putEgress _ _ _ ?_

theorem keeps_execSt2110PacketRelease {a : State} (t : Ticks) (flow : Nat) (s : State) (h : Keeps a s) : KeepsX a
    (execSt2110PacketRelease t flow s) := by
  unfold execSt2110PacketRelease; try dsimp only
  with_reducible repeat' first
      | assumption | refine keeps_whenRunning _ _ _ ?_ ?_ | refine keeps_releasePacket _ _ _ _ ?_ | intro _
      | refine keeps_ite ?_ ?_ | split

theorem keeps_beginWb {a : State} (k : Nat) (x : Sink) (s : State) (h : Keeps a s) : Keeps a (beginWb k x s) := by
  unfold beginWb; try dsimp only
  with_reducible repeat' first
      | assumption | refine keeps_putRaster _ _ _ ?_ | refine keeps_useSlot _ _ ?_ | refine keeps_noWriteSlot _ _ ?_
      | refine keeps_ite ?_ ?_

theorem keeps_wbWriteLine {a : State} (k : Nat) (y : Nat) (x : Sink) (line : List (List Nat)) (s : State) (h
    : Keeps a s) : Keeps a (wbWriteLine k y x line s) := by
  unfold wbWriteLine; try dsimp only
  with_reducible repeat' first | assumption | refine keeps_writeSlot _ _ _ _ ?_ | refine keeps_ite ?_ ?_

theorem keeps_wbTileRow {a : State} (k : Nat) (y : Nat) (x : Sink) (s : State) (h : Keeps a s) : Keeps a
    (wbTileRow k y x s) := by
  unfold wbTileRow; try dsimp only
  with_reducible repeat' first
      | assumption | refine keeps_putRaster _ _ _ ?_ | refine keeps_writeSlot _ _ _ _ ?_
      | refine keeps_forAll _ _ _ ?_ ?_ | intro _ | refine keeps_ite ?_ ?_

theorem keeps_wbDrainOne {a : State} (k : Nat) (x : Sink) (e : Nat × Option (List (List Nat))) (s : State) (h
    : Keeps a s) : Keeps a (wbDrainOne k x e s) := by
  unfold wbDrainOne; try dsimp only
  with_reducible repeat' first
      | assumption | refine keeps_putRaster _ _ _ ?_ | refine keeps_wbTileRow _ _ _ _ ?_
      | refine keeps_wbWriteLine _ _ _ _ _ ?_ | refine keeps_ite ?_ ?_ | split

theorem keeps_wbStep {a : State} (k : Nat) (x : Sink) (e : Nat × Option (List (List Nat))) (s : State) (h : Keeps a s)
    : Keeps a (wbStep k x e s) := by
  unfold wbStep; try dsimp only
  with_reducible repeat' first
      | assumption | refine keeps_putRaster _ _ _ ?_ | refine keeps_wbDrainOne _ _ _ _ ?_ | refine keeps_ite ?_ ?_

theorem keeps_wbDrain {a : State} (k : Nat) (x : Sink) (s : State) (h : Keeps a s) : Keeps a (wbDrain k x s) := by
  unfold wbDrain; try dsimp only
  with_reducible repeat' first
      | assumption | refine keeps_wbStep _ _ _ _ ?_ | refine keeps_putRaster _ _ _ ?_
      | refine keeps_forAll _ _ _ ?_ ?_ | intro _

theorem keeps_wbTake {a : State} (k : Nat) (y : Nat) (d : Nat) (x : Sink) (codes : List (List Nat)) (s : State) (h
    : Keeps a s) : Keeps a (wbTake k y d x codes s) := by
  unfold wbTake; try dsimp only
  with_reducible repeat' first
      | assumption | refine keeps_dropLine _ _ ?_ | refine keeps_putRaster _ _ _ ?_ | refine keeps_wbDrain _ _ _ ?_
      | refine keeps_ite ?_ ?_

theorem keeps_publishWb {a : State} (k : Nat) (x : Sink) (s : State) (h : Keeps a s) : Keeps a (publishWb k x s) := by
  unfold publishWb; try dsimp only
  with_reducible repeat' first
      | assumption | refine keeps_wbDrain _ _ _ ?_ | refine keeps_putRaster _ _ _ ?_
      | refine keeps_publishAuto _ _ _ _ _ ?_ | refine keeps_dropSink _ _ _ ?_ | refine keeps_rasterAlert _ _ _ ?_
      | refine keeps_ite ?_ ?_ | split

theorem keeps_endWb {a : State} (k : Nat) (ft : Nat) (x : Sink) (s : State) (h : Keeps a s) : Keeps a
    (endWb k ft x s) := by
  unfold endWb; try dsimp only
  with_reducible repeat' first
      | assumption | refine keeps_publishWb _ _ _ ?_ | refine keeps_putRaster _ _ _ ?_ | refine keeps_ite ?_ ?_

theorem keeps_beginExport {a : State} (k : Nat) (x : Sink) (s : State) (h : Keeps a s) : Keeps a
    (beginExport k x s) := by
  unfold beginExport; try dsimp only
  with_reducible repeat' first | assumption | refine keeps_sendTo _ _ _ ?_ | refine keeps_ite ?_ ?_

theorem keeps_exportTake {a : State} (k : Nat) (y : Nat) (d : Nat) (x : Sink) (codes : List (List Nat)) (s : State) (h
    : Keeps a s) : Keeps a (exportTake k y d x codes s) := by
  unfold exportTake; try dsimp only
  with_reducible repeat' first
      | assumption | refine keeps_rasterAlert _ _ _ ?_ | refine keeps_dropLine _ _ ?_ | refine keeps_sendTo _ _ _ ?_
      | refine keeps_forAll _ _ _ ?_ ?_ | intro _ | refine keeps_ite ?_ ?_

theorem keeps_stopExports {a : State} (j : Nat) (n : List (Nat × Sink)) (s : State) (h : Keeps a s) : Keeps a
    (stopExports j n s) := by
  induction n generalizing s with
  | nil => exact h
  | cons e t ih =>
    unfold stopExports
    try dsimp only
    with_reducible repeat' first
        | assumption | refine ih _ ?_ | refine keeps_ite ?_ ?_ | simp only [keeps_mk] | refine keepsAll_of ?_
        | refine keeps_rasterAlert _ _ _ ?_

theorem keeps_sinkTake {a : State} (k : Nat) (y : Nat) (d : Nat) (codes : List (List Nat)) (kind : Nat) (s : State) (h
    : Keeps a s) : Keeps a (sinkTake k y d codes kind s) := by
  unfold sinkTake; try dsimp only
  with_reducible repeat' first
      | assumption | refine keeps_dpTake _ _ _ _ _ _ ?_ | refine keeps_sendTake _ _ _ _ _ ?_
      | refine keeps_wbTake _ _ _ _ _ _ ?_ | refine keeps_exportTake _ _ _ _ _ _ ?_ | refine keeps_ite ?_ ?_ | split

theorem keeps_emitLine {a : State} (y : Nat) (k : Nat) (s : State) (h : Keeps a s) : Keeps a (emitLine y k s) := by
  unfold emitLine; try dsimp only
  with_reducible repeat' first
      | assumption | refine keeps_sinkTake _ _ _ _ _ _ ?_ | refine keeps_forAll _ _ _ ?_ ?_ | intro _ | split

theorem keeps_startSink {a : State} (k : Nat) (kind : Nat) (s : State) (h : Keeps a s) : Keeps a
    (startSink k kind s) := by
  unfold startSink; try dsimp only
  with_reducible repeat' first
      | assumption | refine keeps_putSink _ _ _ _ ?_ | refine keeps_sendSdp _ _ _ ?_
      | refine keeps_beginSend _ _ _ _ ?_ | refine keeps_beginWb _ _ _ ?_ | refine keeps_beginExport _ _ _ ?_ | split

theorem keeps_startSinks {a : State} (k : Nat) (s : State) (h : Keeps a s) : Keeps a (startSinks k s) := by
  unfold startSinks; try dsimp only
  with_reducible repeat' first
      | assumption | refine keeps_startSink _ _ _ ?_ | refine keeps_forAll _ _ _ ?_ ?_ | intro _

theorem keeps_endSinks {a : State} (k : Nat) (s : State) (h : Keeps a s) : Keeps a (endSinks k s) := by
  unfold endSinks; try dsimp only
  with_reducible repeat' first
      | assumption | refine keeps_endWb _ _ _ _ ?_ | refine keeps_dropSink _ _ _ ?_ | refine keeps_forAll _ _ _ ?_ ?_
      | intro _ | refine keeps_ite ?_ ?_ | split

theorem keeps_stopSinks {a : State} (k : Nat) (s : State) (h : Keeps a s) : Keeps a (stopSinks k s) := by
  unfold stopSinks; try dsimp only
  with_reducible repeat' first
      | assumption | refine keeps_idleVideo _ _ ?_ | refine keeps_putSink _ _ _ _ ?_ | refine keeps_forAll _ _ _ ?_ ?_
      | intro _ | split

theorem keeps_attachSink {a : State} (k : Nat) (p : Packet) (x : Sink) (r0 : Nat) (s : State) (h : Keeps a s)
    : KeepsR a (attachSink k p x r0 s) := by
  unfold attachSink; try dsimp only
  with_reducible repeat' first | assumption | refine keeps_putSink _ _ _ _ ?_ | refine keepsR_ok ?_

theorem keeps_attachDp {a : State} (k : Nat) (p : Packet) (x : Sink) (s : State) (h : Keeps a s) : KeepsR a
    (attachDp k p x s) := by
  unfold attachDp; try dsimp only
  with_reducible repeat' first
      | assumption | refine keeps_require _ _ _ ?_ ?_ | exact keeps_badParam | exact keeps_noResource
      | exact keeps_busy | refine keeps_putSink _ _ _ _ ?_ | refine keeps_idleVideo _ _ ?_
      | refine keeps_rasterAlert _ _ _ ?_ | refine keepsR_ok ?_ | refine keeps_ite ?_ ?_

theorem keeps_attachSender {a : State} (k : Nat) (p : Packet) (x : Sink) (s : State) (h : Keeps a s) : KeepsR a
    (attachSender k p x s) := by
  unfold attachSender; try dsimp only
  with_reducible repeat' first
      | assumption | refine keeps_require _ _ _ ?_ ?_ | exact keeps_badParam | exact keeps_busy
      | refine keeps_putQueue _ _ _ ?_ | exact keeps_noResource | refine keeps_attachSink _ _ _ _ _ ?_
      | refine keeps_putEgress _ _ _ ?_

theorem keeps_attachWb {a : State} (k : Nat) (p : Packet) (x : Sink) (s : State) (h : Keeps a s) : KeepsR a
    (attachWb k p x s) := by
  unfold attachWb; try dsimp only
  with_reducible repeat' first
      | assumption | refine keeps_require _ _ _ ?_ ?_ | exact keeps_badParam | exact keeps_bad _ | exact keeps_busy
      | refine keeps_attachSink _ _ _ _ _ ?_

theorem keeps_attachExport {a : State} (k : Nat) (p : Packet) (x : Sink) (s : State) (h : Keeps a s) : KeepsR a
    (attachExport k p x s) := by
  unfold attachExport; try dsimp only
  with_reducible repeat' first
      | assumption | refine keeps_require _ _ _ ?_ ?_ | exact keeps_badParam | exact keeps_noResource
      | refine keeps_attachSink _ _ _ _ _ ?_ | simp only [keeps_mk] | refine keepsAll_of ?_

theorem keeps_sinkAttachBody {a : State} (p : Packet) (s : State) (h : Keeps a s) : KeepsR a
    (sinkAttachBody p s) := by
  unfold sinkAttachBody; try dsimp only
  with_reducible repeat' first
      | assumption | refine keeps_require _ _ _ ?_ ?_ | exact keeps_busy | exact keeps_badParam
      | refine keeps_attachDp _ _ _ _ ?_ | refine keeps_attachSender _ _ _ _ ?_ | refine keeps_attachWb _ _ _ _ ?_
      | refine keeps_attachExport _ _ _ _ ?_ | split

theorem keeps_specSinkAttach : KeepsC specSinkAttach := by
  intro a p s h
  unfold specSinkAttach; try dsimp only
  with_reducible repeat' first | assumption | refine keeps_sinkAttachBody _ _ ?_

theorem keeps_execSinkAttach {a : State} (t : Ticks) (p : Packet) (s : State) (h : Keeps a s) : KeepsX a
    (execSinkAttach t p s) := by
  unfold execSinkAttach; try dsimp only
  with_reducible repeat' first | assumption | refine keeps_runPacket _ _ _ _ ?_ ?_ | exact keeps_specSinkAttach

theorem keeps_sinkDetachBody {a : State} (p : Packet) (s : State) (h : Keeps a s) : KeepsR a
    (sinkDetachBody p s) := by
  unfold sinkDetachBody; try dsimp only
  with_reducible repeat' first
      | assumption | refine keeps_require _ _ _ ?_ ?_ | exact keeps_busy | exact keeps_badParam
      | refine keeps_okay _ ?_ | refine keeps_dropSink _ _ _ ?_ | refine keeps_putSink _ _ _ _ ?_
      | refine keeps_ite ?_ ?_ | split

theorem keeps_specSinkDetach : KeepsC specSinkDetach := by
  intro a p s h
  unfold specSinkDetach; try dsimp only
  with_reducible repeat' first | assumption | refine keeps_sinkDetachBody _ _ ?_

theorem keeps_execSinkDetach {a : State} (t : Ticks) (p : Packet) (s : State) (h : Keeps a s) : KeepsX a
    (execSinkDetach t p s) := by
  unfold execSinkDetach; try dsimp only
  with_reducible repeat' first | assumption | refine keeps_runPacket _ _ _ _ ?_ ?_ | exact keeps_specSinkDetach

theorem keeps_dpDown {a : State} (p : Nat) (d : DpPort) (s : State) (h : Keeps a s) : Keeps a (dpDown p d s) := by
  unfold dpDown; try dsimp only
  with_reducible repeat' first
      | assumption | refine keeps_putDp _ _ _ ?_ | refine keeps_alertStreams _ _ ?_ | refine keeps_ite ?_ ?_

theorem keeps_dpPortConfigBody {a : State} (p : Packet) (s : State) (h : Keeps a s) : KeepsR a
    (dpPortConfigBody p s) := by
  unfold dpPortConfigBody; try dsimp only
  with_reducible repeat' first
      | assumption | refine keeps_require _ _ _ ?_ ?_ | exact keeps_badParam | exact keeps_noResource
      | refine keeps_recountStreams _ _ ?_ | refine keeps_dpDown _ _ _ ?_ | refine keeps_setMgmt _ _ _ ?_
      | refine keeps_clearMgmt _ _ ?_ | refine keepsR_ok ?_ | refine keeps_ite ?_ ?_

theorem keeps_specDpPortConfig : KeepsC specDpPortConfig := by
  intro a p s h
  unfold specDpPortConfig; try dsimp only
  with_reducible repeat' first | assumption | refine keeps_dpPortConfigBody _ _ ?_

theorem keeps_execDpPortConfig {a : State} (t : Ticks) (p : Packet) (s : State) (h : Keeps a s) : KeepsX a
    (execDpPortConfig t p s) := by
  unfold execDpPortConfig; try dsimp only
  with_reducible repeat' first | assumption | refine keeps_runPacket _ _ _ _ ?_ ?_ | exact keeps_specDpPortConfig

theorem keeps_settleDp {a : State} (p : Nat) (s : State) (h : Keeps a s) : Keeps a (settleDp p s) := by
  unfold settleDp; try dsimp only
  with_reducible repeat' first
      | assumption | refine keeps_adoptData _ _ ?_ | refine keeps_compareUnit _ _ ?_ | refine keeps_ite ?_ ?_

theorem keeps_execDpTrainingDone {a : State} (t : Ticks) (port : Nat) (rate : Nat) (lanes : Nat) (s : State) (h
    : Keeps a s) : KeepsX a (execDpTrainingDone t port rate lanes s) := by
  unfold execDpTrainingDone; try dsimp only
  with_reducible repeat' first
      | assumption | refine keeps_whenRunning _ _ _ ?_ ?_ | refine keeps_putDp _ _ _ ?_
      | refine keeps_recountStreams _ _ ?_ | refine keeps_stopStreams _ _ _ ?_ | refine keeps_idleVideo _ _ ?_
      | refine keeps_alertStreams _ _ ?_ | refine keeps_finishUnit _ _ _ _ _ ?_ | refine keeps_settleDp _ _ ?_
      | refine keeps_forAll _ _ _ ?_ ?_ | intro _ | refine keeps_ite ?_ ?_

theorem keeps_execDpHpdChange {a : State} (t : Ticks) (port : Nat) (level : Bool) (s : State) (h : Keeps a s)
    : KeepsX a (execDpHpdChange t port level s) := by
  unfold execDpHpdChange; try dsimp only
  with_reducible repeat' first
      | assumption | refine keeps_whenRunning _ _ _ ?_ ?_ | refine keeps_compareUnit _ _ ?_
      | refine keeps_putDp _ _ _ ?_ | refine keeps_dpDown _ _ _ ?_ | refine keeps_finishUnit _ _ _ _ _ ?_
      | refine keeps_settleDp _ _ ?_ | intro _ | refine keeps_ite ?_ ?_

theorem keeps_execHdcpAuthResult {a : State} (t : Ticks) (port : Nat) (stream : Nat) (ok : Bool) (rxids : List Byte)
    (s : State) (h : Keeps a s) : KeepsX a (execHdcpAuthResult t port stream ok rxids s) := by
  unfold execHdcpAuthResult; try dsimp only
  with_reducible repeat' first
      | assumption | refine keeps_whenRunning _ _ _ ?_ ?_ | refine keeps_putSink _ _ _ _ ?_
      | refine keeps_putDp _ _ _ ?_ | refine keeps_rasterAlert _ _ _ ?_ | intro _ | refine keeps_ite ?_ ?_ | split

/-! ### Rasters -/

theorem keeps_finishAll {a : State} (p : Inflight → Bool) (status : Nat) (r0 : Option Nat) (r1 : Option Nat) (s
    : State) (h : Keeps a s) : Keeps a (finishAll p status r0 r1 s) := by
  unfold finishAll; try dsimp only
  with_reducible repeat' first
      | assumption | refine keeps_finishInflight _ _ _ _ _ ?_ | refine keeps_forAll _ _ _ ?_ ?_ | intro _

theorem keeps_emptyScenes {a : State} (r : Nat) (s : State) (h : Keeps a s) : Keeps a (emptyScenes r s) := by
  unfold emptyScenes; try dsimp only
  with_reducible repeat' first | assumption | refine keeps_discardScenes _ _ ?_ | refine keeps_putScene _ _ _ ?_

theorem keeps_resetRaster {a : State} (r : Nat) (s : State) (h : Keeps a s) : Keeps a (resetRaster r s) := by
  unfold resetRaster; try dsimp only
  with_reducible repeat' first
      | assumption | refine keeps_unbindSlices _ _ ?_ | refine keeps_dropSink _ _ _ ?_
      | refine keeps_putRaster _ _ _ ?_ | refine keeps_emptyScenes _ _ ?_ | refine keeps_putFs _ _ _ ?_
      | refine keeps_putCrystal _ _ _ ?_ | refine keeps_adoptData _ _ ?_ | refine keeps_forAll _ _ _ ?_ ?_ | intro _

theorem keeps_deferStarts {a : State} (s : State) (h : Keeps a s) : Keeps a (deferStarts s) := by
  unfold deferStarts; try dsimp only
  with_reducible repeat' first
      | assumption | refine keeps_putRaster _ _ _ ?_ | refine keeps_forAll _ _ _ ?_ ?_ | intro _
      | refine keeps_ite ?_ ?_

theorem keeps_enterSleep {a : State} (old : Nat) (s : State) (h : Keeps a s) : Keeps a (enterSleep old s) := by
  unfold enterSleep; try dsimp only
  with_reducible repeat' first
      | assumption | refine keeps_endUnlock _ ?_ | refine keeps_checkpointNow _ _ ?_
      | refine keeps_finishUnit _ _ _ _ _ ?_ | refine keeps_raise _ _ ?_ | simp only [keeps_mk]
      | refine keepsAll_pstate (by decide) ?_

theorem keeps_finishEntry {a : State} (s : State) (h : Keeps a s) : Keeps a (finishEntry s) := by
  unfold finishEntry; try dsimp only
  with_reducible repeat' first
      | assumption | refine keeps_runRepairs _ ?_ | refine keeps_deferStarts _ ?_ | refine keeps_enterSleep _ _ ?_
      | refine keeps_finishUnit _ _ _ _ _ ?_ | refine keeps_raise _ _ ?_ | refine keeps_ite ?_ ?_
      | simp only [keeps_mk] | refine keepsAll_pstate (by decide) ?_

theorem keeps_stopRaster {a : State} (r : Nat) (s : State) (h : Keeps a s) : Keeps a (stopRaster r s) := by
  unfold stopRaster; try dsimp only
  with_reducible repeat' first
      | assumption | refine keeps_releasePins _ _ ?_ | refine keeps_clearUses _ _ ?_ | refine keeps_putRaster _ _ _ ?_
      | refine keeps_setDpState _ _ _ ?_ | refine keeps_stopSinks _ _ ?_ | refine keeps_recountRaster _ _ ?_
      | refine keeps_putFs _ _ _ ?_ | refine keeps_discardScenes _ _ ?_ | refine keeps_takeTables _ _ ?_
      | refine keeps_unbindSlices _ _ ?_ | refine keeps_resetRaster _ _ ?_ | refine keeps_finishAll _ _ _ _ _ ?_
      | refine keeps_finishEntry _ ?_ | refine keeps_forAll _ _ _ ?_ ?_ | intro _ | refine keeps_ite ?_ ?_
      | simp only [keeps_mk] | refine keepsAll_of ?_

theorem keeps_latchScene {a : State} (r : Nat) (s : State) (h : Keeps a s) : Keeps a (latchScene r s).2 := by
  unfold latchScene; try dsimp only
  with_reducible repeat' first
      | assumption | refine keeps_takeReadmit _ _ _ ?_ | refine keeps_countDefer _ _ ?_
      | refine keeps_setMgmt _ _ _ ?_ | refine keeps_latchCommit _ _ ?_ | refine keeps_takeShadow _ _ _ ?_
      | simp only [keeps_mk] | split

theorem keeps_latchStruck {a : State} (r : Nat) (s : State) (h : Keeps a s) : Keeps a (latchStruck r s).2 := by
  unfold latchStruck; try dsimp only
  with_reducible repeat' first
      | assumption | refine keeps_latchStrike _ _ ?_ | refine keeps_setMgmt _ _ _ ?_ | refine keeps_latchCommit _ _ ?_
      | refine keeps_takeShadow _ _ _ ?_ | split

theorem keeps_settleForced {a : State} (r : Nat) (s : State) (h : Keeps a s) : Keeps a (settleForced r s) := by
  unfold settleForced; try dsimp only
  with_reducible repeat' first | assumption | refine keeps_setDpState _ _ _ ?_ | refine keeps_ite ?_ ?_

theorem keeps_takeLatch {a : State} (r : Nat) (due : Ticks) (s : State) (h : Keeps a s) : Keeps a
    (takeLatch r due s) := by
  unfold takeLatch; try dsimp only
  with_reducible repeat' first
      | assumption | refine keeps_putRaster _ _ _ ?_ | refine keeps_latchScene _ _ ?_
      | refine keeps_settleBuild _ _ ?_ | refine keeps_latchCrystal _ _ ?_ | refine keeps_settleForced _ _ ?_
      | refine keeps_latchTables _ _ _ ?_ | refine keeps_retarget _ _ ?_ | refine keeps_latchStruck _ _ ?_
      | refine keeps_settleIndex _ _ ?_ | refine keeps_raiseRaster _ _ _ ?_ | refine keeps_resolveAll _ _ _ _ ?_
      | refine keeps_beginFetch _ _ ?_ | refine keeps_ite ?_ ?_

theorem keeps_rasterLatch {a : State} (r : Nat) (s : State) (h : Keeps a s) : Keeps a (rasterLatch r s) := by
  unfold rasterLatch; try dsimp only
  with_reducible repeat' first | assumption | refine keeps_takeLatch _ _ _ ?_ | refine keeps_ite ?_ ?_

theorem keeps_execRasterLatch {a : State} (t : Ticks) (r : Nat) (s : State) (h : Keeps a s) : KeepsX a
    (execRasterLatch t r s) := by
  unfold execRasterLatch; try dsimp only
  with_reducible repeat' first
      | assumption | refine keeps_whenRunning _ _ _ ?_ ?_ | refine keeps_rasterLatch _ _ ?_ | intro _
      | refine keeps_ite ?_ ?_

theorem keeps_rasterStartLatch {a : State} (r : Nat) (s : State) (h : Keeps a s) : Keeps a
    (rasterStartLatch r s) := by
  unfold rasterStartLatch; try dsimp only
  with_reducible repeat' first
      | assumption | refine keeps_takeLatch _ _ _ ?_ | refine keeps_putRaster _ _ _ ?_
      | refine keeps_finishUnit _ _ _ _ _ ?_ | refine keeps_raise _ _ ?_ | refine keeps_ite ?_ ?_
      | simp only [keeps_mk] | refine keepsAll_of ?_

theorem keeps_execRasterStartLatch {a : State} (t : Ticks) (r : Nat) (s : State) (h : Keeps a s) : KeepsX a
    (execRasterStartLatch t r s) := by
  unfold execRasterStartLatch; try dsimp only
  with_reducible repeat' first
      | assumption | refine keeps_whenRunning _ _ _ ?_ ?_ | refine keeps_rasterStartLatch _ _ ?_ | intro _
      | refine keeps_ite ?_ ?_

theorem keeps_composeNext {a : State} (r : Nat) (s : State) (h : Keeps a s) : Keeps a (composeNext r s) := by
  unfold composeNext; try dsimp only
  with_reducible repeat' first
      | assumption | refine keeps_composeTiles _ _ _ _ ?_ | refine keeps_putRaster _ _ _ ?_ | refine keeps_ite ?_ ?_

theorem keeps_lineStart {a : State} (r : Nat) (y : Nat) (s : State) (h : Keeps a s) : Keeps a (lineStart r y s) := by
  unfold lineStart; try dsimp only
  with_reducible repeat' first
      | assumption | refine keeps_putRaster _ _ _ ?_ | refine keeps_emitLine _ _ _ ?_ | refine keeps_openLine _ _ ?_
      | refine keeps_composeTiles _ _ _ _ ?_ | refine keeps_composeNext _ _ ?_ | refine keeps_forAll _ _ _ ?_ ?_
      | intro _ | refine keeps_ite ?_ ?_

theorem keeps_execRasterLineStart {a : State} (t : Ticks) (r : Nat) (y : Nat) (s : State) (h : Keeps a s) : KeepsX a
    (execRasterLineStart t r y s) := by
  unfold execRasterLineStart; try dsimp only
  with_reducible repeat' first
      | assumption | refine keeps_whenRunning _ _ _ ?_ ?_ | refine keeps_lineStart _ _ _ ?_ | intro _
      | refine keeps_ite ?_ ?_

theorem keeps_endFrame {a : State} (r : Nat) (due : Ticks) (s : State) (h : Keeps a s) : Keeps a
    (endFrame r due s) := by
  unfold endFrame; try dsimp only
  with_reducible repeat' first
      | assumption | refine keeps_putRaster _ _ _ ?_ | refine keeps_endSinks _ _ ?_ | refine keeps_forAll _ _ _ ?_ ?_
      | intro _

theorem keeps_rehomeStep {a : State} (r : Nat) (s : State) (h : Keeps a s) : Keeps a (rehomeStep r s) := by
  unfold rehomeStep; try dsimp only
  with_reducible repeat' first
      | assumption | refine keeps_unbindSlices _ _ ?_ | refine keeps_startBuild _ _ ?_
      | refine keeps_putRaster _ _ _ ?_ | refine keeps_bindSlices _ _ _ _ ?_ | refine keeps_putScene _ _ _ ?_
      | refine keeps_ite ?_ ?_ | split

theorem keeps_frameStart {a : State} (r : Nat) (s : State) (h : Keeps a s) : Keeps a (frameStart r s) := by
  unfold frameStart; try dsimp only
  with_reducible repeat' first
      | assumption | refine keeps_endFrame _ _ _ ?_ | refine keeps_stopRaster _ _ ?_ | refine keeps_rehomeStep _ _ ?_
      | refine keeps_putRaster _ _ _ ?_ | refine keeps_recountRaster _ _ ?_ | refine keeps_setDpState _ _ _ ?_
      | refine keeps_composeTiles _ _ _ _ ?_ | refine keeps_compareUnit _ _ ?_ | refine keeps_startSinks _ _ ?_
      | refine keeps_forAll _ _ _ ?_ ?_ | intro _ | refine keeps_ite ?_ ?_

theorem keeps_execRasterFrameStart {a : State} (t : Ticks) (r : Nat) (s : State) (h : Keeps a s) : KeepsX a
    (execRasterFrameStart t r s) := by
  unfold execRasterFrameStart; try dsimp only
  with_reducible repeat' first
      | assumption | refine keeps_whenRunning _ _ _ ?_ ?_ | refine keeps_frameStart _ _ ?_ | intro _
      | refine keeps_ite ?_ ?_

theorem keeps_execDivergenceCompare {a : State} (t : Ticks) (unit : Nat) (s : State) (h : Keeps a s) : KeepsX a
    (execDivergenceCompare t unit s) := by
  unfold execDivergenceCompare; try dsimp only
  with_reducible repeat' first
      | assumption | refine keeps_whenRunning _ _ _ ?_ ?_ | refine keeps_compareUnit _ _ ?_ | intro _
      | refine keeps_ite ?_ ?_

theorem keeps_followerCheck {a : State} (p : Packet) (s : State) (r : Nat) (k : Res) (hk : KeepsR a k) (h : Keeps a s)
    : KeepsR a (followerCheck p s r k) := by
  unfold followerCheck; try dsimp only
  with_reducible repeat' first
      | assumption | refine keeps_require _ _ _ ?_ ?_ | exact keeps_notOwner | exact keeps_busy

theorem keeps_setTiming {a : State} (r : Nat) (t : Timing) (s : State) (h : Keeps a s) : Keeps a
    (setTiming r t s) := by
  unfold setTiming; try dsimp only
  with_reducible repeat' first
      | assumption | refine keeps_putRaster _ _ _ ?_ | refine keeps_recountRaster _ _ ?_ | refine keeps_ite ?_ ?_

theorem keeps_rasterTimingSetBody {a : State} (p : Packet) (s : State) (h : Keeps a s) : KeepsR a
    (rasterTimingSetBody p s) := by
  unfold rasterTimingSetBody; try dsimp only
  with_reducible repeat' first
      | assumption | refine keeps_setTiming _ _ _ ?_ | refine keeps_verdictRes _ _ ?_
      | refine keeps_require _ _ _ ?_ ?_ | exact keeps_busy | exact keeps_badParam
      | refine keeps_followerCheck _ _ _ _ ?_ ?_ | exact keeps_bad _ | refine keepsR_ok ?_ | simp only [id_eq] | split

theorem keeps_specRasterTimingSet : KeepsC specRasterTimingSet := by
  intro a p s h
  unfold specRasterTimingSet rasterSpec; try dsimp only
  with_reducible repeat' first | assumption | refine keeps_rasterTimingSetBody _ _ ?_

theorem keeps_execRasterTimingSet {a : State} (t : Ticks) (p : Packet) (s : State) (h : Keeps a s) : KeepsX a
    (execRasterTimingSet t p s) := by
  unfold execRasterTimingSet; try dsimp only
  with_reducible repeat' first | assumption | refine keeps_runPacket _ _ _ _ ?_ ?_ | exact keeps_specRasterTimingSet

theorem keeps_rasterBindBody {a : State} (p : Packet) (s : State) (h : Keeps a s) : KeepsR a
    (rasterBindBody p s) := by
  unfold rasterBindBody; try dsimp only
  with_reducible repeat' first
      | assumption | refine keeps_require _ _ _ ?_ ?_ | exact keeps_busy | exact keeps_badParam
      | refine keeps_clearMgmt _ _ ?_ | refine keeps_unbindSlices _ _ ?_ | exact keeps_retired
      | refine keeps_followerCheck _ _ _ _ ?_ ?_ | refine keeps_bindSlices _ _ _ _ ?_
      | refine keeps_putRaster _ _ _ ?_ | refine keeps_startBuild _ _ ?_ | refine keepsR_ok ?_
      | refine keeps_ite ?_ ?_ | simp only [id_eq] | split

theorem keeps_specRasterBind : KeepsC specRasterBind := by
  intro a p s h
  unfold specRasterBind rasterSpec; try dsimp only
  with_reducible repeat' first | assumption | refine keeps_rasterBindBody _ _ ?_

theorem keeps_execRasterBind {a : State} (t : Ticks) (p : Packet) (s : State) (h : Keeps a s) : KeepsX a
    (execRasterBind t p s) := by
  unfold execRasterBind; try dsimp only
  with_reducible repeat' first | assumption | refine keeps_runPacket _ _ _ _ ?_ ?_ | exact keeps_specRasterBind

theorem keeps_beginStart {a : State} (r : Nat) (ft : Nat) (align : Bool) (s : State) (h : Keeps a s) : Keeps a
    (beginStart r ft align s) := by
  unfold beginStart; try dsimp only
  with_reducible repeat' first | assumption | refine keeps_clearMgmt _ _ ?_ | refine keeps_putRaster _ _ _ ?_

theorem keeps_rasterStartBody {a : State} (p : Packet) (s : State) (h : Keeps a s) : KeepsR a
    (rasterStartBody p s) := by
  unfold rasterStartBody; try dsimp only
  with_reducible repeat' first
      | assumption | refine keeps_require _ _ _ ?_ ?_ | exact keeps_busy | exact keeps_badParam
      | refine keeps_beginStart _ _ _ _ ?_ | refine keeps_putRaster _ _ _ ?_ | refine keepsR_ok ?_

theorem keeps_specRasterStart : KeepsC specRasterStart := by
  intro a p s h
  unfold specRasterStart rasterSpec; try dsimp only
  with_reducible repeat' first | assumption | refine keeps_rasterStartBody _ _ ?_

theorem keeps_execRasterStart {a : State} (t : Ticks) (p : Packet) (s : State) (h : Keeps a s) : KeepsX a
    (execRasterStart t p s) := by
  unfold execRasterStart; try dsimp only
  with_reducible repeat' first | assumption | refine keeps_runPacket _ _ _ _ ?_ ?_ | exact keeps_specRasterStart

theorem keeps_commandStop {a : State} (r : Nat) (discard : Bool) (s : State) (h : Keeps a s) : Keeps a
    (commandStop r discard s) := by
  unfold commandStop; try dsimp only
  with_reducible repeat' first
      | assumption | refine keeps_clearMgmt _ _ ?_ | refine keeps_cancelStrike _ _ ?_
      | refine keeps_putRaster _ _ _ ?_

theorem keeps_rasterStopBody {a : State} (p : Packet) (s : State) (h : Keeps a s) : KeepsR a
    (rasterStopBody p s) := by
  unfold rasterStopBody; try dsimp only
  with_reducible repeat' first
      | assumption | refine keeps_require _ _ _ ?_ ?_ | exact keeps_busy | exact keeps_badParam
      | refine keeps_putRaster _ _ _ ?_ | refine keeps_discardScenes _ _ ?_ | refine keeps_stopRaster _ _ ?_
      | refine keeps_commandStop _ _ _ ?_ | refine keepsR_ok ?_ | refine keepsR_pend ?_ | refine keeps_ite ?_ ?_
      | split

theorem keeps_specRasterStop : KeepsC specRasterStop := by
  intro a p s h
  unfold specRasterStop rasterSpec; try dsimp only
  with_reducible repeat' first | assumption | refine keeps_rasterStopBody _ _ ?_

theorem keeps_execRasterStop {a : State} (t : Ticks) (p : Packet) (s : State) (h : Keeps a s) : KeepsX a
    (execRasterStop t p s) := by
  unfold execRasterStop; try dsimp only
  with_reducible repeat' first | assumption | refine keeps_runPacket _ _ _ _ ?_ ?_ | exact keeps_specRasterStop

theorem keeps_rasterQueryBody {a : State} (p : Packet) (s : State) (h : Keeps a s) : KeepsR a
    (rasterQueryBody p s) := by
  unfold rasterQueryBody; try dsimp only
  with_reducible repeat' first
      | assumption | refine keeps_require _ _ _ ?_ ?_ | exact keeps_badParam
      | refine keeps_withBuf _ _ _ _ _ _ _ ?_ ?_ | refine keeps_okay _ ?_ | intro _ | apply_assumption

theorem keeps_specRasterQuery : KeepsC specRasterQuery := by
  intro a p s h
  unfold specRasterQuery rasterSpec; try dsimp only
  with_reducible repeat' first | assumption | refine keeps_rasterQueryBody _ _ ?_

theorem keeps_execRasterQuery {a : State} (t : Ticks) (p : Packet) (s : State) (h : Keeps a s) : KeepsX a
    (execRasterQuery t p s) := by
  unfold execRasterQuery; try dsimp only
  with_reducible repeat' first | assumption | refine keeps_runPacket _ _ _ _ ?_ ?_ | exact keeps_specRasterQuery

/-! ### Scenes -/

theorem keeps_checkIds {a : State} (s : State) (r : Nat) (n : List Nat) (y3 : List Desc) (y4 : Res) (hy4
    : KeepsR a y4) (h : Keeps a s) : KeepsR a (checkIds s r n y3 y4) := by
  induction y3 generalizing n with
  | nil => exact hy4
  | cons d t ih =>
    unfold checkIds
    dsimp only
    split
    · exact keepsR_fail
    · split
      · exact keepsR_fail
      · exact ih _

theorem keeps_sceneChecks {a : State} (p : Packet) (s : State) (k : List Desc → Res) (hk : ∀ y0, KeepsR a (k y0)) (h
    : Keeps a s) : KeepsR a (sceneChecks p s k) := by
  unfold sceneChecks; try dsimp only
  with_reducible repeat' first | apply hk | refine keeps_require _ _ _ ?_ ?_ | exact keepsR_fail | split

theorem keeps_sceneTarget {a : State} (p : Packet) (s : State) (k : Res) (hk : KeepsR a k) (h : Keeps a s) : KeepsR a
    (sceneTarget p s k) := by
  unfold sceneTarget; try dsimp only
  with_reducible repeat' first
      | assumption | refine keeps_require _ _ _ ?_ ?_ | exact keeps_busy | exact keeps_badParam

theorem keeps_shadowTarget {a : State} (p : Packet) (s : State) (k : Res) (hk : KeepsR a k) (h : Keeps a s) : KeepsR a
    (shadowTarget p s k) := by
  unfold shadowTarget; try dsimp only
  with_reducible repeat' first
      | assumption | refine keeps_sceneTarget _ _ _ ?_ ?_ | refine keeps_require _ _ _ ?_ ?_ | exact keeps_busy

theorem keeps_submitScene {a : State} (r : Nat) (h_1 : SceneHdr) (ds : List Desc) (commit : Bool) (s : State) (h
    : Keeps a s) : Keeps a (submitScene r h_1 ds commit s) := by
  unfold submitScene; try dsimp only
  with_reducible repeat' first
      | assumption | refine keeps_writeShadow _ _ _ _ ?_ | refine keeps_clearCommit _ _ ?_
      | refine keeps_putScene _ _ _ ?_ | refine keeps_setCommit _ _ ?_ | refine keeps_ite ?_ ?_

theorem keeps_submitBody {a : State} (store : Bool) (p : Packet) (s : State) (h : Keeps a s) : KeepsR a
    (submitBody store p s) := by
  unfold submitBody; try dsimp only
  with_reducible repeat' first
      | assumption | refine keeps_shadowTarget _ _ _ ?_ ?_ | refine keeps_sceneChecks _ _ _ ?_ ?_
      | refine keeps_checkIds _ _ _ _ _ ?_ ?_ | refine keeps_verdictRes _ _ ?_ | refine keeps_submitScene _ _ _ _ _ ?_
      | refine keepsR_ok ?_ | intro _ | refine keeps_ite ?_ ?_

theorem keeps_specSceneSubmit : KeepsC specSceneSubmit := by
  intro a p s h
  unfold specSceneSubmit rasterSpec; try dsimp only
  with_reducible repeat' first | assumption | refine keeps_submitBody _ _ _ ?_

theorem keeps_execSceneSubmit {a : State} (t : Ticks) (p : Packet) (s : State) (h : Keeps a s) : KeepsX a
    (execSceneSubmit t p s) := by
  unfold execSceneSubmit; try dsimp only
  with_reducible repeat' first | assumption | refine keeps_runPacket _ _ _ _ ?_ ?_ | exact keeps_specSceneSubmit

theorem keeps_specAdmitCheck : KeepsC specAdmitCheck := by
  intro a p s h
  unfold specAdmitCheck rasterSpec; try dsimp only
  with_reducible repeat' first | assumption | refine keeps_submitBody _ _ _ ?_

theorem keeps_execAdmitCheck {a : State} (t : Ticks) (p : Packet) (s : State) (h : Keeps a s) : KeepsX a
    (execAdmitCheck t p s) := by
  unfold execAdmitCheck; try dsimp only
  with_reducible repeat' first | assumption | refine keeps_runPacket _ _ _ _ ?_ ?_ | exact keeps_specAdmitCheck

theorem keeps_sceneCommitBody {a : State} (p : Packet) (s : State) (h : Keeps a s) : KeepsR a
    (sceneCommitBody p s) := by
  unfold sceneCommitBody; try dsimp only
  with_reducible repeat' first
      | assumption | refine keeps_shadowTarget _ _ _ ?_ ?_ | refine keeps_setCommit _ _ ?_ | refine keepsR_ok ?_

theorem keeps_specSceneCommit : KeepsC specSceneCommit := by
  intro a p s h
  unfold specSceneCommit rasterSpec; try dsimp only
  with_reducible repeat' first | assumption | refine keeps_sceneCommitBody _ _ ?_

theorem keeps_execSceneCommit {a : State} (t : Ticks) (p : Packet) (s : State) (h : Keeps a s) : KeepsX a
    (execSceneCommit t p s) := by
  unfold execSceneCommit; try dsimp only
  with_reducible repeat' first | assumption | refine keeps_runPacket _ _ _ _ ?_ ?_ | exact keeps_specSceneCommit

theorem keeps_fallbackSetBody {a : State} (p : Packet) (s : State) (h : Keeps a s) : KeepsR a
    (fallbackSetBody p s) := by
  unfold fallbackSetBody; try dsimp only
  with_reducible repeat' first
      | assumption | refine keeps_sceneTarget _ _ _ ?_ ?_ | refine keeps_sceneChecks _ _ _ ?_ ?_
      | refine keeps_okay _ ?_ | refine keeps_putScene _ _ _ ?_ | intro _

theorem keeps_specFallbackSet : KeepsC specFallbackSet := by
  intro a p s h
  unfold specFallbackSet rasterSpec; try dsimp only
  with_reducible repeat' first | assumption | refine keeps_fallbackSetBody _ _ ?_

theorem keeps_execFallbackSet {a : State} (t : Ticks) (p : Packet) (s : State) (h : Keeps a s) : KeepsX a
    (execFallbackSet t p s) := by
  unfold execFallbackSet; try dsimp only
  with_reducible repeat' first | assumption | refine keeps_runPacket _ _ _ _ ?_ ?_ | exact keeps_specFallbackSet

theorem keeps_paneUpdateBody {a : State} (p : Packet) (s : State) (h : Keeps a s) : KeepsR a
    (paneUpdateBody p s) := by
  unfold paneUpdateBody; try dsimp only
  with_reducible repeat' first
      | assumption | refine keeps_okay _ ?_ | refine keeps_putShadow _ _ _ ?_ | refine keeps_clearCommit _ _ ?_
      | refine keeps_setCommit _ _ ?_ | refine keeps_shadowTarget _ _ _ ?_ ?_ | refine keeps_require _ _ _ ?_ ?_
      | exact keeps_bad _ | exact keeps_badParam | refine keeps_ite ?_ ?_ | split

theorem keeps_specPaneUpdate : KeepsC specPaneUpdate := by
  intro a p s h
  unfold specPaneUpdate rasterSpec; try dsimp only
  with_reducible repeat' first | assumption | refine keeps_paneUpdateBody _ _ ?_

theorem keeps_execPaneUpdate {a : State} (t : Ticks) (p : Packet) (s : State) (h : Keeps a s) : KeepsX a
    (execPaneUpdate t p s) := by
  unfold execPaneUpdate; try dsimp only
  with_reducible repeat' first | assumption | refine keeps_runPacket _ _ _ _ ?_ ?_ | exact keeps_specPaneUpdate

theorem keeps_sceneQueryBody {a : State} (p : Packet) (s : State) (h : Keeps a s) : KeepsR a
    (sceneQueryBody p s) := by
  unfold sceneQueryBody; try dsimp only
  with_reducible repeat' first
      | assumption | refine keeps_require _ _ _ ?_ ?_ | exact keeps_badParam
      | refine keeps_withBuf _ _ _ _ _ _ _ ?_ ?_ | refine keepsR_ok ?_ | intro _ | apply_assumption

theorem keeps_specSceneQuery : KeepsC specSceneQuery := by
  intro a p s h
  unfold specSceneQuery rasterSpec; try dsimp only
  with_reducible repeat' first | assumption | refine keeps_sceneQueryBody _ _ ?_

theorem keeps_execSceneQuery {a : State} (t : Ticks) (p : Packet) (s : State) (h : Keeps a s) : KeepsX a
    (execSceneQuery t p s) := by
  unfold execSceneQuery; try dsimp only
  with_reducible repeat' first | assumption | refine keeps_runPacket _ _ _ _ ?_ ?_ | exact keeps_specSceneQuery

theorem keeps_paneCountersReadBody {a : State} (p : Packet) (s : State) (h : Keeps a s) : KeepsR a
    (paneCountersReadBody p s) := by
  unfold paneCountersReadBody; try dsimp only
  with_reducible repeat' first
      | assumption | refine keeps_require _ _ _ ?_ ?_ | exact keeps_busy | exact keeps_badParam
      | refine keeps_withBuf _ _ _ _ _ _ _ ?_ ?_ | refine keeps_okay _ ?_ | refine keeps_putRun _ _ _ ?_
      | refine keeps_forAll _ _ _ ?_ ?_ | intro _ | refine keeps_ite ?_ ?_ | apply_assumption

theorem keeps_specPaneCountersRead : KeepsC specPaneCountersRead := by
  intro a p s h
  unfold specPaneCountersRead rasterSpec; try dsimp only
  with_reducible repeat' first | assumption | refine keeps_paneCountersReadBody _ _ ?_

theorem keeps_execPaneCountersRead {a : State} (t : Ticks) (p : Packet) (s : State) (h : Keeps a s) : KeepsX a
    (execPaneCountersRead t p s) := by
  unfold execPaneCountersRead; try dsimp only
  with_reducible repeat' first | assumption | refine keeps_runPacket _ _ _ _ ?_ ?_ | exact keeps_specPaneCountersRead

theorem keeps_denyWindow {a : State} (r : Nat) (s : State) (h : Keeps a s) : Keeps a (denyWindow r s) := by
  unfold denyWindow; try dsimp only
  with_reducible repeat' first | assumption | refine keeps_setCsStat _ _ _ ?_ | refine keeps_onLead _ _ _ ?_

theorem keeps_windowWrite {a : State} (off : Nat) (v : Nat) (s : State) (h : Keeps a s) : Keeps a
    (windowWrite off v s) := by
  unfold windowWrite; try dsimp only
  with_reducible repeat' first
      | assumption | refine keeps_denyWindow _ _ ?_ | refine keeps_clearCommit _ _ ?_
      | refine keeps_putShadow _ _ _ ?_ | refine keeps_ite ?_ ?_

theorem keeps_execPaneWindowWrite {a : State} (t : Ticks) (f : Nat) (off : Nat) (v : Nat) (s : State) (h : Keeps a s)
    : KeepsX a (execPaneWindowWrite t f off v s) := by
  unfold execPaneWindowWrite; try dsimp only
  with_reducible repeat' first
      | assumption | refine keeps_regAccess _ _ _ _ _ ?_ ?_ ?_ | refine keeps_windowWrite _ _ _ ?_ | intro _
      | refine keeps_ite ?_ ?_ | simp only [id_eq]

theorem keeps_execIndexBuildDone {a : State} (t : Ticks) (r : Nat) (s : State) (h : Keeps a s) : KeepsX a
    (execIndexBuildDone t r s) := by
  unfold execIndexBuildDone; try dsimp only
  with_reducible repeat' first
      | assumption | refine keeps_whenRunning _ _ _ ?_ ?_ | refine keeps_finishBuild _ _ ?_ | intro _
      | refine keeps_ite ?_ ?_

theorem keeps_writeCommit {a : State} (r : Nat) (v : Nat) (s : State) (h : Keeps a s) : Keeps a
    (writeCommit r v s) := by
  unfold writeCommit; try dsimp only
  with_reducible repeat' first
      | assumption | refine keeps_setCommit _ _ ?_ | refine keeps_clearCommit _ _ ?_ | refine keeps_ite ?_ ?_

theorem keeps_execRgCommitWrite {a : State} (t : Ticks) (f : Nat) (r : Nat) (v : Nat) (s : State) (h : Keeps a s)
    : KeepsX a (execRgCommitWrite t f r v s) := by
  unfold execRgCommitWrite; try dsimp only
  with_reducible repeat' first
      | assumption | refine keeps_regAccess _ _ _ _ _ ?_ ?_ ?_ | refine keeps_writeCommit _ _ _ ?_ | intro _
      | refine keeps_ite ?_ ?_ | simp only [id_eq]

end Sys2Proof.Laws
end

