-- ==== Sys2Proof/Laws/KeepsEngines.lean ====
section
/-! SUPPORT. What reliability, the blitter, the housekeeping DMA, events and power keep: the queue, time that
never goes back, the canonical form of memory and a legal mode. One lemma per operation. -/
namespace Sys2Proof.Laws
open Sys2Proof Sys2Proof.Machine

/-! ### Reliability -/

theorem keeps_discardPending {a : State} (r : Nat) (s : State) (h : Keeps a s) : Keeps a (discardPending r s) := by
  unfold discardPending; try dsimp only
  with_reducible repeat' first
      | assumption | refine keeps_writeShadow _ _ _ _ ?_ | refine keeps_clearCommit _ _ ?_
      | refine keeps_putScene _ _ _ ?_ | refine keeps_ite ?_ ?_

theorem keeps_holdReadmit {a : State} (r : Nat) (h_1 : SceneHdr) (ds : List Desc) (s : State) (h : Keeps a s)
    : Keeps a (holdReadmit r h_1 ds s) := by
  unfold holdReadmit; try dsimp only
  with_reducible repeat' first | assumption | refine keeps_writeShadow _ _ _ _ ?_ | refine keeps_putScene _ _ _ ?_

theorem keeps_applyReadmit {a : State} (r : Nat) (c : Readmit) (s : State) (h : Keeps a s) : Keeps a
    (applyReadmit r c s) := by
  unfold applyReadmit; try dsimp only
  with_reducible repeat' first
      | assumption | refine keeps_discardPending _ _ ?_ | refine keeps_holdReadmit _ _ _ _ ?_
      | refine keeps_putScene _ _ _ ?_ | refine keeps_ite ?_ ?_ | split

theorem keeps_readmit {a : State} (s : State) (h : Keeps a s) : Keeps a (readmit s) := by
  unfold readmit; try dsimp only
  with_reducible repeat' first
      | assumption | refine keeps_raise _ _ ?_ | refine keeps_applyReadmit _ _ _ ?_ | refine keeps_forAll _ _ _ ?_ ?_
      | intro _

theorem keeps_dropImport {a : State} (n : Nat) (s : State) (h : Keeps a s) : Keeps a (dropImport n s) := h

theorem keeps_dropOpenFrames {a : State} (i : Nat) (s : State) (h : Keeps a s) : Keeps a (dropOpenFrames i s) := by
  unfold dropOpenFrames; try dsimp only
  with_reducible repeat' first
      | assumption | refine keeps_discardFrame _ _ ?_ | refine keeps_noWriteSlot _ _ ?_
      | refine keeps_putIngest _ _ _ ?_ | refine keeps_dropImport _ _ ?_ | refine keeps_putRaster _ _ _ ?_
      | refine keeps_forAll _ _ _ ?_ ?_ | intro _ | simp only [keeps_mk] | refine keepsAll_of ?_

theorem keeps_freezeSurface {a : State} (i : Nat) (s : State) (h : Keeps a s) : Keeps a (freezeSurface i s) := by
  unfold freezeSurface; try dsimp only
  with_reducible repeat' first | assumption | refine keeps_dropOpenFrames _ _ ?_ | refine keeps_putSurf _ _ _ ?_

theorem keeps_nextMove {a : State} (s : State) (h : Keeps a s) : Keeps a (nextMove s) := by
  unfold nextMove; try dsimp only
  with_reducible repeat' first
      | assumption | refine keeps_freezeSurface _ _ ?_ | simp only [keeps_mk] | refine keepsAll_of ?_ | split

theorem keeps_beginMigration {a : State} (n : Nat) (s : State) (h : Keeps a s) : Keeps a (beginMigration n s) := by
  unfold beginMigration; try dsimp only
  with_reducible repeat' first
      | assumption | refine keeps_raise _ _ ?_ | simp only [keeps_mk] | refine keepsAll_of ?_ | split

theorem keeps_copySlots {a : State} (x : Surface) (base : Nat) (s : State) (h : Keeps a s) : Keeps a
    (copySlots x base s) := by
  unfold copySlots; try dsimp only
  with_reducible repeat' first
      | assumption | refine keeps_countWrite _ _ _ ?_ | refine keeps_countRead _ _ _ ?_
      | refine keeps_memPoke _ _ _ ?_ | refine keeps_healSectors _ _ _ ?_ | refine keeps_forAll _ _ _ ?_ ?_ | intro _
      | simp only [keeps_mk] | refine keepsAll_of ?_

theorem keeps_surfaceMoved {a : State} (i : Nat) (s : State) (h : Keeps a s) : Keeps a (surfaceMoved i s) := by
  unfold surfaceMoved; try dsimp only
  with_reducible repeat' first
      | assumption | refine keeps_allocate _ _ _ _ ?_ | refine keeps_nextMove _ ?_ | refine keeps_raise _ _ ?_
      | refine keeps_putSurf _ _ _ ?_ | refine keeps_copySlots _ _ _ ?_ | refine keeps_ite ?_ ?_ | split

theorem keeps_execMigrationSurfaceMoved {a : State} (t : Ticks) (surf : Nat) (s : State) (h : Keeps a s) : KeepsX a
    (execMigrationSurfaceMoved t surf s) := by
  unfold execMigrationSurfaceMoved; try dsimp only
  with_reducible repeat' first
      | assumption | refine keeps_whenRunning _ _ _ ?_ ?_ | refine keeps_surfaceMoved _ _ ?_ | intro _

theorem keeps_invalidateSlots {a : State} (l : List (Nat × Nat)) (s : State) (h : Keeps a s) : Keeps a
    (invalidateSlots l s) := by
  unfold invalidateSlots; try dsimp only
  with_reducible repeat' first
      | assumption | refine keeps_dropOpenFrames _ _ ?_ | refine keeps_putSurf _ _ _ ?_
      | refine keeps_forAll _ _ _ ?_ ?_ | intro _ | refine keeps_ite ?_ ?_

theorem keeps_switchInterleave {a : State} (m : Migration) (zero : List Nat) (s : State) (h : Keeps a s) : Keeps a
    (switchInterleave m zero s) := by
  unfold switchInterleave; try dsimp only
  with_reducible repeat' first
      | assumption | refine keeps_countRead _ _ _ ?_ | refine keeps_memPoke _ _ _ ?_
      | refine keeps_countWrite _ _ _ ?_ | refine keeps_invalidateSlots _ _ ?_ | refine keeps_raise _ _ ?_
      | refine keeps_forAll _ _ _ ?_ ?_ | intro _ | refine keeps_ite ?_ ?_ | simp only [keeps_mk]
      | refine keepsAll_of ?_ | refine keepsAll_mem ?_ (fun w => wf_filter _ w)

theorem keeps_migrationDone {a : State} (lost : List Nat) (s : State) (h : Keeps a s) : Keeps a
    (migrationDone lost s) := by
  unfold migrationDone; try dsimp only
  with_reducible repeat' first
      | assumption | refine keeps_switchInterleave _ _ _ ?_ | refine keeps_nextMove _ ?_ | refine keeps_ite ?_ ?_
      | simp only [keeps_mk] | refine keepsAll_of ?_ | split

theorem keeps_execMigrationDone {a : State} (t : Ticks) (lost : List Nat) (s : State) (h : Keeps a s) : KeepsX a
    (execMigrationDone t lost s) := by
  unfold execMigrationDone; try dsimp only
  with_reducible repeat' first
      | assumption | refine keeps_whenRunning _ _ _ ?_ ?_ | refine keeps_migrationDone _ _ ?_ | intro _

theorem keeps_retireChannel {a : State} (n : Nat) (cause : Nat) (count : Nat) (s : State) (h : Keeps a s) : Keeps a
    (retireChannel n cause count s) := by
  unfold retireChannel; try dsimp only
  with_reducible repeat' first
      | assumption | refine keeps_raise _ _ ?_ | refine keeps_recordRetirement _ _ _ _ _ ?_
      | refine keeps_ltrAdd _ _ _ ?_ | refine keeps_setMgmt _ _ _ ?_ | refine keeps_beginMigration _ _ ?_
      | refine keeps_raiseUnit _ _ _ ?_ | refine keeps_readmit _ ?_ | refine keeps_nextMove _ ?_
      | refine keeps_finishAll _ _ _ _ _ ?_ | refine keeps_ite ?_ ?_ | simp only [keeps_mk] | refine keepsAll_of ?_
      | split

theorem keeps_logEcc {a : State} (n : Nat) (kind : Nat) (x : EccHit) (s : State) (h : Keeps a s) : Keeps a
    (logEcc n kind x s) := h

theorem keeps_scheduleRow {a : State} (w : RowRef) (s : State) (h : Keeps a s) : Keeps a (scheduleRow w s) := by
  unfold scheduleRow; try dsimp only
  with_reducible repeat' first
      | assumption | refine keeps_exhaustRow _ _ ?_ | refine keeps_raise _ _ ?_ | refine keeps_savePst _ ?_
      | refine keeps_ite ?_ ?_ | simp only [keeps_mk] | refine keepsAll_of ?_

theorem keeps_eccCorrected {a : State} (x : EccHit) (s : State) (h : Keeps a s) : Keeps a (eccCorrected x s) := by
  unfold eccCorrected; try dsimp only
  with_reducible repeat' first
      | assumption | refine keeps_logEcc _ _ _ _ ?_ | refine keeps_ltrAdd _ _ _ ?_ | refine keeps_raiseUnit _ _ _ ?_
      | refine keeps_scheduleRow _ _ ?_ | refine keeps_ite ?_ ?_ | simp only [keeps_mk] | refine keepsAll_of ?_

theorem keeps_execEccCorrected {a : State} (t : Ticks) (x : EccHit) (s : State) (h : Keeps a s) : KeepsX a
    (execEccCorrected t x s) := by
  unfold execEccCorrected; try dsimp only
  with_reducible repeat' first
      | assumption | refine keeps_whenRunning _ _ _ ?_ ?_ | refine keeps_eccCorrected _ _ ?_ | intro _

theorem keeps_eccUncorrectable {a : State} (x : EccHit) (s : State) (h : Keeps a s) : Keeps a
    (eccUncorrectable x s) := by
  unfold eccUncorrectable; try dsimp only
  with_reducible repeat' first
      | assumption | refine keeps_logEcc _ _ _ _ ?_ | refine keeps_ltrAdd _ _ _ ?_ | refine keeps_raiseUnit _ _ _ ?_
      | refine keeps_retireChannel _ _ _ _ ?_ | refine keeps_ite ?_ ?_ | simp only [keeps_mk] | refine keepsAll_of ?_

theorem keeps_execEccUncorrectable {a : State} (t : Ticks) (x : EccHit) (s : State) (h : Keeps a s) : KeepsX a
    (execEccUncorrectable t x s) := by
  unfold execEccUncorrectable; try dsimp only
  with_reducible repeat' first
      | assumption | refine keeps_whenRunning _ _ _ ?_ ?_ | refine keeps_eccUncorrectable _ _ ?_ | intro _

theorem keeps_degradeLink {a : State} (k : Nat) (lane : Nat) (s : State) (h : Keeps a s) : Keeps a
    (degradeLink k lane s) := by
  unfold degradeLink; try dsimp only
  with_reducible repeat' first
      | assumption | refine keeps_setMgmt _ _ _ ?_ | refine keeps_raiseUnit _ _ _ ?_ | refine keeps_putLink _ _ _ ?_
      | refine keeps_dropLink _ _ ?_ | refine keeps_endRetrain _ _ ?_ | refine keeps_stopExports _ _ _ ?_
      | refine keeps_ite ?_ ?_

theorem keeps_retireLane {a : State} (lane : Nat) (cause : Nat) (count : Nat) (s : State) (h : Keeps a s) : Keeps a
    (retireLane lane cause count s) := by
  unfold retireLane; try dsimp only
  with_reducible repeat' first
      | assumption | refine keeps_recordRetirement _ _ _ _ _ ?_ | refine keeps_raise _ _ ?_
      | refine keeps_degradePort _ _ ?_ | refine keeps_degradeLink _ _ _ ?_ | refine keeps_ite ?_ ?_
      | simp only [keeps_mk] | refine keepsAll_of ?_ | split

theorem keeps_retrainDone {a : State} (x : Nat) (lane : Nat) (s : State) (h : Keeps a s) : Keeps a
    (retrainDone x lane s) := by
  unfold retrainDone; try dsimp only
  with_reducible repeat' first
      | assumption | refine keeps_trainLanes _ _ ?_ | refine keeps_putEth _ _ _ ?_ | refine keeps_endRetrain _ _ ?_
      | refine keeps_retireLane _ _ _ _ ?_ | refine keeps_ite ?_ ?_ | simp only [keeps_mk] | refine keepsAll_of ?_

theorem keeps_execRetrainDone {a : State} (t : Ticks) (link : Nat) (lane : Nat) (s : State) (h : Keeps a s) : KeepsX a
    (execRetrainDone t link lane s) := by
  unfold execRetrainDone; try dsimp only
  with_reducible repeat' first
      | assumption | refine keeps_whenRunning _ _ _ ?_ ?_ | refine keeps_retrainDone _ _ _ ?_ | intro _

theorem keeps_trainingLost {a : State} (x : Nat) (s : State) (h : Keeps a s) : Keeps a (trainingLost x s) := by
  unfold trainingLost; try dsimp only
  with_reducible repeat' first
      | assumption | refine keeps_setPortUp _ _ _ ?_ | refine keeps_putEth _ _ _ ?_ | refine keeps_dropLink _ _ ?_
      | refine keeps_ite ?_ ?_

theorem keeps_retrainFails {a : State} (x : Nat) (lanes : Nat) (s : State) (h : Keeps a s) : Keeps a
    (retrainFails x lanes s) := by
  unfold retrainFails; try dsimp only
  with_reducible repeat' first
      | assumption | refine keeps_putEth _ _ _ ?_ | refine keeps_putLink _ _ _ ?_ | refine keeps_trainingLost _ _ ?_
      | refine keeps_retireLane _ _ _ _ ?_ | refine keeps_forAll _ _ _ ?_ ?_ | intro _ | refine keeps_ite ?_ ?_
      | simp only [keeps_mk] | refine keepsAll_of ?_

theorem keeps_execRetrainAttemptFail {a : State} (t : Ticks) (link : Nat) (lanes : Nat) (s : State) (h : Keeps a s)
    : KeepsX a (execRetrainAttemptFail t link lanes s) := by
  unfold execRetrainAttemptFail; try dsimp only
  with_reducible repeat' first
      | assumption | refine keeps_whenRunning _ _ _ ?_ ?_ | refine keeps_retrainFails _ _ _ ?_ | intro _

theorem keeps_retireSlice {a : State} (c : Nat) (count : Nat) (s : State) (h : Keeps a s) : Keeps a
    (retireSlice c count s) := by
  unfold retireSlice; try dsimp only
  with_reducible repeat' first
      | assumption | refine keeps_raise _ _ ?_ | refine keeps_recordRetirement _ _ _ _ _ ?_
      | refine keeps_putSlice _ _ _ ?_ | refine keeps_unbindSlices _ _ ?_ | refine keeps_putRaster _ _ _ ?_
      | refine keeps_ite ?_ ?_

theorem keeps_parityError {a : State} (c : Nat) (pane : Nat) (y : Nat) (s : State) (h : Keeps a s) : Keeps a
    (parityError c pane y s) := by
  unfold parityError; try dsimp only
  with_reducible repeat' first
      | assumption | refine keeps_putFs _ _ _ ?_ | refine keeps_raise _ _ ?_ | refine keeps_retireSlice _ _ _ ?_
      | refine keeps_ite ?_ ?_ | simp only [keeps_mk] | refine keepsAll_of ?_

theorem keeps_execParity {a : State} (t : Ticks) (slice : Nat) (pane : Nat) (y : Nat) (s : State) (h : Keeps a s)
    : KeepsX a (execParity t slice pane y s) := by
  unfold execParity; try dsimp only
  with_reducible repeat' first
      | assumption | refine keeps_whenRunning _ _ _ ?_ ?_ | refine keeps_parityError _ _ _ _ ?_ | intro _

theorem keeps_editRetired {a : State} (kind : Nat) (index : Nat) (f : Retire → Retire) (s : State) (h : Keeps a s)
    : Keeps a (editRetired kind index f s) := by
  unfold editRetired; try dsimp only
  with_reducible repeat' first | assumption | refine keeps_savePst _ ?_ | simp only [keeps_mk] | refine keepsAll_of ?_

theorem keeps_restartCounts {a : State} (kind : Nat) (index : Nat) (s : State) (h : Keeps a s) : Keeps a
    (restartCounts kind index s) := h

theorem keeps_clearRetired {a : State} (kind : Nat) (index : Nat) (s : State) (h : Keeps a s) : Keeps a
    (clearRetired kind index s) := by
  unfold clearRetired; try dsimp only
  with_reducible repeat' first
      | assumption | refine keeps_restartCounts _ _ _ ?_ | refine keeps_editRetired _ _ _ _ ?_
      | refine keeps_putSlice _ _ _ ?_ | refine keeps_raise _ _ ?_ | refine keeps_ite ?_ ?_ | simp only [keeps_mk]
      | refine keepsAll_of ?_

theorem keeps_retirementClearBody {a : State} (p : Packet) (s : State) (h : Keeps a s) : KeepsR a
    (retirementClearBody p s) := by
  unfold retirementClearBody; try dsimp only
  with_reducible repeat' first
      | assumption | refine keeps_require _ _ _ ?_ ?_ | exact keeps_badParam | exact keeps_busy
      | refine keeps_okay _ ?_ | refine keeps_clearRetired _ _ _ ?_

theorem keeps_specRetirementClear : KeepsC specRetirementClear := by
  intro a p s h
  unfold specRetirementClear; try dsimp only
  with_reducible repeat' first | assumption | refine keeps_retirementClearBody _ _ ?_

theorem keeps_execRetirementClear {a : State} (t : Ticks) (p : Packet) (s : State) (h : Keeps a s) : KeepsX a
    (execRetirementClear t p s) := by
  unfold execRetirementClear; try dsimp only
  with_reducible repeat' first | assumption | refine keeps_runPacket _ _ _ _ ?_ ?_ | exact keeps_specRetirementClear

/-! ### Blitter -/

theorem keeps_beginOp {a : State} (f : Nat) (b : List Byte) (s : State) (h : Keeps a s) : Keeps a
    (beginOp f b s) := by
  unfold beginOp; try dsimp only
  with_reducible repeat' first
      | assumption | refine keeps_pinSlot _ _ _ _ ?_ | simp only [keeps_mk] | refine keepsAll_of ?_ | split

theorem keeps_afterBursts {a : State} (n : Nat) (s : State) (h : Keeps a s) : Keeps a (afterBursts n s) := h

theorem keeps_clearWork {a : State} (s : State) (h : Keeps a s) : Keeps a (clearWork s) := h

theorem keeps_noteList {a : State} (l : BlList) (status : Nat) (s : State) (h : Keeps a s) : Keeps a
    (noteList l status s) := by
  unfold noteList; try dsimp only
  with_reducible repeat' first | assumption | refine keeps_raise _ _ ?_ | simp only [keeps_mk] | refine keepsAll_of ?_

theorem keeps_finishJob {a : State} (j : BlJob) (status : Nat) (r0 : Option Nat) (r1 : Option Nat) (s : State) (h
    : Keeps a s) : Keeps a (finishJob j status r0 r1 s) := by
  unfold finishJob; try dsimp only
  with_reducible repeat' first | assumption | refine keeps_settlePair _ _ ?_ | refine keeps_finish _ _ _ _ _ ?_

theorem keeps_endList {a : State} (status : Nat) (s : State) (h : Keeps a s) : Keeps a (endList status s) := by
  unfold endList; try dsimp only
  with_reducible repeat' first
      | assumption | refine keeps_noteSet _ _ _ ?_ | refine keeps_clearWork _ ?_ | refine keeps_noteList _ _ _ ?_
      | refine keeps_finishJob _ _ _ _ _ ?_ | refine keeps_ite ?_ ?_ | simp only [keeps_mk] | refine keepsAll_of ?_
      | split

theorem keeps_listRead {a : State} (a_0 : Nat) (n : Nat) (s : State) (h : Keeps a s) : Keeps a
    (listRead a_0 n s) := by
  unfold listRead; try dsimp only
  with_reducible repeat' first | assumption | refine keeps_afterBursts _ _ ?_ | refine keeps_countRead _ _ _ ?_

theorem keeps_beginList {a : State} (a_0 : Nat) (limit : Nat) (stopErr : Bool) (byReg : Bool) (s : State) (h
    : Keeps a s) : Keeps a (beginList a_0 limit stopErr byReg s) := by
  unfold beginList; try dsimp only
  with_reducible repeat' first
      | assumption | refine keeps_endList _ _ ?_ | refine keeps_listRead _ _ _ ?_ | refine keeps_ite ?_ ?_
      | simp only [keeps_mk] | refine keepsAll_of ?_ | split

theorem keeps_beginRegList {a : State} (s : State) (h : Keeps a s) : Keeps a (beginRegList s) := by
  unfold beginRegList; try dsimp only
  with_reducible repeat' first
      | assumption | refine keeps_beginList _ _ _ _ _ ?_ | refine keeps_ite ?_ ?_ | simp only [keeps_mk]
      | refine keepsAll_of ?_

theorem keeps_listStep {a : State} (s : State) (h : Keeps a s) : Keeps a (listStep s) := by
  unfold listStep; try dsimp only
  with_reducible repeat' first | assumption | refine keeps_endList _ _ ?_ | refine keeps_ite ?_ ?_ | split

theorem keeps_entryDone {a : State} (st : Nat) (r0 : Option Nat) (r1 : Option Nat) (s : State) (h : Keeps a s)
    : Keeps a (entryDone st r0 r1 s) := by
  unfold entryDone; try dsimp only
  with_reducible repeat' first
      | assumption | refine keeps_resultOr _ _ ?_ | refine keeps_afterBursts _ _ ?_ | refine keeps_memWrite _ _ _ ?_
      | refine keeps_listStep _ ?_ | simp only [keeps_mk] | refine keepsAll_of ?_ | split

theorem keeps_runEntry {a : State} (s : State) (h : Keeps a s) : Keeps a (runEntry s) := by
  unfold runEntry; try dsimp only
  with_reducible repeat' first
      | assumption | refine keeps_entryDone _ _ _ _ ?_ | refine keeps_afterBursts _ _ ?_
      | refine keeps_countRead _ _ _ ?_ | refine keeps_endList _ _ ?_ | refine keeps_listStep _ ?_
      | refine keeps_beginOp _ _ _ ?_ | refine keeps_ite ?_ ?_ | simp only [keeps_mk] | refine keepsAll_of ?_ | split

theorem keeps_execBlListEntryRun {a : State} (t : Ticks) (s : State) (h : Keeps a s) : KeepsX a
    (execBlListEntryRun t s) := by
  unfold execBlListEntryRun; try dsimp only
  with_reducible repeat' first
      | assumption | refine keeps_whenRunning _ _ _ ?_ ?_ | refine keeps_beginRegList _ ?_
      | refine keeps_runEntry _ ?_ | intro _

theorem keeps_startJob {a : State} (j : BlJob) (s : State) (h : Keeps a s) : Keeps a (startJob j s) := by
  unfold startJob; try dsimp only
  with_reducible repeat' first
      | assumption | refine keeps_finishJob _ _ _ _ _ ?_ | refine keeps_beginList _ _ _ _ _ ?_
      | refine keeps_beginOp _ _ _ ?_ | refine keeps_ite ?_ ?_ | simp only [keeps_mk] | refine keepsAll_of ?_ | split

theorem keeps_execBlJobStart {a : State} (t : Ticks) (s : State) (h : Keeps a s) : KeepsX a (execBlJobStart t s) := by
  unfold execBlJobStart; try dsimp only
  with_reducible repeat' first
      | assumption | refine keeps_whenRunning _ _ _ ?_ ?_ | refine keeps_beginRegList _ ?_
      | refine keeps_startJob _ _ ?_ | intro _ | refine keeps_ite ?_ ?_ | simp only [keeps_mk] | refine keepsAll_of ?_
      | split

theorem keeps_noteRace {a : State} (a_0 : Nat) (n : Nat) (s : State) (h : Keeps a s) : Keeps a (noteRace a_0 n s) := h

theorem keeps_raceOut {a : State} (o : BlOp) (s : State) (h : Keeps a s) : Keeps a (raceOut o s) := by
  unfold raceOut; try dsimp only
  with_reducible repeat' first
      | assumption | refine keeps_takeFree _ ?_ | refine keeps_memWrite _ _ _ ?_ | refine keeps_forAll _ _ _ ?_ ?_
      | intro _

theorem keeps_endOp {a : State} (s : State) (h : Keeps a s) : Keeps a (endOp s) := by
  unfold endOp; try dsimp only
  with_reducible repeat' first
      | assumption | refine keeps_raceOut _ _ ?_ | refine keeps_unpinSlot _ _ _ _ ?_
      | refine keeps_finishUnit _ _ _ _ _ ?_ | refine keeps_entryDone _ _ _ _ ?_ | refine keeps_clearWork _ ?_
      | refine keeps_finishJob _ _ _ _ _ ?_ | refine keeps_ite ?_ ?_ | simp only [keeps_mk] | refine keepsAll_of ?_
      | split

theorem keeps_execBlJobEnd {a : State} (t : Ticks) (s : State) (h : Keeps a s) : KeepsX a (execBlJobEnd t s) := by
  unfold execBlJobEnd; try dsimp only
  with_reducible repeat' first
      | assumption | refine keeps_whenRunning _ _ _ ?_ ?_ | refine keeps_beginRegList _ ?_ | refine keeps_endOp _ ?_
      | intro _

theorem keeps_accessFault {a : State} (s : State) (h : Keeps a s) : Keeps a (accessFault s) := by
  unfold accessFault; try dsimp only
  with_reducible repeat' first
      | assumption | refine keeps_takeFree _ ?_ | refine keeps_noteSet _ _ _ ?_ | refine keeps_raise _ _ ?_
      | refine keeps_ite ?_ ?_ | simp only [keeps_mk] | refine keepsAll_of ?_ | split

theorem keeps_runBurst {a : State} (s : State) (h : Keeps a s) : Keeps a (runBurst s) := by
  unfold runBurst; try dsimp only
  with_reducible repeat' first
      | assumption | refine keeps_takeFree _ ?_ | refine keeps_countRead _ _ _ ?_ | refine keeps_ftcError _ _ ?_
      | refine keeps_memWrite _ _ _ ?_ | refine keeps_afterBursts _ _ ?_ | refine keeps_accessFault _ ?_
      | refine keeps_forAll _ _ _ ?_ ?_ | intro _ | refine keeps_ite ?_ ?_ | simp only [keeps_mk]
      | refine keepsAll_of ?_ | split

theorem keeps_execBlBurst {a : State} (t : Ticks) (s : State) (h : Keeps a s) : KeepsX a (execBlBurst t s) := by
  unfold execBlBurst; try dsimp only
  with_reducible repeat' first
      | assumption | refine keeps_whenRunning _ _ _ ?_ ?_ | refine keeps_runBurst _ ?_ | intro _

theorem keeps_writeLctl {a : State} (v : Nat) (s : State) (h : Keeps a s) : Keeps a (writeLctl v s) := by
  unfold writeLctl; try dsimp only
  with_reducible repeat' first
      | assumption | refine keeps_beginRegList _ ?_ | refine keeps_endList _ _ ?_ | refine keeps_ite ?_ ?_
      | simp only [keeps_mk] | refine keepsAll_of ?_ | split

theorem keeps_execBlRegListStart {a : State} (t : Ticks) (f : Nat) (v : Nat) (s : State) (h : Keeps a s) : KeepsX a
    (execBlRegListStart t f v s) := by
  unfold execBlRegListStart; try dsimp only
  with_reducible repeat' first
      | assumption | refine keeps_regAccess _ _ _ _ _ ?_ ?_ ?_ | refine keeps_writeLctl _ _ ?_ | intro _
      | refine keeps_ite ?_ ?_ | simp only [id_eq]

theorem keeps_execBlRegListStop {a : State} (t : Ticks) (f : Nat) (v : Nat) (s : State) (h : Keeps a s) : KeepsX a
    (execBlRegListStop t f v s) := by
  unfold execBlRegListStop; try dsimp only
  with_reducible repeat' first
      | assumption | refine keeps_regAccess _ _ _ _ _ ?_ ?_ ?_ | refine keeps_writeLctl _ _ ?_ | intro _
      | refine keeps_ite ?_ ?_ | simp only [id_eq]

theorem keeps_queueBody {a : State} (op : Nat) (p : Packet) (s : State) (h : Keeps a s) : KeepsR a
    (queueBody op p s) := by
  unfold queueBody; try dsimp only
  with_reducible repeat' first
      | assumption | exact keepsR_wait | refine keepsR_keep ?_ | intro _ | simp only [keeps_mk]
      | refine keepsAll_of ?_ | split

theorem keeps_blitSpec (op : Nat) : KeepsC (blitSpec op) := by
  intro a p s h
  unfold blitSpec; try dsimp only
  with_reducible repeat' first | assumption | refine keeps_queueBody _ _ _ ?_

theorem keeps_specBlitCopy : KeepsC specBlitCopy := by
  intro a p s h
  unfold specBlitCopy blitSpec; try dsimp only
  with_reducible repeat' first | assumption | refine keeps_queueBody _ _ _ ?_

theorem keeps_execBlitCopy {a : State} (t : Ticks) (p : Packet) (s : State) (h : Keeps a s) : KeepsX a
    (execBlitCopy t p s) := by
  unfold execBlitCopy; try dsimp only
  with_reducible repeat' first | assumption | refine keeps_runPacket _ _ _ _ ?_ ?_ | exact keeps_specBlitCopy

theorem keeps_specBlitFill : KeepsC specBlitFill := by
  intro a p s h
  unfold specBlitFill blitSpec; try dsimp only
  with_reducible repeat' first | assumption | refine keeps_queueBody _ _ _ ?_

theorem keeps_execBlitFill {a : State} (t : Ticks) (p : Packet) (s : State) (h : Keeps a s) : KeepsX a
    (execBlitFill t p s) := by
  unfold execBlitFill; try dsimp only
  with_reducible repeat' first | assumption | refine keeps_runPacket _ _ _ _ ?_ ?_ | exact keeps_specBlitFill

theorem keeps_specBlitBlend : KeepsC specBlitBlend := by
  intro a p s h
  unfold specBlitBlend blitSpec; try dsimp only
  with_reducible repeat' first | assumption | refine keeps_queueBody _ _ _ ?_

theorem keeps_execBlitBlend {a : State} (t : Ticks) (p : Packet) (s : State) (h : Keeps a s) : KeepsX a
    (execBlitBlend t p s) := by
  unfold execBlitBlend; try dsimp only
  with_reducible repeat' first | assumption | refine keeps_runPacket _ _ _ _ ?_ ?_ | exact keeps_specBlitBlend

theorem keeps_specBlitConvert : KeepsC specBlitConvert := by
  intro a p s h
  unfold specBlitConvert blitSpec; try dsimp only
  with_reducible repeat' first | assumption | refine keeps_queueBody _ _ _ ?_

theorem keeps_execBlitConvert {a : State} (t : Ticks) (p : Packet) (s : State) (h : Keeps a s) : KeepsX a
    (execBlitConvert t p s) := by
  unfold execBlitConvert; try dsimp only
  with_reducible repeat' first | assumption | refine keeps_runPacket _ _ _ _ ?_ ?_ | exact keeps_specBlitConvert

theorem keeps_specBlitMaskExpand : KeepsC specBlitMaskExpand := by
  intro a p s h
  unfold specBlitMaskExpand blitSpec; try dsimp only
  with_reducible repeat' first | assumption | refine keeps_queueBody _ _ _ ?_

theorem keeps_execBlitMaskExpand {a : State} (t : Ticks) (p : Packet) (s : State) (h : Keeps a s) : KeepsX a
    (execBlitMaskExpand t p s) := by
  unfold execBlitMaskExpand; try dsimp only
  with_reducible repeat' first | assumption | refine keeps_runPacket _ _ _ _ ?_ ?_ | exact keeps_specBlitMaskExpand

theorem keeps_specBlitListRun : KeepsC specBlitListRun := by
  intro a p s h
  unfold specBlitListRun; try dsimp only
  with_reducible repeat' first | assumption | refine keeps_queueBody _ _ _ ?_

theorem keeps_execBlitListRun {a : State} (t : Ticks) (p : Packet) (s : State) (h : Keeps a s) : KeepsX a
    (execBlitListRun t p s) := by
  unfold execBlitListRun; try dsimp only
  with_reducible repeat' first | assumption | refine keeps_runPacket _ _ _ _ ?_ ?_ | exact keeps_specBlitListRun

theorem keeps_blitDeadtimeSetBody {a : State} (p : Packet) (s : State) (h : Keeps a s) : KeepsR a
    (blitDeadtimeSetBody p s) := by
  unfold blitDeadtimeSetBody; try dsimp only
  with_reducible repeat' first | assumption | refine keepsR_ok ?_ | simp only [keeps_mk] | refine keepsAll_of ?_

theorem keeps_specBlitDeadtimeSet : KeepsC specBlitDeadtimeSet := by
  intro a p s h
  unfold specBlitDeadtimeSet; try dsimp only
  with_reducible repeat' first | assumption | refine keeps_blitDeadtimeSetBody _ _ ?_

theorem keeps_execBlitDeadtimeSet {a : State} (t : Ticks) (p : Packet) (s : State) (h : Keeps a s) : KeepsX a
    (execBlitDeadtimeSet t p s) := by
  unfold execBlitDeadtimeSet; try dsimp only
  with_reducible repeat' first | assumption | refine keeps_runPacket _ _ _ _ ?_ ?_ | exact keeps_specBlitDeadtimeSet

/-! ### HousekeepingDma -/

theorem keeps_postRecord {a : State} (e : Nat × List Byte) (s : State) (h : Keeps a s) : Keeps a
    (postRecord e s) := by
  unfold postRecord; try dsimp only
  with_reducible repeat' first
      | assumption | refine keeps_memWrite _ _ _ ?_ | refine keeps_ite ?_ ?_ | simp only [keeps_mk]
      | refine keepsAll_of ?_

theorem keeps_drainRecords {a : State} (s : State) (h : Keeps a s) : Keeps a (drainRecords s) := by
  unfold drainRecords; try dsimp only
  with_reducible repeat' first
      | assumption | refine keeps_postRecord _ _ ?_ | refine keeps_forAll _ _ _ ?_ ?_ | intro _ | simp only [keeps_mk]
      | refine keepsAll_of ?_

theorem keeps_writeRecord {a : State} (c : Nat) (r : HdRecord) (s : State) (h : Keeps a s) : Keeps a
    (writeRecord c r s) := by
  unfold writeRecord; try dsimp only
  with_reducible repeat' first
      | assumption | refine keeps_raise _ _ ?_ | refine keeps_noteSet _ _ _ ?_ | refine keeps_putHd _ _ _ ?_
      | refine keeps_postRecord _ _ ?_ | refine keeps_drainRecords _ ?_ | refine keeps_emit _ _ ?_
      | refine keeps_ite ?_ ?_

theorem keeps_hdClear {a : State} (s : State) (h : Keeps a s) : Keeps a (hdClear s) := by
  unfold hdClear; try dsimp only
  with_reducible repeat' first | assumption | refine keeps_putHd _ _ _ ?_ | refine keeps_forAll _ _ _ ?_ ?_ | intro _

theorem keeps_hdSettle {a : State} (s : State) (h : Keeps a s) : Keeps a (hdSettle s) := by
  unfold hdSettle; try dsimp only
  with_reducible repeat' first
      | assumption | refine keeps_finishUnit _ _ _ _ _ ?_ | refine keeps_hdClear _ ?_ | refine keeps_ite ?_ ?_

theorem keeps_endChain {a : State} (c : Nat) (r : HdRecord) (s : State) (h : Keeps a s) : Keeps a
    (endChain c r s) := by
  unfold endChain; try dsimp only
  with_reducible repeat' first
      | assumption | refine keeps_writeRecord _ _ _ ?_ | refine keeps_putHd _ _ _ ?_ | refine keeps_raise _ _ ?_
      | refine keeps_finishUnit _ _ _ _ _ ?_ | refine keeps_hdSettle _ ?_

theorem keeps_settleWait {a : State} (c : Nat) (s : State) (h : Keeps a s) : Keeps a (settleWait c s) := by
  unfold settleWait; try dsimp only
  with_reducible repeat' first | assumption | refine keeps_putHd _ _ _ ?_ | refine keeps_ite ?_ ?_

theorem keeps_fetchDesc {a : State} (c : Nat) (a_1 : Nat) (desc : List Byte) (ok : Bool) (s : State) (h : Keeps a s)
    : Keeps a (fetchDesc c a_1 desc ok s) := by
  unfold fetchDesc; try dsimp only
  with_reducible repeat' first
      | assumption | refine keeps_putHd _ _ _ ?_ | refine keeps_endChain _ _ _ ?_ | refine keeps_countRead _ _ _ ?_
      | refine keeps_settleWait _ _ ?_ | refine keeps_ite ?_ ?_

theorem keeps_execHdChannelSelect {a : State} (t : Ticks) (desc : List Byte) (ok : Bool) (s : State) (h : Keeps a s)
    : KeepsX a (execHdChannelSelect t desc ok s) := by
  unfold execHdChannelSelect; try dsimp only
  with_reducible repeat' first
      | assumption | refine keeps_whenRunning _ _ _ ?_ ?_ | refine keeps_putHd _ _ _ ?_
      | refine keeps_fetchDesc _ _ _ _ _ ?_ | intro _ | refine keeps_ite ?_ ?_ | simp only [keeps_mk]
      | refine keepsAll_of ?_ | split

theorem keeps_noteRead {a : State} (o : HOpnd) (k : Nat) (n : Nat) (s : State) (h : Keeps a s) : Keeps a
    (noteRead o k n s) := by
  unfold noteRead; try dsimp only
  with_reducible repeat' first | assumption | refine keeps_countRead _ _ _ ?_ | refine keeps_ite ?_ ?_

theorem keeps_busFail {a : State} (c : Nat) (a_1 : Nat) (s : State) (h : Keeps a s) : Keeps a (busFail c a_1 s) := by
  unfold busFail; try dsimp only
  with_reducible repeat' first | assumption | refine keeps_endChain _ _ _ ?_

theorem keeps_burstWrite {a : State} (o : HOpnd) (k : Nat) (b : List Byte) (ok : Bool) (s : State) (h : Keeps a s)
    : ∀ s2, (burstWrite o k b ok s) = Sum.inr s2 → Keeps a s2 := by
  intro s2 e
  unfold burstWrite at e
  dsimp only at e
  by_cases c1 : o.host = true
  · rw [if_pos c1] at e
    by_cases c2 : (ok && bmeOf s 0) = true
    · rw [if_pos c2] at e
      rw [← Sum.inr.inj e]
      exact keeps_emit _ _ h
    · rw [if_neg c2] at e
      exact absurd e (by simp)
  · rw [if_neg c1] at e
    by_cases c2 : meetsFence s (hAddr o k) b.length = true
    · rw [if_pos c2] at e
      exact absurd e (by simp)
    · rw [if_neg c2] at e
      rw [← Sum.inr.inj e]
      exact keeps_memWrite _ _ _ h

theorem keeps_copied {a : State} (d : List Byte) (k : Nat) (v : List Byte) (s : State) (h : Keeps a s) : Keeps a
    (copied d k v s).2 := by
  unfold copied; try dsimp only
  with_reducible repeat' first | assumption | refine keeps_takeFree _ ?_ | split

theorem keeps_burstDone {a : State} (c : Nat) (n : Nat) (s : State) (h : Keeps a s) : Keeps a (burstDone c n s) := by
  unfold burstDone; try dsimp only
  with_reducible repeat' first | assumption | refine keeps_settleWait _ _ ?_ | refine keeps_putHd _ _ _ ?_

theorem keeps_hdBurst {a : State} (c : Nat) (src : List Byte) (dst : List Byte) (ok : Bool) (s : State) (h
    : Keeps a s) : Keeps a (hdBurst c src dst ok s) := by
  unfold hdBurst; try dsimp only
  with_reducible repeat' first
      | assumption | refine keeps_busFail _ _ _ ?_ | refine keeps_noteRead _ _ _ _ ?_ | refine keeps_copied _ _ _ _ ?_
      | refine keeps_burstDone _ _ _ ?_ | refine keeps_putHd _ _ _ ?_ | refine keeps_ite ?_ ?_ | simp only [keeps_mk]
      | refine keepsAll_of ?_ | refine keeps_burstWrite _ _ _ _ _ ?_ _ (by assumption) | split

theorem keeps_execHdBurst {a : State} (t : Ticks) (src : List Byte) (dst : List Byte) (ok : Bool) (s : State) (h
    : Keeps a s) : KeepsX a (execHdBurst t src dst ok s) := by
  unfold execHdBurst; try dsimp only
  with_reducible repeat' first
      | assumption | refine keeps_whenRunning _ _ _ ?_ ?_ | refine keeps_hdBurst _ _ _ _ _ ?_ | intro _ | split

theorem keeps_closeDesc {a : State} (c : Nat) (desc : List Byte) (ok : Bool) (d : List Byte) (s : State) (h
    : Keeps a s) : Keeps a (closeDesc c desc ok d s) := by
  unfold closeDesc; try dsimp only
  with_reducible repeat' first
      | assumption | refine keeps_putHd _ _ _ ?_ | refine keeps_raise _ _ ?_ | refine keeps_endChain _ _ _ ?_
      | refine keeps_writeRecord _ _ _ ?_ | refine keeps_fetchDesc _ _ _ _ _ ?_ | refine keeps_ite ?_ ?_

theorem keeps_hdComplete {a : State} (c : Nat) (readBack : Bool) (desc : List Byte) (ok : Bool) (s : State) (h
    : Keeps a s) : Keeps a (hdComplete c readBack desc ok s) := by
  unfold hdComplete; try dsimp only
  with_reducible repeat' first
      | assumption | refine keeps_noteRead _ _ _ _ ?_ | refine keeps_busFail _ _ _ ?_
      | refine keeps_closeDesc _ _ _ _ _ ?_ | refine keeps_endChain _ _ _ ?_ | refine keeps_ite ?_ ?_ | split

theorem keeps_execHdDescComplete {a : State} (t : Ticks) (readBack : Bool) (desc : List Byte) (ok : Bool) (s : State)
    (h : Keeps a s) : KeepsX a (execHdDescComplete t readBack desc ok s) := by
  unfold execHdDescComplete; try dsimp only
  with_reducible repeat' first
      | assumption | refine keeps_whenRunning _ _ _ ?_ ?_ | refine keeps_hdComplete _ _ _ _ _ ?_ | intro _ | split

theorem keeps_addRequest {a : State} (line : Nat) (s : State) (h : Keeps a s) : Keeps a (addRequest line s) := by
  unfold addRequest; try dsimp only
  with_reducible repeat' first
      | assumption | refine keeps_noteSet _ _ _ ?_ | refine keeps_settleWait _ _ ?_ | refine keeps_ite ?_ ?_
      | simp only [keeps_mk] | refine keepsAll_of ?_ | split

theorem keeps_execHdHwRequest {a : State} (t : Ticks) (line : Nat) (s : State) (h : Keeps a s) : KeepsX a
    (execHdHwRequest t line s) := by
  unfold execHdHwRequest; try dsimp only
  with_reducible repeat' first
      | assumption | refine keeps_whenRunning _ _ _ ?_ ?_ | refine keeps_addRequest _ _ ?_ | intro _
      | refine keeps_ite ?_ ?_

theorem keeps_writeReqset {a : State} (v : Nat) (s : State) (h : Keeps a s) : Keeps a (writeReqset v s) := by
  unfold writeReqset; try dsimp only
  with_reducible repeat' first
      | assumption | refine keeps_addRequest _ _ ?_ | refine keeps_forAll _ _ _ ?_ ?_ | intro _

theorem keeps_execHdReqsetWrite {a : State} (t : Ticks) (f : Nat) (v : Nat) (s : State) (h : Keeps a s) : KeepsX a
    (execHdReqsetWrite t f v s) := by
  unfold execHdReqsetWrite; try dsimp only
  with_reducible repeat' first
      | assumption | refine keeps_regAccess _ _ _ _ _ ?_ ?_ ?_ | refine keeps_writeReqset _ _ ?_ | intro _
      | refine keeps_ite ?_ ?_ | simp only [id_eq]

theorem keeps_execHdReqTimeout {a : State} (t : Ticks) (s : State) (h : Keeps a s) : KeepsX a
    (execHdReqTimeout t s) := by
  unfold execHdReqTimeout; try dsimp only
  with_reducible repeat' first
      | assumption | refine keeps_whenRunning _ _ _ ?_ ?_ | refine keeps_endChain _ _ _ ?_ | intro _
      | refine keeps_ite ?_ ?_ | split

theorem keeps_execHdAccessTimeout {a : State} (t : Ticks) (s : State) (h : Keeps a s) : KeepsX a
    (execHdAccessTimeout t s) := by
  unfold execHdAccessTimeout; try dsimp only
  with_reducible repeat' first
      | assumption | refine keeps_whenRunning _ _ _ ?_ ?_ | refine keeps_busFail _ _ _ ?_ | intro _
      | refine keeps_ite ?_ ?_ | split

theorem keeps_readyChain {a : State} (c : Nat) (head : Nat) (byReg : Bool) (s : State) (h : Keeps a s) : Keeps a
    (readyChain c head byReg s) := by
  unfold readyChain; try dsimp only
  with_reducible repeat' first | assumption | refine keeps_putHd _ _ _ ?_

theorem keeps_abortChan {a : State} (c : Nat) (s : State) (h : Keeps a s) : Keeps a (abortChan c s) := by
  unfold abortChan; try dsimp only
  with_reducible repeat' first
      | assumption | refine keeps_endChain _ _ _ ?_ | refine keeps_putHd _ _ _ ?_ | refine keeps_ite ?_ ?_ | split

theorem keeps_startChain {a : State} (c : Nat) (s : State) (h : Keeps a s) : Keeps a (startChain c s) := by
  unfold startChain; try dsimp only
  with_reducible repeat' first | assumption | refine keeps_readyChain _ _ _ _ ?_ | refine keeps_ite ?_ ?_

theorem keeps_abortChain {a : State} (c : Nat) (s : State) (h : Keeps a s) : Keeps a (abortChain c s) := by
  unfold abortChain; try dsimp only
  with_reducible repeat' first
      | assumption | refine keeps_abortChan _ _ ?_ | refine keeps_putHd _ _ _ ?_ | refine keeps_ite ?_ ?_

theorem keeps_execHdRegStart {a : State} (t : Ticks) (f : Nat) (c : Nat) (s : State) (h : Keeps a s) : KeepsX a
    (execHdRegStart t f c s) := by
  unfold execHdRegStart; try dsimp only
  with_reducible repeat' first
      | assumption | refine keeps_regAccess _ _ _ _ _ ?_ ?_ ?_ | refine keeps_startChain _ _ ?_ | intro _
      | refine keeps_ite ?_ ?_ | simp only [id_eq]

theorem keeps_execHdRegAbort {a : State} (t : Ticks) (f : Nat) (c : Nat) (s : State) (h : Keeps a s) : KeepsX a
    (execHdRegAbort t f c s) := by
  unfold execHdRegAbort; try dsimp only
  with_reducible repeat' first
      | assumption | refine keeps_regAccess _ _ _ _ _ ?_ ?_ ?_ | refine keeps_abortChain _ _ ?_ | intro _
      | refine keeps_ite ?_ ?_ | simp only [id_eq]

theorem keeps_hdFlr {a : State} (s : State) (h : Keeps a s) : Keeps a (hdFlr s) := by
  unfold hdFlr; try dsimp only
  with_reducible repeat' first
      | assumption | refine keeps_abortChan _ _ ?_ | refine keeps_putHd _ _ _ ?_ | refine keeps_forAll _ _ _ ?_ ?_
      | intro _ | refine keeps_ite ?_ ?_

theorem keeps_hdSpec (op : Nat) (body : Packet → State → Res) (hbody : ∀ a p s, Keeps a s → KeepsR a (body p s))
    : KeepsC (hdSpec op body) := by
  intro a p s h
  unfold hdSpec; try dsimp only
  with_reducible repeat' first | assumption | apply hbody

theorem keeps_hdChannelConfigBody {a : State} (p : Packet) (s : State) (h : Keeps a s) : KeepsR a
    (hdChannelConfigBody p s) := by
  unfold hdChannelConfigBody; try dsimp only
  with_reducible repeat' first
      | assumption | refine keeps_require _ _ _ ?_ ?_ | exact keeps_badParam | exact keeps_busy
      | refine keeps_okay _ ?_ | refine keeps_putHd _ _ _ ?_

theorem keeps_specHdChannelConfig : KeepsC specHdChannelConfig := by
  intro a p s h
  unfold specHdChannelConfig hdSpec; try dsimp only
  with_reducible repeat' first | assumption | refine keeps_hdChannelConfigBody _ _ ?_

theorem keeps_execHdChannelConfig {a : State} (t : Ticks) (p : Packet) (s : State) (h : Keeps a s) : KeepsX a
    (execHdChannelConfig t p s) := by
  unfold execHdChannelConfig; try dsimp only
  with_reducible repeat' first | assumption | refine keeps_runPacket _ _ _ _ ?_ ?_ | exact keeps_specHdChannelConfig

theorem keeps_hdStartBody {a : State} (p : Packet) (s : State) (h : Keeps a s) : KeepsR a (hdStartBody p s) := by
  unfold hdStartBody; try dsimp only
  with_reducible repeat' first
      | assumption | refine keeps_require _ _ _ ?_ ?_ | exact keeps_badParam | exact keeps_busy
      | refine keeps_readyChain _ _ _ _ ?_ | refine keeps_okay _ ?_ | refine keepsR_pend ?_ | split

theorem keeps_specHdStart : KeepsC specHdStart := by
  intro a p s h
  unfold specHdStart hdSpec; try dsimp only
  with_reducible repeat' first | assumption | refine keeps_hdStartBody _ _ ?_

theorem keeps_execHdStart {a : State} (t : Ticks) (p : Packet) (s : State) (h : Keeps a s) : KeepsX a
    (execHdStart t p s) := by
  unfold execHdStart; try dsimp only
  with_reducible repeat' first | assumption | refine keeps_runPacket _ _ _ _ ?_ ?_ | exact keeps_specHdStart

theorem keeps_hdAbortBody {a : State} (p : Packet) (s : State) (h : Keeps a s) : KeepsR a (hdAbortBody p s) := by
  unfold hdAbortBody; try dsimp only
  with_reducible repeat' first
      | assumption | refine keeps_require _ _ _ ?_ ?_ | exact keeps_badParam | refine keeps_abortChan _ _ ?_
      | refine keepsR_ok ?_ | refine keepsR_pend ?_ | split

theorem keeps_specHdAbort : KeepsC specHdAbort := by
  intro a p s h
  unfold specHdAbort hdSpec; try dsimp only
  with_reducible repeat' first | assumption | refine keeps_hdAbortBody _ _ ?_

theorem keeps_execHdAbort {a : State} (t : Ticks) (p : Packet) (s : State) (h : Keeps a s) : KeepsX a
    (execHdAbort t p s) := by
  unfold execHdAbort; try dsimp only
  with_reducible repeat' first | assumption | refine keeps_runPacket _ _ _ _ ?_ ?_ | exact keeps_specHdAbort

theorem keeps_hdQueryBody {a : State} (p : Packet) (s : State) (h : Keeps a s) : KeepsR a (hdQueryBody p s) := by
  unfold hdQueryBody; try dsimp only
  with_reducible repeat' first
      | assumption | refine keeps_require _ _ _ ?_ ?_ | exact keeps_badParam | refine keepsR_ok ?_

theorem keeps_specHdQuery : KeepsC specHdQuery := by
  intro a p s h
  unfold specHdQuery; try dsimp only
  with_reducible repeat' first | assumption | refine keeps_hdQueryBody _ _ ?_

theorem keeps_execHdQuery {a : State} (t : Ticks) (p : Packet) (s : State) (h : Keeps a s) : KeepsX a
    (execHdQuery t p s) := by
  unfold execHdQuery; try dsimp only
  with_reducible repeat' first | assumption | refine keeps_runPacket _ _ _ _ ?_ ?_ | exact keeps_specHdQuery

/-! ### Events -/

theorem keeps_setRasterOwner {a : State} (r : Nat) (f : Nat) (s : State) (h : Keeps a s) : Keeps a
    (setRasterOwner r f s) := by
  unfold setRasterOwner; try dsimp only
  with_reducible repeat' first
      | assumption | refine keeps_rehomeSlices _ _ ?_ | refine keeps_evcRehomeSrc _ _ ?_
      | refine keeps_forAll _ _ _ ?_ ?_ | intro _ | refine keeps_ite ?_ ?_ | simp only [keeps_mk]
      | refine keepsAll_of ?_

theorem keeps_rehomeTarget {a : State} (tg : Nat) (s : State) (h : Keeps a s) : Keeps a (rehomeTarget tg s) := by
  unfold rehomeTarget; try dsimp only
  with_reducible repeat' first
      | assumption | refine keeps_evcRehomeSrc _ _ ?_ | refine keeps_forAll _ _ _ ?_ ?_ | intro _

theorem keeps_setTargetOwner {a : State} (f : Nat) (held : Bool) (s : State) (h : Keeps a s) : Keeps a
    (setTargetOwner f held s) := by
  unfold setTargetOwner; try dsimp only
  with_reducible repeat' first
      | assumption | refine keeps_rehomeTarget _ _ ?_ | refine keeps_forAll _ _ _ ?_ ?_ | intro _
      | refine keeps_ite ?_ ?_ | simp only [keeps_mk] | refine keepsAll_of ?_

theorem keeps_endClaim {a : State} (n : Nat) (s : State) (h : Keeps a s) : Keeps a (endClaim n s) := by
  unfold endClaim; try dsimp only
  with_reducible repeat' first | assumption | refine keeps_wakeFor _ _ ?_ | refine keeps_putSrc _ _ _ ?_

theorem keeps_claimRead {a : State} (tg : Nat) (s : State) (h : Keeps a s) : Keeps a (claimRead tg s).2 := by
  unfold claimRead; try dsimp only
  with_reducible repeat' first | assumption | refine keeps_putTgt _ _ _ ?_ | refine keeps_putSrc _ _ _ ?_ | split

theorem keeps_claimBy {a : State} (f : Nat) (tg : Nat) (s : State) (h : Keeps a s) : Keeps a (claimBy f tg s) := by
  unfold claimBy; try dsimp only
  with_reducible repeat' first
      | assumption | refine keeps_claimRead _ _ ?_ | refine keeps_emit _ _ ?_ | refine keeps_ite ?_ ?_

theorem keeps_execEvcClaim {a : State} (t : Ticks) (f : Nat) (tg : Nat) (s : State) (h : Keeps a s) : KeepsX a
    (execEvcClaim t f tg s) := by
  unfold execEvcClaim; try dsimp only
  with_reducible repeat' first
      | assumption | refine keeps_regAccess _ _ _ _ _ ?_ ?_ ?_ | refine keeps_claimBy _ _ _ ?_
      | refine keeps_emit _ _ ?_ | intro _

theorem keeps_completeBy {a : State} (f : Nat) (tg : Nat) (v : Nat) (s : State) (h : Keeps a s) : Keeps a
    (completeBy f tg v s) := by
  unfold completeBy; try dsimp only
  with_reducible repeat' first
      | assumption | refine keeps_endClaim _ _ ?_ | refine keeps_putTgt _ _ _ ?_ | refine keeps_noteSet _ _ _ ?_
      | refine keeps_ite ?_ ?_

theorem keeps_execEvcComplete {a : State} (t : Ticks) (f : Nat) (tg : Nat) (v : Nat) (s : State) (h : Keeps a s)
    : KeepsX a (execEvcComplete t f tg v s) := by
  unfold execEvcComplete; try dsimp only
  with_reducible repeat' first
      | assumption | refine keeps_regAccess _ _ _ _ _ ?_ ?_ ?_ | refine keeps_completeBy _ _ _ _ ?_ | intro _
      | simp only [id_eq]

theorem keeps_writeTctl {a : State} (f : Nat) (tg : Nat) (v : Nat) (s : State) (h : Keeps a s) : Keeps a
    (writeTctl f tg v s) := by
  unfold writeTctl; try dsimp only
  with_reducible repeat' first | assumption | refine keeps_putTgt _ _ _ ?_ | refine keeps_ite ?_ ?_

theorem keeps_execEvcTargetHold {a : State} (t : Ticks) (f : Nat) (tg : Nat) (v : Nat) (s : State) (h : Keeps a s)
    : KeepsX a (execEvcTargetHold t f tg v s) := by
  unfold execEvcTargetHold; try dsimp only
  with_reducible repeat' first
      | assumption | refine keeps_regAccess _ _ _ _ _ ?_ ?_ ?_ | refine keeps_writeTctl _ _ _ _ ?_ | intro _
      | simp only [id_eq]

theorem keeps_execEvcTargetIdle {a : State} (t : Ticks) (f : Nat) (tg : Nat) (v : Nat) (s : State) (h : Keeps a s)
    : KeepsX a (execEvcTargetIdle t f tg v s) := by
  unfold execEvcTargetIdle; try dsimp only
  with_reducible repeat' first
      | assumption | refine keeps_regAccess _ _ _ _ _ ?_ ?_ ?_ | refine keeps_writeTctl _ _ _ _ ?_ | intro _
      | simp only [id_eq]

theorem keeps_writeGctl {a : State} (f : Nat) (v : Nat) (s : State) (h : Keeps a s) : Keeps a (writeGctl f v s) := by
  unfold writeGctl; try dsimp only
  with_reducible repeat' first | assumption | refine keeps_ite ?_ ?_ | simp only [keeps_mk] | refine keepsAll_of ?_

theorem keeps_execEvcGlobalHold {a : State} (t : Ticks) (f : Nat) (v : Nat) (s : State) (h : Keeps a s) : KeepsX a
    (execEvcGlobalHold t f v s) := by
  unfold execEvcGlobalHold; try dsimp only
  with_reducible repeat' first
      | assumption | refine keeps_regAccess _ _ _ _ _ ?_ ?_ ?_ | refine keeps_writeGctl _ _ _ ?_ | intro _
      | simp only [id_eq]

theorem keeps_writeSwset {a : State} (f : Nat) (v : Nat) (s : State) (h : Keeps a s) : Keeps a
    (writeSwset f v s) := by
  unfold writeSwset; try dsimp only
  with_reducible repeat' first
      | assumption | refine keeps_raise _ _ ?_ | refine keeps_forAll _ _ _ ?_ ?_ | intro _ | refine keeps_ite ?_ ?_

theorem keeps_execEvcSwsetWrite {a : State} (t : Ticks) (f : Nat) (v : Nat) (s : State) (h : Keeps a s) : KeepsX a
    (execEvcSwsetWrite t f v s) := by
  unfold execEvcSwsetWrite; try dsimp only
  with_reducible repeat' first
      | assumption | refine keeps_regAccess _ _ _ _ _ ?_ ?_ ?_ | refine keeps_writeSwset _ _ _ ?_ | intro _
      | simp only [id_eq]

theorem keeps_execEvcEdge {a : State} (t : Ticks) (src : Nat) (s : State) (h : Keeps a s) : KeepsX a
    (execEvcEdge t src s) := by
  unfold execEvcEdge; try dsimp only
  with_reducible repeat' first
      | assumption | refine keeps_whenRunning _ _ _ ?_ ?_ | refine keeps_raise _ _ ?_ | intro _

theorem keeps_execEvcLevelChange {a : State} (t : Ticks) (src : Nat) (level : Bool) (s : State) (h : Keeps a s)
    : KeepsX a (execEvcLevelChange t src level s) := by
  unfold execEvcLevelChange; try dsimp only
  with_reducible repeat' first
      | assumption | refine keeps_whenRunning _ _ _ ?_ ?_ | refine keeps_evcLevel _ _ _ ?_ | intro _
      | refine keeps_ite ?_ ?_

theorem keeps_putMsix {a : State} (f : Nat) (v : Nat) (x : MsixEntry) (s : State) (h : Keeps a s) : Keeps a
    (putMsix f v x s) := h

theorem keeps_msixDue {a : State} (f : Nat) (v : Nat) (s : State) (h : Keeps a s) : Keeps a (msixDue f v s) := by
  unfold msixDue; try dsimp only
  with_reducible repeat' first
      | assumption | refine keeps_emit _ _ ?_ | refine keeps_putMsix _ _ _ _ ?_ | refine keeps_ite ?_ ?_

theorem keeps_msixFlush {a : State} (f : Nat) (s : State) (h : Keeps a s) : Keeps a (msixFlush f s) := by
  unfold msixFlush; try dsimp only
  with_reducible repeat' first
      | assumption | refine keeps_emit _ _ ?_ | refine keeps_putMsix _ _ _ _ ?_ | refine keeps_forAll _ _ _ ?_ ?_
      | intro _ | refine keeps_ite ?_ ?_

theorem keeps_deliver {a : State} (tg : Nat) (s : State) (h : Keeps a s) : Keeps a (deliver tg s) := by
  unfold deliver; try dsimp only
  with_reducible repeat' first
      | assumption | refine keeps_emit _ _ ?_ | refine keeps_putTgt _ _ _ ?_ | refine keeps_msixDue _ _ _ ?_
      | refine keeps_ite ?_ ?_

theorem keeps_execEvcDelivery {a : State} (t : Ticks) (tg : Nat) (s : State) (h : Keeps a s) : KeepsX a
    (execEvcDelivery t tg s) := by
  unfold execEvcDelivery; try dsimp only
  with_reducible repeat' first
      | assumption | refine keeps_whenRunning _ _ _ ?_ ?_ | refine keeps_deliver _ _ ?_ | intro _

theorem keeps_writeMsixCtl {a : State} (f : Nat) (v : Nat) (c : Nat) (s : State) (h : Keeps a s) : Keeps a
    (writeMsixCtl f v c s) := by
  unfold writeMsixCtl; try dsimp only
  with_reducible repeat' first | assumption | refine keeps_msixFlush _ _ ?_ | refine keeps_putMsix _ _ _ _ ?_

theorem keeps_execMsixEntryUnmask {a : State} (t : Ticks) (f : Nat) (v : Nat) (s : State) (h : Keeps a s) : KeepsX a
    (execMsixEntryUnmask t f v s) := by
  unfold execMsixEntryUnmask; try dsimp only
  with_reducible repeat' first
      | assumption | refine keeps_regAccess _ _ _ _ _ ?_ ?_ ?_ | refine keeps_writeMsixCtl _ _ _ _ ?_ | intro _
      | refine keeps_ite ?_ ?_ | simp only [id_eq]

theorem keeps_nowakeFallback {a : State} (n : Nat) (s : State) (h : Keeps a s) : Keeps a (nowakeFallback n s) := by
  unfold nowakeFallback; try dsimp only
  with_reducible repeat' first
      | assumption | refine keeps_wakeFor _ _ ?_ | refine keeps_putSrc _ _ _ ?_ | refine keeps_ite ?_ ?_

theorem keeps_execEvcNowakeFallback {a : State} (t : Ticks) (src : Nat) (s : State) (h : Keeps a s) : KeepsX a
    (execEvcNowakeFallback t src s) := by
  unfold execEvcNowakeFallback; try dsimp only
  with_reducible repeat' first
      | assumption | refine keeps_whenRunning _ _ _ ?_ ?_ | refine keeps_nowakeFallback _ _ ?_ | intro _

theorem keeps_dropPending {a : State} (n : Nat) (s : State) (h : Keeps a s) : Keeps a (dropPending n s) := by
  unfold dropPending; try dsimp only
  with_reducible repeat' first | assumption | refine keeps_putSrc _ _ _ ?_ | refine keeps_ite ?_ ?_

theorem keeps_resetTarget {a : State} (tg : Nat) (s : State) (h : Keeps a s) : Keeps a (resetTarget tg s) := by
  unfold resetTarget; try dsimp only
  with_reducible repeat' first
      | assumption | refine keeps_endClaim _ _ ?_ | refine keeps_dropPending _ _ ?_ | refine keeps_putTgt _ _ _ ?_
      | refine keeps_forAll _ _ _ ?_ ?_ | intro _

theorem keeps_evcFlr {a : State} (f : Nat) (s : State) (h : Keeps a s) : Keeps a (evcFlr f s) := by
  unfold evcFlr; try dsimp only
  with_reducible repeat' first
      | assumption | refine keeps_resetTarget _ _ ?_ | refine keeps_putSrc _ _ _ ?_ | refine keeps_forAll _ _ _ ?_ ?_
      | intro _

theorem keeps_setRoute {a : State} (tg : Nat) (prio : Nat) (nowake : Bool) (n : Nat) (s : State) (h : Keeps a s)
    : Keeps a (setRoute tg prio nowake n s) := by
  unfold setRoute; try dsimp only
  with_reducible repeat' first | assumption | refine keeps_wakeFor _ _ ?_ | refine keeps_putSrc _ _ _ ?_

theorem keeps_eventRouteBody {a : State} (p : Packet) (s : State) (h : Keeps a s) : KeepsR a
    (eventRouteBody p s) := by
  unfold eventRouteBody; try dsimp only
  with_reducible repeat' first
      | assumption | refine keeps_require _ _ _ ?_ ?_ | exact keeps_badParam | refine keeps_setRoute _ _ _ _ _ ?_
      | refine keeps_forAll _ _ _ ?_ ?_ | refine keepsR_ok ?_ | intro _

theorem keeps_specEventRoute : KeepsC specEventRoute := by
  intro a p s h
  unfold specEventRoute; try dsimp only
  with_reducible repeat' first | assumption | refine keeps_eventRouteBody _ _ ?_

theorem keeps_execEventRoute {a : State} (t : Ticks) (p : Packet) (s : State) (h : Keeps a s) : KeepsX a
    (execEventRoute t p s) := by
  unfold execEventRoute; try dsimp only
  with_reducible repeat' first | assumption | refine keeps_runPacket _ _ _ _ ?_ ?_ | exact keeps_specEventRoute

theorem keeps_eventQueryBody {a : State} (p : Packet) (s : State) (h : Keeps a s) : KeepsR a
    (eventQueryBody p s) := by
  unfold eventQueryBody; try dsimp only
  with_reducible repeat' first
      | assumption | refine keeps_require _ _ _ ?_ ?_ | exact keeps_badParam | refine keepsR_ok ?_

theorem keeps_specEventQuery : KeepsC specEventQuery := by
  intro a p s h
  unfold specEventQuery; try dsimp only
  with_reducible repeat' first | assumption | refine keeps_eventQueryBody _ _ ?_

theorem keeps_execEventQuery {a : State} (t : Ticks) (p : Packet) (s : State) (h : Keeps a s) : KeepsX a
    (execEventQuery t p s) := by
  unfold execEventQuery; try dsimp only
  with_reducible repeat' first | assumption | refine keeps_runPacket _ _ _ _ ?_ ?_ | exact keeps_specEventQuery

theorem keeps_eventSoftSetBody {a : State} (p : Packet) (s : State) (h : Keeps a s) : KeepsR a
    (eventSoftSetBody p s) := by
  unfold eventSoftSetBody; try dsimp only
  with_reducible repeat' first
      | assumption | refine keeps_require _ _ _ ?_ ?_ | exact keeps_badParam | refine keeps_okay _ ?_
      | refine keeps_raise _ _ ?_

theorem keeps_specEventSoftSet : KeepsC specEventSoftSet := by
  intro a p s h
  unfold specEventSoftSet; try dsimp only
  with_reducible repeat' first | assumption | refine keeps_eventSoftSetBody _ _ ?_

theorem keeps_execEventSoftSet {a : State} (t : Ticks) (p : Packet) (s : State) (h : Keeps a s) : KeepsX a
    (execEventSoftSet t p s) := by
  unfold execEventSoftSet; try dsimp only
  with_reducible repeat' first | assumption | refine keeps_runPacket _ _ _ _ ?_ ?_ | exact keeps_specEventSoftSet

/-! ### Power -/

theorem keeps_setPinned {a : State} (loop : Nat) (s : State) (h : Keeps a s) : Keeps a (setPinned loop s) := by
  unfold setPinned; try dsimp only
  with_reducible repeat' first
      | assumption | refine keeps_noteSet _ _ _ ?_ | refine keeps_raise _ _ ?_ | refine keeps_ltrAdd _ _ _ ?_
      | refine keeps_ite ?_ ?_ | simp only [keeps_mk] | refine keepsAll_of ?_

theorem keeps_setClamp {a : State} (i : Nat) (s : State) (h : Keeps a s) : Keeps a (setClamp i s) := by
  unfold setClamp; try dsimp only
  with_reducible repeat' first
      | assumption | refine keeps_noteSet _ _ _ ?_ | refine keeps_raise _ _ ?_ | refine keeps_ite ?_ ?_
      | simp only [keeps_mk] | refine keepsAll_of ?_

theorem keeps_stopForEntry {a : State} (r : Nat) (s : State) (h : Keeps a s) : Keeps a (stopForEntry r s) := by
  unfold stopForEntry; try dsimp only
  with_reducible repeat' first
      | assumption | refine keeps_putRaster _ _ _ ?_ | refine keeps_stopRaster _ _ ?_ | refine keeps_ite ?_ ?_

theorem keeps_startEntry {a : State} (s : State) (h : Keeps a s) : Keeps a (startEntry s) := by
  unfold startEntry; try dsimp only
  with_reducible repeat' first
      | assumption | refine keeps_cancelStrike _ _ ?_ | refine keeps_anchorTake _ _ _ _ ?_
      | refine keeps_finishEntry _ ?_ | refine keeps_stopForEntry _ _ ?_ | refine keeps_forAll _ _ _ ?_ ?_ | intro _
      | simp only [keeps_mk] | refine keepsAll_of ?_

theorem keeps_beginDrain {a : State} (target wake : Nat) (s : State) (ht : target ≤ 3) (h : Keeps a s) :
    Keeps a (beginDrain target wake s) := by
  unfold beginDrain
  dsimp only
  with_reducible repeat' first
      | assumption | refine keeps_ite ?_ ?_ | refine keeps_startEntry _ ?_ | simp only [keeps_mk]
      | refine keepsAll_target ht ?_

theorem keeps_execPowerStateDrainEnd {a : State} (t : Ticks) (s : State) (h : Keeps a s) : KeepsX a
    (execPowerStateDrainEnd t s) := by
  unfold execPowerStateDrainEnd; try dsimp only
  with_reducible repeat' first
      | assumption | refine keeps_whenRunning _ _ _ ?_ ?_ | refine keeps_startEntry _ ?_ | intro _
      | refine keeps_ite ?_ ?_

theorem keeps_execPowerStateDrainTimeout {a : State} (t : Ticks) (s : State) (h : Keeps a s) : KeepsX a
    (execPowerStateDrainTimeout t s) := by
  unfold execPowerStateDrainTimeout; try dsimp only
  with_reducible repeat' first
      | assumption | refine keeps_whenRunning _ _ _ ?_ ?_ | refine keeps_finishUnit _ _ _ _ _ ?_ | intro _
      | refine keeps_ite ?_ ?_ | simp only [keeps_mk] | refine keepsAll_of ?_ | split

theorem keeps_restartChannel {a : State} (n : Nat) (s : State) (h : Keeps a s) : Keeps a (restartChannel n s) := by
  unfold restartChannel; try dsimp only
  with_reducible repeat' first
      | assumption | refine keeps_setChan _ _ _ ?_ | refine keeps_ltrAdd _ _ _ ?_ | simp only [keeps_mk]
      | refine keepsAll_of ?_

theorem keeps_restartRaster {a : State} (r : Nat) (s : State) (h : Keeps a s) : Keeps a (restartRaster r s) := by
  unfold restartRaster; try dsimp only
  with_reducible repeat' first
      | assumption | refine keeps_putRaster _ _ _ ?_ | refine keeps_beginStart _ _ _ _ ?_ | refine keeps_ite ?_ ?_

theorem keeps_finishReturn {a : State} (s : State) (h : Keeps a s) : Keeps a (finishReturn s) := by
  unfold finishReturn; try dsimp only
  with_reducible repeat' first
      | assumption | refine keeps_finishUnit _ _ _ _ _ ?_ | refine keeps_raise _ _ ?_ | simp only [keeps_mk]
      | refine keepsAll_of ?_

theorem keeps_settleResume {a : State} (s : State) (h : Keeps a s) : Keeps a (settleResume s) := by
  unfold settleResume; try dsimp only
  with_reducible repeat' first
      | assumption | refine keeps_followNext _ _ ?_ | refine keeps_fstNext _ _ ?_ | refine keeps_restartRaster _ _ ?_
      | refine keeps_finishReturn _ ?_ | refine keeps_forAll _ _ _ ?_ ?_ | intro _ | refine keeps_ite ?_ ?_
      | simp only [keeps_mk] | refine keepsAll_now ?_

theorem keeps_beginReturn {a : State} (target : Nat) (s : State) (ht : target ≤ 3) (h : Keeps a s) :
    Keeps a (beginReturn target s) := by
  unfold beginReturn
  dsimp only
  refine keeps_settleResume _ (keeps_forAll _ _ _ (fun _ _ h => keeps_restartChannel _ _ h) ?_)
  simp only [keeps_mk]
  with_reducible refine keepsAll_target ht ?_
  exact h

theorem keeps_channelBack {a : State} (n : Nat) (s : State) (h : Keeps a s) : Keeps a (channelBack n s) := by
  unfold channelBack; try dsimp only
  with_reducible repeat' first
      | assumption | refine keeps_setChan _ _ _ ?_ | refine keeps_adoptData _ _ ?_ | refine keeps_compareUnit _ _ ?_
      | refine keeps_settleResume _ ?_ | refine keeps_finishAll _ _ _ _ _ ?_ | refine keeps_ite ?_ ?_
      | simp only [keeps_mk] | refine keepsAll_of ?_

theorem keeps_execChannelRestartDone {a : State} (t : Ticks) (n : Nat) (s : State) (h : Keeps a s) : KeepsX a
    (execChannelRestartDone t n s) := by
  unfold execChannelRestartDone; try dsimp only
  with_reducible repeat' first
      | assumption | refine keeps_whenRunning _ _ _ ?_ ?_ | refine keeps_channelBack _ _ ?_ | intro _
      | refine keeps_ite ?_ ?_ | split

theorem keeps_execChannelRestartTimeout {a : State} (t : Ticks) (n : Nat) (s : State) (h : Keeps a s) : KeepsX a
    (execChannelRestartTimeout t n s) := by
  unfold execChannelRestartTimeout; try dsimp only
  with_reducible repeat' first
      | assumption | refine keeps_whenRunning _ _ _ ?_ ?_ | refine keeps_retireChannel _ _ _ _ ?_
      | refine keeps_raiseUnit _ _ _ ?_ | refine keeps_settleResume _ ?_ | intro _ | refine keeps_ite ?_ ?_
      | simp only [keeps_mk] | refine keepsAll_of ?_ | split

theorem keeps_pendThen {a : State} (unit : Nat) (act : State → State) (s : State) (hact : ∀ y0, Keeps a y0 → Keeps a
    (act y0)) (h : Keeps a s) : KeepsR a (pendThen unit act s) := by
  unfold pendThen; try dsimp only
  with_reducible repeat' first
      | assumption | apply hact | refine keepsR_keep ?_ | intro _ | simp only [keeps_mk] | refine keepsAll_of ?_

theorem keeps_powerStateSetBody {a : State} (p : Packet) (s : State) (h : Keeps a s) : KeepsR a
    (powerStateSetBody p s) := by
  have hw : prmb p 0 1 1 0 ≤ 3 := by
    unfold prmb bits
    omega
  unfold powerStateSetBody
  dsimp only
  refine keeps_require _ _ _ keeps_busy ?_
  refine keeps_require _ _ _ keeps_badParam ?_
  split
  · exact keepsR_ok (keeps_raise _ _ h)
  · split
    · refine keepsR_ok (keeps_raise _ _ ?_)
      simp only [keeps_mk]
      with_reducible refine keepsAll_pstate hw ?_
      exact h
    · split
      · exact keeps_pendThen _ _ _ (fun _ h => keeps_beginReturn _ _ hw h) h
      · exact keeps_pendThen _ _ _ (fun _ h => keeps_beginDrain _ _ _ hw h) h

theorem keeps_specPowerStateSet : KeepsC specPowerStateSet := by
  intro a p s h
  unfold specPowerStateSet; try dsimp only
  with_reducible repeat' first | assumption | refine keeps_powerStateSetBody _ _ ?_

theorem keeps_execPowerStateSet {a : State} (t : Ticks) (p : Packet) (s : State) (h : Keeps a s) : KeepsX a
    (execPowerStateSet t p s) := by
  unfold execPowerStateSet; try dsimp only
  with_reducible repeat' first | assumption | refine keeps_runPacket _ _ _ _ ?_ ?_ | exact keeps_specPowerStateSet

theorem keeps_storeWindow {a : State} (loop : Nat) (lo : Nat) (hi : Nat) (s : State) (h : Keeps a s) : Keeps a
    (storeWindow loop lo hi s) := by
  unfold storeWindow; try dsimp only
  with_reducible repeat' first | assumption | simp only [keeps_mk] | refine keepsAll_of ?_ | split

theorem keeps_noteClamp {a : State} (loop : Nat) (lo : Nat) (s : State) (h : Keeps a s) : Keeps a
    (noteClamp loop lo s) := by
  unfold noteClamp; try dsimp only
  with_reducible repeat' first | assumption | refine keeps_setClamp _ _ ?_ | refine keeps_ite ?_ ?_

theorem keeps_loopWindowSetBody {a : State} (p : Packet) (s : State) (h : Keeps a s) : KeepsR a
    (loopWindowSetBody p s) := by
  unfold loopWindowSetBody; try dsimp only
  with_reducible repeat' first
      | assumption | refine keeps_require _ _ _ ?_ ?_ | exact keeps_badParam | refine keeps_noteClamp _ _ _ ?_
      | refine keeps_storeWindow _ _ _ _ ?_ | refine keepsR_ok ?_

theorem keeps_specLoopWindowSet : KeepsC specLoopWindowSet := by
  intro a p s h
  unfold specLoopWindowSet; try dsimp only
  with_reducible repeat' first | assumption | refine keeps_loopWindowSetBody _ _ ?_

theorem keeps_execLoopWindowSet {a : State} (t : Ticks) (p : Packet) (s : State) (h : Keeps a s) : KeepsX a
    (execLoopWindowSet t p s) := by
  unfold execLoopWindowSet; try dsimp only
  with_reducible repeat' first | assumption | refine keeps_runPacket _ _ _ _ ?_ ?_ | exact keeps_specLoopWindowSet

theorem keeps_shedClass {a : State} (c : Nat) (s : State) (h : Keeps a s) : Keeps a (shedClass c s) := by
  unfold shedClass; try dsimp only
  with_reducible repeat' first
      | assumption | refine keeps_raise _ _ ?_ | refine keeps_ltrAdd _ _ _ ?_ | refine keeps_ite ?_ ?_
      | simp only [keeps_mk] | refine keepsAll_of ?_

theorem keeps_restoreClass {a : State} (c : Nat) (s : State) (h : Keeps a s) : Keeps a (restoreClass c s) := by
  unfold restoreClass; try dsimp only
  with_reducible repeat' first
      | assumption | refine keeps_raise _ _ ?_ | refine keeps_ite ?_ ?_ | simp only [keeps_mk] | refine keepsAll_of ?_

theorem keeps_shedStep {a : State} (s : State) (h : Keeps a s) : Keeps a (shedStep s) := by
  unfold shedStep; try dsimp only
  with_reducible repeat' first
      | assumption | refine keeps_setPinned _ _ ?_ | refine keeps_shedClass _ _ ?_ | refine keeps_ite ?_ ?_
      | simp only [keeps_mk] | refine keepsAll_of ?_ | split

theorem keeps_restoreStep {a : State} (s : State) (h : Keeps a s) : Keeps a (restoreStep s) := by
  unfold restoreStep; try dsimp only
  with_reducible repeat' first
      | assumption | refine keeps_restoreClass _ _ ?_ | refine keeps_ite ?_ ?_ | simp only [keeps_mk]
      | refine keepsAll_of ?_ | split

theorem keeps_overrideStep {a : State} (s : State) (h : Keeps a s) : Keeps a (overrideStep s) := by
  unfold overrideStep; try dsimp only
  with_reducible repeat' first
      | assumption | refine keeps_shedClass _ _ ?_ | refine keeps_raise _ _ ?_ | refine keeps_ltrAdd _ _ _ ?_
      | refine keeps_restoreClass _ _ ?_ | refine keeps_forAll _ _ _ ?_ ?_ | intro _ | refine keeps_ite ?_ ?_
      | simp only [keeps_mk] | refine keepsAll_of ?_

theorem keeps_blankStep {a : State} (s : State) (h : Keeps a s) : Keeps a (blankStep s) := by
  unfold blankStep; try dsimp only
  with_reducible repeat' first
      | assumption | refine keeps_raise _ _ ?_ | refine keeps_ltrAdd _ _ _ ?_ | refine keeps_ite ?_ ?_
      | simp only [keeps_mk] | refine keepsAll_of ?_

theorem keeps_thermalSample {a : State} (tj : ℤ) (s : State) (h : Keeps a s) : Keeps a (thermalSample tj s) := by
  unfold thermalSample; try dsimp only
  with_reducible repeat' first
      | assumption | refine keeps_blankStep _ ?_ | refine keeps_restoreStep _ ?_ | refine keeps_overrideStep _ ?_
      | refine keeps_shedStep _ ?_ | refine keeps_ite ?_ ?_ | simp only [keeps_mk] | refine keepsAll_of ?_

theorem keeps_execThermalSample {a : State} (t : Ticks) (tj : ℤ) (s : State) (h : Keeps a s) : KeepsX a
    (execThermalSample t tj s) := by
  unfold execThermalSample; try dsimp only
  with_reducible repeat' first
      | assumption | refine keeps_whenRunning _ _ _ ?_ ?_ | refine keeps_thermalSample _ _ ?_ | intro _

theorem keeps_setShedMask {a : State} (m : Nat) (s : State) (h : Keeps a s) : Keeps a (setShedMask m s) := by
  unfold setShedMask; try dsimp only
  with_reducible repeat' first
      | assumption | refine keeps_restoreClass _ _ ?_ | refine keeps_forAll _ _ _ ?_ ?_ | intro _
      | refine keeps_ite ?_ ?_ | simp only [keeps_mk] | refine keepsAll_of ?_

theorem keeps_shedMaskSetBody {a : State} (p : Packet) (s : State) (h : Keeps a s) : KeepsR a
    (shedMaskSetBody p s) := by
  unfold shedMaskSetBody; try dsimp only
  with_reducible repeat' first
      | assumption | refine keeps_require _ _ _ ?_ ?_ | exact keeps_badParam | refine keeps_setShedMask _ _ ?_
      | refine keepsR_ok ?_

theorem keeps_specShedMaskSet : KeepsC specShedMaskSet := by
  intro a p s h
  unfold specShedMaskSet; try dsimp only
  with_reducible repeat' first | assumption | refine keeps_shedMaskSetBody _ _ ?_

theorem keeps_execShedMaskSet {a : State} (t : Ticks) (p : Packet) (s : State) (h : Keeps a s) : KeepsX a
    (execShedMaskSet t p s) := by
  unfold execShedMaskSet; try dsimp only
  with_reducible repeat' first | assumption | refine keeps_runPacket _ _ _ _ ?_ ?_ | exact keeps_specShedMaskSet

theorem keeps_avsUpdate {a : State} (want : Nat) (s : State) (h : Keeps a s) : Keeps a (avsUpdate want s) := by
  unfold avsUpdate; try dsimp only
  with_reducible repeat' first
      | assumption | refine keeps_noteClamp _ _ _ ?_ | refine keeps_setPinned _ _ ?_ | refine keeps_emit _ _ ?_
      | refine keeps_ite ?_ ?_ | simp only [keeps_mk] | refine keepsAll_of ?_

theorem keeps_execAvsUpdate {a : State} (t : Ticks) (want : Nat) (s : State) (h : Keeps a s) : KeepsX a
    (execAvsUpdate t want s) := by
  unfold execAvsUpdate; try dsimp only
  with_reducible repeat' first
      | assumption | refine keeps_whenRunning _ _ _ ?_ ?_ | refine keeps_avsUpdate _ _ ?_ | intro _

theorem keeps_execSerdesEqAdapt {a : State} (t : Ticks) (lane : Nat) (code : Nat) (s : State) (h : Keeps a s)
    : KeepsX a (execSerdesEqAdapt t lane code s) := by
  unfold execSerdesEqAdapt; try dsimp only
  with_reducible repeat' first
      | assumption | refine keeps_whenRunning _ _ _ ?_ ?_ | refine keeps_setPinned _ _ ?_ | intro _
      | refine keeps_ite ?_ ?_ | simp only [keeps_mk] | refine keepsAll_of ?_

theorem keeps_refreshPoll {a : State} (mr4 : Nat) (s : State) (h : Keeps a s) : Keeps a (refreshPoll mr4 s) := by
  unfold refreshPoll; try dsimp only
  with_reducible repeat' first
      | assumption | refine keeps_noteClamp _ _ _ ?_ | refine keeps_setPinned _ _ ?_ | refine keeps_ite ?_ ?_
      | simp only [keeps_mk] | refine keepsAll_of ?_

theorem keeps_execRefreshPoll {a : State} (t : Ticks) (mr4 : Nat) (s : State) (h : Keeps a s) : KeepsX a
    (execRefreshPoll t mr4 s) := by
  unfold execRefreshPoll; try dsimp only
  with_reducible repeat' first
      | assumption | refine keeps_whenRunning _ _ _ ?_ ?_ | refine keeps_refreshPoll _ _ ?_ | intro _

theorem keeps_pmuQueryBody {a : State} (p : Packet) (s : State) (h : Keeps a s) : KeepsR a (pmuQueryBody p s) := by
  unfold pmuQueryBody; try dsimp only
  with_reducible repeat' first
      | assumption | refine keeps_require _ _ _ ?_ ?_ | exact keeps_badParam
      | refine keeps_withBuf _ _ _ _ _ _ _ ?_ ?_ | refine keepsR_ok ?_ | intro _ | apply_assumption

theorem keeps_specPmuQuery : KeepsC specPmuQuery := by
  intro a p s h
  unfold specPmuQuery; try dsimp only
  with_reducible repeat' first | assumption | refine keeps_pmuQueryBody _ _ ?_

theorem keeps_execPmuQuery {a : State} (t : Ticks) (p : Packet) (s : State) (h : Keeps a s) : KeepsX a
    (execPmuQuery t p s) := by
  unfold execPmuQuery; try dsimp only
  with_reducible repeat' first | assumption | refine keeps_runPacket _ _ _ _ ?_ ?_ | exact keeps_specPmuQuery

theorem keeps_execWdogWarn {a : State} (t : Ticks) (core : Nat) (s : State) (h : Keeps a s) : KeepsX a
    (execWdogWarn t core s) := by
  unfold execWdogWarn; try dsimp only
  with_reducible repeat' first
      | assumption | refine keeps_whenRunning _ _ _ ?_ ?_ | refine keeps_raise _ _ ?_ | intro _
      | refine keeps_ite ?_ ?_ | simp only [keeps_mk] | refine keepsAll_of ?_

end Sys2Proof.Laws
end

