-- ==== Sys2Proof/Laws/KeepsSystem.lean ====
section
/-! SUPPORT. What resets, the crystal plane, surface commands, group 0x00 and register accesses keep: the queue, time that
never goes back, the canonical form of memory and a legal mode. One lemma per operation. -/
namespace Sys2Proof.Laws
open Sys2Proof Sys2Proof.Machine

/-! ### UnitReset -/

theorem keeps_resetDone {a : State} (u : Nat) (s : State) (h : Keeps a s) : KeepsR a (resetDone u s) := by
  unfold resetDone; try dsimp only
  with_reducible repeat' first | assumption | refine keeps_adoptData _ _ ?_ | refine keepsR_ok ?_

theorem keeps_resetRasterUnit {a : State} (p : Packet) (r : Nat) (s : State) (h : Keeps a s) : KeepsR a
    (resetRasterUnit p r s) := by
  unfold resetRasterUnit; try dsimp only
  with_reducible repeat' first
      | assumption | refine keeps_cancelStrike _ _ ?_ | refine keeps_resetDone _ _ ?_
      | refine keeps_resetRaster _ _ ?_ | refine keeps_stopRaster _ _ ?_ | refine keeps_putRaster _ _ _ ?_
      | refine keeps_require _ _ _ ?_ ?_ | exact keeps_busy | refine keepsR_pend ?_ | split

theorem keeps_resetChannelUnit {a : State} (n : Nat) (s : State) (h : Keeps a s) : KeepsR a
    (resetChannelUnit n s) := by
  unfold resetChannelUnit; try dsimp only
  with_reducible repeat' first
      | assumption | refine keeps_require _ _ _ ?_ ?_ | exact keeps_retired | refine keeps_restartChannel _ _ ?_
      | refine keepsR_pend ?_

theorem keeps_resetPortUnit {a : State} (p : Nat) (s : State) (h : Keeps a s) : KeepsR a (resetPortUnit p s) := by
  unfold resetPortUnit; try dsimp only
  with_reducible repeat' first
      | assumption | refine keeps_resetDone _ _ ?_ | refine keeps_setPortUp _ _ _ ?_ | refine keeps_setMgmt _ _ _ ?_
      | refine keeps_putEth _ _ _ ?_

theorem keeps_resetLinkUnit {a : State} (k : Nat) (s : State) (h : Keeps a s) : KeepsR a (resetLinkUnit k s) := by
  unfold resetLinkUnit; try dsimp only
  with_reducible repeat' first
      | assumption | refine keeps_dropLink _ _ ?_ | refine keeps_setMgmt _ _ _ ?_ | refine keeps_startBringup _ _ ?_
      | refine keeps_putLink _ _ _ ?_ | refine keeps_resetDone _ _ ?_ | refine keeps_ite ?_ ?_

theorem keeps_resetDpUnit {a : State} (i : Nat) (s : State) (h : Keeps a s) : KeepsR a (resetDpUnit i s) := by
  unfold resetDpUnit; try dsimp only
  with_reducible repeat' first
      | assumption | refine keeps_dpDown _ _ _ ?_ | refine keeps_resetDone _ _ ?_ | refine keepsR_pend ?_ | split

theorem keeps_detachSender {a : State} (f : Nat) (s : State) (h : Keeps a s) : Keeps a (detachSender f s) := by
  unfold detachSender; try dsimp only
  with_reducible repeat' first
      | assumption | refine keeps_dropSink _ _ _ ?_ | refine keeps_forAll _ _ _ ?_ ?_ | intro _
      | refine keeps_ite ?_ ?_ | split

theorem keeps_resetFlowUnit {a : State} (f : Nat) (s : State) (h : Keeps a s) : KeepsR a (resetFlowUnit f s) := by
  unfold resetFlowUnit; try dsimp only
  with_reducible repeat' first
      | assumption | refine keeps_stopEgress _ _ ?_ | refine keeps_detachSender _ _ ?_ | refine keeps_resetDone _ _ ?_
      | refine keeps_putQueue _ _ _ ?_ | refine keeps_putEgress _ _ _ ?_

theorem keeps_resetBlUnit {a : State} (s : State) (h : Keeps a s) : KeepsR a (resetBlUnit s) := by
  unfold resetBlUnit; try dsimp only
  with_reducible repeat' first
      | assumption | refine keeps_settlePair _ _ ?_ | refine keeps_flushEntry _ _ ?_ | refine keeps_listStep _ ?_
      | refine keeps_forAll _ _ _ ?_ ?_ | refine keepsR_ok ?_ | refine keepsR_pend ?_ | intro _ | simp only [keeps_mk]
      | refine keepsAll_of ?_ | split

theorem keeps_resetHdUnit {a : State} (s : State) (h : Keeps a s) : KeepsR a (resetHdUnit s) := by
  have h1 : Keeps a (forAll (List.range 12) abortChan s) := keeps_forAll _ _ _ (fun _ _ h => keeps_abortChan _ _ h) h
  unfold resetHdUnit
  generalize forAll (List.range 12) abortChan s = s1 at h1
  cases hq : hdQuiet s1 <;> simp only [hq, if_true, if_false, Bool.false_eq_true]
  · exact keepsR_pend h1
  · exact keepsR_ok (keeps_hdClear _ h1)

theorem keeps_resetUnit {a : State} (p : Packet) (u : Nat) (s : State) (h : Keeps a s) : KeepsR a
    (resetUnit p u s) := by
  unfold resetUnit; try dsimp only
  with_reducible repeat' first
      | assumption | refine keeps_resetRasterUnit _ _ _ ?_ | refine keeps_resetChannelUnit _ _ ?_
      | refine keeps_resetPortUnit _ _ ?_ | refine keeps_resetLinkUnit _ _ ?_ | refine keeps_resetDpUnit _ _ ?_
      | refine keeps_resetFlowUnit _ _ ?_ | refine keeps_resetBlUnit _ ?_ | refine keeps_resetHdUnit _ ?_ | split

theorem keeps_unitResetBody {a : State} (p : Packet) (s : State) (h : Keeps a s) : KeepsR a (unitResetBody p s) := by
  unfold unitResetBody; try dsimp only
  with_reducible repeat' first
      | assumption | refine keeps_require _ _ _ ?_ ?_ | exact keeps_badParam | refine keeps_resetUnit _ _ _ ?_

theorem keeps_specUnitReset : KeepsC specUnitReset := by
  intro a p s h
  unfold specUnitReset; try dsimp only
  with_reducible repeat' first | assumption | refine keeps_unitResetBody _ _ ?_

theorem keeps_execUnitReset {a : State} (t : Ticks) (p : Packet) (s : State) (h : Keeps a s) : KeepsX a
    (execUnitReset t p s) := by
  unfold execUnitReset; try dsimp only
  with_reducible repeat' first | assumption | refine keeps_runPacket _ _ _ _ ?_ ?_ | exact keeps_specUnitReset

/-! ### Resets -/

theorem keeps_afterReset {a : State} (pmu : PmuSt) (mm : MmSt) (s : State) (hm
    : Memory.wf s.mm.mem = true → Memory.wf mm.mem = true)
    (hp : legalMode s.pmu.pstate s.pmu.target s.pmu.stage → legalMode pmu.pstate pmu.target pmu.stage) (h : Keeps a s) :
    Keeps a (afterReset pmu mm s) := by
  have h1 : Keeps a (loadPst s) := keeps_loadPst _ h
  exact keeps_savePst _ ⟨h1.1, h1.2.1, fun w => hm (h.2.2.1 w), fun w => hp (h.2.2.2 w)⟩

theorem legal_kept {p t g : Nat} (h : legalMode p t g) : legalMode (if p = 3 then 0 else p) 0 0 := by
  obtain ⟨h1, h2, h3⟩ := h
  refine ⟨?_, by decide, .inl rfl⟩
  split
  · decide
  · exact h1

theorem keeps_afterPor {a : State} (x : PmuSt) (s : State) (h : Keeps a s) : Keeps a (afterReset (porPmu x) {} s) :=
  keeps_afterReset _ _ _ (fun _ => rfl) (fun _ => ⟨Nat.zero_le _, Nat.zero_le _, .inl rfl⟩) h

theorem keeps_afterPin {a : State} (c : Nat) (k : Option Nat) (b l : Bool) (s : State) (h : Keeps a s) :
    Keeps a (afterReset { keptPmu s.pmu with cause := c, keptLive := k, inReset := b, pinLow := l } {} s) :=
  keeps_afterReset _ _ _ (fun _ => rfl) legal_kept h

theorem keeps_restartTime {a : State} (s : State) (h : Keeps a s) : Keeps a (restartTime s) := h

theorem keeps_deviceReset {a : State} (cause : Nat) (s : State) (h : Keeps a s) : Keeps a (deviceReset cause s) := by
  unfold deviceReset
  refine keeps_afterReset _ _ _ ?_ legal_kept h
  intro w
  split
  · rfl
  · split
    · unfold keptMemory
      split
      · rfl
      · exact wf_filter _ w
    · exact w

theorem keeps_execPowerOnReset {a : State} (t : Ticks) (aon : Bool) (s : State) (h : Keeps a s) : KeepsX a
    (execPowerOnReset t aon s) := by
  unfold execPowerOnReset; try dsimp only
  with_reducible repeat' first
      | assumption | refine keeps_advance _ _ ?_ | refine keeps_emit _ _ ?_ | refine keeps_cutPst _ ?_
      | refine keepsX_next ?_ | refine keeps_ite ?_ ?_ | (refine keeps_afterPor _ _ ?_)

theorem keeps_execPorRelease {a : State} (t : Ticks) (straps : Nat) (s : State) (h : Keeps a s) : KeepsX a
    (execPorRelease t straps s) := by
  unfold execPorRelease; try dsimp only
  with_reducible repeat' first
      | assumption | refine keeps_advance _ _ ?_ | refine keeps_restartTime _ ?_ | refine keepsX_next ?_
      | refine keeps_ite ?_ ?_ | simp only [keeps_mk] | refine keepsAll_of ?_

theorem keeps_execPinReset {a : State} (t : Ticks) (s : State) (h : Keeps a s) : KeepsX a (execPinReset t s) := by
  unfold execPinReset; try dsimp only
  with_reducible repeat' first
      | assumption | refine keeps_advance _ _ ?_ | refine keepsX_next ?_ | refine keeps_ite ?_ ?_
      | simp only [keeps_mk] | refine keepsAll_of ?_ | (refine keeps_afterPin _ _ _ _ _ ?_)

theorem keeps_leaveReset {a : State} (s : State) (h : Keeps a s) : Keeps a (leaveReset s) := by
  unfold leaveReset; try dsimp only
  with_reducible repeat' first
      | assumption | refine keeps_restartTime _ ?_ | refine keeps_emit _ _ ?_ | refine keeps_ite ?_ ?_
      | simp only [keeps_mk] | refine keepsAll_of ?_

theorem keeps_execResetNDeassert {a : State} (t : Ticks) (tj : ℤ) (s : State) (h : Keeps a s) : KeepsX a
    (execResetNDeassert t tj s) := by
  unfold execResetNDeassert; try dsimp only
  with_reducible repeat' first
      | assumption | refine keeps_advance _ _ ?_ | refine keeps_leaveReset _ ?_ | refine keeps_emit _ _ ?_
      | refine keepsX_next ?_ | refine keeps_ite ?_ ?_ | simp only [keeps_mk] | refine keepsAll_of ?_

theorem keeps_execTjBelow115BootStart {a : State} (t : Ticks) (tj : ℤ) (s : State) (h : Keeps a s) : KeepsX a
    (execTjBelow115BootStart t tj s) := by
  unfold execTjBelow115BootStart; try dsimp only
  with_reducible repeat' first
      | assumption | refine keeps_advance _ _ ?_ | refine keeps_leaveReset _ ?_ | refine keepsX_next ?_
      | refine keeps_ite ?_ ?_

theorem keeps_execThermtrip {a : State} (t : Ticks) (s : State) (h : Keeps a s) : KeepsX a (execThermtrip t s) := by
  unfold execThermtrip; try dsimp only
  with_reducible repeat' first
      | assumption | refine keeps_advance _ _ ?_ | refine keeps_emit _ _ ?_ | refine keeps_noteSet _ _ _ ?_
      | refine keepsX_next ?_ | refine keeps_ite ?_ ?_ | simp only [keeps_mk] | refine keepsAll_of ?_

theorem keeps_execRefclkLoss {a : State} (t : Ticks) (s : State) (h : Keeps a s) : KeepsX a (execRefclkLoss t s) := by
  unfold execRefclkLoss; try dsimp only
  with_reducible repeat' first
      | assumption | refine keeps_advance _ _ ?_ | refine keeps_deviceReset _ _ ?_ | refine keepsX_next ?_
      | refine keeps_ite ?_ ?_

theorem keeps_execPllLockLoss {a : State} (t : Ticks) (s : State) (h : Keeps a s) : KeepsX a
    (execPllLockLoss t s) := by
  unfold execPllLockLoss; try dsimp only
  with_reducible repeat' first
      | assumption | refine keeps_advance _ _ ?_ | refine keeps_deviceReset _ _ ?_ | refine keepsX_next ?_
      | refine keeps_ite ?_ ?_

theorem keeps_execWatchdogReset {a : State} (t : Ticks) (core : Nat) (s : State) (h : Keeps a s) : KeepsX a
    (execWatchdogReset t core s) := by
  unfold execWatchdogReset; try dsimp only
  with_reducible repeat' first
      | assumption | refine keeps_whenRunning _ _ _ ?_ ?_ | refine keeps_deviceReset _ _ ?_ | intro _
      | refine keeps_ite ?_ ?_ | split

theorem keeps_wakeUp {a : State} (trigger : Nat) (s : State) (h : Keeps a s) : Keeps a (wakeUp trigger s) := by
  unfold wakeUp; try dsimp only
  with_reducible repeat' first
      | assumption | refine keeps_deviceReset _ _ ?_ | simp only [keeps_mk] | refine keepsAll_of ?_

theorem keeps_execWakePin {a : State} (t : Ticks) (s : State) (h : Keeps a s) : KeepsX a (execWakePin t s) := by
  unfold execWakePin; try dsimp only
  with_reducible repeat' first
      | assumption | refine keeps_advance _ _ ?_ | refine keeps_wakeUp _ _ ?_ | refine keeps_raise _ _ ?_
      | refine keepsX_next ?_ | refine keeps_ite ?_ ?_

theorem keeps_execWakeTimer {a : State} (t : Ticks) (s : State) (h : Keeps a s) : KeepsX a (execWakeTimer t s) := by
  unfold execWakeTimer; try dsimp only
  with_reducible repeat' first
      | assumption | refine keeps_advance _ _ ?_ | refine keeps_wakeUp _ _ ?_ | refine keeps_raise _ _ ?_
      | refine keepsX_next ?_ | refine keeps_ite ?_ ?_ | split

theorem keeps_execPerstNWake {a : State} (t : Ticks) (s : State) (h : Keeps a s) : KeepsX a (execPerstNWake t s) := by
  unfold execPerstNWake; try dsimp only
  with_reducible repeat' first
      | assumption | refine keeps_advance _ _ ?_ | refine keeps_wakeUp _ _ ?_ | refine keepsX_next ?_
      | refine keeps_ite ?_ ?_ | simp only [keeps_mk] | refine keepsAll_of ?_

theorem keeps_deviceResetBody {a : State} (p : Packet) (s : State) (h : Keeps a s) : KeepsR a
    (deviceResetBody p s) := by
  unfold deviceResetBody; try dsimp only
  with_reducible repeat' first
      | assumption | refine keeps_require _ _ _ ?_ ?_ | exact keeps_badParam | refine keeps_checkpointNow _ _ ?_
      | refine keeps_finish _ _ _ _ _ ?_ | refine keeps_savePst _ ?_ | refine keeps_deviceReset _ _ ?_
      | refine keepsR_keep ?_ | intro _ | refine keeps_ite ?_ ?_ | simp only [keeps_mk] | refine keepsAll_of ?_

theorem keeps_specDeviceReset : KeepsC specDeviceReset := by
  intro a p s h
  unfold specDeviceReset; try dsimp only
  with_reducible repeat' first | assumption | refine keeps_deviceResetBody _ _ ?_

theorem keeps_execDeviceReset {a : State} (t : Ticks) (p : Packet) (s : State) (h : Keeps a s) : KeepsX a
    (execDeviceReset t p s) := by
  unfold execDeviceReset; try dsimp only
  with_reducible repeat' first | assumption | refine keeps_runPacket _ _ _ _ ?_ ?_ | exact keeps_specDeviceReset

theorem keeps_bootFail {a : State} (n : Nat) (s : State) (h : Keeps a s) : Keeps a (bootFail n s) := by
  unfold bootFail; try dsimp only
  with_reducible repeat' first
      | assumption | refine keeps_raise _ _ ?_ | refine keeps_ltrAdd _ _ _ ?_
      | refine keeps_recordRetirement _ _ _ _ _ ?_ | refine keeps_ite ?_ ?_

theorem keeps_bootTail {a s2 : State} (dead : List Nat) (keep : Bool) (mm : MmSt) (hmm
    : mm.mem = if keep then s2.mm.mem else [])
    (h : Keeps a s2) :
    Keeps a (runRepairs (forAll dead (fun n s => setMgmt (unitChan n) (stateWord 0x11 0) s)
      { s2 with mm := mm, pmu := { s2.pmu with keptLive := none } })) := by
  refine keeps_runRepairs _ (keeps_forAll _ _ _ (fun _ _ h => keeps_setMgmt _ _ _ h) ?_)
  refine ⟨h.1, h.2.1, fun w => ?_, h.2.2.2⟩
  replace w := h.2.2.1 w
  show Memory.wf mm.mem = true
  rw [hmm]
  cases keep
  · rfl
  · exact w

theorem keeps_bootMemory {a : State} (x : BootResult) (s : State) (h : Keeps a s) : Keeps a (bootMemory x s) := by
  have h2 : Keeps a (forAll (List.range 16) (fun n s => raise (256 + 4 * n) s)
      (forAll ((bitList 16 x.failed).filter fun n => !(retiredItems s.rel.retired 1).contains n) bootFail s)) :=
    keeps_forAll _ _ _ (fun _ _ h => keeps_raise _ _ h) (keeps_forAll _ _ _ (fun _ _ h => keeps_bootFail _ _ h) h)
  unfold bootMemory
  dsimp only
  generalize forAll (List.range 16) (fun n s => raise (256 + 4 * n) s) _ = s2 at h2 ⊢
  generalize forAll _ bootFail s = s1
  exact keeps_bootTail _ _ _ rfl h2

theorem keeps_bootOn {a : State} (x : BootResult) (s : State) (h : Keeps a s) : Keeps a (bootOn x s) := by
  unfold bootOn; try dsimp only
  with_reducible repeat' first
      | assumption | refine keeps_bootMemory _ _ ?_ | refine keeps_ltrAdd _ _ _ ?_ | refine keeps_ite ?_ ?_
      | simp only [keeps_mk] | refine keepsAll_of ?_ | refine keepsAll_stage (by decide) ?_

theorem keeps_bootReady {a : State} (x : BootResult) (s : State) (h : Keeps a s) : Keeps a (bootReady x s) := by
  unfold bootReady; try dsimp only
  with_reducible repeat' first
      | assumption | refine keeps_bootOn _ _ ?_ | refine keeps_ite ?_ ?_ | simp only [keeps_mk]
      | refine keepsAll_of ?_ | refine keepsAll_stage (by decide) ?_

theorem keeps_execBootReady {a : State} (t : Ticks) (x : BootResult) (s : State) (h : Keeps a s) : KeepsX a
    (execBootReady t x s) := by
  unfold execBootReady; try dsimp only
  with_reducible repeat' first
      | assumption | refine keeps_advance _ _ ?_ | refine keeps_bootReady _ _ ?_ | refine keepsX_next ?_
      | refine keeps_ite ?_ ?_

theorem keeps_commitPage {a : State} (s : State) (h : Keeps a s) : Keeps a (commitPage s) := by
  unfold commitPage; try dsimp only
  with_reducible repeat' first | assumption | refine keeps_ite ?_ ?_ | simp only [keeps_mk] | refine keepsAll_of ?_

theorem keeps_execRecoveryPageCommit {a : State} (t : Ticks) (f : Nat) (s : State) (h : Keeps a s) : KeepsX a
    (execRecoveryPageCommit t f s) := by
  unfold execRecoveryPageCommit; try dsimp only
  with_reducible repeat' first
      | assumption | refine keeps_regAccess _ _ _ _ _ ?_ ?_ ?_ | refine keeps_commitPage _ ?_ | intro _
      | refine keeps_ite ?_ ?_ | simp only [id_eq]

theorem keeps_execRecoveryPageProgrammed {a : State} (t : Ticks) (s : State) (h : Keeps a s) : KeepsX a
    (execRecoveryPageProgrammed t s) := by
  unfold execRecoveryPageProgrammed; try dsimp only
  with_reducible repeat' first
      | assumption | refine keeps_advance _ _ ?_ | refine keepsX_next ?_ | refine keeps_ite ?_ ?_
      | simp only [keeps_mk] | refine keepsAll_of ?_

theorem keeps_verifyImage {a : State} (ok : Bool) (s : State) (h : Keeps a s) : Keeps a (verifyImage ok s) := by
  unfold verifyImage; try dsimp only
  with_reducible repeat' first
      | assumption | refine keeps_ite ?_ ?_ | simp only [keeps_mk] | refine keepsAll_of ?_
      | refine keepsAll_stage (by decide) ?_

theorem keeps_execRecoveryDone {a : State} (t : Ticks) (f : Nat) (ok : Bool) (s : State) (h : Keeps a s) : KeepsX a
    (execRecoveryDone t f ok s) := by
  unfold execRecoveryDone; try dsimp only
  with_reducible repeat' first
      | assumption | refine keeps_regAccess _ _ _ _ _ ?_ ?_ ?_ | refine keeps_verifyImage _ _ ?_ | intro _
      | refine keeps_ite ?_ ?_ | simp only [id_eq]

/-! ### Crystal -/

theorem keeps_keyRequired {a : State} : KeepsR a keyRequired := by
  unfold keyRequired; try dsimp only
  with_reducible exact keeps_bad _

theorem keeps_protectedRes {a : State} : KeepsR a protectedRes := by
  unfold protectedRes; try dsimp only
  with_reducible exact keeps_bad _

theorem keeps_settleUnlock {a : State} (s : State) (h : Keeps a s) : Keeps a (settleUnlock s) := by
  unfold settleUnlock; try dsimp only
  with_reducible repeat' first | assumption | refine keeps_endUnlock _ ?_ | refine keeps_ite ?_ ?_

theorem keeps_refuseUnlock {a : State} (fresh : Bool) (s : State) (h : Keeps a s) : Keeps a
    (refuseUnlock fresh s) := by
  unfold refuseUnlock; try dsimp only
  with_reducible repeat' first | assumption | refine keeps_raise _ _ ?_ | simp only [keeps_mk] | refine keepsAll_of ?_

theorem keeps_crystalUnlockBody {a : State} (p : Packet) (s : State) (h : Keeps a s) : KeepsR a
    (crystalUnlockBody p s) := by
  unfold crystalUnlockBody; try dsimp only
  with_reducible repeat' first
      | assumption | refine keeps_refuseUnlock _ _ ?_ | refine keeps_require _ _ _ ?_ ?_ | exact keeps_badParam
      | refine keeps_settleUnlock _ ?_ | refine keepsR_ok ?_ | refine keepsR_done ?_ | simp only [keeps_mk]
      | refine keepsAll_of ?_ | split

theorem keeps_specCrystalUnlock : KeepsC specCrystalUnlock := by
  intro a p s h
  unfold specCrystalUnlock; try dsimp only
  with_reducible repeat' first | assumption | refine keeps_crystalUnlockBody _ _ ?_

theorem keeps_execCrystalUnlock {a : State} (t : Ticks) (p : Packet) (s : State) (h : Keeps a s) : KeepsX a
    (execCrystalUnlock t p s) := by
  unfold execCrystalUnlock; try dsimp only
  with_reducible repeat' first | assumption | refine keeps_runPacket _ _ _ _ ?_ ?_ | exact keeps_specCrystalUnlock

theorem keeps_crystalLockBody {a : State} (p : Packet) (s : State) (h : Keeps a s) : KeepsR a
    (crystalLockBody p s) := by
  unfold crystalLockBody; try dsimp only
  with_reducible repeat' first
      | assumption | refine keeps_require _ _ _ ?_ ?_ | exact keeps_badParam | refine keeps_okay _ ?_
      | refine keeps_endUnlock _ ?_

theorem keeps_specCrystalLock : KeepsC specCrystalLock := by
  intro a p s h
  unfold specCrystalLock; try dsimp only
  with_reducible repeat' first | assumption | refine keeps_crystalLockBody _ _ ?_

theorem keeps_execCrystalLock {a : State} (t : Ticks) (p : Packet) (s : State) (h : Keeps a s) : KeepsX a
    (execCrystalLock t p s) := by
  unfold execCrystalLock; try dsimp only
  with_reducible repeat' first | assumption | refine keeps_runPacket _ _ _ _ ?_ ?_ | exact keeps_specCrystalLock

theorem keeps_crystalKeyProvisionBody {a : State} (p : Packet) (s : State) (h : Keeps a s) : KeepsR a
    (crystalKeyProvisionBody p s) := by
  unfold crystalKeyProvisionBody; try dsimp only
  with_reducible repeat' first
      | assumption | refine keeps_require _ _ _ ?_ ?_ | exact keeps_badParam | exact keeps_keyRequired
      | refine keeps_okay _ ?_ | refine keeps_savePst _ ?_ | simp only [keeps_mk] | refine keepsAll_of ?_

theorem keeps_specCrystalKeyProvision : KeepsC specCrystalKeyProvision := by
  intro a p s h
  unfold specCrystalKeyProvision; try dsimp only
  with_reducible repeat' first | assumption | refine keeps_crystalKeyProvisionBody _ _ ?_

theorem keeps_execCrystalKeyProvision {a : State} (t : Ticks) (p : Packet) (s : State) (h : Keeps a s) : KeepsX a
    (execCrystalKeyProvision t p s) := by
  unfold execCrystalKeyProvision; try dsimp only
  with_reducible repeat' first
      | assumption | refine keeps_runPacket _ _ _ _ ?_ ?_ | exact keeps_specCrystalKeyProvision

theorem keeps_execCrystalUnlockExpire {a : State} (t : Ticks) (s : State) (h : Keeps a s) : KeepsX a
    (execCrystalUnlockExpire t s) := by
  unfold execCrystalUnlockExpire; try dsimp only
  with_reducible repeat' first
      | assumption | refine keeps_whenRunning _ _ _ ?_ ?_ | refine keeps_settleUnlock _ ?_ | intro _

theorem keeps_execCrystalLockoutExpire {a : State} (t : Ticks) (s : State) (h : Keeps a s) : KeepsX a
    (execCrystalLockoutExpire t s) := by
  unfold execCrystalLockoutExpire; try dsimp only
  with_reducible repeat' first
      | assumption | refine keeps_whenRunning _ _ _ ?_ ?_ | intro _ | refine keeps_ite ?_ ?_ | simp only [keeps_mk]
      | refine keepsAll_of ?_

theorem keeps_dropCommitPin {a : State} (r : Nat) (k : CryCommit) (s : State) (h : Keeps a s) : Keeps a
    (dropCommitPin r k s) := by
  unfold dropCommitPin; try dsimp only
  with_reducible repeat' first | assumption | refine keeps_unpinSlot _ _ _ _ ?_ | refine keeps_ite ?_ ?_

theorem keeps_unstage {a : State} (r : Nat) (s : State) (h : Keeps a s) : Keeps a (unstage r s) := by
  unfold unstage; try dsimp only
  with_reducible repeat' first
      | assumption | refine keeps_dropCommitPin _ _ _ ?_ | refine keeps_putCrystal _ _ _ ?_
      | refine keeps_settleCrystalBit _ _ ?_ | refine keeps_dropCrystalPane _ _ ?_ | refine keeps_ite ?_ ?_ | split

theorem keeps_stage {a : State} (r : Nat) (n : Option (Nat × Desc)) (s : State) (h : Keeps a s) : Keeps a
    (stage r n s) := by
  unfold stage; try dsimp only
  with_reducible repeat' first
      | assumption | refine keeps_unstage _ _ ?_ | refine keeps_putCrystal _ _ _ ?_
      | refine keeps_settleCrystalBit _ _ ?_ | refine keeps_putShadow _ _ _ ?_ | split

theorem keeps_crystalChecks {a : State} (p : Packet) (s : State) (k : Res) (hk : KeepsR a k) (h : Keeps a s)
    : KeepsR a (crystalChecks p s k) := by
  unfold crystalChecks; try dsimp only
  with_reducible repeat' first
      | assumption | refine keeps_require _ _ _ ?_ ?_ | exact keeps_busy | exact keeps_badParam

theorem keeps_crystalPaneSetBody {a : State} (p : Packet) (s : State) (h : Keeps a s) : KeepsR a
    (crystalPaneSetBody p s) := by
  unfold crystalPaneSetBody; try dsimp only
  with_reducible repeat' first
      | assumption | refine keeps_require _ _ _ ?_ ?_ | exact keeps_keyRequired | exact keeps_badParam
      | refine keeps_stage _ _ _ ?_ | refine keeps_crystalChecks _ _ _ ?_ ?_ | refine keeps_verdictRes _ _ ?_
      | refine keepsR_ok ?_ | split

theorem keeps_specCrystalPaneSet : KeepsC specCrystalPaneSet := by
  intro a p s h
  unfold specCrystalPaneSet; try dsimp only
  with_reducible repeat' first | assumption | refine keeps_crystalPaneSetBody _ _ ?_

theorem keeps_execCrystalPaneSet {a : State} (t : Ticks) (p : Packet) (s : State) (h : Keeps a s) : KeepsX a
    (execCrystalPaneSet t p s) := by
  unfold execCrystalPaneSet; try dsimp only
  with_reducible repeat' first | assumption | refine keeps_runPacket _ _ _ _ ?_ ?_ | exact keeps_specCrystalPaneSet

theorem keeps_setCrystalCommit {a : State} (r : Nat) (k : CryCommit) (s : State) (h : Keeps a s) : Keeps a
    (setCrystalCommit r k s) := by
  unfold setCrystalCommit; try dsimp only
  with_reducible repeat' first
      | assumption | refine keeps_dropCommitPin _ _ _ ?_ | refine keeps_pinSlot _ _ _ _ ?_
      | refine keeps_putCrystal _ _ _ ?_ | refine keeps_countDefer _ _ ?_ | refine keeps_ite ?_ ?_ | split

theorem keeps_crystalExpectSetBody {a : State} (p : Packet) (s : State) (h : Keeps a s) : KeepsR a
    (crystalExpectSetBody p s) := by
  unfold crystalExpectSetBody; try dsimp only
  with_reducible repeat' first
      | assumption | refine keeps_require _ _ _ ?_ ?_ | exact keeps_keyRequired | exact keeps_badParam
      | refine keeps_okay _ ?_ | refine keeps_setCrystalCommit _ _ _ ?_ | split

theorem keeps_specCrystalExpectSet : KeepsC specCrystalExpectSet := by
  intro a p s h
  unfold specCrystalExpectSet; try dsimp only
  with_reducible repeat' first | assumption | refine keeps_crystalExpectSetBody _ _ ?_

theorem keeps_execCrystalExpectSet {a : State} (t : Ticks) (p : Packet) (s : State) (h : Keeps a s) : KeepsX a
    (execCrystalExpectSet t p s) := by
  unfold execCrystalExpectSet; try dsimp only
  with_reducible repeat' first | assumption | refine keeps_runPacket _ _ _ _ ?_ ?_ | exact keeps_specCrystalExpectSet

/-! ### SurfaceCmds -/

theorem keeps_onSurface {a : State} (p : Packet) (s : State) (k : Surface → Res) (hk : ∀ y0, KeepsR a (k y0)) (h
    : Keeps a s) : KeepsR a (onSurface p s k) := by
  unfold onSurface; try dsimp only
  with_reducible repeat' first | apply hk | refine keeps_require _ _ _ ?_ ?_ | exact keeps_badParam

theorem keeps_createAt {a : State} (i : Nat) (base : Nat) (x : Surface) (s : State) (h : Keeps a s) : KeepsR a
    (createAt i base x s) := by
  unfold createAt; try dsimp only
  with_reducible repeat' first
      | assumption | refine keeps_takeFree _ ?_ | refine keeps_putSurf _ _ _ ?_ | refine keepsR_ok ?_

theorem keeps_surfaceCreateBody {a : State} (p : Packet) (s : State) (h : Keeps a s) : KeepsR a
    (surfaceCreateBody p s) := by
  unfold surfaceCreateBody; try dsimp only
  with_reducible repeat' first
      | assumption | refine keeps_require _ _ _ ?_ ?_ | exact keeps_busy | exact keeps_badParam
      | refine keeps_allocate _ _ _ _ ?_ | refine keeps_createAt _ _ _ _ ?_ | exact keeps_noResource
      | refine keepsP_use (by assumption) ?_ | split

theorem keeps_specSurfaceCreate : KeepsC specSurfaceCreate := by
  intro a p s h
  unfold specSurfaceCreate; try dsimp only
  with_reducible repeat' first | assumption | refine keeps_surfaceCreateBody _ _ ?_

theorem keeps_execSurfaceCreate {a : State} (t : Ticks) (p : Packet) (s : State) (h : Keeps a s) : KeepsX a
    (execSurfaceCreate t p s) := by
  unfold execSurfaceCreate; try dsimp only
  with_reducible repeat' first | assumption | refine keeps_runPacket _ _ _ _ ?_ ?_ | exact keeps_specSurfaceCreate

theorem keeps_surfaceDestroyBody {a : State} (p : Packet) (s : State) (h : Keeps a s) : KeepsR a
    (surfaceDestroyBody p s) := by
  unfold surfaceDestroyBody; try dsimp only
  with_reducible repeat' first
      | assumption | refine keeps_onSurface _ _ _ ?_ ?_ | refine keeps_require _ _ _ ?_ ?_ | exact keeps_protectedRes
      | exact keeps_busy | refine keeps_okay _ ?_ | refine keeps_putSurf _ _ _ ?_ | intro _

theorem keeps_specSurfaceDestroy : KeepsC specSurfaceDestroy := by
  intro a p s h
  unfold specSurfaceDestroy; try dsimp only
  with_reducible repeat' first | assumption | refine keeps_surfaceDestroyBody _ _ ?_

theorem keeps_execSurfaceDestroy {a : State} (t : Ticks) (p : Packet) (s : State) (h : Keeps a s) : KeepsX a
    (execSurfaceDestroy t p s) := by
  unfold execSurfaceDestroy; try dsimp only
  with_reducible repeat' first | assumption | refine keeps_runPacket _ _ _ _ ?_ ?_ | exact keeps_specSurfaceDestroy

theorem keeps_surfaceQueryBody {a : State} (p : Packet) (s : State) (h : Keeps a s) : KeepsR a
    (surfaceQueryBody p s) := by
  unfold surfaceQueryBody; try dsimp only
  with_reducible repeat' first
      | assumption | refine keeps_onSurface _ _ _ ?_ ?_ | refine keeps_require _ _ _ ?_ ?_ | exact keeps_badParam
      | refine keeps_withBuf _ _ _ _ _ _ _ ?_ ?_ | refine keepsR_ok ?_ | intro _ | apply_assumption

theorem keeps_specSurfaceQuery : KeepsC specSurfaceQuery := by
  intro a p s h
  unfold specSurfaceQuery; try dsimp only
  with_reducible repeat' first | assumption | refine keeps_surfaceQueryBody _ _ ?_

theorem keeps_execSurfaceQuery {a : State} (t : Ticks) (p : Packet) (s : State) (h : Keeps a s) : KeepsX a
    (execSurfaceQuery t p s) := by
  unfold execSurfaceQuery; try dsimp only
  with_reducible repeat' first | assumption | refine keeps_runPacket _ _ _ _ ?_ ?_ | exact keeps_specSurfaceQuery

theorem keeps_slotResult {a : State} (i : Nat) (s : State) (h : Keeps a s) : KeepsR a (slotResult i s) := by
  unfold slotResult; try dsimp only
  with_reducible repeat' first | assumption | refine keeps_useSlot _ _ ?_ | refine keepsR_ok ?_

theorem keeps_claimOnly {a : State} (i : Nat) (x : Surface) (s : State) (h : Keeps a s) : KeepsR a
    (claimOnly i x s) := by
  unfold claimOnly; try dsimp only
  with_reducible repeat' first
      | assumption | refine keeps_slotResult _ _ ?_ | refine keeps_require _ _ _ ?_ ?_ | exact keeps_busy
      | refine keeps_putSurf _ _ _ ?_ | refine keeps_ite ?_ ?_ | split

theorem keeps_publishHost {a : State} (i : Nat) (capture : Nat) (x : Surface) (s : State) (h : Keeps a s) : Keeps a
    (publishHost i capture x s) := by
  unfold publishHost; try dsimp only
  with_reducible repeat' first | assumption | refine keeps_afterPublish _ _ ?_ | refine keeps_putSurf _ _ _ ?_

theorem keeps_slotPublishBody {a : State} (p : Packet) (s : State) (h : Keeps a s) : KeepsR a
    (slotPublishBody p s) := by
  unfold slotPublishBody; try dsimp only
  with_reducible repeat' first
      | assumption | refine keeps_onSurface _ _ _ ?_ ?_ | refine keeps_require _ _ _ ?_ ?_ | exact keeps_keyRequired
      | exact keeps_badParam | exact keeps_busy | refine keeps_claimOnly _ _ _ ?_ | refine keeps_slotResult _ _ ?_
      | refine keeps_publishHost _ _ _ _ ?_ | intro _ | split

theorem keeps_specSlotPublish : KeepsC specSlotPublish := by
  intro a p s h
  unfold specSlotPublish; try dsimp only
  with_reducible repeat' first | assumption | refine keeps_slotPublishBody _ _ ?_

theorem keeps_execSlotPublish {a : State} (t : Ticks) (p : Packet) (s : State) (h : Keeps a s) : KeepsX a
    (execSlotPublish t p s) := by
  unfold execSlotPublish; try dsimp only
  with_reducible repeat' first | assumption | refine keeps_runPacket _ _ _ _ ?_ ?_ | exact keeps_specSlotPublish

theorem keeps_surfaceSetSharingBody {a : State} (p : Packet) (s : State) (h : Keeps a s) : KeepsR a
    (surfaceSetSharingBody p s) := by
  unfold surfaceSetSharingBody; try dsimp only
  with_reducible repeat' first
      | assumption | refine keeps_onSurface _ _ _ ?_ ?_ | refine keeps_require _ _ _ ?_ ?_ | exact keeps_protectedRes
      | exact keeps_busy | refine keeps_okay _ ?_ | refine keeps_putSurf _ _ _ ?_ | intro _

theorem keeps_specSurfaceSetSharing : KeepsC specSurfaceSetSharing := by
  intro a p s h
  unfold specSurfaceSetSharing; try dsimp only
  with_reducible repeat' first | assumption | refine keeps_surfaceSetSharingBody _ _ ?_

theorem keeps_execSurfaceSetSharing {a : State} (t : Ticks) (p : Packet) (s : State) (h : Keeps a s) : KeepsX a
    (execSurfaceSetSharing t p s) := by
  unfold execSurfaceSetSharing; try dsimp only
  with_reducible repeat' first | assumption | refine keeps_runPacket _ _ _ _ ?_ ?_ | exact keeps_specSurfaceSetSharing

theorem keeps_memQueryBody {a : State} (p : Packet) (s : State) (h : Keeps a s) : KeepsR a (memQueryBody p s) := by
  unfold memQueryBody; try dsimp only
  with_reducible repeat' first
      | assumption | refine keeps_withBuf _ _ _ _ _ _ _ ?_ ?_ | refine keepsR_ok ?_ | intro _ | apply_assumption

theorem keeps_specMemQuery : KeepsC specMemQuery := by
  intro a p s h
  unfold specMemQuery; try dsimp only
  with_reducible repeat' first | assumption | refine keeps_memQueryBody _ _ ?_

theorem keeps_execMemQuery {a : State} (t : Ticks) (p : Packet) (s : State) (h : Keeps a s) : KeepsX a
    (execMemQuery t p s) := by
  unfold execMemQuery; try dsimp only
  with_reducible repeat' first | assumption | refine keeps_runPacket _ _ _ _ ?_ ?_ | exact keeps_specMemQuery

/-! ### Group0 -/

theorem keeps_nopBody {a : State} (n : Packet) (s : State) (h : Keeps a s) : KeepsR a (nopBody n s) := by
  unfold nopBody; try dsimp only
  with_reducible repeat' first | assumption | refine keepsR_ok ?_

theorem keeps_specNop : KeepsC specNop := by
  intro a p s h
  unfold specNop; try dsimp only
  with_reducible repeat' first | assumption | refine keeps_nopBody _ _ ?_

theorem keeps_execNop {a : State} (t : Ticks) (p : Packet) (s : State) (h : Keeps a s) : KeepsX a
    (execNop t p s) := by
  unfold execNop; try dsimp only
  with_reducible repeat' first | assumption | refine keeps_runPacket _ _ _ _ ?_ ?_ | exact keeps_specNop

theorem keeps_getIdentityBody {a : State} (p : Packet) (s : State) (h : Keeps a s) : KeepsR a
    (getIdentityBody p s) := by
  unfold getIdentityBody; try dsimp only
  with_reducible repeat' first
      | assumption | refine keeps_withBuf _ _ _ _ _ _ _ ?_ ?_ | refine keepsR_ok ?_ | intro _ | apply_assumption

theorem keeps_specGetIdentity : KeepsC specGetIdentity := by
  intro a p s h
  unfold specGetIdentity; try dsimp only
  with_reducible repeat' first | assumption | refine keeps_getIdentityBody _ _ ?_

theorem keeps_execGetIdentity {a : State} (t : Ticks) (p : Packet) (s : State) (h : Keeps a s) : KeepsX a
    (execGetIdentity t p s) := by
  unfold execGetIdentity; try dsimp only
  with_reducible repeat' first | assumption | refine keeps_runPacket _ _ _ _ ?_ ?_ | exact keeps_specGetIdentity

theorem keeps_getFirmwareBody {a : State} (n : Packet) (s : State) (h : Keeps a s) : KeepsR a
    (getFirmwareBody n s) := by
  unfold getFirmwareBody; try dsimp only
  with_reducible repeat' first | assumption | refine keepsR_ok ?_

theorem keeps_specGetFirmware : KeepsC specGetFirmware := by
  intro a p s h
  unfold specGetFirmware; try dsimp only
  with_reducible repeat' first | assumption | refine keeps_getFirmwareBody _ _ ?_

theorem keeps_execGetFirmware {a : State} (t : Ticks) (p : Packet) (s : State) (h : Keeps a s) : KeepsX a
    (execGetFirmware t p s) := by
  unfold execGetFirmware; try dsimp only
  with_reducible repeat' first | assumption | refine keeps_runPacket _ _ _ _ ?_ ?_ | exact keeps_specGetFirmware

theorem keeps_queryUnitBody {a : State} (p : Packet) (s : State) (h : Keeps a s) : KeepsR a (queryUnitBody p s) := by
  unfold queryUnitBody; try dsimp only
  with_reducible repeat' first
      | assumption | refine keeps_require _ _ _ ?_ ?_ | exact keeps_badParam | refine keepsR_ok ?_

theorem keeps_specQueryUnit : KeepsC specQueryUnit := by
  intro a p s h
  unfold specQueryUnit; try dsimp only
  with_reducible repeat' first | assumption | refine keeps_queryUnitBody _ _ ?_

theorem keeps_execQueryUnit {a : State} (t : Ticks) (p : Packet) (s : State) (h : Keeps a s) : KeepsX a
    (execQueryUnit t p s) := by
  unfold execQueryUnit; try dsimp only
  with_reducible repeat' first | assumption | refine keeps_runPacket _ _ _ _ ?_ ?_ | exact keeps_specQueryUnit

theorem keeps_reconcileBody {a : State} (p : Packet) (s : State) (h : Keeps a s) : KeepsR a (reconcileBody p s) := by
  unfold reconcileBody; try dsimp only
  with_reducible repeat' first
      | assumption | refine keeps_require _ _ _ ?_ ?_ | exact keeps_badParam | refine keeps_adoptData _ _ ?_
      | refine keepsR_ok ?_ | split

theorem keeps_specReconcile : KeepsC specReconcile := by
  intro a p s h
  unfold specReconcile; try dsimp only
  with_reducible repeat' first | assumption | refine keeps_reconcileBody _ _ ?_

theorem keeps_execReconcile {a : State} (t : Ticks) (p : Packet) (s : State) (h : Keeps a s) : KeepsX a
    (execReconcile t p s) := by
  unfold execReconcile; try dsimp only
  with_reducible repeat' first | assumption | refine keeps_runPacket _ _ _ _ ?_ ?_ | exact keeps_specReconcile

theorem keeps_cancelTimedBody {a : State} (p : Packet) (s : State) (h : Keeps a s) : KeepsR a
    (cancelTimedBody p s) := by
  unfold cancelTimedBody; try dsimp only
  with_reducible repeat' first
      | assumption | exact keeps_badParam | refine keeps_require _ _ _ ?_ ?_ | exact keeps_busy
      | refine keeps_okay _ ?_ | refine keeps_settlePair _ _ ?_ | refine keeps_flushEntry _ _ ?_
      | simp only [keeps_mk] | refine keepsAll_of ?_ | split

theorem keeps_specCancelTimed : KeepsC specCancelTimed := by
  intro a p s h
  unfold specCancelTimed; try dsimp only
  with_reducible repeat' first | assumption | refine keeps_cancelTimedBody _ _ ?_

theorem keeps_execCancelTimed {a : State} (t : Ticks) (p : Packet) (s : State) (h : Keeps a s) : KeepsX a
    (execCancelTimed t p s) := by
  unfold execCancelTimed; try dsimp only
  with_reducible repeat' first | assumption | refine keeps_runPacket _ _ _ _ ?_ ?_ | exact keeps_specCancelTimed

theorem keeps_putRanges {a : State} (kind : Nat) (t : Tbl (Nat × Nat)) (s : State) (h : Keeps a s) : Keeps a
    (putRanges kind t s) := by
  unfold putRanges; try dsimp only
  with_reducible repeat' first | assumption | refine keeps_ite ?_ ?_ | simp only [keeps_mk] | refine keepsAll_of ?_

theorem keeps_assignRaster {a : State} (f : Nat) (r : Nat) (s : State) (h : Keeps a s) : Keeps a
    (assignRaster f r s) := by
  unfold assignRaster; try dsimp only
  with_reducible repeat' first | assumption | refine keeps_setRasterOwner _ _ _ ?_ | refine keeps_putRaster _ _ _ ?_

theorem keeps_assignRasters {a : State} (f : Nat) (first : Nat) (count : Nat) (s : State) (h : Keeps a s) : KeepsR a
    (assignRasters f first count s) := by
  unfold assignRasters; try dsimp only
  with_reducible repeat' first
      | assumption | refine keeps_require _ _ _ ?_ ?_ | exact keeps_busy | refine keeps_assignRaster _ _ _ ?_
      | refine keeps_forAll _ _ _ ?_ ?_ | refine keepsR_ok ?_ | intro _

theorem keeps_assignRange {a : State} (f : Nat) (kind : Nat) (first : Nat) (count : Nat) (s : State) (h : Keeps a s)
    : KeepsR a (assignRange f kind first count s) := by
  unfold assignRange; try dsimp only
  with_reducible repeat' first
      | assumption | refine keeps_require _ _ _ ?_ ?_ | exact keeps_protectedRes | exact keeps_busy
      | refine keeps_putRanges _ _ _ ?_ | refine keepsR_ok ?_

theorem keeps_assignPairs {a : State} (f : Nat) (count : Nat) (s : State) (h : Keeps a s) : KeepsR a
    (assignPairs f count s) := by
  unfold assignPairs; try dsimp only
  with_reducible repeat' first
      | assumption | refine keeps_require _ _ _ ?_ ?_ | exact keeps_busy | refine keepsR_ok ?_ | simp only [keeps_mk]
      | refine keepsAll_of ?_

theorem keeps_assignTargets {a : State} (f : Nat) (count : Nat) (s : State) (h : Keeps a s) : KeepsR a
    (assignTargets f count s) := by
  unfold assignTargets; try dsimp only
  with_reducible repeat' first | assumption | refine keeps_setTargetOwner _ _ _ ?_ | refine keepsR_ok ?_

theorem keeps_assignBody {a : State} (p : Packet) (s : State) (h : Keeps a s) : KeepsR a (assignBody p s) := by
  unfold assignBody; try dsimp only
  with_reducible repeat' first
      | assumption | refine keeps_require _ _ _ ?_ ?_ | exact keeps_badParam | refine keeps_assignRasters _ _ _ _ ?_
      | refine keeps_assignPairs _ _ _ ?_ | refine keeps_assignTargets _ _ _ ?_
      | refine keeps_assignRange _ _ _ _ _ ?_ | split

theorem keeps_specAssign : KeepsC specAssign := by
  intro a p s h
  unfold specAssign; try dsimp only
  with_reducible repeat' first | assumption | refine keeps_assignBody _ _ ?_

theorem keeps_execAssign {a : State} (t : Ticks) (p : Packet) (s : State) (h : Keeps a s) : KeepsX a
    (execAssign t p s) := by
  unfold execAssign; try dsimp only
  with_reducible repeat' first | assumption | refine keeps_runPacket _ _ _ _ ?_ ?_ | exact keeps_specAssign

theorem keeps_returnResources {a : State} (f : Nat) (s : State) (h : Keeps a s) : Keeps a (returnResources f s) := by
  unfold returnResources; try dsimp only
  with_reducible repeat' first
      | assumption | refine keeps_assignRaster _ _ _ ?_ | refine keeps_putRanges _ _ _ ?_
      | refine keeps_setTargetOwner _ _ _ ?_ | refine keeps_forAll _ _ _ ?_ ?_ | intro _ | simp only [keeps_mk]
      | refine keepsAll_of ?_

theorem keeps_queryOwnerBody {a : State} (p : Packet) (s : State) (h : Keeps a s) : KeepsR a
    (queryOwnerBody p s) := by
  unfold queryOwnerBody; try dsimp only
  with_reducible repeat' first | assumption | exact keeps_badParam | refine keepsR_ok ?_ | split

theorem keeps_specQueryOwner : KeepsC specQueryOwner := by
  intro a p s h
  unfold specQueryOwner; try dsimp only
  with_reducible repeat' first | assumption | refine keeps_queryOwnerBody _ _ ?_

theorem keeps_execQueryOwner {a : State} (t : Ticks) (p : Packet) (s : State) (h : Keeps a s) : KeepsX a
    (execQueryOwner t p s) := by
  unfold execQueryOwner; try dsimp only
  with_reducible repeat' first | assumption | refine keeps_runPacket _ _ _ _ ?_ ?_ | exact keeps_specQueryOwner

/-! ### RegAccess -/

theorem keeps_ofTarget {a : State} (f : Nat) (tg : Nat) (g : EvcTgt → EvcTgt) (s : State) (h : Keeps a s) : Keeps a
    (ofTarget f tg g s) := by
  unfold ofTarget; try dsimp only
  with_reducible repeat' first | assumption | refine keeps_putTgt _ _ _ ?_ | refine keeps_ite ?_ ?_

theorem keeps_clearRgRc {a : State} (keep : Nat → Nat → Nat) (k : Nat) (o : Nat) (s : State) (h : Keeps a s) : Keeps a
    (clearRgRc keep k o s) := by
  unfold clearRgRc; try dsimp only
  with_reducible repeat' first
      | assumption | refine keeps_putRaster _ _ _ ?_ | refine keeps_putCrystal _ _ _ ?_ | refine keeps_putDp _ _ _ ?_
      | refine keeps_ite ?_ ?_

theorem keeps_clearNeRc {a : State} (keep : Nat → Nat → Nat) (p : Nat) (o : Nat) (s : State) (h : Keeps a s) : Keeps a
    (clearNeRc keep p o s) := by
  unfold clearNeRc; try dsimp only
  with_reducible repeat' first | assumption | refine keeps_putEth _ _ _ ?_ | refine keeps_ite ?_ ?_

theorem keeps_clearCfRc {a : State} (keep : Nat → Nat → Nat) (k : Nat) (o : Nat) (s : State) (h : Keeps a s) : Keeps a
    (clearCfRc keep k o s) := by
  unfold clearCfRc; try dsimp only
  with_reducible repeat' first | assumption | refine keeps_putLink _ _ _ ?_ | refine keeps_ite ?_ ?_

theorem keeps_clearDenied {a : State} (keep : Nat → Nat → Nat) (f : Nat) (s : State) (h : Keeps a s) : Keeps a
    (clearDenied keep f s) := h

theorem keeps_clearDeliv {a : State} (keep : Nat → Nat → Nat) (f : Nat) (tg : Nat) (s : State) (h : Keeps a s)
    : Keeps a (clearDeliv keep f tg s) := by
  unfold clearDeliv; try dsimp only
  with_reducible repeat' first | assumption | refine keeps_ofTarget _ _ _ _ ?_

theorem keeps_clearLowRc {a : State} (keep : Nat → Nat → Nat) (off : Nat) (s : State) (h : Keeps a s) : Keeps a
    (clearLowRc keep off s) := by
  unfold clearLowRc; try dsimp only
  with_reducible repeat' first
      | assumption | refine keeps_clearDenied _ _ _ ?_ | refine keeps_clearDeliv _ _ _ _ ?_
      | refine keeps_clearRgRc _ _ _ _ ?_ | refine keeps_putSlice _ _ _ ?_ | refine keeps_ite ?_ ?_
      | simp only [keeps_mk] | refine keepsAll_of ?_

theorem keeps_clearHighRc {a : State} (keep : Nat → Nat → Nat) (off : Nat) (s : State) (h : Keeps a s) : Keeps a
    (clearHighRc keep off s) := by
  unfold clearHighRc; try dsimp only
  with_reducible repeat' first
      | assumption | refine keeps_clearNeRc _ _ _ _ ?_ | refine keeps_putTsPort _ _ _ ?_
      | refine keeps_clearCfRc _ _ _ _ ?_ | refine keeps_ite ?_ ?_ | simp only [keeps_mk] | refine keepsAll_of ?_

theorem keeps_clearRc {a : State} (f : Nat) (off : Nat) (s : State) (h : Keeps a s) : Keeps a (clearRc f off s) := by
  unfold clearRc; try dsimp only
  with_reducible repeat' first
      | assumption | refine keeps_clearLowRc _ _ _ ?_ | refine keeps_clearHighRc _ _ _ ?_
      | refine keeps_clearDenied _ _ _ ?_ | refine keeps_clearDeliv _ _ _ _ ?_ | refine keeps_ite ?_ ?_
      | simp only [keeps_mk] | refine keepsAll_of ?_

theorem keeps_readWord {a : State} (f : Nat) (off : Nat) (s : State) (h : Keeps a s) : Keeps a
    (readWord f off s).2 := by
  unfold readWord; try dsimp only
  with_reducible repeat' first | assumption | refine keeps_claimRead _ _ ?_ | refine keeps_clearRc _ _ _ ?_ | split

theorem keeps_captureHigh {a : State} (f : Nat) (off : Nat) (s : State) (h : Keeps a s) : Keeps a
    (captureHigh f off s) := by
  unfold captureHigh; try dsimp only
  with_reducible repeat' first | assumption | refine keeps_ite ?_ ?_ | simp only [keeps_mk] | refine keepsAll_of ?_

theorem keeps_readOne {a : State} (f : Nat) (off : Nat) (s : State) (h : Keeps a s) : Keeps a
    (readOne f off s).2 := by
  unfold readOne; try dsimp only
  with_reducible repeat' first
      | assumption | refine keeps_captureHigh _ _ _ ?_ | refine keeps_readWord _ _ _ ?_ | simp only [keeps_mk]
      | refine keepsAll_of ?_ | split

theorem keeps_readRegister {a : State} (f : Nat) (off : Nat) (be : Nat) (s : State) (h : Keeps a s) : Keeps a
    (readRegister f off be s) := by
  unfold readRegister; try dsimp only
  with_reducible repeat' first
      | assumption | refine keeps_readWord _ _ _ ?_ | refine keeps_emit _ _ ?_ | refine keeps_readOne _ _ _ ?_
      | refine keeps_ite ?_ ?_

theorem keeps_readAccess {a : State} (t : Ticks) (f : Nat) (off : Nat) (be : Nat) (s : State) (h : Keeps a s)
    : KeepsX a (readAccess t f off be s) := by
  unfold readAccess; try dsimp only
  with_reducible repeat' first
      | assumption | refine keeps_regAccess _ _ _ _ _ ?_ ?_ ?_ | refine keeps_readRegister _ _ _ _ ?_
      | refine keeps_emit _ _ ?_ | intro _ | refine keeps_ite ?_ ?_

theorem keeps_execRcRegisterRead {a : State} (t : Ticks) (f : Nat) (off : Nat) (be : Nat) (s : State) (h : Keeps a s)
    : KeepsX a (execRcRegisterRead t f off be s) := by
  unfold execRcRegisterRead; try dsimp only
  with_reducible repeat' first | assumption | refine keeps_readAccess _ _ _ _ _ ?_

theorem keeps_execPairLowRead {a : State} (t : Ticks) (f : Nat) (off : Nat) (be : Nat) (s : State) (h : Keeps a s)
    : KeepsX a (execPairLowRead t f off be s) := by
  unfold execPairLowRead; try dsimp only
  with_reducible repeat' first | assumption | refine keeps_readAccess _ _ _ _ _ ?_

theorem keeps_execPairHighRead {a : State} (t : Ticks) (f : Nat) (off : Nat) (be : Nat) (s : State) (h : Keeps a s)
    : KeepsX a (execPairHighRead t f off be s) := by
  unfold execPairHighRead; try dsimp only
  with_reducible repeat' first | assumption | refine keeps_readAccess _ _ _ _ _ ?_

theorem keeps_writeQp {a : State} (f : Nat) (q : Nat) (o : Nat) (v : Nat) (s : State) (h : Keeps a s) : Keeps a
    (writeQp f q o v s) := by
  unfold writeQp; try dsimp only
  with_reducible repeat' first
      | assumption | refine keeps_writeQctl _ _ _ _ ?_ | refine keeps_submitDoorbell _ _ _ _ ?_
      | refine keeps_replyDoorbell _ _ _ _ ?_ | refine keeps_putQp _ _ _ _ ?_ | refine keeps_ite ?_ ?_

theorem keeps_writeTarget {a : State} (f : Nat) (tg : Nat) (o : Nat) (v : Nat) (s : State) (h : Keeps a s) : Keeps a
    (writeTarget f tg o v s) := by
  unfold writeTarget; try dsimp only
  with_reducible repeat' first
      | assumption | refine keeps_completeBy _ _ _ _ ?_ | refine keeps_ofTarget _ _ _ _ ?_
      | refine keeps_writeTctl _ _ _ _ ?_ | refine keeps_ite ?_ ?_

theorem keeps_writeRg {a : State} (k : Nat) (o : Nat) (v : Nat) (s : State) (h : Keeps a s) : Keeps a
    (writeRg k o v s) := by
  unfold writeRg; try dsimp only
  with_reducible repeat' first
      | assumption | refine keeps_writeCommit _ _ _ ?_ | refine keeps_putRaster _ _ _ ?_
      | refine keeps_putCrystal _ _ _ ?_ | refine keeps_ite ?_ ?_

theorem keeps_writeBl {a : State} (o : Nat) (v : Nat) (s : State) (h : Keeps a s) : Keeps a (writeBl o v s) := by
  unfold writeBl; try dsimp only
  with_reducible repeat' first
      | assumption | refine keeps_writeLctl _ _ ?_ | refine keeps_ite ?_ ?_ | simp only [keeps_mk]
      | refine keepsAll_of ?_

theorem keeps_writeHdChan {a : State} (c : Nat) (o : Nat) (v : Nat) (s : State) (h : Keeps a s) : Keeps a
    (writeHdChan c o v s) := by
  unfold writeHdChan; try dsimp only
  with_reducible repeat' first
      | assumption | refine keeps_putHd _ _ _ ?_ | refine keeps_startChain _ _ ?_ | refine keeps_abortChain _ _ ?_
      | refine keeps_ite ?_ ?_

theorem keeps_writeHd {a : State} (o : Nat) (v : Nat) (s : State) (h : Keeps a s) : Keeps a (writeHd o v s) := by
  unfold writeHd; try dsimp only
  with_reducible repeat' first
      | assumption | refine keeps_writeReqset _ _ ?_ | refine keeps_writeHdChan _ _ _ _ ?_ | refine keeps_ite ?_ ?_
      | simp only [keeps_mk] | refine keepsAll_of ?_

theorem keeps_writePmu {a : State} (o : Nat) (v : Nat) (s : State) (h : Keeps a s) : Keeps a (writePmu o v s) := by
  unfold writePmu; try dsimp only
  with_reducible repeat' first
      | assumption | refine keeps_commitPage _ ?_ | refine keeps_ite ?_ ?_ | simp only [keeps_mk]
      | refine keepsAll_of ?_

theorem keeps_writeMsix {a : State} (f : Nat) (i : Nat) (v : Nat) (s : State) (h : Keeps a s) : Keeps a
    (writeMsix f i v s) := by
  unfold writeMsix; try dsimp only
  with_reducible repeat' first
      | assumption | refine keeps_putMsix _ _ _ _ ?_ | refine keeps_writeMsixCtl _ _ _ _ ?_ | refine keeps_ite ?_ ?_

theorem keeps_writeLow {a : State} (off : Nat) (v : Nat) (s : State) (h : Keeps a s) : Keeps a
    (writeLow off v s) := by
  unfold writeLow; try dsimp only
  with_reducible repeat' first
      | assumption | refine keeps_writeQp _ _ _ _ _ ?_ | refine keeps_writeGctl _ _ _ ?_
      | refine keeps_writeSwset _ _ _ ?_ | refine keeps_writeTarget _ _ _ _ _ ?_ | refine keeps_writeRg _ _ _ _ ?_
      | refine keeps_putSlice _ _ _ ?_ | refine keeps_ite ?_ ?_ | simp only [keeps_mk] | refine keepsAll_of ?_

theorem keeps_writeMid {a : State} (off : Nat) (v : Nat) (s : State) (h : Keeps a s) : Keeps a
    (writeMid off v s) := by
  unfold writeMid; try dsimp only
  with_reducible repeat' first
      | assumption | refine keeps_writeBl _ _ _ ?_ | refine keeps_writeHd _ _ _ ?_ | refine keeps_writePmu _ _ _ ?_
      | refine keeps_ite ?_ ?_ | simp only [keeps_mk] | refine keepsAll_of ?_

theorem keeps_writeOne {a : State} (f : Nat) (off : Nat) (v : Nat) (s : State) (h : Keeps a s) : Keeps a
    (writeOne f off v s) := by
  unfold writeOne; try dsimp only
  with_reducible repeat' first
      | assumption | refine keeps_writeLow _ _ _ ?_ | refine keeps_writeMid _ _ _ ?_
      | refine keeps_writeMsix _ _ _ _ ?_ | refine keeps_windowWrite _ _ _ ?_ | refine keeps_writeQp _ _ _ _ _ ?_
      | refine keeps_writeTarget _ _ _ _ _ ?_ | refine keeps_ite ?_ ?_ | simp only [keeps_mk] | refine keepsAll_of ?_

theorem keeps_narrowWrite {a : State} (f : Nat) (s : State) (h : Keeps a s) : Keeps a (narrowWrite f s) := by
  unfold narrowWrite; try dsimp only
  with_reducible repeat' first
      | assumption | refine keeps_noteSet _ _ _ ?_ | refine keeps_raise _ _ ?_ | refine keeps_ite ?_ ?_
      | simp only [keeps_mk] | refine keepsAll_of ?_

theorem keeps_writeRegister {a : State} (f : Nat) (off : Nat) (be : Nat) (v : Nat) (s : State) (h : Keeps a s)
    : Keeps a (writeRegister f off be v s) := by
  unfold writeRegister; try dsimp only
  with_reducible repeat' first
      | assumption | refine keeps_writeOne _ _ _ _ ?_ | refine keeps_narrowWrite _ _ ?_ | refine keeps_ite ?_ ?_

theorem keeps_execRegisterWrite {a : State} (t : Ticks) (f : Nat) (off : Nat) (be : Nat) (v : Nat) (s : State) (h
    : Keeps a s) : KeepsX a (execRegisterWrite t f off be v s) := by
  unfold execRegisterWrite; try dsimp only
  with_reducible repeat' first
      | assumption | refine keeps_regAccess _ _ _ _ _ ?_ ?_ ?_ | refine keeps_writeRegister _ _ _ _ _ ?_ | intro _
      | refine keeps_ite ?_ ?_

end Sys2Proof.Laws
end

