-- ==== Sys2Proof/Laws/KeepsCommands.lean ====
section
/-! SUPPORT. What the host port, transfers, waiting accesses, colour, traffic commands and arrivals keep: the queue, time that
never goes back, the canonical form of memory and a legal mode. One lemma per operation. -/
namespace Sys2Proof.Laws
open Sys2Proof Sys2Proof.Machine

/-! ### HostPort -/

theorem keeps_denyBar2 {a : State} (f : Nat) (s : State) (h : Keeps a s) : Keeps a (denyBar2 f s) := by
  unfold denyBar2; try dsimp only
  with_reducible repeat' first
      | assumption | refine keeps_raise _ _ ?_ | refine keeps_ite ?_ ?_ | simp only [keeps_mk] | refine keepsAll_of ?_

theorem keeps_bar2Do {a : State} (x : Bar2Op) (s : State) (h : Keeps a s) : Keeps a (bar2Do x s) := by
  unfold bar2Do; try dsimp only
  with_reducible repeat' first
      | assumption | refine keeps_memWrite _ _ _ ?_ | refine keeps_noteRace _ _ _ ?_ | refine keeps_emit _ _ ?_
      | refine keeps_countRead _ _ _ ?_ | refine keeps_ite ?_ ?_

theorem keeps_bar2Post {a : State} (x : Bar2Op) (s : State) (h : Keeps a s) : Keeps a (bar2Post x s) := by
  unfold bar2Post; try dsimp only
  with_reducible repeat' first
      | assumption | refine keeps_bar2Do _ _ ?_ | refine keeps_ite ?_ ?_ | simp only [keeps_mk]
      | refine keepsAll_of ?_

theorem keeps_drainBar2 {a : State} (s : State) (h : Keeps a s) : Keeps a (drainBar2 s) := by
  unfold drainBar2; try dsimp only
  with_reducible repeat' first
      | assumption | refine keeps_bar2Post _ _ ?_ | refine keeps_forAll _ _ _ ?_ ?_ | intro _ | simp only [keeps_mk]
      | refine keepsAll_of ?_

theorem keeps_bar2WriteRun {a : State} (f : Nat) (a_1 : Nat) (b : List Byte) (s : State) (h : Keeps a s) : Keeps a
    (bar2WriteRun f a_1 b s) := by
  unfold bar2WriteRun; try dsimp only
  with_reducible repeat' first
      | assumption | refine keeps_denyBar2 _ _ ?_ | refine keeps_bar2Post _ _ ?_ | refine keeps_ite ?_ ?_

theorem keeps_bar2ReadRun {a : State} (f : Nat) (a_1 : Nat) (n : Nat) (s : State) (h : Keeps a s) : Keeps a
    (bar2ReadRun f a_1 n s) := by
  unfold bar2ReadRun; try dsimp only
  with_reducible repeat' first
      | assumption | refine keeps_emit _ _ ?_ | refine keeps_denyBar2 _ _ ?_ | refine keeps_bar2Post _ _ ?_
      | refine keeps_ite ?_ ?_

theorem keeps_bar2Access {a : State} (t : Ticks) (f : Nat) (off : Nat) (act : State → State) (s : State) (hact
    : ∀ y0, Keeps a y0 → Keeps a (act y0)) (h : Keeps a s) : KeepsX a (bar2Access t f off act s) := by
  unfold bar2Access; try dsimp only
  with_reducible repeat' first
      | assumption | apply hact | refine keeps_advance _ _ ?_ | refine keeps_emit _ _ ?_ | refine keepsX_next ?_
      | refine keeps_ite ?_ ?_

theorem keeps_execBar2Write {a : State} (t : Ticks) (f : Nat) (off : Nat) (data : List Byte) (s : State) (h
    : Keeps a s) : KeepsX a (execBar2Write t f off data s) := by
  unfold execBar2Write; try dsimp only
  with_reducible repeat' first
      | assumption | refine keeps_bar2Access _ _ _ _ _ ?_ ?_ | refine keeps_bar2WriteRun _ _ _ _ ?_
      | refine keeps_drainBar2 _ ?_ | refine keeps_forAll _ _ _ ?_ ?_ | intro _

theorem keeps_execBar2Read {a : State} (t : Ticks) (f : Nat) (off : Nat) (len : Nat) (s : State) (h : Keeps a s)
    : KeepsX a (execBar2Read t f off len s) := by
  unfold execBar2Read; try dsimp only
  with_reducible repeat' first
      | assumption | refine keeps_bar2Access _ _ _ _ _ ?_ ?_ | refine keeps_bar2ReadRun _ _ _ _ ?_
      | refine keeps_drainBar2 _ ?_ | refine keeps_forAll _ _ _ ?_ ?_ | intro _

theorem keeps_execBar2Atomicop {a : State} (t : Ticks) (f : Nat) (off : Nat) (s : State) (h : Keeps a s) : KeepsX a
    (execBar2Atomicop t f off s) := by
  unfold execBar2Atomicop; try dsimp only
  with_reducible repeat' first
      | assumption | refine keeps_bar2Access _ _ _ _ _ ?_ ?_ | refine keeps_emit _ _ ?_ | refine keeps_denyBar2 _ _ ?_
      | intro _

theorem keeps_flrPackets {a : State} (f : Nat) (o : Option Nat) (s : State) (h : Keeps a s) : Keeps a
    (flrPackets f o s) := h

theorem keeps_flrBlitter {a : State} (f : Nat) (o : Option Nat) (s : State) (h : Keeps a s) : Keeps a
    (flrBlitter f o s) := by
  unfold flrBlitter; try dsimp only
  with_reducible repeat' first
      | assumption | refine keeps_endList _ _ ?_ | refine keeps_ite ?_ ?_ | simp only [keeps_mk]
      | refine keepsAll_of ?_

theorem keeps_orphanHold {a : State} (r : Nat) (s : State) (h : Keeps a s) : Keeps a (orphanHold r s) := by
  unfold orphanHold; try dsimp only
  with_reducible repeat' first
      | assumption | refine keeps_discardPending _ _ ?_ | refine keeps_clearCommit _ _ ?_
      | refine keeps_cancelStrike _ _ ?_ | refine keeps_putRaster _ _ _ ?_

theorem keeps_flrRasters {a : State} (f : Nat) (s : State) (h : Keeps a s) : Keeps a (flrRasters f s) := by
  unfold flrRasters; try dsimp only
  with_reducible repeat' first
      | assumption | refine keeps_orphanHold _ _ ?_ | refine keeps_forAll _ _ _ ?_ ?_ | intro _

theorem keeps_flrItems {a : State} (f : Nat) (o : Option Nat) (s : State) (h : Keeps a s) : Keeps a
    (flrItems f o s) := by
  unfold flrItems; try dsimp only
  with_reducible repeat' first
      | assumption | refine keeps_evcFlr _ _ ?_ | refine keeps_flrRasters _ _ ?_ | refine keeps_flrBlitter _ _ _ ?_
      | refine keeps_flrPackets _ _ _ ?_ | refine keeps_hdFlr _ ?_ | refine keeps_endUnlock _ ?_
      | refine keeps_ite ?_ ?_

theorem keeps_clearConfig {a : State} (f : Nat) (s : State) (h : Keeps a s) : Keeps a (clearConfig f s) := h

theorem keeps_flrHost {a : State} (f : Nat) (s : State) (h : Keeps a s) : Keeps a (flrHost f s) := by
  unfold flrHost; try dsimp only
  with_reducible repeat' first
      | assumption | refine keeps_putQp _ _ _ _ ?_ | refine keeps_forAll _ _ _ ?_ ?_ | intro _ | simp only [keeps_mk]
      | refine keepsAll_of ?_

theorem keeps_sendFlr {a : State} (f : Nat) (s : State) (h : Keeps a s) : Keeps a (sendFlr f s) := by
  unfold sendFlr; try dsimp only
  with_reducible repeat' first
      | assumption | refine keeps_sendFlrTo _ _ _ ?_ | refine keeps_forAll _ _ _ ?_ ?_ | intro _
      | refine keeps_ite ?_ ?_

theorem keeps_flrLocal {a : State} (f : Nat) (s : State) (h : Keeps a s) : Keeps a (flrLocal f s) := by
  unfold flrLocal; try dsimp only
  with_reducible repeat' first
      | assumption | refine keeps_sendFlr _ _ ?_ | refine keeps_flrHost _ _ ?_ | refine keeps_flrItems _ _ _ ?_
      | refine keeps_clearConfig _ _ ?_

theorem keeps_execFlr {a : State} (t : Ticks) (f : Nat) (s : State) (h : Keeps a s) : KeepsX a (execFlr t f s) := by
  unfold execFlr; try dsimp only
  with_reducible repeat' first
      | assumption | refine keeps_advance _ _ ?_ | refine keeps_flrLocal _ _ ?_ | refine keepsX_next ?_
      | refine keeps_ite ?_ ?_

theorem keeps_execFlrRemoteApply {a : State} (t : Ticks) (f : Nat) (device : Nat) (s : State) (h : Keeps a s)
    : KeepsX a (execFlrRemoteApply t f device s) := by
  unfold execFlrRemoteApply; try dsimp only
  with_reducible repeat' first
      | assumption | refine keeps_whenRunning _ _ _ ?_ ?_ | refine keeps_flrItems _ _ _ ?_ | intro _
      | refine keeps_ite ?_ ?_

theorem keeps_writeHeld {a : State} (f : Nat) (q : Nat) (s : State) (h : Keeps a s) : Keeps a (writeHeld f q s) := by
  unfold writeHeld; try dsimp only
  with_reducible repeat' first
      | assumption | refine keeps_flushCheck _ _ _ ?_ | refine keeps_sendReply _ _ _ _ ?_
      | refine keeps_putQp _ _ _ _ ?_ | refine keeps_forAll _ _ _ ?_ ?_ | intro _

theorem keeps_writeConfig {a : State} (f : Nat) (c : CfgWrite) (s : State) (h : Keeps a s) : Keeps a
    (writeConfig f c s) := by
  unfold writeConfig; try dsimp only
  with_reducible repeat' first
      | assumption | refine keeps_msixFlush _ _ ?_ | refine keeps_writeHeld _ _ _ ?_ | refine keeps_forAll _ _ _ ?_ ?_
      | intro _ | refine keeps_ite ?_ ?_ | simp only [keeps_mk] | refine keepsAll_of ?_

theorem keeps_execBusMasterEnableChange {a : State} (t : Ticks) (f : Nat) (c : CfgWrite) (s : State) (h : Keeps a s)
    : KeepsX a (execBusMasterEnableChange t f c s) := by
  unfold execBusMasterEnableChange; try dsimp only
  with_reducible repeat' first
      | assumption | refine keeps_advance _ _ ?_ | refine keeps_writeConfig _ _ _ ?_ | refine keepsX_next ?_
      | refine keeps_ite ?_ ?_

theorem keeps_enableVfs {a : State} (num : Nat) (bar2 : Nat) (s : State) (h : Keeps a s) : Keeps a
    (enableVfs num bar2 s) := h

theorem keeps_execVfEnableSet {a : State} (t : Ticks) (num : Nat) (bar2 : Nat) (s : State) (h : Keeps a s) : KeepsX a
    (execVfEnableSet t num bar2 s) := by
  unfold execVfEnableSet; try dsimp only
  with_reducible repeat' first
      | assumption | refine keeps_advance _ _ ?_ | refine keeps_enableVfs _ _ _ ?_ | refine keepsX_next ?_
      | refine keeps_ite ?_ ?_

theorem keeps_disableVfs {a : State} (s : State) (h : Keeps a s) : Keeps a (disableVfs s) := by
  unfold disableVfs; try dsimp only
  with_reducible repeat' first
      | assumption | refine keeps_returnResources _ _ ?_ | refine keeps_flrLocal _ _ ?_
      | refine keeps_forAll _ _ _ ?_ ?_ | intro _ | simp only [keeps_mk] | refine keepsAll_of ?_

theorem keeps_execVfEnableClear {a : State} (t : Ticks) (s : State) (h : Keeps a s) : KeepsX a
    (execVfEnableClear t s) := by
  unfold execVfEnableClear; try dsimp only
  with_reducible repeat' first
      | assumption | refine keeps_advance _ _ ?_ | refine keeps_disableVfs _ ?_ | refine keepsX_next ?_
      | refine keeps_ite ?_ ?_

theorem keeps_linkReset {a : State} (s : State) (h : Keeps a s) : Keeps a (linkReset s) := by
  unfold linkReset; try dsimp only
  with_reducible repeat' first
      | assumption | refine keeps_disableVfs _ ?_ | refine keeps_flrLocal _ _ ?_ | simp only [keeps_mk]
      | refine keepsAll_of ?_

theorem keeps_execPerstNAssert {a : State} (t : Ticks) (s : State) (h : Keeps a s) : KeepsX a
    (execPerstNAssert t s) := by
  unfold execPerstNAssert; try dsimp only
  with_reducible repeat' first
      | assumption | refine keeps_advance _ _ ?_ | refine keeps_linkReset _ ?_ | refine keepsX_next ?_
      | refine keeps_ite ?_ ?_ | simp only [keeps_mk] | refine keepsAll_of ?_

theorem keeps_execHotReset {a : State} (t : Ticks) (s : State) (h : Keeps a s) : KeepsX a (execHotReset t s) := by
  unfold execHotReset; try dsimp only
  with_reducible repeat' first
      | assumption | refine keeps_advance _ _ ?_ | refine keeps_linkReset _ ?_ | refine keepsX_next ?_
      | refine keeps_ite ?_ ?_

theorem keeps_execPcieRefclkLoss {a : State} (t : Ticks) (s : State) (h : Keeps a s) : KeepsX a
    (execPcieRefclkLoss t s) := by
  unfold execPcieRefclkLoss; try dsimp only
  with_reducible repeat' first
      | assumption | refine keeps_advance _ _ ?_ | refine keepsX_next ?_ | simp only [keeps_mk]
      | refine keepsAll_of ?_

theorem keeps_execPcieLinkTrained {a : State} (t : Ticks) (s : State) (h : Keeps a s) : KeepsX a
    (execPcieLinkTrained t s) := by
  unfold execPcieLinkTrained; try dsimp only
  with_reducible repeat' first
      | assumption | refine keeps_advance _ _ ?_ | refine keepsX_next ?_ | refine keeps_ite ?_ ?_
      | simp only [keeps_mk] | refine keepsAll_of ?_

/-! ### Transfers -/

theorem keeps_startTransfer {a : State} (p : Packet) (s : State) (follow : Bool) (h : Keeps a s) : KeepsR a
    (startTransfer p s follow) := by
  unfold startTransfer; try dsimp only
  with_reducible repeat' first
      | assumption | refine keeps_require _ _ _ ?_ ?_ | exact keeps_badParam | exact keeps_bad _
      | refine keeps_startXfer _ _ _ _ ?_ | exact keeps_noResource | refine keepsR_pend ?_ | split

theorem keeps_stopTransfer {a : State} (p : Packet) (s : State) (h : Keeps a s) : KeepsR a (stopTransfer p s) := by
  unfold stopTransfer; try dsimp only
  with_reducible repeat' first
      | assumption | exact keeps_badParam | refine keeps_okay _ ?_ | refine keeps_dropXfer _ _ ?_
      | refine keeps_putXfer _ _ _ ?_ | refine keeps_ite ?_ ?_ | split

theorem keeps_bindImport {a : State} (p : Packet) (s : State) (h : Keeps a s) : KeepsR a (bindImport p s) := by
  unfold bindImport; try dsimp only
  with_reducible repeat' first
      | assumption | refine keeps_require _ _ _ ?_ ?_ | exact keeps_bad _ | exact keeps_badParam | exact keeps_busy
      | refine keeps_okay _ ?_ | simp only [keeps_mk] | refine keepsAll_of ?_

theorem keeps_surfaceTransferBody {a : State} (p : Packet) (s : State) (h : Keeps a s) : KeepsR a
    (surfaceTransferBody p s) := by
  unfold surfaceTransferBody; try dsimp only
  with_reducible repeat' first
      | assumption | refine keeps_require _ _ _ ?_ ?_ | exact keeps_badParam | refine keeps_startTransfer _ _ _ ?_
      | refine keeps_stopTransfer _ _ ?_ | refine keeps_bindImport _ _ ?_ | split

theorem keeps_specSurfaceTransfer : KeepsC specSurfaceTransfer := by
  intro a p s h
  unfold specSurfaceTransfer; try dsimp only
  with_reducible repeat' first | assumption | refine keeps_surfaceTransferBody _ _ ?_

theorem keeps_execSurfaceTransfer {a : State} (t : Ticks) (p : Packet) (s : State) (h : Keeps a s) : KeepsX a
    (execSurfaceTransfer t p s) := by
  unfold execSurfaceTransfer; try dsimp only
  with_reducible repeat' first | assumption | refine keeps_runPacket _ _ _ _ ?_ ?_ | exact keeps_specSurfaceTransfer

theorem keeps_answerXfer {a : State} (dev : Nat) (ctx : Nat) (published : Bool) (status : Nat) (r0 : Nat) (s : State)
    (h : Keeps a s) : Keeps a (answerXfer dev ctx published status r0 s) := by
  unfold answerXfer; try dsimp only
  with_reducible repeat' first | assumption | refine keeps_sendMsg _ _ _ ?_

theorem keeps_xferHeader {a : State} (x : FlitRx) (src : SrcInfo) (s : State) (h : Keeps a s) : Keeps a
    (xferHeader x src s) := by
  unfold xferHeader; try dsimp only
  with_reducible repeat' first
      | assumption | refine keeps_answerXfer _ _ _ _ _ _ ?_ | refine keeps_noWriteSlot _ _ ?_
      | refine keeps_useSlot _ _ ?_ | refine keeps_ite ?_ ?_ | simp only [keeps_mk] | refine keepsAll_of ?_

theorem keeps_xferChunkIn {a : State} (device : Nat) (x : FlitRx) (s : State) (h : Keeps a s) : Keeps a
    (xferChunkIn device x s) := by
  unfold xferChunkIn; try dsimp only
  with_reducible repeat' first | assumption | refine keeps_writeSlot _ _ _ _ ?_ | refine keeps_ite ?_ ?_ | split

theorem keeps_xferEnd {a : State} (device : Nat) (x : FlitRx) (s : State) (h : Keeps a s) : Keeps a
    (xferEnd device x s) := by
  unfold xferEnd; try dsimp only
  with_reducible repeat' first
      | assumption | refine keeps_answerXfer _ _ _ _ _ _ ?_ | refine keeps_publishAuto _ _ _ _ _ ?_
      | refine keeps_ite ?_ ?_ | simp only [keeps_mk] | refine keepsAll_of ?_ | split

theorem keeps_publishImport {a : State} (n : Nat) (s : State) (h : Keeps a s) : Keeps a (publishImport n s) := by
  unfold publishImport; try dsimp only
  with_reducible repeat' first
      | assumption | refine keeps_publishAuto _ _ _ _ _ ?_ | refine keeps_ite ?_ ?_ | simp only [keeps_mk]
      | refine keepsAll_of ?_ | split

theorem keeps_beginImport {a : State} (n : Nat) (b : List Byte) (s : State) (h : Keeps a s) : Keeps a
    (beginImport n b s) := by
  unfold beginImport; try dsimp only
  with_reducible repeat' first
      | assumption | refine keeps_useSlot _ _ ?_ | refine keeps_noWriteSlot _ _ ?_ | refine keeps_ite ?_ ?_
      | simp only [keeps_mk] | refine keepsAll_of ?_ | split

theorem keeps_frameStartIn {a : State} (x : FlitRx) (s : State) (h : Keeps a s) : Keeps a (frameStartIn x s) := by
  unfold frameStartIn; try dsimp only
  with_reducible repeat' first
      | assumption | refine keeps_badFlit _ _ ?_ | refine keeps_beginImport _ _ _ ?_
      | refine keeps_publishImport _ _ ?_ | refine keeps_ite ?_ ?_ | split

theorem keeps_writeImportLine {a : State} (m : Import) (y : Nat) (b : List Byte) (s : State) (h : Keeps a s) : Keeps a
    (writeImportLine m y b s) := by
  unfold writeImportLine; try dsimp only
  with_reducible repeat' first | assumption | refine keeps_writeSlot _ _ _ _ ?_ | refine keeps_ite ?_ ?_

theorem keeps_importTileRow {a : State} (n : Nat) (ty : Nat) (m : Import) (s : State) (h : Keeps a s) : Keeps a
    (importTileRow n ty m s) := by
  unfold importTileRow; try dsimp only
  with_reducible repeat' first
      | assumption | refine keeps_writeSlot _ _ _ _ ?_ | refine keeps_forAll _ _ _ ?_ ?_ | intro _
      | refine keeps_ite ?_ ?_ | simp only [keeps_mk] | refine keepsAll_of ?_

theorem keeps_importChunk {a : State} (n : Nat) (y : Nat) (c : Nat) (b : List Byte) (m : Import) (s : State) (h
    : Keeps a s) : Keeps a (importChunk n y c b m s) := by
  unfold importChunk; try dsimp only
  with_reducible repeat' first
      | assumption | refine keeps_importTileRow _ _ _ _ ?_ | refine keeps_writeImportLine _ _ _ _ ?_
      | refine keeps_ite ?_ ?_ | simp only [keeps_mk] | refine keepsAll_of ?_

theorem keeps_lineDataIn {a : State} (device : Nat) (x : FlitRx) (s : State) (h : Keeps a s) : Keeps a
    (lineDataIn device x s) := by
  unfold lineDataIn; try dsimp only
  with_reducible repeat' first
      | assumption | refine keeps_badFlit _ _ ?_ | refine keeps_importChunk _ _ _ _ _ _ ?_ | refine keeps_ite ?_ ?_
      | split

theorem keeps_actFlit {a : State} (f : InFlit) (s : State) (h : Keeps a s) : Keeps a (actFlit f s) := by
  unfold actFlit; try dsimp only
  with_reducible repeat' first
      | assumption | refine keeps_xferHeader _ _ _ ?_ | refine keeps_xferChunkIn _ _ _ ?_
      | refine keeps_xferEnd _ _ _ ?_ | refine keeps_frameStartIn _ _ ?_ | refine keeps_lineDataIn _ _ _ ?_ | split

theorem keeps_holdFlit {a : State} (f : InFlit) (s : State) (h : Keeps a s) : Keeps a (holdFlit f s) := by
  unfold holdFlit; try dsimp only
  with_reducible repeat' first
      | assumption | refine keeps_keepCredit _ _ _ ?_ | refine keeps_ite ?_ ?_ | simp only [keeps_mk]
      | refine keepsAll_of ?_

theorem keeps_takeFlit {a : State} (f : InFlit) (s : State) (h : Keeps a s) : Keeps a (takeFlit f s) := by
  unfold takeFlit; try dsimp only
  with_reducible repeat' first
      | assumption | refine keeps_holdFlit _ _ ?_ | refine keeps_actFlit _ _ ?_ | refine keeps_ite ?_ ?_

theorem keeps_freeFlit {a : State} (f : InFlit) (s : State) (h : Keeps a s) : Keeps a (freeFlit f s) := by
  unfold freeFlit; try dsimp only
  with_reducible repeat' first | assumption | refine keeps_giveBack _ _ ?_ | refine keeps_ite ?_ ?_

theorem keeps_drainFlits {a : State} (s : State) (h : Keeps a s) : Keeps a (drainFlits s) := by
  unfold drainFlits; try dsimp only
  with_reducible repeat' first
      | assumption | refine keeps_takeFlit _ _ ?_ | refine keeps_freeFlit _ _ ?_ | refine keeps_forAll _ _ _ ?_ ?_
      | intro _ | simp only [keeps_mk] | refine keepsAll_of ?_

theorem keeps_streamRx {a : State} (t : Ticks) (ty : Nat) (f : InFlit) (s : State) (h : Keeps a s) : KeepsX a
    (streamRx t ty f s) := by
  unfold streamRx; try dsimp only
  with_reducible repeat' first
      | assumption | refine keeps_whenRunning _ _ _ ?_ ?_ | refine keeps_flitRx _ _ _ _ ?_ ?_
      | refine keeps_takeFlit _ _ ?_ | refine keeps_drainFlits _ ?_ | intro _

theorem keeps_execXferHdrRx {a : State} (t : Ticks) (x : FlitRx) (src : SrcInfo) (s : State) (h : Keeps a s)
    : KeepsX a (execXferHdrRx t x src s) := by
  unfold execXferHdrRx; try dsimp only
  with_reducible repeat' first | assumption | refine keeps_streamRx _ _ _ _ ?_

theorem keeps_execXferDataRx {a : State} (t : Ticks) (device : Nat) (x : FlitRx) (s : State) (h : Keeps a s)
    : KeepsX a (execXferDataRx t device x s) := by
  unfold execXferDataRx; try dsimp only
  with_reducible repeat' first | assumption | refine keeps_streamRx _ _ _ _ ?_

theorem keeps_execXferEndRx {a : State} (t : Ticks) (device : Nat) (x : FlitRx) (s : State) (h : Keeps a s) : KeepsX a
    (execXferEndRx t device x s) := by
  unfold execXferEndRx; try dsimp only
  with_reducible repeat' first | assumption | refine keeps_streamRx _ _ _ _ ?_

theorem keeps_execFrameStartRx {a : State} (t : Ticks) (x : FlitRx) (s : State) (h : Keeps a s) : KeepsX a
    (execFrameStartRx t x s) := by
  unfold execFrameStartRx; try dsimp only
  with_reducible repeat' first | assumption | refine keeps_streamRx _ _ _ _ ?_

theorem keeps_execLineDataRx {a : State} (t : Ticks) (device : Nat) (x : FlitRx) (s : State) (h : Keeps a s)
    : KeepsX a (execLineDataRx t device x s) := by
  unfold execLineDataRx; try dsimp only
  with_reducible repeat' first | assumption | refine keeps_streamRx _ _ _ _ ?_

theorem keeps_execImportPublishTimeout {a : State} (t : Ticks) (imp : Nat) (s : State) (h : Keeps a s) : KeepsX a
    (execImportPublishTimeout t imp s) := by
  unfold execImportPublishTimeout; try dsimp only
  with_reducible repeat' first
      | assumption | refine keeps_whenRunning _ _ _ ?_ ?_ | refine keeps_publishImport _ _ ?_ | intro _
      | refine keeps_ite ?_ ?_ | split

theorem keeps_headerAnswer {a : State} (ctx : Nat) (status : Nat) (x : Xfer) (s : State) (h : Keeps a s) : Keeps a
    (headerAnswer ctx status x s) := by
  unfold headerAnswer; try dsimp only
  with_reducible repeat' first
      | assumption | refine keeps_putXfer _ _ _ ?_ | refine keeps_finishUnit _ _ _ _ _ ?_
      | refine keeps_dropXfer _ _ ?_ | refine keeps_releaseXfer _ _ ?_ | refine keeps_ite ?_ ?_

theorem keeps_xferAnswered {a : State} (device : Nat) (ctx : Nat) (published : Bool) (status : Nat) (r0 : Nat) (s
    : State) (h : Keeps a s) : Keeps a (xferAnswered device ctx published status r0 s) := by
  unfold xferAnswered; try dsimp only
  with_reducible repeat' first
      | assumption | refine keeps_headerAnswer _ _ _ _ ?_ | refine keeps_finishUnit _ _ _ _ _ ?_
      | refine keeps_dropXfer _ _ ?_ | refine keeps_ite ?_ ?_ | split

theorem keeps_execXferAnswerRx {a : State} (t : Ticks) (device : Nat) (ctx : Nat) (published : Bool) (status : Nat)
    (r0 : Nat) (s : State) (h : Keeps a s) : KeepsX a (execXferAnswerRx t device ctx published status r0 s) := by
  unfold execXferAnswerRx; try dsimp only
  with_reducible repeat' first
      | assumption | refine keeps_whenRunning _ _ _ ?_ ?_ | refine keeps_xferAnswered _ _ _ _ _ _ ?_ | intro _

/-! ### Access -/

theorem keeps_drainWritebacks {a : State} (s : State) (h : Keeps a s) : Keeps a (drainWritebacks s) := by
  unfold drainWritebacks; try dsimp only
  with_reducible repeat' first
      | assumption | refine keeps_publishWb _ _ _ ?_ | refine keeps_forAll _ _ _ ?_ ?_ | intro _ | split

theorem keeps_drainAccesses {a : State} (s : State) (h : Keeps a s) : Keeps a (drainAccesses s) := by
  unfold drainAccesses; try dsimp only
  with_reducible repeat' first
      | assumption | refine keeps_drainBar2 _ ?_ | refine keeps_drainRecords _ ?_ | refine keeps_drainFlits _ ?_
      | refine keeps_drainIngest _ ?_ | refine keeps_drainWritebacks _ ?_

theorem keeps_execFsRequestIssue {a : State} (t : Ticks) (n : Nat) (s : State) (h : Keeps a s) : KeepsX a
    (execFsRequestIssue t n s) := by
  unfold execFsRequestIssue; try dsimp only
  with_reducible repeat' first
      | assumption | refine keeps_whenRunning _ _ _ ?_ ?_ | refine keeps_drainAccesses _ ?_
      | refine keeps_serviceSlot _ _ ?_ | intro _ | refine keeps_ite ?_ ?_

/-! ### Colour -/

theorem keeps_awaitLoad {a : State} (n : Nat) (r : Nat) (f : RasterTbl → RasterTbl) (s : State) (h : Keeps a s)
    : Keeps a (awaitLoad n r f s) := by
  unfold awaitLoad; try dsimp only
  with_reducible repeat' first | assumption | refine keeps_putRasterTbl _ _ _ ?_ | refine keeps_ite ?_ ?_

theorem keeps_loadTable {a : State} (key : Nat) (c : TblCopy) (rs : List Nat) (s : State) (h : Keeps a s) : Keeps a
    (loadTable key c rs s) := by
  unfold loadTable; try dsimp only
  with_reducible repeat' first
      | assumption | refine keeps_awaitLoad _ _ _ _ ?_ | refine keeps_forAll _ _ _ ?_ ?_ | intro _
      | simp only [keeps_mk] | refine keepsAll_of ?_

theorem keeps_loaded {a : State} (s : State) (h : Keeps a s) : KeepsR a (loaded s) := by
  unfold loaded; try dsimp only
  with_reducible repeat' first | assumption | refine keepsR_ok ?_

theorem keeps_badAt {a : State} (n : Nat) : KeepsR a (badAt n) := by
  unfold badAt; try dsimp only
  with_reducible exact keepsR_fail

theorem keeps_firstBad {a : State} (l : List (Option Nat)) (k : Res) (hk : KeepsR a k) : KeepsR a (firstBad l k) := by
  unfold firstBad; try dsimp only
  with_reducible repeat' first | assumption | exact keeps_badAt _ | split

theorem keeps_withTable {a : State} (p : Packet) (s : State) (n : Nat) (k : List Byte → Res) (hk : ∀ y0, KeepsR a
    (k y0)) (h : Keeps a s) : KeepsR a (withTable p s n k) := by
  unfold withTable; try dsimp only
  with_reducible repeat' first
      | apply hk | refine keeps_require _ _ _ ?_ ?_ | exact keeps_badParam | exact keepsR_fail

theorem keeps_coefBankLoadBody {a : State} (p : Packet) (s : State) (h : Keeps a s) : KeepsR a
    (coefBankLoadBody p s) := by
  unfold coefBankLoadBody; try dsimp only
  with_reducible repeat' first
      | assumption | refine keeps_require _ _ _ ?_ ?_ | exact keeps_badParam | refine keeps_withTable _ _ _ _ ?_ ?_
      | refine keeps_firstBad _ _ ?_ | refine keeps_loadTable _ _ _ _ ?_ | refine keeps_verdictRes _ _ ?_
      | refine keeps_loaded _ ?_ | exact keepsR_fail | intro _ | split

theorem keeps_specCoefBankLoad : KeepsC specCoefBankLoad := by
  intro a p s h
  unfold specCoefBankLoad; try dsimp only
  with_reducible repeat' first | assumption | refine keeps_coefBankLoadBody _ _ ?_

theorem keeps_execCoefBankLoad {a : State} (t : Ticks) (p : Packet) (s : State) (h : Keeps a s) : KeepsX a
    (execCoefBankLoad t p s) := by
  unfold execCoefBankLoad; try dsimp only
  with_reducible repeat' first | assumption | refine keeps_runPacket _ _ _ _ ?_ ?_ | exact keeps_specCoefBankLoad

theorem keeps_itfLutLoadBody {a : State} (p : Packet) (s : State) (h : Keeps a s) : KeepsR a
    (itfLutLoadBody p s) := by
  unfold itfLutLoadBody; try dsimp only
  with_reducible repeat' first
      | assumption | refine keeps_require _ _ _ ?_ ?_ | exact keeps_badParam | refine keeps_withTable _ _ _ _ ?_ ?_
      | refine keeps_firstBad _ _ ?_ | refine keeps_loaded _ ?_ | refine keeps_loadTable _ _ _ _ ?_
      | exact keepsR_fail | intro _

theorem keeps_specItfLutLoad : KeepsC specItfLutLoad := by
  intro a p s h
  unfold specItfLutLoad; try dsimp only
  with_reducible repeat' first | assumption | refine keeps_itfLutLoadBody _ _ ?_

theorem keeps_execItfLutLoad {a : State} (t : Ticks) (p : Packet) (s : State) (h : Keeps a s) : KeepsX a
    (execItfLutLoad t p s) := by
  unfold execItfLutLoad; try dsimp only
  with_reducible repeat' first | assumption | refine keeps_runPacket _ _ _ _ ?_ ?_ | exact keeps_specItfLutLoad

theorem keeps_colourSpec (op : Nat) (body : Packet → State → Res) (hbody : ∀ a p s, Keeps a s → KeepsR a (body p s))
    : KeepsC (colourSpec op body) := by
  intro a p s h
  unfold colourSpec; try dsimp only
  with_reducible repeat' first | assumption | apply hbody

theorem keeps_lut3dLoadBody {a : State} (p : Packet) (s : State) (h : Keeps a s) : KeepsR a (lut3dLoadBody p s) := by
  unfold lut3dLoadBody; try dsimp only
  with_reducible repeat' first
      | assumption | refine keeps_require _ _ _ ?_ ?_ | exact keeps_badParam | refine keeps_withTable _ _ _ _ ?_ ?_
      | refine keeps_firstBad _ _ ?_ | refine keeps_loaded _ ?_ | refine keeps_loadTable _ _ _ _ ?_
      | exact keepsR_fail | intro _

theorem keeps_specLut3dLoad : KeepsC specLut3dLoad := by
  intro a p s h
  unfold specLut3dLoad colourSpec; try dsimp only
  with_reducible repeat' first | assumption | refine keeps_lut3dLoadBody _ _ ?_

theorem keeps_execLut3dLoad {a : State} (t : Ticks) (p : Packet) (s : State) (h : Keeps a s) : KeepsX a
    (execLut3dLoad t p s) := by
  unfold execLut3dLoad; try dsimp only
  with_reducible repeat' first | assumption | refine keeps_runPacket _ _ _ _ ?_ ?_ | exact keeps_specLut3dLoad

theorem keeps_setOutput {a : State} (r : Nat) (o : OutSet) (s : State) (h : Keeps a s) : Keeps a
    (setOutput r o s) := by
  unfold setOutput; try dsimp only
  with_reducible repeat' first
      | assumption | refine keeps_awaitLoad _ _ _ _ ?_ | simp only [keeps_mk] | refine keepsAll_of ?_

theorem keeps_outputColourSetBody {a : State} (p : Packet) (s : State) (h : Keeps a s) : KeepsR a
    (outputColourSetBody p s) := by
  unfold outputColourSetBody; try dsimp only
  with_reducible repeat' first
      | assumption | refine keeps_require _ _ _ ?_ ?_ | exact keeps_badParam | exact keeps_bad _
      | refine keeps_loaded _ ?_ | refine keeps_setOutput _ _ _ ?_ | exact keepsR_fail

theorem keeps_specOutputColourSet : KeepsC specOutputColourSet := by
  intro a p s h
  unfold specOutputColourSet colourSpec; try dsimp only
  with_reducible repeat' first | assumption | refine keeps_outputColourSetBody _ _ ?_

theorem keeps_execOutputColourSet {a : State} (t : Ticks) (p : Packet) (s : State) (h : Keeps a s) : KeepsX a
    (execOutputColourSet t p s) := by
  unfold execOutputColourSet; try dsimp only
  with_reducible repeat' first | assumption | refine keeps_runPacket _ _ _ _ ?_ ?_ | exact keeps_specOutputColourSet

/-! ### Traffic -/

theorem keeps_queueShaperSetBody {a : State} (p : Packet) (s : State) (h : Keeps a s) : KeepsR a
    (queueShaperSetBody p s) := by
  unfold queueShaperSetBody; try dsimp only
  with_reducible repeat' first
      | assumption | refine keeps_require _ _ _ ?_ ?_ | exact keeps_badParam | exact keeps_busy
      | refine keeps_putQueue _ _ _ ?_ | refine keeps_verdictRes _ _ ?_ | refine keepsR_ok ?_

theorem keeps_specQueueShaperSet : KeepsC specQueueShaperSet := by
  intro a p s h
  unfold specQueueShaperSet; try dsimp only
  with_reducible repeat' first | assumption | refine keeps_queueShaperSetBody _ _ ?_

theorem keeps_execQueueShaperSet {a : State} (t : Ticks) (p : Packet) (s : State) (h : Keeps a s) : KeepsX a
    (execQueueShaperSet t p s) := by
  unfold execQueueShaperSet; try dsimp only
  with_reducible repeat' first | assumption | refine keeps_runPacket _ _ _ _ ?_ ?_ | exact keeps_specQueueShaperSet

theorem keeps_portTakeOver {a : State} (p : Nat) (s : State) (h : Keeps a s) : Keeps a (portTakeOver p s) := by
  unfold portTakeOver; try dsimp only
  with_reducible repeat' first | assumption | refine keeps_raiseUnit _ _ _ ?_ | refine keeps_putTsPort _ _ _ ?_

theorem keeps_portsTakeOver {a : State} (s : State) (h : Keeps a s) : Keeps a (portsTakeOver s) := by
  unfold portsTakeOver; try dsimp only
  with_reducible repeat' first
      | assumption | refine keeps_portTakeOver _ _ ?_ | refine keeps_forAll _ _ _ ?_ ?_ | intro _

theorem keeps_execQbvGateSwitch {a : State} (t : Ticks) (port : Nat) (s : State) (h : Keeps a s) : KeepsX a
    (execQbvGateSwitch t port s) := by
  unfold execQbvGateSwitch; try dsimp only
  with_reducible repeat' first
      | assumption | refine keeps_whenRunning _ _ _ ?_ ?_ | refine keeps_portTakeOver _ _ ?_ | intro _
      | refine keeps_ite ?_ ?_

theorem keeps_execQbvEntryAdvance {a : State} (t : Ticks) (port : Nat) (s : State) (h : Keeps a s) : KeepsX a
    (execQbvEntryAdvance t port s) := by
  unfold execQbvEntryAdvance; try dsimp only
  with_reducible repeat' first
      | assumption | refine keeps_whenRunning _ _ _ ?_ ?_ | refine keeps_putTsPort _ _ _ ?_ | intro _
      | refine keeps_ite ?_ ?_

theorem keeps_qbvListLoadBody {a : State} (p : Packet) (s0 : State) (h : Keeps a s0) : KeepsR a
    (qbvListLoadBody p s0) := by
  unfold qbvListLoadBody; try dsimp only
  with_reducible repeat' first
      | assumption | refine keeps_portsTakeOver _ ?_ | refine keeps_require _ _ _ ?_ ?_ | exact keeps_badParam
      | exact keeps_busy | refine keeps_putTsPort _ _ _ ?_ | refine keeps_forAll _ _ _ ?_ ?_ | refine keepsR_ok ?_
      | intro _

theorem keeps_specQbvListLoad : KeepsC specQbvListLoad := by
  intro a p s h
  unfold specQbvListLoad; try dsimp only
  with_reducible repeat' first | assumption | refine keeps_qbvListLoadBody _ _ ?_

theorem keeps_execQbvListLoad {a : State} (t : Ticks) (p : Packet) (s : State) (h : Keeps a s) : KeepsX a
    (execQbvListLoad t p s) := by
  unfold execQbvListLoad; try dsimp only
  with_reducible repeat' first | assumption | refine keeps_runPacket _ _ _ _ ?_ ?_ | exact keeps_specQbvListLoad

theorem keeps_qbvListArmBody {a : State} (p : Packet) (s : State) (h : Keeps a s) : KeepsR a
    (qbvListArmBody p s) := by
  unfold qbvListArmBody; try dsimp only
  with_reducible repeat' first
      | assumption | refine keeps_require _ _ _ ?_ ?_ | exact keeps_badParam | exact keeps_armBusy _
      | refine keeps_okay _ ?_ | refine keeps_putTsPort _ _ _ ?_ | refine keeps_forAll _ _ _ ?_ ?_ | exact keepsR_fail
      | refine keepsR_done ?_ | intro _ | split

theorem keeps_specQbvListArm : KeepsC specQbvListArm := by
  intro a p s h
  unfold specQbvListArm; try dsimp only
  with_reducible repeat' first | assumption | refine keeps_qbvListArmBody _ _ ?_

theorem keeps_execQbvListArm {a : State} (t : Ticks) (p : Packet) (s : State) (h : Keeps a s) : KeepsX a
    (execQbvListArm t p s) := by
  unfold execQbvListArm; try dsimp only
  with_reducible repeat' first | assumption | refine keeps_runPacket _ _ _ _ ?_ ?_ | exact keeps_specQbvListArm

theorem keeps_meterSetBody {a : State} (p : Packet) (s : State) (h : Keeps a s) : KeepsR a (meterSetBody p s) := by
  unfold meterSetBody; try dsimp only
  with_reducible repeat' first
      | assumption | refine keeps_require _ _ _ ?_ ?_ | exact keeps_badParam | refine keeps_okay _ ?_
      | refine keeps_putMeter _ _ _ ?_

theorem keeps_specMeterSet : KeepsC specMeterSet := by
  intro a p s h
  unfold specMeterSet; try dsimp only
  with_reducible repeat' first | assumption | refine keeps_meterSetBody _ _ ?_

theorem keeps_execMeterSet {a : State} (t : Ticks) (p : Packet) (s : State) (h : Keeps a s) : KeepsX a
    (execMeterSet t p s) := by
  unfold execMeterSet; try dsimp only
  with_reducible repeat' first | assumption | refine keeps_runPacket _ _ _ _ ?_ ?_ | exact keeps_specMeterSet

theorem keeps_clearQueue {a : State} (q : Nat) (s : State) (h : Keeps a s) : Keeps a (clearQueue q s) := by
  unfold clearQueue; try dsimp only
  with_reducible repeat' first | assumption | refine keeps_putEgress _ _ _ ?_ | refine keeps_putQueue _ _ _ ?_

theorem keeps_clearMeter {a : State} (f : Nat) (s : State) (h : Keeps a s) : Keeps a (clearMeter f s) := by
  unfold clearMeter; try dsimp only
  with_reducible repeat' first | assumption | refine keeps_putMeter _ _ _ ?_

theorem keeps_tsStatsReadBody {a : State} (p : Packet) (s : State) (h : Keeps a s) : KeepsR a
    (tsStatsReadBody p s) := by
  unfold tsStatsReadBody; try dsimp only
  with_reducible repeat' first
      | assumption | refine keeps_require _ _ _ ?_ ?_ | exact keeps_badParam
      | refine keeps_withBuf _ _ _ _ _ _ _ ?_ ?_ | refine keeps_okay _ ?_ | refine keeps_clearMeter _ _ ?_
      | refine keeps_clearQueue _ _ ?_ | refine keeps_forAll _ _ _ ?_ ?_ | intro _ | refine keeps_ite ?_ ?_
      | apply_assumption | split

theorem keeps_specTsStatsRead : KeepsC specTsStatsRead := by
  intro a p s h
  unfold specTsStatsRead; try dsimp only
  with_reducible repeat' first | assumption | refine keeps_tsStatsReadBody _ _ ?_

theorem keeps_execTsStatsRead {a : State} (t : Ticks) (p : Packet) (s : State) (h : Keeps a s) : KeepsX a
    (execTsStatsRead t p s) := by
  unfold execTsStatsRead; try dsimp only
  with_reducible repeat' first | assumption | refine keeps_runPacket _ _ _ _ ?_ ?_ | exact keeps_specTsStatsRead

theorem keeps_execQueueStatsSample {a : State} (t : Ticks) (s : State) (h : Keeps a s) : KeepsX a
    (execQueueStatsSample t s) := by
  unfold execQueueStatsSample; try dsimp only
  with_reducible repeat' first
      | assumption | refine keeps_whenRunning _ _ _ ?_ ?_ | refine keeps_sampleQueue _ _ ?_
      | refine keeps_forAll _ _ _ ?_ ?_ | intro _ | refine keeps_ite ?_ ?_ | simp only [keeps_mk]
      | refine keepsAll_of ?_

theorem keeps_execPortTxSelect {a : State} (t : Ticks) (port : Nat) (s : State) (h : Keeps a s) : KeepsX a
    (execPortTxSelect t port s) := by
  unfold execPortTxSelect; try dsimp only
  with_reducible repeat' first
      | assumption | refine keeps_whenRunning _ _ _ ?_ ?_ | refine keeps_portSelect _ _ ?_ | intro _
      | refine keeps_ite ?_ ?_

/-! ### Arrivals -/

theorem keeps_catalogue1 : ∀ sp ∈ catalogue1, KeepsC sp :=
  List.forall_mem_cons.2 ⟨keeps_specNop, List.forall_mem_cons.2 ⟨keeps_specGetIdentity, List.forall_mem_cons.2
    ⟨keeps_specQueryUnit, List.forall_mem_cons.2 ⟨keeps_specReconcile, List.forall_mem_cons.2 ⟨keeps_specCancelTimed,
    List.forall_mem_cons.2 ⟨keeps_specAssign, List.forall_mem_cons.2 ⟨keeps_specQueryOwner, List.forall_mem_cons.2
    ⟨keeps_specGetFirmware, List.forall_mem_cons.2 ⟨keeps_specSurfaceCreate, List.forall_mem_cons.2
    ⟨keeps_specSurfaceDestroy, List.forall_mem_cons.2 ⟨keeps_specSurfaceQuery, List.forall_mem_cons.2
    ⟨keeps_specSlotPublish, List.forall_mem_cons.2 ⟨keeps_specSurfaceSetSharing, List.forall_mem_cons.2
    ⟨keeps_specMemQuery, List.forall_mem_cons.2 ⟨keeps_specGatelistLoad, List.forall_mem_cons.2
    ⟨keeps_specGatelistArm, List.forall_mem_cons.2 ⟨keeps_specGatelistQuery, List.forall_mem_cons.2
    ⟨keeps_specShaperSet, List.forall_mem_cons.2 ⟨keeps_specLeadSet, List.forall_mem_cons.2 ⟨keeps_specAdmitCheck,
    List.forall_mem_cons.2 ⟨keeps_specDemandQuery, List.forall_mem_cons.2 ⟨keeps_specLatencyHistRead,
    List.forall_mem_cons.2 ⟨keeps_specSceneSubmit, (List.forall_mem_nil _)⟩⟩⟩⟩⟩⟩⟩⟩⟩⟩⟩⟩⟩⟩⟩⟩⟩⟩⟩⟩⟩⟩⟩

theorem keeps_catalogue2 : ∀ sp ∈ catalogue2, KeepsC sp :=
  List.forall_mem_cons.2 ⟨keeps_specSceneCommit, List.forall_mem_cons.2 ⟨keeps_specPaneUpdate, List.forall_mem_cons.2
    ⟨keeps_specSceneQuery, List.forall_mem_cons.2 ⟨keeps_specFallbackSet, List.forall_mem_cons.2
    ⟨keeps_specPaneCountersRead, List.forall_mem_cons.2 ⟨keeps_specCoefBankLoad, List.forall_mem_cons.2
    ⟨keeps_specItfLutLoad, List.forall_mem_cons.2 ⟨keeps_specLut3dLoad, List.forall_mem_cons.2
    ⟨keeps_specOutputColourSet, List.forall_mem_cons.2 ⟨keeps_specRasterTimingSet, List.forall_mem_cons.2
    ⟨keeps_specRasterStart, List.forall_mem_cons.2 ⟨keeps_specRasterStop, List.forall_mem_cons.2
    ⟨keeps_specSinkAttach, List.forall_mem_cons.2 ⟨keeps_specSinkDetach, List.forall_mem_cons.2 ⟨keeps_specStrikeArm,
    List.forall_mem_cons.2 ⟨keeps_specStrikeCancel, List.forall_mem_cons.2 ⟨keeps_specDpPortConfig,
    List.forall_mem_cons.2 ⟨keeps_specRasterBind, List.forall_mem_cons.2 ⟨keeps_specRasterQuery,
    List.forall_mem_cons.2 ⟨keeps_specCrystalUnlock, List.forall_mem_cons.2 ⟨keeps_specCrystalPaneSet,
    List.forall_mem_cons.2 ⟨keeps_specCrystalExpectSet, List.forall_mem_cons.2 ⟨keeps_specCrystalLock,
    (List.forall_mem_nil _)⟩⟩⟩⟩⟩⟩⟩⟩⟩⟩⟩⟩⟩⟩⟩⟩⟩⟩⟩⟩⟩⟩⟩

theorem keeps_catalogue3 : ∀ sp ∈ catalogue3, KeepsC sp :=
  List.forall_mem_cons.2 ⟨keeps_specCrystalKeyProvision, List.forall_mem_cons.2 ⟨keeps_specPortConfig,
    List.forall_mem_cons.2 ⟨keeps_specIngestFlowSet, List.forall_mem_cons.2 ⟨keeps_specEgressFlowSet,
    List.forall_mem_cons.2 ⟨keeps_specMcastJoin, List.forall_mem_cons.2 ⟨keeps_specMcastLeave, List.forall_mem_cons.2
    ⟨keeps_specFstSubscribe, List.forall_mem_cons.2 ⟨keeps_specFstUnsubscribe, List.forall_mem_cons.2
    ⟨keeps_specFlowQuery, List.forall_mem_cons.2 ⟨keeps_specQueueShaperSet, List.forall_mem_cons.2
    ⟨keeps_specQbvListLoad, List.forall_mem_cons.2 ⟨keeps_specQbvListArm, List.forall_mem_cons.2 ⟨keeps_specMeterSet,
    List.forall_mem_cons.2 ⟨keeps_specTsStatsRead, List.forall_mem_cons.2 ⟨keeps_specLinkConfig,
    List.forall_mem_cons.2 ⟨keeps_specNodeEnumerate, List.forall_mem_cons.2 ⟨keeps_specPtpConfig,
    List.forall_mem_cons.2 ⟨keeps_specTimeQuery, List.forall_mem_cons.2 ⟨keeps_specBeatCalibrate,
    List.forall_mem_cons.2 ⟨keeps_specSurfaceTransfer, List.forall_mem_cons.2 ⟨keeps_specRouteQuery,
    List.forall_mem_cons.2 ⟨keeps_specBlitCopy, List.forall_mem_cons.2 ⟨keeps_specBlitFill, (List.forall_mem_nil
    _)⟩⟩⟩⟩⟩⟩⟩⟩⟩⟩⟩⟩⟩⟩⟩⟩⟩⟩⟩⟩⟩⟩⟩

theorem keeps_catalogue4 : ∀ sp ∈ catalogue4, KeepsC sp :=
  List.forall_mem_cons.2 ⟨keeps_specBlitBlend, List.forall_mem_cons.2 ⟨keeps_specBlitConvert, List.forall_mem_cons.2
    ⟨keeps_specBlitMaskExpand, List.forall_mem_cons.2 ⟨keeps_specBlitListRun, List.forall_mem_cons.2
    ⟨keeps_specBlitDeadtimeSet, List.forall_mem_cons.2 ⟨keeps_specHdChannelConfig, List.forall_mem_cons.2
    ⟨keeps_specHdStart, List.forall_mem_cons.2 ⟨keeps_specHdAbort, List.forall_mem_cons.2 ⟨keeps_specHdQuery,
    List.forall_mem_cons.2 ⟨keeps_specEventRoute, List.forall_mem_cons.2 ⟨keeps_specEventQuery, List.forall_mem_cons.2
    ⟨keeps_specEventSoftSet, List.forall_mem_cons.2 ⟨keeps_specPowerStateSet, List.forall_mem_cons.2
    ⟨keeps_specUnitReset, List.forall_mem_cons.2 ⟨keeps_specDeviceReset, List.forall_mem_cons.2
    ⟨keeps_specLoopWindowSet, List.forall_mem_cons.2 ⟨keeps_specShedMaskSet, List.forall_mem_cons.2
    ⟨keeps_specPmuQuery, List.forall_mem_cons.2 ⟨keeps_specRetirementQuery, List.forall_mem_cons.2
    ⟨keeps_specRetirementClear, List.forall_mem_cons.2 ⟨keeps_specLtrRead, List.forall_mem_cons.2
    ⟨keeps_specLtrCheckpoint, List.forall_mem_cons.2 ⟨keeps_specEccLogRead, (List.forall_mem_nil
    _)⟩⟩⟩⟩⟩⟩⟩⟩⟩⟩⟩⟩⟩⟩⟩⟩⟩⟩⟩⟩⟩⟩⟩

theorem keeps_specOf {op : Nat} {sp : CmdSpec} (e : specOf op = some sp) : KeepsC sp := by
  have h : sp ∈ catalogue := List.mem_of_find?_eq_some e
  unfold catalogue at h
  simp only [List.mem_append] at h
  rcases h with ((h | h) | h) | h
  · exact keeps_catalogue1 sp h
  · exact keeps_catalogue2 sp h
  · exact keeps_catalogue3 sp h
  · exact keeps_catalogue4 sp h

theorem keeps_beginTimed {a : State} (env : Env) (x : Timed) (s : State) (h : Keeps a s) : KeepsO a
    (beginTimed env x s) := by
  unfold beginTimed; try dsimp only
  with_reducible repeat' first
      | assumption | refine keeps_executeNow _ _ _ _ ?_ ?_ | refine keeps_finish _ _ _ _ _ ?_ | refine keepsO_some ?_
      | simp only [keeps_mk] | refine keepsAll_of ?_ | exact keeps_specOf (by assumption) | split

theorem keeps_runDue {a : State} (env : Env) (s : State) (h : Keeps a s) : Keeps a (runDue env s) := by
  unfold runDue
  split
  · exact h
  · rename_i x s' e
    have h1 : Keeps a s' := by
      obtain ⟨y, _, e⟩ := List.exists_of_findSome?_eq_some e
      cases hb : beginTimed env y (noteLevel s) with
      | none =>
        rw [hb] at e
        exact absurd e (by simp)
      | some z =>
        rw [hb] at e
        simp only [Option.map_some, Option.some.injEq, Prod.mk.injEq] at e
        obtain ⟨_, rfl⟩ := e
        exact keeps_beginTimed env y _ (keeps_noteLevel _ h) _ hb
    exact keeps_settlePair _ _ h1

theorem keeps_execTimedPacketDue {a : State} (t : Ticks) (env : Env) (s : State) (h : Keeps a s) : KeepsX a
    (execTimedPacketDue t env s) := by
  unfold execTimedPacketDue; try dsimp only
  with_reducible repeat' first
      | assumption | refine keeps_whenRunning _ _ _ ?_ ?_ | refine keeps_runDue _ _ ?_ | intro _

theorem keeps_enqueueRouted {a : State} (e : Entry) (s : State) (h : Keeps a s) : Keeps a (enqueueRouted e s) := by
  unfold enqueueRouted; try dsimp only
  with_reducible repeat' first
      | assumption | refine keeps_noteLevel _ ?_ | simp only [keeps_mk] | refine keepsAll_of ?_

theorem keeps_routedRequest {a : State} (op : Nat) (p : Packet) (s : State) (h : Keeps a s) : Keeps a
    (routedRequest op p s) := by
  unfold routedRequest; try dsimp only
  with_reducible repeat' first
      | assumption | refine keeps_finish _ _ _ _ _ ?_ | refine keeps_enqueueRouted _ _ ?_
      | refine keeps_atDestination _ _ _ ?_ ?_ | refine keeps_holdPacket _ _ _ ?_ ?_
      | refine keepsO_use (by assumption) ?_ | refine keeps_ite ?_ ?_ | exact keeps_specOf (by assumption) | split

theorem keeps_takeMessage {a : State} (m : CmdMsg) (s : State) (h : Keeps a s) : Keeps a (takeMessage m s) := by
  unfold takeMessage; try dsimp only
  with_reducible repeat' first
      | assumption | refine keeps_routedRequest _ _ _ ?_ | refine keeps_routedReply _ _ _ _ _ _ _ _ ?_
      | refine keeps_takeId _ _ _ _ _ _ ?_ | refine keeps_flushWaiting _ _ _ _ ?_ | refine keeps_takeLinks _ _ _ ?_
      | refine keeps_xferAnswered _ _ _ _ _ _ ?_ | refine keeps_stageRate _ _ _ _ ?_ | refine keeps_flrItems _ _ _ ?_
      | refine keeps_ite ?_ ?_ | split

theorem keeps_execCmdFlitRx {a : State} (t : Ticks) (x : FlitRx) (m : Option CmdMsg) (s : State) (h : Keeps a s)
    : KeepsX a (execCmdFlitRx t x m s) := by
  unfold execCmdFlitRx; try dsimp only
  with_reducible repeat' first
      | assumption | refine keeps_whenRunning _ _ _ ?_ ?_ | refine keeps_flitRx _ _ _ _ ?_ ?_
      | refine keeps_takeMessage _ _ ?_ | intro _ | split

end Sys2Proof.Laws
end

