-- ==== Sys2Proof/Laws/Packets.lean ====
section
/-! SUPPORT. Packets that run: what `runPacket` answers for each result of the opcode's own part, so that no proof
about an opcode unfolds the taking of a packet. -/
namespace Sys2Proof.Laws
open Sys2Proof Sys2Proof.Machine

theorem takeEntry_pkt {op : Nat} {p : Packet} {s : State} {e : Entry} {s0 : State}
    (h : takeEntry op p s = some (e, s0)) : e.pkt = p := by
  unfold takeEntry at h
  split at h
  · cases h
  · split at h
    · cases h
      rfl
    · split at h
      · cases h
      · split at h
        · cases h
          rfl
        · cases h

theorem atReceiver_of_stays {p : Packet} {e : Entry} {s : State} (here : State → Option State) (he : e.pkt = p)
    (h : stays p s = true) (ho : p.origin.isSome = false) : atReceiver e here s = here (readBlock p s) := by
  unfold stays at h
  simp only [ho, Bool.false_or, Bool.and_eq_true, Bool.not_eq_true'] at h
  obtain ⟨⟨h1, h2⟩, h3⟩ := h
  unfold atReceiver
  simp only [he, h1, h2, h3, Bool.not_true, Bool.false_and, if_false, if_true, Bool.false_eq_true]

/-- A packet that passes checks 1 to 4, or that passed them at its origin, goes on to its destination here. -/
theorem runTaken_of_stays {sp : CmdSpec} {p : Packet} {e : Entry} {s : State} (he : e.pkt = p) (h : stays p s = true) :
    runTaken sp e s = atDestination sp e (readBlock p s) := by
  unfold runTaken
  cases ho : p.origin.isSome
  · rw [he, if_neg (by simp [ho]), atReceiver_of_stays _ he h ho]
  · have hb : readBlock p s = s := by
      unfold readBlock
      rw [if_neg]
      cases hx : p.origin <;> simp_all
    rw [he, if_pos ho, hb]

/-- A packet that is taken goes on to the checks of R74. -/
theorem runPacket_of_taken {sp : CmdSpec} {t : Ticks} {p : Packet} {s : State} {e : Entry} {s0 : State}
    (h : Taken sp.opcode t p s e s0) :
    runPacket sp t p s = .next (afterwards p (match runTaken sp e s0 with
      | some s' => s'
      | none => holdPacket sp e (readBlock p s0))) := by
  obtain ⟨h1, h2, h3, h4⟩ := h
  unfold runPacket
  simp only
  rw [if_neg (by cases ho : p.origin <;> simp_all), h3, h4]
  rfl

/-- A packet that runs goes on to the action of its opcode. -/
theorem runPacket_of_runs {sp : CmdSpec} {t : Ticks} {p : Packet} {s : State} {e : Entry} {s0 : State}
    (h : Runs sp t p s e s0) :
    runPacket sp t p s = .next (afterwards p (match executeNow sp e false s0 with
      | some s' => s'
      | none => holdPacket sp e s0)) := by
  obtain ⟨s1, h1, h2, h3, rfl, _⟩ := h
  have hp := takeEntry_pkt h1.2.2.2
  rw [runPacket_of_taken h1, runTaken_of_stays hp h2]
  unfold atDestination
  rw [hp, if_neg (by simp [h3])]

theorem runs_pkt {sp : CmdSpec} {t : Ticks} {p : Packet} {s : State} {e : Entry} {s0 : State}
    (h : Runs sp t p s e s0) : e.pkt = p := by
  obtain ⟨s1, h1, _⟩ := h
  exact takeEntry_pkt h1.2.2.2

theorem runs_begins {sp : CmdSpec} {t : Ticks} {p : Packet} {s : State} {e : Entry} {s0 : State}
    (h : Runs sp t p s e s0) : begins sp e s0 = true := by
  obtain ⟨s1, _, _, _, _, h1⟩ := h
  exact h1

/-- A packet that begins reaches the opcode's own part. -/
theorem executeNow_of_begins {sp : CmdSpec} {p : Packet} {e : Entry} {s : State} (he : e.pkt = p)
    (h : begins sp e s = true) :
    executeNow sp e false s = match sp.body p s with
      | .ok r0 r1 s' => some (finish e 0 r0 r1 s')
      | .fail st r0 r1 => some (finish e st r0 r1 s)
      | .done st r0 r1 s' => some (finish e st r0 r1 s')
      | .pend u s' => some { s' with cp := { s'.cp with inflight := s'.cp.inflight ++ [⟨e, u, false⟩] } }
      | .keep f => some (f e false)
      | .wait => none := by
  unfold begins mustWait at h
  simp only [Bool.and_eq_true, Bool.not_eq_true', Bool.and_eq_false_iff, beq_eq_false_iff_ne, ne_eq] at h
  obtain ⟨⟨⟨h1, h2⟩, h3⟩, h4⟩ := h
  unfold executeNow executeBehind
  rw [if_neg (by
    simp only [Bool.and_eq_true, decide_eq_true_eq, Bool.not_eq_true', not_and]
    rcases h1 with h1 | h1
    · exact fun hc => absurd hc h1
    · simp_all), if_neg (by simp [h2]), if_neg (by simp [h3]), if_neg (by simp [h4]), he]
  cases sp.body p s <;> simp [lateStatus]

variable {sp : CmdSpec} {t : Ticks} {p : Packet} {s s0 s' : State} {e : Entry} {r0 r1 : Option Nat}

/-- The opcode's own part completes with OK. -/
theorem run_ok (h : Runs sp t p s e s0) (hb : sp.body p s0 = .ok r0 r1 s') :
    runPacket sp t p s = answers p e 0 r0 r1 s' := by
  rw [runPacket_of_runs h, executeNow_of_begins (runs_pkt h) (runs_begins h), hb]
  rfl

/-- The opcode's own part fails and changes nothing. -/
theorem run_fail {st : Nat} (h : Runs sp t p s e s0) (hb : sp.body p s0 = .fail st r0 r1) :
    runPacket sp t p s = answers p e st r0 r1 s0 := by
  rw [runPacket_of_runs h, executeNow_of_begins (runs_pkt h) (runs_begins h), hb]
  rfl

/-- The opcode's own part completes with a status after changing the state. -/
theorem run_done {st : Nat} (h : Runs sp t p s e s0) (hb : sp.body p s0 = .done st r0 r1 s') :
    runPacket sp t p s = answers p e st r0 r1 s' := by
  rw [runPacket_of_runs h, executeNow_of_begins (runs_pkt h) (runs_begins h), hb]
  rfl

/-- The packet is carried out over later steps. -/
theorem run_pend {u : Nat} (h : Runs sp t p s e s0) (hb : sp.body p s0 = .pend u s') :
    runPacket sp t p s = pends p e u s' := by
  rw [runPacket_of_runs h, executeNow_of_begins (runs_pkt h) (runs_begins h), hb]
  rfl

/-- A unit keeps the packet. -/
theorem run_keep {f : Entry → Bool → State} (h : Runs sp t p s e s0) (hb : sp.body p s0 = .keep f) :
    runPacket sp t p s = .next (afterwards p (f e false)) := by
  rw [runPacket_of_runs h, executeNow_of_begins (runs_pkt h) (runs_begins h), hb]

/-- A check of an opcode that holds. -/
@[simp] theorem require_true (x k : Res) : require true x k = k := rfl
theorem require_of {c : Bool} (h : c = true) (x k : Res) : require c x k = k := by
  rw [h]
  rfl

/-- A record goes to a buffer that can be written. -/
theorem withBuf_ok {buf align : Nat} {optional : Bool} (h : bufferOk p s buf align optional = true)
    (bytes : List Byte) (r0 r1 : Option Nat) :
    withBuf p s buf align optional bytes (fun w => .ok r0 r1 (w s))
      = .ok r0 r1 (bufferWrite p buf optional bytes s) := by
  unfold bufferOk at h
  unfold withBuf bufferWrite
  by_cases h1 : (optional && buf == 0) = true
  · rw [if_pos h1, if_pos h1]
    rfl
  · rw [if_neg h1, if_neg h1]
    simp only [Bool.not_eq_true] at h1
    rw [h1] at h
    simp only [Bool.false_or, Bool.and_eq_true, beq_iff_eq, Bool.not_eq_true'] at h
    rw [if_neg (by simp [h.1]), if_neg (by simp [h.2])]

/-- Data come from a buffer that can be read. -/
theorem withData_ok {buf align : Nat} (h : bufferOk p s buf align false = true) (n : Nat) (k : List Byte → Res) :
    withData p s buf align n k = k (fitBytes n p.env.data) := by
  unfold bufferOk at h
  simp only [Bool.false_and, Bool.false_or, Bool.and_eq_true, beq_iff_eq, Bool.not_eq_true'] at h
  unfold withData
  rw [if_neg (by simp [h.1]), if_neg (by simp [h.2])]

end Sys2Proof.Laws
end

