-- ==== Sys2Proof/Laws/PerInstr.lean ====
section
/-! SUPPORT. What holds of each command of the table as syntax: no word spells it, for no row of the opcode table gives
encoding bits. -/
namespace Sys2Proof.Laws
open Sys2Proof

/-- No word of any length spells the command. -/
def Command.Statement (i : Instr) : Prop := ∀ nbits w, decodeTableWord nbits w ≠ some i

theorem Command.nop a0 a1 : Command.Statement (.nop a0 a1) := fun _ _ h => nomatch h
theorem Command.getIdentity a0 a1 : Command.Statement (.getIdentity a0 a1) := fun _ _ h => nomatch h
theorem Command.queryUnit a0 a1 : Command.Statement (.queryUnit a0 a1) := fun _ _ h => nomatch h
theorem Command.reconcile a0 a1 : Command.Statement (.reconcile a0 a1) := fun _ _ h => nomatch h
theorem Command.cancelTimed a0 a1 : Command.Statement (.cancelTimed a0 a1) := fun _ _ h => nomatch h
theorem Command.assign a0 a1 : Command.Statement (.assign a0 a1) := fun _ _ h => nomatch h
theorem Command.queryOwner a0 a1 : Command.Statement (.queryOwner a0 a1) := fun _ _ h => nomatch h
theorem Command.getFirmware a0 a1 : Command.Statement (.getFirmware a0 a1) := fun _ _ h => nomatch h
theorem Command.surfaceCreate a0 a1 : Command.Statement (.surfaceCreate a0 a1) := fun _ _ h => nomatch h
theorem Command.surfaceDestroy a0 a1 : Command.Statement (.surfaceDestroy a0 a1) := fun _ _ h => nomatch h
theorem Command.surfaceQuery a0 a1 : Command.Statement (.surfaceQuery a0 a1) := fun _ _ h => nomatch h
theorem Command.slotPublish a0 a1 : Command.Statement (.slotPublish a0 a1) := fun _ _ h => nomatch h
theorem Command.surfaceSetSharing a0 a1 : Command.Statement (.surfaceSetSharing a0 a1) := fun _ _ h => nomatch h
theorem Command.memQuery a0 a1 : Command.Statement (.memQuery a0 a1) := fun _ _ h => nomatch h
theorem Command.gatelistLoad a0 a1 : Command.Statement (.gatelistLoad a0 a1) := fun _ _ h => nomatch h
theorem Command.gatelistArm a0 a1 : Command.Statement (.gatelistArm a0 a1) := fun _ _ h => nomatch h
theorem Command.gatelistQuery a0 a1 : Command.Statement (.gatelistQuery a0 a1) := fun _ _ h => nomatch h
theorem Command.shaperSet a0 a1 : Command.Statement (.shaperSet a0 a1) := fun _ _ h => nomatch h
theorem Command.leadSet a0 a1 : Command.Statement (.leadSet a0 a1) := fun _ _ h => nomatch h
theorem Command.admitCheck a0 a1 : Command.Statement (.admitCheck a0 a1) := fun _ _ h => nomatch h
theorem Command.demandQuery a0 a1 : Command.Statement (.demandQuery a0 a1) := fun _ _ h => nomatch h
theorem Command.latencyHistRead a0 a1 : Command.Statement (.latencyHistRead a0 a1) := fun _ _ h => nomatch h
theorem Command.sceneSubmit a0 a1 : Command.Statement (.sceneSubmit a0 a1) := fun _ _ h => nomatch h
theorem Command.sceneCommit a0 a1 : Command.Statement (.sceneCommit a0 a1) := fun _ _ h => nomatch h
theorem Command.paneUpdate a0 a1 : Command.Statement (.paneUpdate a0 a1) := fun _ _ h => nomatch h
theorem Command.sceneQuery a0 a1 : Command.Statement (.sceneQuery a0 a1) := fun _ _ h => nomatch h
theorem Command.fallbackSet a0 a1 : Command.Statement (.fallbackSet a0 a1) := fun _ _ h => nomatch h
theorem Command.paneCountersRead a0 a1 : Command.Statement (.paneCountersRead a0 a1) := fun _ _ h => nomatch h
theorem Command.coefBankLoad a0 a1 : Command.Statement (.coefBankLoad a0 a1) := fun _ _ h => nomatch h
theorem Command.itfLutLoad a0 a1 : Command.Statement (.itfLutLoad a0 a1) := fun _ _ h => nomatch h
theorem Command.lut3dLoad a0 a1 : Command.Statement (.lut3dLoad a0 a1) := fun _ _ h => nomatch h
theorem Command.outputColourSet a0 a1 : Command.Statement (.outputColourSet a0 a1) := fun _ _ h => nomatch h
theorem Command.rasterTimingSet a0 a1 : Command.Statement (.rasterTimingSet a0 a1) := fun _ _ h => nomatch h
theorem Command.rasterStart a0 a1 : Command.Statement (.rasterStart a0 a1) := fun _ _ h => nomatch h
theorem Command.rasterStop a0 a1 : Command.Statement (.rasterStop a0 a1) := fun _ _ h => nomatch h
theorem Command.sinkAttach a0 a1 : Command.Statement (.sinkAttach a0 a1) := fun _ _ h => nomatch h
theorem Command.sinkDetach a0 a1 : Command.Statement (.sinkDetach a0 a1) := fun _ _ h => nomatch h
theorem Command.strikeArm a0 a1 : Command.Statement (.strikeArm a0 a1) := fun _ _ h => nomatch h
theorem Command.strikeCancel a0 a1 : Command.Statement (.strikeCancel a0 a1) := fun _ _ h => nomatch h
theorem Command.dpPortConfig a0 a1 : Command.Statement (.dpPortConfig a0 a1) := fun _ _ h => nomatch h
theorem Command.rasterBind a0 a1 : Command.Statement (.rasterBind a0 a1) := fun _ _ h => nomatch h
theorem Command.rasterQuery a0 a1 : Command.Statement (.rasterQuery a0 a1) := fun _ _ h => nomatch h
theorem Command.crystalUnlock a0 a1 : Command.Statement (.crystalUnlock a0 a1) := fun _ _ h => nomatch h
theorem Command.crystalPaneSet a0 a1 : Command.Statement (.crystalPaneSet a0 a1) := fun _ _ h => nomatch h
theorem Command.crystalExpectSet a0 a1 : Command.Statement (.crystalExpectSet a0 a1) := fun _ _ h => nomatch h
theorem Command.crystalLock a0 a1 : Command.Statement (.crystalLock a0 a1) := fun _ _ h => nomatch h
theorem Command.crystalKeyProvision a0 a1 : Command.Statement (.crystalKeyProvision a0 a1) := fun _ _ h => nomatch h
theorem Command.portConfig a0 a1 : Command.Statement (.portConfig a0 a1) := fun _ _ h => nomatch h
theorem Command.ingestFlowSet a0 a1 : Command.Statement (.ingestFlowSet a0 a1) := fun _ _ h => nomatch h
theorem Command.egressFlowSet a0 a1 : Command.Statement (.egressFlowSet a0 a1) := fun _ _ h => nomatch h
theorem Command.mcastJoin a0 a1 : Command.Statement (.mcastJoin a0 a1) := fun _ _ h => nomatch h
theorem Command.mcastLeave a0 a1 : Command.Statement (.mcastLeave a0 a1) := fun _ _ h => nomatch h
theorem Command.fstSubscribe a0 a1 : Command.Statement (.fstSubscribe a0 a1) := fun _ _ h => nomatch h
theorem Command.fstUnsubscribe a0 a1 : Command.Statement (.fstUnsubscribe a0 a1) := fun _ _ h => nomatch h
theorem Command.flowQuery a0 a1 : Command.Statement (.flowQuery a0 a1) := fun _ _ h => nomatch h
theorem Command.queueShaperSet a0 a1 : Command.Statement (.queueShaperSet a0 a1) := fun _ _ h => nomatch h
theorem Command.qbvListLoad a0 a1 : Command.Statement (.qbvListLoad a0 a1) := fun _ _ h => nomatch h
theorem Command.qbvListArm a0 a1 : Command.Statement (.qbvListArm a0 a1) := fun _ _ h => nomatch h
theorem Command.meterSet a0 a1 : Command.Statement (.meterSet a0 a1) := fun _ _ h => nomatch h
theorem Command.tsStatsRead a0 a1 : Command.Statement (.tsStatsRead a0 a1) := fun _ _ h => nomatch h
theorem Command.linkConfig a0 a1 : Command.Statement (.linkConfig a0 a1) := fun _ _ h => nomatch h
theorem Command.nodeEnumerate a0 a1 : Command.Statement (.nodeEnumerate a0 a1) := fun _ _ h => nomatch h
theorem Command.ptpConfig a0 a1 : Command.Statement (.ptpConfig a0 a1) := fun _ _ h => nomatch h
theorem Command.timeQuery a0 a1 : Command.Statement (.timeQuery a0 a1) := fun _ _ h => nomatch h
theorem Command.beatCalibrate a0 a1 : Command.Statement (.beatCalibrate a0 a1) := fun _ _ h => nomatch h
theorem Command.surfaceTransfer a0 a1 : Command.Statement (.surfaceTransfer a0 a1) := fun _ _ h => nomatch h
theorem Command.routeQuery a0 a1 : Command.Statement (.routeQuery a0 a1) := fun _ _ h => nomatch h
theorem Command.blitCopy a0 a1 : Command.Statement (.blitCopy a0 a1) := fun _ _ h => nomatch h
theorem Command.blitFill a0 a1 : Command.Statement (.blitFill a0 a1) := fun _ _ h => nomatch h
theorem Command.blitBlend a0 a1 : Command.Statement (.blitBlend a0 a1) := fun _ _ h => nomatch h
theorem Command.blitConvert a0 a1 : Command.Statement (.blitConvert a0 a1) := fun _ _ h => nomatch h
theorem Command.blitMaskExpand a0 a1 : Command.Statement (.blitMaskExpand a0 a1) := fun _ _ h => nomatch h
theorem Command.blitListRun a0 a1 : Command.Statement (.blitListRun a0 a1) := fun _ _ h => nomatch h
theorem Command.blitDeadtimeSet a0 a1 : Command.Statement (.blitDeadtimeSet a0 a1) := fun _ _ h => nomatch h
theorem Command.hdChannelConfig a0 a1 : Command.Statement (.hdChannelConfig a0 a1) := fun _ _ h => nomatch h
theorem Command.hdStart a0 a1 : Command.Statement (.hdStart a0 a1) := fun _ _ h => nomatch h
theorem Command.hdAbort a0 a1 : Command.Statement (.hdAbort a0 a1) := fun _ _ h => nomatch h
theorem Command.hdQuery a0 a1 : Command.Statement (.hdQuery a0 a1) := fun _ _ h => nomatch h
theorem Command.eventRoute a0 a1 : Command.Statement (.eventRoute a0 a1) := fun _ _ h => nomatch h
theorem Command.eventQuery a0 a1 : Command.Statement (.eventQuery a0 a1) := fun _ _ h => nomatch h
theorem Command.eventSoftSet a0 a1 : Command.Statement (.eventSoftSet a0 a1) := fun _ _ h => nomatch h
theorem Command.powerStateSet a0 a1 : Command.Statement (.powerStateSet a0 a1) := fun _ _ h => nomatch h
theorem Command.unitReset a0 a1 : Command.Statement (.unitReset a0 a1) := fun _ _ h => nomatch h
theorem Command.deviceReset a0 a1 : Command.Statement (.deviceReset a0 a1) := fun _ _ h => nomatch h
theorem Command.loopWindowSet a0 a1 : Command.Statement (.loopWindowSet a0 a1) := fun _ _ h => nomatch h
theorem Command.shedMaskSet a0 a1 : Command.Statement (.shedMaskSet a0 a1) := fun _ _ h => nomatch h
theorem Command.pmuQuery a0 a1 : Command.Statement (.pmuQuery a0 a1) := fun _ _ h => nomatch h
theorem Command.retirementQuery a0 a1 : Command.Statement (.retirementQuery a0 a1) := fun _ _ h => nomatch h
theorem Command.retirementClear a0 a1 : Command.Statement (.retirementClear a0 a1) := fun _ _ h => nomatch h
theorem Command.ltrRead a0 a1 : Command.Statement (.ltrRead a0 a1) := fun _ _ h => nomatch h
theorem Command.ltrCheckpoint a0 a1 : Command.Statement (.ltrCheckpoint a0 a1) := fun _ _ h => nomatch h
theorem Command.eccLogRead a0 a1 : Command.Statement (.eccLogRead a0 a1) := fun _ _ h => nomatch h
theorem Command.queueEnable a0 a1 a2 a3 : Command.Statement (.queueEnable a0 a1 a2 a3) := fun _ _ h => nomatch h
theorem Command.queueDisable a0 a1 a2 a3 : Command.Statement (.queueDisable a0 a1 a2 a3) := fun _ _ h => nomatch h
theorem Command.queueFlush a0 a1 a2 a3 : Command.Statement (.queueFlush a0 a1 a2 a3) := fun _ _ h => nomatch h
theorem Command.flushBoundary a0 a1 a2 : Command.Statement (.flushBoundary a0 a1 a2) := fun _ _ h => nomatch h
theorem Command.submitDoorbell a0 a1 a2 a3 : Command.Statement (.submitDoorbell a0 a1 a2 a3) := fun _ _ h => nomatch h
theorem Command.replyDoorbell a0 a1 a2 a3 : Command.Statement (.replyDoorbell a0 a1 a2 a3) := fun _ _ h => nomatch h
theorem Command.cpEntryCopy a0 a1 a2 a3 : Command.Statement (.cpEntryCopy a0 a1 a2 a3) := fun _ _ h => nomatch h
theorem Command.creditOnlyReply a0 a1 a2 : Command.Statement (.creditOnlyReply a0 a1 a2) := fun _ _ h => nomatch h
theorem Command.ringFault a0 a1 a2 a3 : Command.Statement (.ringFault a0 a1 a2 a3) := fun _ _ h => nomatch h
theorem Command.timedPacketDue a0 a1 : Command.Statement (.timedPacketDue a0 a1) := fun _ _ h => nomatch h
theorem Command.routeForward a0 a1 a2 : Command.Statement (.routeForward a0 a1 a2) := fun _ _ h => nomatch h
theorem Command.routeTimeout a0 : Command.Statement (.routeTimeout a0) := fun _ _ h => nomatch h
theorem Command.cmdFlitRx a0 a1 a2 : Command.Statement (.cmdFlitRx a0 a1 a2) := fun _ _ h => nomatch h
theorem Command.registerWrite a0 a1 a2 a3 a4 : Command.Statement (.registerWrite a0 a1 a2 a3 a4) := fun _ _ h => nomatch h
theorem Command.rcRegisterRead a0 a1 a2 a3 : Command.Statement (.rcRegisterRead a0 a1 a2 a3) := fun _ _ h => nomatch h
theorem Command.pairLowRead a0 a1 a2 a3 : Command.Statement (.pairLowRead a0 a1 a2 a3) := fun _ _ h => nomatch h
theorem Command.pairHighRead a0 a1 a2 a3 : Command.Statement (.pairHighRead a0 a1 a2 a3) := fun _ _ h => nomatch h
theorem Command.evcClaim a0 a1 a2 : Command.Statement (.evcClaim a0 a1 a2) := fun _ _ h => nomatch h
theorem Command.evcComplete a0 a1 a2 a3 : Command.Statement (.evcComplete a0 a1 a2 a3) := fun _ _ h => nomatch h
theorem Command.evcTargetHold a0 a1 a2 a3 : Command.Statement (.evcTargetHold a0 a1 a2 a3) := fun _ _ h => nomatch h
theorem Command.evcTargetIdle a0 a1 a2 a3 : Command.Statement (.evcTargetIdle a0 a1 a2 a3) := fun _ _ h => nomatch h
theorem Command.evcGlobalHold a0 a1 a2 : Command.Statement (.evcGlobalHold a0 a1 a2) := fun _ _ h => nomatch h
theorem Command.evcSwsetWrite a0 a1 a2 : Command.Statement (.evcSwsetWrite a0 a1 a2) := fun _ _ h => nomatch h
theorem Command.msixEntryUnmask a0 a1 a2 : Command.Statement (.msixEntryUnmask a0 a1 a2) := fun _ _ h => nomatch h
theorem Command.busMasterEnableChange a0 a1 a2 : Command.Statement (.busMasterEnableChange a0 a1 a2) := fun _ _ h => nomatch h
theorem Command.vfEnableSet a0 a1 a2 : Command.Statement (.vfEnableSet a0 a1 a2) := fun _ _ h => nomatch h
theorem Command.vfEnableClear a0 : Command.Statement (.vfEnableClear a0) := fun _ _ h => nomatch h
theorem Command.evcEdge a0 a1 : Command.Statement (.evcEdge a0 a1) := fun _ _ h => nomatch h
theorem Command.evcLevelChange a0 a1 a2 : Command.Statement (.evcLevelChange a0 a1 a2) := fun _ _ h => nomatch h
theorem Command.evcDelivery a0 a1 : Command.Statement (.evcDelivery a0 a1) := fun _ _ h => nomatch h
theorem Command.evcNowakeFallback a0 a1 : Command.Statement (.evcNowakeFallback a0 a1) := fun _ _ h => nomatch h
theorem Command.rgCommitWrite a0 a1 a2 a3 : Command.Statement (.rgCommitWrite a0 a1 a2 a3) := fun _ _ h => nomatch h
theorem Command.paneWindowWrite a0 a1 a2 a3 : Command.Statement (.paneWindowWrite a0 a1 a2 a3) := fun _ _ h => nomatch h
theorem Command.blRegListStart a0 a1 a2 : Command.Statement (.blRegListStart a0 a1 a2) := fun _ _ h => nomatch h
theorem Command.blRegListStop a0 a1 a2 : Command.Statement (.blRegListStop a0 a1 a2) := fun _ _ h => nomatch h
theorem Command.hdRegStart a0 a1 a2 : Command.Statement (.hdRegStart a0 a1 a2) := fun _ _ h => nomatch h
theorem Command.hdRegAbort a0 a1 a2 : Command.Statement (.hdRegAbort a0 a1 a2) := fun _ _ h => nomatch h
theorem Command.hdReqsetWrite a0 a1 a2 : Command.Statement (.hdReqsetWrite a0 a1 a2) := fun _ _ h => nomatch h
theorem Command.recoveryPageCommit a0 a1 : Command.Statement (.recoveryPageCommit a0 a1) := fun _ _ h => nomatch h
theorem Command.recoveryPageProgrammed a0 : Command.Statement (.recoveryPageProgrammed a0) := fun _ _ h => nomatch h
theorem Command.recoveryDone a0 a1 a2 : Command.Statement (.recoveryDone a0 a1 a2) := fun _ _ h => nomatch h
theorem Command.bar2Write a0 a1 a2 a3 : Command.Statement (.bar2Write a0 a1 a2 a3) := fun _ _ h => nomatch h
theorem Command.bar2Read a0 a1 a2 a3 : Command.Statement (.bar2Read a0 a1 a2 a3) := fun _ _ h => nomatch h
theorem Command.bar2Atomicop a0 a1 a2 : Command.Statement (.bar2Atomicop a0 a1 a2) := fun _ _ h => nomatch h
theorem Command.flr a0 a1 : Command.Statement (.flr a0 a1) := fun _ _ h => nomatch h
theorem Command.flrRemoteApply a0 a1 a2 : Command.Statement (.flrRemoteApply a0 a1 a2) := fun _ _ h => nomatch h
theorem Command.perstNAssert a0 : Command.Statement (.perstNAssert a0) := fun _ _ h => nomatch h
theorem Command.perstNWake a0 : Command.Statement (.perstNWake a0) := fun _ _ h => nomatch h
theorem Command.hotReset a0 : Command.Statement (.hotReset a0) := fun _ _ h => nomatch h
theorem Command.powerOnReset a0 a1 : Command.Statement (.powerOnReset a0 a1) := fun _ _ h => nomatch h
theorem Command.porRelease a0 a1 : Command.Statement (.porRelease a0 a1) := fun _ _ h => nomatch h
theorem Command.pinReset a0 : Command.Statement (.pinReset a0) := fun _ _ h => nomatch h
theorem Command.wakePin a0 : Command.Statement (.wakePin a0) := fun _ _ h => nomatch h
theorem Command.wakeTimer a0 : Command.Statement (.wakeTimer a0) := fun _ _ h => nomatch h
theorem Command.pfw a0 : Command.Statement (.pfw a0) := fun _ _ h => nomatch h
theorem Command.thermtrip a0 : Command.Statement (.thermtrip a0) := fun _ _ h => nomatch h
theorem Command.refclkLoss a0 : Command.Statement (.refclkLoss a0) := fun _ _ h => nomatch h
theorem Command.pllLockLoss a0 : Command.Statement (.pllLockLoss a0) := fun _ _ h => nomatch h
theorem Command.pcieRefclkLoss a0 : Command.Statement (.pcieRefclkLoss a0) := fun _ _ h => nomatch h
theorem Command.wdogWarn a0 a1 : Command.Statement (.wdogWarn a0 a1) := fun _ _ h => nomatch h
theorem Command.watchdogReset a0 a1 : Command.Statement (.watchdogReset a0 a1) := fun _ _ h => nomatch h
theorem Command.avsUpdate a0 a1 : Command.Statement (.avsUpdate a0 a1) := fun _ _ h => nomatch h
theorem Command.thermalSample a0 a1 : Command.Statement (.thermalSample a0 a1) := fun _ _ h => nomatch h
theorem Command.refreshPoll a0 a1 : Command.Statement (.refreshPoll a0 a1) := fun _ _ h => nomatch h
theorem Command.powerStateDrainEnd a0 : Command.Statement (.powerStateDrainEnd a0) := fun _ _ h => nomatch h
theorem Command.powerStateDrainTimeout a0 : Command.Statement (.powerStateDrainTimeout a0) := fun _ _ h => nomatch h
theorem Command.rasterStartLatch a0 a1 : Command.Statement (.rasterStartLatch a0 a1) := fun _ _ h => nomatch h
theorem Command.rasterFrameStart a0 a1 : Command.Statement (.rasterFrameStart a0 a1) := fun _ _ h => nomatch h
theorem Command.rasterLatch a0 a1 : Command.Statement (.rasterLatch a0 a1) := fun _ _ h => nomatch h
theorem Command.rasterLineStart a0 a1 a2 : Command.Statement (.rasterLineStart a0 a1 a2) := fun _ _ h => nomatch h
theorem Command.indexBuildDone a0 a1 : Command.Statement (.indexBuildDone a0 a1) := fun _ _ h => nomatch h
theorem Command.fsRequestIssue a0 a1 : Command.Statement (.fsRequestIssue a0 a1) := fun _ _ h => nomatch h
theorem Command.fetchDataArrive a0 a1 a2 a3 a4 a5 : Command.Statement (.fetchDataArrive a0 a1 a2 a3 a4 a5) := fun _ _ h => nomatch h
theorem Command.mcgEntryAdvance a0 a1 : Command.Statement (.mcgEntryAdvance a0 a1) := fun _ _ h => nomatch h
theorem Command.gateSwitch a0 a1 : Command.Statement (.gateSwitch a0 a1) := fun _ _ h => nomatch h
theorem Command.divergenceCompare a0 a1 : Command.Statement (.divergenceCompare a0 a1) := fun _ _ h => nomatch h
theorem Command.strikeDecision a0 a1 : Command.Statement (.strikeDecision a0 a1) := fun _ _ h => nomatch h
theorem Command.strikeVoteTime a0 a1 : Command.Statement (.strikeVoteTime a0 a1) := fun _ _ h => nomatch h
theorem Command.strikeVerdictDeadline a0 a1 : Command.Statement (.strikeVerdictDeadline a0 a1) := fun _ _ h => nomatch h
theorem Command.strikeRegistrationRx a0 a1 a2 : Command.Statement (.strikeRegistrationRx a0 a1 a2) := fun _ _ h => nomatch h
theorem Command.strikeVoteRx a0 a1 a2 a3 a4 : Command.Statement (.strikeVoteRx a0 a1 a2 a3 a4) := fun _ _ h => nomatch h
theorem Command.strikeVerdictRx a0 a1 a2 a3 : Command.Statement (.strikeVerdictRx a0 a1 a2 a3) := fun _ _ h => nomatch h
theorem Command.strikeRegistrationTimeout a0 a1 : Command.Statement (.strikeRegistrationTimeout a0 a1) := fun _ _ h => nomatch h
theorem Command.crystalUnlockExpire a0 : Command.Statement (.crystalUnlockExpire a0) := fun _ _ h => nomatch h
theorem Command.crystalLockoutExpire a0 : Command.Statement (.crystalLockoutExpire a0) := fun _ _ h => nomatch h
theorem Command.ethFrameRx a0 a1 a2 a3 a4 : Command.Statement (.ethFrameRx a0 a1 a2 a3 a4) := fun _ _ h => nomatch h
theorem Command.fwFrameService a0 a1 a2 : Command.Statement (.fwFrameService a0 a1 a2) := fun _ _ h => nomatch h
theorem Command.ptpMessageRx a0 a1 a2 : Command.Statement (.ptpMessageRx a0 a1 a2) := fun _ _ h => nomatch h
theorem Command.ptpAnnounceTimeout a0 a1 : Command.Statement (.ptpAnnounceTimeout a0 a1) := fun _ _ h => nomatch h
theorem Command.dcoSteer a0 : Command.Statement (.dcoSteer a0) := fun _ _ h => nomatch h
theorem Command.ingestFrameTimeout a0 a1 : Command.Statement (.ingestFrameTimeout a0 a1) := fun _ _ h => nomatch h
theorem Command.st2110PacketRelease a0 a1 : Command.Statement (.st2110PacketRelease a0 a1) := fun _ _ h => nomatch h
theorem Command.fstPacketSend a0 a1 : Command.Statement (.fstPacketSend a0 a1) := fun _ _ h => nomatch h
theorem Command.portTxSelect a0 a1 : Command.Statement (.portTxSelect a0 a1) := fun _ _ h => nomatch h
theorem Command.qbvEntryAdvance a0 a1 : Command.Statement (.qbvEntryAdvance a0 a1) := fun _ _ h => nomatch h
theorem Command.qbvGateSwitch a0 a1 : Command.Statement (.qbvGateSwitch a0 a1) := fun _ _ h => nomatch h
theorem Command.queueStatsSample a0 : Command.Statement (.queueStatsSample a0) := fun _ _ h => nomatch h
theorem Command.ethLinkUp a0 a1 : Command.Statement (.ethLinkUp a0 a1) := fun _ _ h => nomatch h
theorem Command.ethLinkDown a0 a1 : Command.Statement (.ethLinkDown a0 a1) := fun _ _ h => nomatch h
theorem Command.fecUncorrectable a0 a1 a2 : Command.Statement (.fecUncorrectable a0 a1 a2) := fun _ _ h => nomatch h
theorem Command.cfBlockDecodeFail a0 a1 a2 : Command.Statement (.cfBlockDecodeFail a0 a1 a2) := fun _ _ h => nomatch h
theorem Command.retrainDone a0 a1 a2 : Command.Statement (.retrainDone a0 a1 a2) := fun _ _ h => nomatch h
theorem Command.retrainAttemptFail a0 a1 a2 : Command.Statement (.retrainAttemptFail a0 a1 a2) := fun _ _ h => nomatch h
theorem Command.cfLinkUp a0 a1 a2 : Command.Statement (.cfLinkUp a0 a1 a2) := fun _ _ h => nomatch h
theorem Command.cfBringupTimeout a0 a1 : Command.Statement (.cfBringupTimeout a0 a1) := fun _ _ h => nomatch h
theorem Command.cfBringupRetry a0 a1 : Command.Statement (.cfBringupRetry a0 a1) := fun _ _ h => nomatch h
theorem Command.cfLinkDown a0 a1 : Command.Statement (.cfLinkDown a0 a1) := fun _ _ h => nomatch h
theorem Command.cfFlitTx a0 a1 : Command.Statement (.cfFlitTx a0 a1) := fun _ _ h => nomatch h
theorem Command.idleFlitRx a0 a1 : Command.Statement (.idleFlitRx a0 a1) := fun _ _ h => nomatch h
theorem Command.helloRx a0 a1 a2 a3 : Command.Statement (.helloRx a0 a1 a2 a3) := fun _ _ h => nomatch h
theorem Command.calReqRx a0 a1 : Command.Statement (.calReqRx a0 a1) := fun _ _ h => nomatch h
theorem Command.calRespRx a0 a1 a2 a3 : Command.Statement (.calRespRx a0 a1 a2 a3) := fun _ _ h => nomatch h
theorem Command.beatEmit a0 : Command.Statement (.beatEmit a0) := fun _ _ h => nomatch h
theorem Command.beatRx a0 a1 : Command.Statement (.beatRx a0 a1) := fun _ _ h => nomatch h
theorem Command.beatLoss a0 : Command.Statement (.beatLoss a0) := fun _ _ h => nomatch h
theorem Command.xferHdrRx a0 a1 a2 : Command.Statement (.xferHdrRx a0 a1 a2) := fun _ _ h => nomatch h
theorem Command.xferDataRx a0 a1 a2 : Command.Statement (.xferDataRx a0 a1 a2) := fun _ _ h => nomatch h
theorem Command.xferEndRx a0 a1 a2 : Command.Statement (.xferEndRx a0 a1 a2) := fun _ _ h => nomatch h
theorem Command.frameStartRx a0 a1 : Command.Statement (.frameStartRx a0 a1) := fun _ _ h => nomatch h
theorem Command.lineDataRx a0 a1 a2 : Command.Statement (.lineDataRx a0 a1 a2) := fun _ _ h => nomatch h
theorem Command.importPublishTimeout a0 a1 : Command.Statement (.importPublishTimeout a0 a1) := fun _ _ h => nomatch h
theorem Command.dpTrainingDone a0 a1 a2 a3 : Command.Statement (.dpTrainingDone a0 a1 a2 a3) := fun _ _ h => nomatch h
theorem Command.dpHpdChange a0 a1 a2 : Command.Statement (.dpHpdChange a0 a1 a2) := fun _ _ h => nomatch h
theorem Command.hdcpAuthResult a0 a1 a2 a3 a4 : Command.Statement (.hdcpAuthResult a0 a1 a2 a3 a4) := fun _ _ h => nomatch h
theorem Command.blJobStart a0 : Command.Statement (.blJobStart a0) := fun _ _ h => nomatch h
theorem Command.blBurst a0 : Command.Statement (.blBurst a0) := fun _ _ h => nomatch h
theorem Command.blJobEnd a0 : Command.Statement (.blJobEnd a0) := fun _ _ h => nomatch h
theorem Command.blListEntryRun a0 : Command.Statement (.blListEntryRun a0) := fun _ _ h => nomatch h
theorem Command.hdChannelSelect a0 a1 a2 : Command.Statement (.hdChannelSelect a0 a1 a2) := fun _ _ h => nomatch h
theorem Command.hdHwRequest a0 a1 : Command.Statement (.hdHwRequest a0 a1) := fun _ _ h => nomatch h
theorem Command.hdBurst a0 a1 a2 a3 : Command.Statement (.hdBurst a0 a1 a2 a3) := fun _ _ h => nomatch h
theorem Command.hdDescComplete a0 a1 a2 a3 : Command.Statement (.hdDescComplete a0 a1 a2 a3) := fun _ _ h => nomatch h
theorem Command.hdReqTimeout a0 : Command.Statement (.hdReqTimeout a0) := fun _ _ h => nomatch h
theorem Command.hdAccessTimeout a0 : Command.Statement (.hdAccessTimeout a0) := fun _ _ h => nomatch h
theorem Command.eccCorrected a0 a1 : Command.Statement (.eccCorrected a0 a1) := fun _ _ h => nomatch h
theorem Command.eccUncorrectable a0 a1 : Command.Statement (.eccUncorrectable a0 a1) := fun _ _ h => nomatch h
theorem Command.migrationSurfaceMoved a0 a1 : Command.Statement (.migrationSurfaceMoved a0 a1) := fun _ _ h => nomatch h
theorem Command.migrationDone a0 a1 : Command.Statement (.migrationDone a0 a1) := fun _ _ h => nomatch h
theorem Command.channelRestartDone a0 a1 : Command.Statement (.channelRestartDone a0 a1) := fun _ _ h => nomatch h
theorem Command.channelRestartTimeout a0 a1 : Command.Statement (.channelRestartTimeout a0 a1) := fun _ _ h => nomatch h
theorem Command.parity a0 a1 a2 a3 : Command.Statement (.parity a0 a1 a2 a3) := fun _ _ h => nomatch h
theorem Command.ltrPeriodic a0 : Command.Statement (.ltrPeriodic a0) := fun _ _ h => nomatch h
theorem Command.ltrCheckpointDone a0 a1 : Command.Statement (.ltrCheckpointDone a0 a1) := fun _ _ h => nomatch h
theorem Command.ltrSecondSample a0 a1 : Command.Statement (.ltrSecondSample a0 a1) := fun _ _ h => nomatch h
theorem Command.resetNDeassert a0 a1 : Command.Statement (.resetNDeassert a0 a1) := fun _ _ h => nomatch h
theorem Command.bootReady a0 a1 : Command.Statement (.bootReady a0 a1) := fun _ _ h => nomatch h
theorem Command.tjBelow115BootStart a0 a1 : Command.Statement (.tjBelow115BootStart a0 a1) := fun _ _ h => nomatch h
theorem Command.xferAnswerRx a0 a1 a2 a3 a4 a5 : Command.Statement (.xferAnswerRx a0 a1 a2 a3 a4 a5) := fun _ _ h => nomatch h
theorem Command.ptpMessageInterval a0 a1 a2 : Command.Statement (.ptpMessageInterval a0 a1 a2) := fun _ _ h => nomatch h
theorem Command.serdesEqAdapt a0 a1 a2 : Command.Statement (.serdesEqAdapt a0 a1 a2) := fun _ _ h => nomatch h
theorem Command.pcieLinkTrained a0 : Command.Statement (.pcieLinkTrained a0) := fun _ _ h => nomatch h

end Sys2Proof.Laws
end

