-- ==== Sys2Proof/Laws/State.lean ====
section
/-! SUPPORT. What each update of the state leaves alone, one lemma per field per update, and what an entry of a
table reads as after it is stored. -/
namespace Sys2Proof.Laws
open Sys2Proof Sys2Proof.Machine

/-! ### Tables -/

/-- An entry that was stored reads as stored. -/
@[simp] theorem Tbl_get_set {α : Type} (t : Tbl α) (d : α) (k : Nat) (v : α) : Tbl.get (Tbl.set t k v) d k = v := by
  induction t with
  | nil => simp [Tbl.set, Tbl.get, Tbl.find?]
  | cons c t ih =>
    obtain ⟨k', v'⟩ := c
    unfold Tbl.set
    split
    · simp [Tbl.get, Tbl.find?]
    · rename_i h1
      split
      · simp [Tbl.get, Tbl.find?]
      · rename_i h2
        unfold Tbl.get Tbl.find?
        rw [if_neg h1, if_neg h2]
        exact ih

/-- Storing an entry leaves every other as it was. -/
theorem Tbl_get_set_ne {α : Type} (t : Tbl α) (d : α) {k j : Nat} (v : α) (h : j ≠ k) :
    Tbl.get (Tbl.set t k v) d j = Tbl.get t d j := by
  have key : ∀ t : Tbl α, Tbl.find? (Tbl.set t k v) j = Tbl.find? t j := by
    intro t
    induction t with
    | nil => simp [Tbl.set, Tbl.find?, Ne.symm h]
    | cons c t ih =>
      obtain ⟨k', v'⟩ := c
      unfold Tbl.set
      split
      · rename_i h1
        subst h1
        simp [Tbl.find?, Ne.symm h]
      · split
        · rename_i h1 h2
          simp only [Tbl.find?, if_neg (Ne.symm h)]
          split
          · rw [if_neg (by omega), if_pos (by omega)]
          · rfl
        · simp only [Tbl.find?, ih]
  unfold Tbl.get
  rw [key]

/-! ### Entries after they are stored -/

@[simp] theorem surfOf_putSurf (i : Nat) (x : Surface) (s : State) : surfOf (putSurf i x s) i = x := Tbl_get_set _ _ _ _
theorem surfOf_putSurf_ne {i j : Nat} (x : Surface) (s : State) (h : j ≠ i) : surfOf (putSurf i x s) j = surfOf s j :=
  Tbl_get_set_ne _ _ _ h
@[simp] theorem rasterOf_putRaster (i : Nat) (x : Raster) (s : State) : rasterOf (putRaster i x s) i = x := Tbl_get_set _ _ _ _
theorem rasterOf_putRaster_ne {i j : Nat} (x : Raster) (s : State) (h : j ≠ i) : rasterOf (putRaster i x s) j = rasterOf s j :=
  Tbl_get_set_ne _ _ _ h
@[simp] theorem sceneOf_putScene (i : Nat) (x : SceneSt) (s : State) : sceneOf (putScene i x s) i = x := Tbl_get_set _ _ _ _
theorem sceneOf_putScene_ne {i j : Nat} (x : SceneSt) (s : State) (h : j ≠ i) : sceneOf (putScene i x s) j = sceneOf s j :=
  Tbl_get_set_ne _ _ _ h
@[simp] theorem crystalOf_putCrystal (i : Nat) (x : Crystal) (s : State) : crystalOf (putCrystal i x s) i = x := Tbl_get_set _ _ _ _
theorem crystalOf_putCrystal_ne {i j : Nat} (x : Crystal) (s : State) (h : j ≠ i) : crystalOf (putCrystal i x s) j = crystalOf s j :=
  Tbl_get_set_ne _ _ _ h
@[simp] theorem sliceOf_putSlice (i : Nat) (x : Slice) (s : State) : sliceOf (putSlice i x s) i = x := Tbl_get_set _ _ _ _
theorem sliceOf_putSlice_ne {i j : Nat} (x : Slice) (s : State) (h : j ≠ i) : sliceOf (putSlice i x s) j = sliceOf s j :=
  Tbl_get_set_ne _ _ _ h
@[simp] theorem dpOf_putDp (i : Nat) (x : DpPort) (s : State) : dpOf (putDp i x s) i = x := Tbl_get_set _ _ _ _
theorem dpOf_putDp_ne {i j : Nat} (x : DpPort) (s : State) (h : j ≠ i) : dpOf (putDp i x s) j = dpOf s j :=
  Tbl_get_set_ne _ _ _ h
@[simp] theorem fsOf_putFs (i : Nat) (x : RasterFs) (s : State) : fsOf (putFs i x s) i = x := Tbl_get_set _ _ _ _
theorem fsOf_putFs_ne {i j : Nat} (x : RasterFs) (s : State) (h : j ≠ i) : fsOf (putFs i x s) j = fsOf s j :=
  Tbl_get_set_ne _ _ _ h
@[simp] theorem chanFsOf_putChanFs (i : Nat) (x : ChanFs) (s : State) : chanFsOf (putChanFs i x s) i = x := Tbl_get_set _ _ _ _
theorem chanFsOf_putChanFs_ne {i j : Nat} (x : ChanFs) (s : State) (h : j ≠ i) : chanFsOf (putChanFs i x s) j = chanFsOf s j :=
  Tbl_get_set_ne _ _ _ h
@[simp] theorem ethOf_putEth (i : Nat) (x : EthPort) (s : State) : ethOf (putEth i x s) i = x := Tbl_get_set _ _ _ _
theorem ethOf_putEth_ne {i j : Nat} (x : EthPort) (s : State) (h : j ≠ i) : ethOf (putEth i x s) j = ethOf s j :=
  Tbl_get_set_ne _ _ _ h
@[simp] theorem ingestOf_putIngest (i : Nat) (x : Ingest) (s : State) : ingestOf (putIngest i x s) i = x := Tbl_get_set _ _ _ _
theorem ingestOf_putIngest_ne {i j : Nat} (x : Ingest) (s : State) (h : j ≠ i) : ingestOf (putIngest i x s) j = ingestOf s j :=
  Tbl_get_set_ne _ _ _ h
@[simp] theorem egressOf_putEgress (i : Nat) (x : Egress) (s : State) : egressOf (putEgress i x s) i = x := Tbl_get_set _ _ _ _
theorem egressOf_putEgress_ne {i j : Nat} (x : Egress) (s : State) (h : j ≠ i) : egressOf (putEgress i x s) j = egressOf s j :=
  Tbl_get_set_ne _ _ _ h
@[simp] theorem queueOf_putQueue (i : Nat) (x : TsQueue) (s : State) : queueOf (putQueue i x s) i = x := Tbl_get_set _ _ _ _
theorem queueOf_putQueue_ne {i j : Nat} (x : TsQueue) (s : State) (h : j ≠ i) : queueOf (putQueue i x s) j = queueOf s j :=
  Tbl_get_set_ne _ _ _ h
@[simp] theorem tsPortOf_putTsPort (i : Nat) (x : TsPort) (s : State) : tsPortOf (putTsPort i x s) i = x := Tbl_get_set _ _ _ _
theorem tsPortOf_putTsPort_ne {i j : Nat} (x : TsPort) (s : State) (h : j ≠ i) : tsPortOf (putTsPort i x s) j = tsPortOf s j :=
  Tbl_get_set_ne _ _ _ h
@[simp] theorem meterOf_putMeter (i : Nat) (x : Meter) (s : State) : meterOf (putMeter i x s) i = x := Tbl_get_set _ _ _ _
theorem meterOf_putMeter_ne {i j : Nat} (x : Meter) (s : State) (h : j ≠ i) : meterOf (putMeter i x s) j = meterOf s j :=
  Tbl_get_set_ne _ _ _ h
@[simp] theorem linkOf_putLink (i : Nat) (x : CfLink) (s : State) : linkOf (putLink i x s) i = x := Tbl_get_set _ _ _ _
theorem linkOf_putLink_ne {i j : Nat} (x : CfLink) (s : State) (h : j ≠ i) : linkOf (putLink i x s) j = linkOf s j :=
  Tbl_get_set_ne _ _ _ h
@[simp] theorem hdOf_putHd (i : Nat) (x : HdChan) (s : State) : hdOf (putHd i x s) i = x := Tbl_get_set _ _ _ _
theorem hdOf_putHd_ne {i j : Nat} (x : HdChan) (s : State) (h : j ≠ i) : hdOf (putHd i x s) j = hdOf s j :=
  Tbl_get_set_ne _ _ _ h

/-! ### emit -/

@[simp] theorem emit_pending (o : Out) (s : State) : (emit o s).pending = s.pending := rfl
@[simp] theorem emit_fresh (o : Out) (s : State) : (emit o s).fresh = s.fresh := rfl
@[simp] theorem emit_clk (o : Out) (s : State) : (emit o s).clk = s.clk := rfl
@[simp] theorem emit_host (o : Out) (s : State) : (emit o s).host = s.host := rfl
@[simp] theorem emit_own (o : Out) (s : State) : (emit o s).own = s.own := rfl
@[simp] theorem emit_cp (o : Out) (s : State) : (emit o s).cp = s.cp := rfl
@[simp] theorem emit_evc (o : Out) (s : State) : (emit o s).evc = s.evc := rfl
@[simp] theorem emit_mm (o : Out) (s : State) : (emit o s).mm = s.mm := rfl
@[simp] theorem emit_fs (o : Out) (s : State) : (emit o s).fs = s.fs := rfl
@[simp] theorem emit_pn (o : Out) (s : State) : (emit o s).pn = s.pn := rfl
@[simp] theorem emit_col (o : Out) (s : State) : (emit o s).col = s.col := rfl
@[simp] theorem emit_key (o : Out) (s : State) : (emit o s).key = s.key := rfl
@[simp] theorem emit_rg (o : Out) (s : State) : (emit o s).rg = s.rg := rfl
@[simp] theorem emit_un (o : Out) (s : State) : (emit o s).un = s.un := rfl
@[simp] theorem emit_ne (o : Out) (s : State) : (emit o s).ne = s.ne := rfl
@[simp] theorem emit_ts (o : Out) (s : State) : (emit o s).ts = s.ts := rfl
@[simp] theorem emit_cf (o : Out) (s : State) : (emit o s).cf = s.cf := rfl
@[simp] theorem emit_tk (o : Out) (s : State) : (emit o s).tk = s.tk := rfl
@[simp] theorem emit_bl (o : Out) (s : State) : (emit o s).bl = s.bl := rfl
@[simp] theorem emit_hd (o : Out) (s : State) : (emit o s).hd = s.hd := rfl
@[simp] theorem emit_pmu (o : Out) (s : State) : (emit o s).pmu = s.pmu := rfl
@[simp] theorem emit_rel (o : Out) (s : State) : (emit o s).rel = s.rel := rfl
@[simp] theorem emit_pins (o : Out) (s : State) : (emit o s).pins = s.pins := rfl
@[simp] theorem emit_prior (o : Out) (s : State) : (emit o s).prior = s.prior := rfl

/-! ### putSrc -/

@[simp] theorem putSrc_pending (n : Nat) (x : EvcSrc) (s : State) : (putSrc n x s).pending = s.pending := rfl
@[simp] theorem putSrc_out (n : Nat) (x : EvcSrc) (s : State) : (putSrc n x s).out = s.out := rfl
@[simp] theorem putSrc_fresh (n : Nat) (x : EvcSrc) (s : State) : (putSrc n x s).fresh = s.fresh := rfl
@[simp] theorem putSrc_clk (n : Nat) (x : EvcSrc) (s : State) : (putSrc n x s).clk = s.clk := rfl
@[simp] theorem putSrc_host (n : Nat) (x : EvcSrc) (s : State) : (putSrc n x s).host = s.host := rfl
@[simp] theorem putSrc_own (n : Nat) (x : EvcSrc) (s : State) : (putSrc n x s).own = s.own := rfl
@[simp] theorem putSrc_cp (n : Nat) (x : EvcSrc) (s : State) : (putSrc n x s).cp = s.cp := rfl
@[simp] theorem putSrc_mm (n : Nat) (x : EvcSrc) (s : State) : (putSrc n x s).mm = s.mm := rfl
@[simp] theorem putSrc_fs (n : Nat) (x : EvcSrc) (s : State) : (putSrc n x s).fs = s.fs := rfl
@[simp] theorem putSrc_pn (n : Nat) (x : EvcSrc) (s : State) : (putSrc n x s).pn = s.pn := rfl
@[simp] theorem putSrc_col (n : Nat) (x : EvcSrc) (s : State) : (putSrc n x s).col = s.col := rfl
@[simp] theorem putSrc_key (n : Nat) (x : EvcSrc) (s : State) : (putSrc n x s).key = s.key := rfl
@[simp] theorem putSrc_rg (n : Nat) (x : EvcSrc) (s : State) : (putSrc n x s).rg = s.rg := rfl
@[simp] theorem putSrc_un (n : Nat) (x : EvcSrc) (s : State) : (putSrc n x s).un = s.un := rfl
@[simp] theorem putSrc_ne (n : Nat) (x : EvcSrc) (s : State) : (putSrc n x s).ne = s.ne := rfl
@[simp] theorem putSrc_ts (n : Nat) (x : EvcSrc) (s : State) : (putSrc n x s).ts = s.ts := rfl
@[simp] theorem putSrc_cf (n : Nat) (x : EvcSrc) (s : State) : (putSrc n x s).cf = s.cf := rfl
@[simp] theorem putSrc_tk (n : Nat) (x : EvcSrc) (s : State) : (putSrc n x s).tk = s.tk := rfl
@[simp] theorem putSrc_bl (n : Nat) (x : EvcSrc) (s : State) : (putSrc n x s).bl = s.bl := rfl
@[simp] theorem putSrc_hd (n : Nat) (x : EvcSrc) (s : State) : (putSrc n x s).hd = s.hd := rfl
@[simp] theorem putSrc_pmu (n : Nat) (x : EvcSrc) (s : State) : (putSrc n x s).pmu = s.pmu := rfl
@[simp] theorem putSrc_rel (n : Nat) (x : EvcSrc) (s : State) : (putSrc n x s).rel = s.rel := rfl
@[simp] theorem putSrc_pins (n : Nat) (x : EvcSrc) (s : State) : (putSrc n x s).pins = s.pins := rfl
@[simp] theorem putSrc_prior (n : Nat) (x : EvcSrc) (s : State) : (putSrc n x s).prior = s.prior := rfl

/-! ### putTgt -/

@[simp] theorem putTgt_pending (n : Nat) (x : EvcTgt) (s : State) : (putTgt n x s).pending = s.pending := rfl
@[simp] theorem putTgt_out (n : Nat) (x : EvcTgt) (s : State) : (putTgt n x s).out = s.out := rfl
@[simp] theorem putTgt_fresh (n : Nat) (x : EvcTgt) (s : State) : (putTgt n x s).fresh = s.fresh := rfl
@[simp] theorem putTgt_clk (n : Nat) (x : EvcTgt) (s : State) : (putTgt n x s).clk = s.clk := rfl
@[simp] theorem putTgt_host (n : Nat) (x : EvcTgt) (s : State) : (putTgt n x s).host = s.host := rfl
@[simp] theorem putTgt_own (n : Nat) (x : EvcTgt) (s : State) : (putTgt n x s).own = s.own := rfl
@[simp] theorem putTgt_cp (n : Nat) (x : EvcTgt) (s : State) : (putTgt n x s).cp = s.cp := rfl
@[simp] theorem putTgt_mm (n : Nat) (x : EvcTgt) (s : State) : (putTgt n x s).mm = s.mm := rfl
@[simp] theorem putTgt_fs (n : Nat) (x : EvcTgt) (s : State) : (putTgt n x s).fs = s.fs := rfl
@[simp] theorem putTgt_pn (n : Nat) (x : EvcTgt) (s : State) : (putTgt n x s).pn = s.pn := rfl
@[simp] theorem putTgt_col (n : Nat) (x : EvcTgt) (s : State) : (putTgt n x s).col = s.col := rfl
@[simp] theorem putTgt_key (n : Nat) (x : EvcTgt) (s : State) : (putTgt n x s).key = s.key := rfl
@[simp] theorem putTgt_rg (n : Nat) (x : EvcTgt) (s : State) : (putTgt n x s).rg = s.rg := rfl
@[simp] theorem putTgt_un (n : Nat) (x : EvcTgt) (s : State) : (putTgt n x s).un = s.un := rfl
@[simp] theorem putTgt_ne (n : Nat) (x : EvcTgt) (s : State) : (putTgt n x s).ne = s.ne := rfl
@[simp] theorem putTgt_ts (n : Nat) (x : EvcTgt) (s : State) : (putTgt n x s).ts = s.ts := rfl
@[simp] theorem putTgt_cf (n : Nat) (x : EvcTgt) (s : State) : (putTgt n x s).cf = s.cf := rfl
@[simp] theorem putTgt_tk (n : Nat) (x : EvcTgt) (s : State) : (putTgt n x s).tk = s.tk := rfl
@[simp] theorem putTgt_bl (n : Nat) (x : EvcTgt) (s : State) : (putTgt n x s).bl = s.bl := rfl
@[simp] theorem putTgt_hd (n : Nat) (x : EvcTgt) (s : State) : (putTgt n x s).hd = s.hd := rfl
@[simp] theorem putTgt_pmu (n : Nat) (x : EvcTgt) (s : State) : (putTgt n x s).pmu = s.pmu := rfl
@[simp] theorem putTgt_rel (n : Nat) (x : EvcTgt) (s : State) : (putTgt n x s).rel = s.rel := rfl
@[simp] theorem putTgt_pins (n : Nat) (x : EvcTgt) (s : State) : (putTgt n x s).pins = s.pins := rfl
@[simp] theorem putTgt_prior (n : Nat) (x : EvcTgt) (s : State) : (putTgt n x s).prior = s.prior := rfl

/-! ### advance -/

@[simp] theorem advance_pending (t : Ticks) (s : State) : (advance t s).pending = s.pending := rfl
@[simp] theorem advance_out (t : Ticks) (s : State) : (advance t s).out = s.out := rfl
@[simp] theorem advance_fresh (t : Ticks) (s : State) : (advance t s).fresh = s.fresh := rfl
@[simp] theorem advance_host (t : Ticks) (s : State) : (advance t s).host = s.host := rfl
@[simp] theorem advance_own (t : Ticks) (s : State) : (advance t s).own = s.own := rfl
@[simp] theorem advance_cp (t : Ticks) (s : State) : (advance t s).cp = s.cp := rfl
@[simp] theorem advance_evc (t : Ticks) (s : State) : (advance t s).evc = s.evc := rfl
@[simp] theorem advance_mm (t : Ticks) (s : State) : (advance t s).mm = s.mm := rfl
@[simp] theorem advance_fs (t : Ticks) (s : State) : (advance t s).fs = s.fs := rfl
@[simp] theorem advance_pn (t : Ticks) (s : State) : (advance t s).pn = s.pn := rfl
@[simp] theorem advance_col (t : Ticks) (s : State) : (advance t s).col = s.col := rfl
@[simp] theorem advance_key (t : Ticks) (s : State) : (advance t s).key = s.key := rfl
@[simp] theorem advance_rg (t : Ticks) (s : State) : (advance t s).rg = s.rg := rfl
@[simp] theorem advance_un (t : Ticks) (s : State) : (advance t s).un = s.un := rfl
@[simp] theorem advance_ne (t : Ticks) (s : State) : (advance t s).ne = s.ne := rfl
@[simp] theorem advance_ts (t : Ticks) (s : State) : (advance t s).ts = s.ts := rfl
@[simp] theorem advance_cf (t : Ticks) (s : State) : (advance t s).cf = s.cf := rfl
@[simp] theorem advance_tk (t : Ticks) (s : State) : (advance t s).tk = s.tk := rfl
@[simp] theorem advance_bl (t : Ticks) (s : State) : (advance t s).bl = s.bl := rfl
@[simp] theorem advance_hd (t : Ticks) (s : State) : (advance t s).hd = s.hd := rfl
@[simp] theorem advance_pmu (t : Ticks) (s : State) : (advance t s).pmu = s.pmu := rfl
@[simp] theorem advance_rel (t : Ticks) (s : State) : (advance t s).rel = s.rel := rfl
@[simp] theorem advance_pins (t : Ticks) (s : State) : (advance t s).pins = s.pins := rfl

/-! ### putSurf -/

@[simp] theorem putSurf_pending (i : Nat) (x : Surface) (s : State) : (putSurf i x s).pending = s.pending := rfl
@[simp] theorem putSurf_out (i : Nat) (x : Surface) (s : State) : (putSurf i x s).out = s.out := rfl
@[simp] theorem putSurf_fresh (i : Nat) (x : Surface) (s : State) : (putSurf i x s).fresh = s.fresh := rfl
@[simp] theorem putSurf_clk (i : Nat) (x : Surface) (s : State) : (putSurf i x s).clk = s.clk := rfl
@[simp] theorem putSurf_host (i : Nat) (x : Surface) (s : State) : (putSurf i x s).host = s.host := rfl
@[simp] theorem putSurf_own (i : Nat) (x : Surface) (s : State) : (putSurf i x s).own = s.own := rfl
@[simp] theorem putSurf_cp (i : Nat) (x : Surface) (s : State) : (putSurf i x s).cp = s.cp := rfl
@[simp] theorem putSurf_evc (i : Nat) (x : Surface) (s : State) : (putSurf i x s).evc = s.evc := rfl
@[simp] theorem putSurf_fs (i : Nat) (x : Surface) (s : State) : (putSurf i x s).fs = s.fs := rfl
@[simp] theorem putSurf_pn (i : Nat) (x : Surface) (s : State) : (putSurf i x s).pn = s.pn := rfl
@[simp] theorem putSurf_col (i : Nat) (x : Surface) (s : State) : (putSurf i x s).col = s.col := rfl
@[simp] theorem putSurf_key (i : Nat) (x : Surface) (s : State) : (putSurf i x s).key = s.key := rfl
@[simp] theorem putSurf_rg (i : Nat) (x : Surface) (s : State) : (putSurf i x s).rg = s.rg := rfl
@[simp] theorem putSurf_un (i : Nat) (x : Surface) (s : State) : (putSurf i x s).un = s.un := rfl
@[simp] theorem putSurf_ne (i : Nat) (x : Surface) (s : State) : (putSurf i x s).ne = s.ne := rfl
@[simp] theorem putSurf_ts (i : Nat) (x : Surface) (s : State) : (putSurf i x s).ts = s.ts := rfl
@[simp] theorem putSurf_cf (i : Nat) (x : Surface) (s : State) : (putSurf i x s).cf = s.cf := rfl
@[simp] theorem putSurf_tk (i : Nat) (x : Surface) (s : State) : (putSurf i x s).tk = s.tk := rfl
@[simp] theorem putSurf_bl (i : Nat) (x : Surface) (s : State) : (putSurf i x s).bl = s.bl := rfl
@[simp] theorem putSurf_hd (i : Nat) (x : Surface) (s : State) : (putSurf i x s).hd = s.hd := rfl
@[simp] theorem putSurf_pmu (i : Nat) (x : Surface) (s : State) : (putSurf i x s).pmu = s.pmu := rfl
@[simp] theorem putSurf_rel (i : Nat) (x : Surface) (s : State) : (putSurf i x s).rel = s.rel := rfl
@[simp] theorem putSurf_pins (i : Nat) (x : Surface) (s : State) : (putSurf i x s).pins = s.pins := rfl
@[simp] theorem putSurf_prior (i : Nat) (x : Surface) (s : State) : (putSurf i x s).prior = s.prior := rfl

/-! ### putRaster -/

@[simp] theorem putRaster_pending (i : Nat) (x : Raster) (s : State) : (putRaster i x s).pending = s.pending := rfl
@[simp] theorem putRaster_out (i : Nat) (x : Raster) (s : State) : (putRaster i x s).out = s.out := rfl
@[simp] theorem putRaster_fresh (i : Nat) (x : Raster) (s : State) : (putRaster i x s).fresh = s.fresh := rfl
@[simp] theorem putRaster_clk (i : Nat) (x : Raster) (s : State) : (putRaster i x s).clk = s.clk := rfl
@[simp] theorem putRaster_host (i : Nat) (x : Raster) (s : State) : (putRaster i x s).host = s.host := rfl
@[simp] theorem putRaster_own (i : Nat) (x : Raster) (s : State) : (putRaster i x s).own = s.own := rfl
@[simp] theorem putRaster_cp (i : Nat) (x : Raster) (s : State) : (putRaster i x s).cp = s.cp := rfl
@[simp] theorem putRaster_evc (i : Nat) (x : Raster) (s : State) : (putRaster i x s).evc = s.evc := rfl
@[simp] theorem putRaster_mm (i : Nat) (x : Raster) (s : State) : (putRaster i x s).mm = s.mm := rfl
@[simp] theorem putRaster_fs (i : Nat) (x : Raster) (s : State) : (putRaster i x s).fs = s.fs := rfl
@[simp] theorem putRaster_pn (i : Nat) (x : Raster) (s : State) : (putRaster i x s).pn = s.pn := rfl
@[simp] theorem putRaster_col (i : Nat) (x : Raster) (s : State) : (putRaster i x s).col = s.col := rfl
@[simp] theorem putRaster_key (i : Nat) (x : Raster) (s : State) : (putRaster i x s).key = s.key := rfl
@[simp] theorem putRaster_un (i : Nat) (x : Raster) (s : State) : (putRaster i x s).un = s.un := rfl
@[simp] theorem putRaster_ne (i : Nat) (x : Raster) (s : State) : (putRaster i x s).ne = s.ne := rfl
@[simp] theorem putRaster_ts (i : Nat) (x : Raster) (s : State) : (putRaster i x s).ts = s.ts := rfl
@[simp] theorem putRaster_cf (i : Nat) (x : Raster) (s : State) : (putRaster i x s).cf = s.cf := rfl
@[simp] theorem putRaster_tk (i : Nat) (x : Raster) (s : State) : (putRaster i x s).tk = s.tk := rfl
@[simp] theorem putRaster_bl (i : Nat) (x : Raster) (s : State) : (putRaster i x s).bl = s.bl := rfl
@[simp] theorem putRaster_hd (i : Nat) (x : Raster) (s : State) : (putRaster i x s).hd = s.hd := rfl
@[simp] theorem putRaster_pmu (i : Nat) (x : Raster) (s : State) : (putRaster i x s).pmu = s.pmu := rfl
@[simp] theorem putRaster_rel (i : Nat) (x : Raster) (s : State) : (putRaster i x s).rel = s.rel := rfl
@[simp] theorem putRaster_pins (i : Nat) (x : Raster) (s : State) : (putRaster i x s).pins = s.pins := rfl
@[simp] theorem putRaster_prior (i : Nat) (x : Raster) (s : State) : (putRaster i x s).prior = s.prior := rfl

/-! ### putScene -/

@[simp] theorem putScene_pending (i : Nat) (x : SceneSt) (s : State) : (putScene i x s).pending = s.pending := rfl
@[simp] theorem putScene_out (i : Nat) (x : SceneSt) (s : State) : (putScene i x s).out = s.out := rfl
@[simp] theorem putScene_fresh (i : Nat) (x : SceneSt) (s : State) : (putScene i x s).fresh = s.fresh := rfl
@[simp] theorem putScene_clk (i : Nat) (x : SceneSt) (s : State) : (putScene i x s).clk = s.clk := rfl
@[simp] theorem putScene_host (i : Nat) (x : SceneSt) (s : State) : (putScene i x s).host = s.host := rfl
@[simp] theorem putScene_own (i : Nat) (x : SceneSt) (s : State) : (putScene i x s).own = s.own := rfl
@[simp] theorem putScene_cp (i : Nat) (x : SceneSt) (s : State) : (putScene i x s).cp = s.cp := rfl
@[simp] theorem putScene_evc (i : Nat) (x : SceneSt) (s : State) : (putScene i x s).evc = s.evc := rfl
@[simp] theorem putScene_mm (i : Nat) (x : SceneSt) (s : State) : (putScene i x s).mm = s.mm := rfl
@[simp] theorem putScene_fs (i : Nat) (x : SceneSt) (s : State) : (putScene i x s).fs = s.fs := rfl
@[simp] theorem putScene_pn (i : Nat) (x : SceneSt) (s : State) : (putScene i x s).pn = s.pn := rfl
@[simp] theorem putScene_col (i : Nat) (x : SceneSt) (s : State) : (putScene i x s).col = s.col := rfl
@[simp] theorem putScene_key (i : Nat) (x : SceneSt) (s : State) : (putScene i x s).key = s.key := rfl
@[simp] theorem putScene_un (i : Nat) (x : SceneSt) (s : State) : (putScene i x s).un = s.un := rfl
@[simp] theorem putScene_ne (i : Nat) (x : SceneSt) (s : State) : (putScene i x s).ne = s.ne := rfl
@[simp] theorem putScene_ts (i : Nat) (x : SceneSt) (s : State) : (putScene i x s).ts = s.ts := rfl
@[simp] theorem putScene_cf (i : Nat) (x : SceneSt) (s : State) : (putScene i x s).cf = s.cf := rfl
@[simp] theorem putScene_tk (i : Nat) (x : SceneSt) (s : State) : (putScene i x s).tk = s.tk := rfl
@[simp] theorem putScene_bl (i : Nat) (x : SceneSt) (s : State) : (putScene i x s).bl = s.bl := rfl
@[simp] theorem putScene_hd (i : Nat) (x : SceneSt) (s : State) : (putScene i x s).hd = s.hd := rfl
@[simp] theorem putScene_pmu (i : Nat) (x : SceneSt) (s : State) : (putScene i x s).pmu = s.pmu := rfl
@[simp] theorem putScene_rel (i : Nat) (x : SceneSt) (s : State) : (putScene i x s).rel = s.rel := rfl
@[simp] theorem putScene_pins (i : Nat) (x : SceneSt) (s : State) : (putScene i x s).pins = s.pins := rfl
@[simp] theorem putScene_prior (i : Nat) (x : SceneSt) (s : State) : (putScene i x s).prior = s.prior := rfl

/-! ### putCrystal -/

@[simp] theorem putCrystal_pending (i : Nat) (x : Crystal) (s : State) : (putCrystal i x s).pending = s.pending := rfl
@[simp] theorem putCrystal_out (i : Nat) (x : Crystal) (s : State) : (putCrystal i x s).out = s.out := rfl
@[simp] theorem putCrystal_fresh (i : Nat) (x : Crystal) (s : State) : (putCrystal i x s).fresh = s.fresh := rfl
@[simp] theorem putCrystal_clk (i : Nat) (x : Crystal) (s : State) : (putCrystal i x s).clk = s.clk := rfl
@[simp] theorem putCrystal_host (i : Nat) (x : Crystal) (s : State) : (putCrystal i x s).host = s.host := rfl
@[simp] theorem putCrystal_own (i : Nat) (x : Crystal) (s : State) : (putCrystal i x s).own = s.own := rfl
@[simp] theorem putCrystal_cp (i : Nat) (x : Crystal) (s : State) : (putCrystal i x s).cp = s.cp := rfl
@[simp] theorem putCrystal_evc (i : Nat) (x : Crystal) (s : State) : (putCrystal i x s).evc = s.evc := rfl
@[simp] theorem putCrystal_mm (i : Nat) (x : Crystal) (s : State) : (putCrystal i x s).mm = s.mm := rfl
@[simp] theorem putCrystal_fs (i : Nat) (x : Crystal) (s : State) : (putCrystal i x s).fs = s.fs := rfl
@[simp] theorem putCrystal_pn (i : Nat) (x : Crystal) (s : State) : (putCrystal i x s).pn = s.pn := rfl
@[simp] theorem putCrystal_col (i : Nat) (x : Crystal) (s : State) : (putCrystal i x s).col = s.col := rfl
@[simp] theorem putCrystal_key (i : Nat) (x : Crystal) (s : State) : (putCrystal i x s).key = s.key := rfl
@[simp] theorem putCrystal_un (i : Nat) (x : Crystal) (s : State) : (putCrystal i x s).un = s.un := rfl
@[simp] theorem putCrystal_ne (i : Nat) (x : Crystal) (s : State) : (putCrystal i x s).ne = s.ne := rfl
@[simp] theorem putCrystal_ts (i : Nat) (x : Crystal) (s : State) : (putCrystal i x s).ts = s.ts := rfl
@[simp] theorem putCrystal_cf (i : Nat) (x : Crystal) (s : State) : (putCrystal i x s).cf = s.cf := rfl
@[simp] theorem putCrystal_tk (i : Nat) (x : Crystal) (s : State) : (putCrystal i x s).tk = s.tk := rfl
@[simp] theorem putCrystal_bl (i : Nat) (x : Crystal) (s : State) : (putCrystal i x s).bl = s.bl := rfl
@[simp] theorem putCrystal_hd (i : Nat) (x : Crystal) (s : State) : (putCrystal i x s).hd = s.hd := rfl
@[simp] theorem putCrystal_pmu (i : Nat) (x : Crystal) (s : State) : (putCrystal i x s).pmu = s.pmu := rfl
@[simp] theorem putCrystal_rel (i : Nat) (x : Crystal) (s : State) : (putCrystal i x s).rel = s.rel := rfl
@[simp] theorem putCrystal_pins (i : Nat) (x : Crystal) (s : State) : (putCrystal i x s).pins = s.pins := rfl
@[simp] theorem putCrystal_prior (i : Nat) (x : Crystal) (s : State) : (putCrystal i x s).prior = s.prior := rfl

/-! ### putSlice -/

@[simp] theorem putSlice_pending (i : Nat) (x : Slice) (s : State) : (putSlice i x s).pending = s.pending := rfl
@[simp] theorem putSlice_out (i : Nat) (x : Slice) (s : State) : (putSlice i x s).out = s.out := rfl
@[simp] theorem putSlice_fresh (i : Nat) (x : Slice) (s : State) : (putSlice i x s).fresh = s.fresh := rfl
@[simp] theorem putSlice_clk (i : Nat) (x : Slice) (s : State) : (putSlice i x s).clk = s.clk := rfl
@[simp] theorem putSlice_host (i : Nat) (x : Slice) (s : State) : (putSlice i x s).host = s.host := rfl
@[simp] theorem putSlice_own (i : Nat) (x : Slice) (s : State) : (putSlice i x s).own = s.own := rfl
@[simp] theorem putSlice_cp (i : Nat) (x : Slice) (s : State) : (putSlice i x s).cp = s.cp := rfl
@[simp] theorem putSlice_evc (i : Nat) (x : Slice) (s : State) : (putSlice i x s).evc = s.evc := rfl
@[simp] theorem putSlice_mm (i : Nat) (x : Slice) (s : State) : (putSlice i x s).mm = s.mm := rfl
@[simp] theorem putSlice_fs (i : Nat) (x : Slice) (s : State) : (putSlice i x s).fs = s.fs := rfl
@[simp] theorem putSlice_pn (i : Nat) (x : Slice) (s : State) : (putSlice i x s).pn = s.pn := rfl
@[simp] theorem putSlice_col (i : Nat) (x : Slice) (s : State) : (putSlice i x s).col = s.col := rfl
@[simp] theorem putSlice_key (i : Nat) (x : Slice) (s : State) : (putSlice i x s).key = s.key := rfl
@[simp] theorem putSlice_un (i : Nat) (x : Slice) (s : State) : (putSlice i x s).un = s.un := rfl
@[simp] theorem putSlice_ne (i : Nat) (x : Slice) (s : State) : (putSlice i x s).ne = s.ne := rfl
@[simp] theorem putSlice_ts (i : Nat) (x : Slice) (s : State) : (putSlice i x s).ts = s.ts := rfl
@[simp] theorem putSlice_cf (i : Nat) (x : Slice) (s : State) : (putSlice i x s).cf = s.cf := rfl
@[simp] theorem putSlice_tk (i : Nat) (x : Slice) (s : State) : (putSlice i x s).tk = s.tk := rfl
@[simp] theorem putSlice_bl (i : Nat) (x : Slice) (s : State) : (putSlice i x s).bl = s.bl := rfl
@[simp] theorem putSlice_hd (i : Nat) (x : Slice) (s : State) : (putSlice i x s).hd = s.hd := rfl
@[simp] theorem putSlice_pmu (i : Nat) (x : Slice) (s : State) : (putSlice i x s).pmu = s.pmu := rfl
@[simp] theorem putSlice_rel (i : Nat) (x : Slice) (s : State) : (putSlice i x s).rel = s.rel := rfl
@[simp] theorem putSlice_pins (i : Nat) (x : Slice) (s : State) : (putSlice i x s).pins = s.pins := rfl
@[simp] theorem putSlice_prior (i : Nat) (x : Slice) (s : State) : (putSlice i x s).prior = s.prior := rfl

/-! ### putDp -/

@[simp] theorem putDp_pending (i : Nat) (x : DpPort) (s : State) : (putDp i x s).pending = s.pending := rfl
@[simp] theorem putDp_out (i : Nat) (x : DpPort) (s : State) : (putDp i x s).out = s.out := rfl
@[simp] theorem putDp_fresh (i : Nat) (x : DpPort) (s : State) : (putDp i x s).fresh = s.fresh := rfl
@[simp] theorem putDp_clk (i : Nat) (x : DpPort) (s : State) : (putDp i x s).clk = s.clk := rfl
@[simp] theorem putDp_host (i : Nat) (x : DpPort) (s : State) : (putDp i x s).host = s.host := rfl
@[simp] theorem putDp_own (i : Nat) (x : DpPort) (s : State) : (putDp i x s).own = s.own := rfl
@[simp] theorem putDp_cp (i : Nat) (x : DpPort) (s : State) : (putDp i x s).cp = s.cp := rfl
@[simp] theorem putDp_evc (i : Nat) (x : DpPort) (s : State) : (putDp i x s).evc = s.evc := rfl
@[simp] theorem putDp_mm (i : Nat) (x : DpPort) (s : State) : (putDp i x s).mm = s.mm := rfl
@[simp] theorem putDp_fs (i : Nat) (x : DpPort) (s : State) : (putDp i x s).fs = s.fs := rfl
@[simp] theorem putDp_pn (i : Nat) (x : DpPort) (s : State) : (putDp i x s).pn = s.pn := rfl
@[simp] theorem putDp_col (i : Nat) (x : DpPort) (s : State) : (putDp i x s).col = s.col := rfl
@[simp] theorem putDp_key (i : Nat) (x : DpPort) (s : State) : (putDp i x s).key = s.key := rfl
@[simp] theorem putDp_un (i : Nat) (x : DpPort) (s : State) : (putDp i x s).un = s.un := rfl
@[simp] theorem putDp_ne (i : Nat) (x : DpPort) (s : State) : (putDp i x s).ne = s.ne := rfl
@[simp] theorem putDp_ts (i : Nat) (x : DpPort) (s : State) : (putDp i x s).ts = s.ts := rfl
@[simp] theorem putDp_cf (i : Nat) (x : DpPort) (s : State) : (putDp i x s).cf = s.cf := rfl
@[simp] theorem putDp_tk (i : Nat) (x : DpPort) (s : State) : (putDp i x s).tk = s.tk := rfl
@[simp] theorem putDp_bl (i : Nat) (x : DpPort) (s : State) : (putDp i x s).bl = s.bl := rfl
@[simp] theorem putDp_hd (i : Nat) (x : DpPort) (s : State) : (putDp i x s).hd = s.hd := rfl
@[simp] theorem putDp_pmu (i : Nat) (x : DpPort) (s : State) : (putDp i x s).pmu = s.pmu := rfl
@[simp] theorem putDp_rel (i : Nat) (x : DpPort) (s : State) : (putDp i x s).rel = s.rel := rfl
@[simp] theorem putDp_pins (i : Nat) (x : DpPort) (s : State) : (putDp i x s).pins = s.pins := rfl
@[simp] theorem putDp_prior (i : Nat) (x : DpPort) (s : State) : (putDp i x s).prior = s.prior := rfl

/-! ### putFs -/

@[simp] theorem putFs_pending (i : Nat) (x : RasterFs) (s : State) : (putFs i x s).pending = s.pending := rfl
@[simp] theorem putFs_out (i : Nat) (x : RasterFs) (s : State) : (putFs i x s).out = s.out := rfl
@[simp] theorem putFs_fresh (i : Nat) (x : RasterFs) (s : State) : (putFs i x s).fresh = s.fresh := rfl
@[simp] theorem putFs_clk (i : Nat) (x : RasterFs) (s : State) : (putFs i x s).clk = s.clk := rfl
@[simp] theorem putFs_host (i : Nat) (x : RasterFs) (s : State) : (putFs i x s).host = s.host := rfl
@[simp] theorem putFs_own (i : Nat) (x : RasterFs) (s : State) : (putFs i x s).own = s.own := rfl
@[simp] theorem putFs_cp (i : Nat) (x : RasterFs) (s : State) : (putFs i x s).cp = s.cp := rfl
@[simp] theorem putFs_evc (i : Nat) (x : RasterFs) (s : State) : (putFs i x s).evc = s.evc := rfl
@[simp] theorem putFs_mm (i : Nat) (x : RasterFs) (s : State) : (putFs i x s).mm = s.mm := rfl
@[simp] theorem putFs_pn (i : Nat) (x : RasterFs) (s : State) : (putFs i x s).pn = s.pn := rfl
@[simp] theorem putFs_col (i : Nat) (x : RasterFs) (s : State) : (putFs i x s).col = s.col := rfl
@[simp] theorem putFs_key (i : Nat) (x : RasterFs) (s : State) : (putFs i x s).key = s.key := rfl
@[simp] theorem putFs_rg (i : Nat) (x : RasterFs) (s : State) : (putFs i x s).rg = s.rg := rfl
@[simp] theorem putFs_un (i : Nat) (x : RasterFs) (s : State) : (putFs i x s).un = s.un := rfl
@[simp] theorem putFs_ne (i : Nat) (x : RasterFs) (s : State) : (putFs i x s).ne = s.ne := rfl
@[simp] theorem putFs_ts (i : Nat) (x : RasterFs) (s : State) : (putFs i x s).ts = s.ts := rfl
@[simp] theorem putFs_cf (i : Nat) (x : RasterFs) (s : State) : (putFs i x s).cf = s.cf := rfl
@[simp] theorem putFs_tk (i : Nat) (x : RasterFs) (s : State) : (putFs i x s).tk = s.tk := rfl
@[simp] theorem putFs_bl (i : Nat) (x : RasterFs) (s : State) : (putFs i x s).bl = s.bl := rfl
@[simp] theorem putFs_hd (i : Nat) (x : RasterFs) (s : State) : (putFs i x s).hd = s.hd := rfl
@[simp] theorem putFs_pmu (i : Nat) (x : RasterFs) (s : State) : (putFs i x s).pmu = s.pmu := rfl
@[simp] theorem putFs_rel (i : Nat) (x : RasterFs) (s : State) : (putFs i x s).rel = s.rel := rfl
@[simp] theorem putFs_pins (i : Nat) (x : RasterFs) (s : State) : (putFs i x s).pins = s.pins := rfl
@[simp] theorem putFs_prior (i : Nat) (x : RasterFs) (s : State) : (putFs i x s).prior = s.prior := rfl

/-! ### putChanFs -/

@[simp] theorem putChanFs_pending (i : Nat) (x : ChanFs) (s : State) : (putChanFs i x s).pending = s.pending := rfl
@[simp] theorem putChanFs_out (i : Nat) (x : ChanFs) (s : State) : (putChanFs i x s).out = s.out := rfl
@[simp] theorem putChanFs_fresh (i : Nat) (x : ChanFs) (s : State) : (putChanFs i x s).fresh = s.fresh := rfl
@[simp] theorem putChanFs_clk (i : Nat) (x : ChanFs) (s : State) : (putChanFs i x s).clk = s.clk := rfl
@[simp] theorem putChanFs_host (i : Nat) (x : ChanFs) (s : State) : (putChanFs i x s).host = s.host := rfl
@[simp] theorem putChanFs_own (i : Nat) (x : ChanFs) (s : State) : (putChanFs i x s).own = s.own := rfl
@[simp] theorem putChanFs_cp (i : Nat) (x : ChanFs) (s : State) : (putChanFs i x s).cp = s.cp := rfl
@[simp] theorem putChanFs_evc (i : Nat) (x : ChanFs) (s : State) : (putChanFs i x s).evc = s.evc := rfl
@[simp] theorem putChanFs_mm (i : Nat) (x : ChanFs) (s : State) : (putChanFs i x s).mm = s.mm := rfl
@[simp] theorem putChanFs_pn (i : Nat) (x : ChanFs) (s : State) : (putChanFs i x s).pn = s.pn := rfl
@[simp] theorem putChanFs_col (i : Nat) (x : ChanFs) (s : State) : (putChanFs i x s).col = s.col := rfl
@[simp] theorem putChanFs_key (i : Nat) (x : ChanFs) (s : State) : (putChanFs i x s).key = s.key := rfl
@[simp] theorem putChanFs_rg (i : Nat) (x : ChanFs) (s : State) : (putChanFs i x s).rg = s.rg := rfl
@[simp] theorem putChanFs_un (i : Nat) (x : ChanFs) (s : State) : (putChanFs i x s).un = s.un := rfl
@[simp] theorem putChanFs_ne (i : Nat) (x : ChanFs) (s : State) : (putChanFs i x s).ne = s.ne := rfl
@[simp] theorem putChanFs_ts (i : Nat) (x : ChanFs) (s : State) : (putChanFs i x s).ts = s.ts := rfl
@[simp] theorem putChanFs_cf (i : Nat) (x : ChanFs) (s : State) : (putChanFs i x s).cf = s.cf := rfl
@[simp] theorem putChanFs_tk (i : Nat) (x : ChanFs) (s : State) : (putChanFs i x s).tk = s.tk := rfl
@[simp] theorem putChanFs_bl (i : Nat) (x : ChanFs) (s : State) : (putChanFs i x s).bl = s.bl := rfl
@[simp] theorem putChanFs_hd (i : Nat) (x : ChanFs) (s : State) : (putChanFs i x s).hd = s.hd := rfl
@[simp] theorem putChanFs_pmu (i : Nat) (x : ChanFs) (s : State) : (putChanFs i x s).pmu = s.pmu := rfl
@[simp] theorem putChanFs_rel (i : Nat) (x : ChanFs) (s : State) : (putChanFs i x s).rel = s.rel := rfl
@[simp] theorem putChanFs_pins (i : Nat) (x : ChanFs) (s : State) : (putChanFs i x s).pins = s.pins := rfl
@[simp] theorem putChanFs_prior (i : Nat) (x : ChanFs) (s : State) : (putChanFs i x s).prior = s.prior := rfl

/-! ### putEth -/

@[simp] theorem putEth_pending (i : Nat) (x : EthPort) (s : State) : (putEth i x s).pending = s.pending := rfl
@[simp] theorem putEth_out (i : Nat) (x : EthPort) (s : State) : (putEth i x s).out = s.out := rfl
@[simp] theorem putEth_fresh (i : Nat) (x : EthPort) (s : State) : (putEth i x s).fresh = s.fresh := rfl
@[simp] theorem putEth_clk (i : Nat) (x : EthPort) (s : State) : (putEth i x s).clk = s.clk := rfl
@[simp] theorem putEth_host (i : Nat) (x : EthPort) (s : State) : (putEth i x s).host = s.host := rfl
@[simp] theorem putEth_own (i : Nat) (x : EthPort) (s : State) : (putEth i x s).own = s.own := rfl
@[simp] theorem putEth_cp (i : Nat) (x : EthPort) (s : State) : (putEth i x s).cp = s.cp := rfl
@[simp] theorem putEth_evc (i : Nat) (x : EthPort) (s : State) : (putEth i x s).evc = s.evc := rfl
@[simp] theorem putEth_mm (i : Nat) (x : EthPort) (s : State) : (putEth i x s).mm = s.mm := rfl
@[simp] theorem putEth_fs (i : Nat) (x : EthPort) (s : State) : (putEth i x s).fs = s.fs := rfl
@[simp] theorem putEth_pn (i : Nat) (x : EthPort) (s : State) : (putEth i x s).pn = s.pn := rfl
@[simp] theorem putEth_col (i : Nat) (x : EthPort) (s : State) : (putEth i x s).col = s.col := rfl
@[simp] theorem putEth_key (i : Nat) (x : EthPort) (s : State) : (putEth i x s).key = s.key := rfl
@[simp] theorem putEth_rg (i : Nat) (x : EthPort) (s : State) : (putEth i x s).rg = s.rg := rfl
@[simp] theorem putEth_un (i : Nat) (x : EthPort) (s : State) : (putEth i x s).un = s.un := rfl
@[simp] theorem putEth_ts (i : Nat) (x : EthPort) (s : State) : (putEth i x s).ts = s.ts := rfl
@[simp] theorem putEth_cf (i : Nat) (x : EthPort) (s : State) : (putEth i x s).cf = s.cf := rfl
@[simp] theorem putEth_tk (i : Nat) (x : EthPort) (s : State) : (putEth i x s).tk = s.tk := rfl
@[simp] theorem putEth_bl (i : Nat) (x : EthPort) (s : State) : (putEth i x s).bl = s.bl := rfl
@[simp] theorem putEth_hd (i : Nat) (x : EthPort) (s : State) : (putEth i x s).hd = s.hd := rfl
@[simp] theorem putEth_pmu (i : Nat) (x : EthPort) (s : State) : (putEth i x s).pmu = s.pmu := rfl
@[simp] theorem putEth_rel (i : Nat) (x : EthPort) (s : State) : (putEth i x s).rel = s.rel := rfl
@[simp] theorem putEth_pins (i : Nat) (x : EthPort) (s : State) : (putEth i x s).pins = s.pins := rfl
@[simp] theorem putEth_prior (i : Nat) (x : EthPort) (s : State) : (putEth i x s).prior = s.prior := rfl

/-! ### putIngest -/

@[simp] theorem putIngest_pending (i : Nat) (x : Ingest) (s : State) : (putIngest i x s).pending = s.pending := rfl
@[simp] theorem putIngest_out (i : Nat) (x : Ingest) (s : State) : (putIngest i x s).out = s.out := rfl
@[simp] theorem putIngest_fresh (i : Nat) (x : Ingest) (s : State) : (putIngest i x s).fresh = s.fresh := rfl
@[simp] theorem putIngest_clk (i : Nat) (x : Ingest) (s : State) : (putIngest i x s).clk = s.clk := rfl
@[simp] theorem putIngest_host (i : Nat) (x : Ingest) (s : State) : (putIngest i x s).host = s.host := rfl
@[simp] theorem putIngest_own (i : Nat) (x : Ingest) (s : State) : (putIngest i x s).own = s.own := rfl
@[simp] theorem putIngest_cp (i : Nat) (x : Ingest) (s : State) : (putIngest i x s).cp = s.cp := rfl
@[simp] theorem putIngest_evc (i : Nat) (x : Ingest) (s : State) : (putIngest i x s).evc = s.evc := rfl
@[simp] theorem putIngest_mm (i : Nat) (x : Ingest) (s : State) : (putIngest i x s).mm = s.mm := rfl
@[simp] theorem putIngest_fs (i : Nat) (x : Ingest) (s : State) : (putIngest i x s).fs = s.fs := rfl
@[simp] theorem putIngest_pn (i : Nat) (x : Ingest) (s : State) : (putIngest i x s).pn = s.pn := rfl
@[simp] theorem putIngest_col (i : Nat) (x : Ingest) (s : State) : (putIngest i x s).col = s.col := rfl
@[simp] theorem putIngest_key (i : Nat) (x : Ingest) (s : State) : (putIngest i x s).key = s.key := rfl
@[simp] theorem putIngest_rg (i : Nat) (x : Ingest) (s : State) : (putIngest i x s).rg = s.rg := rfl
@[simp] theorem putIngest_un (i : Nat) (x : Ingest) (s : State) : (putIngest i x s).un = s.un := rfl
@[simp] theorem putIngest_ts (i : Nat) (x : Ingest) (s : State) : (putIngest i x s).ts = s.ts := rfl
@[simp] theorem putIngest_cf (i : Nat) (x : Ingest) (s : State) : (putIngest i x s).cf = s.cf := rfl
@[simp] theorem putIngest_tk (i : Nat) (x : Ingest) (s : State) : (putIngest i x s).tk = s.tk := rfl
@[simp] theorem putIngest_bl (i : Nat) (x : Ingest) (s : State) : (putIngest i x s).bl = s.bl := rfl
@[simp] theorem putIngest_hd (i : Nat) (x : Ingest) (s : State) : (putIngest i x s).hd = s.hd := rfl
@[simp] theorem putIngest_pmu (i : Nat) (x : Ingest) (s : State) : (putIngest i x s).pmu = s.pmu := rfl
@[simp] theorem putIngest_rel (i : Nat) (x : Ingest) (s : State) : (putIngest i x s).rel = s.rel := rfl
@[simp] theorem putIngest_pins (i : Nat) (x : Ingest) (s : State) : (putIngest i x s).pins = s.pins := rfl
@[simp] theorem putIngest_prior (i : Nat) (x : Ingest) (s : State) : (putIngest i x s).prior = s.prior := rfl

/-! ### putEgress -/

@[simp] theorem putEgress_pending (i : Nat) (x : Egress) (s : State) : (putEgress i x s).pending = s.pending := rfl
@[simp] theorem putEgress_out (i : Nat) (x : Egress) (s : State) : (putEgress i x s).out = s.out := rfl
@[simp] theorem putEgress_fresh (i : Nat) (x : Egress) (s : State) : (putEgress i x s).fresh = s.fresh := rfl
@[simp] theorem putEgress_clk (i : Nat) (x : Egress) (s : State) : (putEgress i x s).clk = s.clk := rfl
@[simp] theorem putEgress_host (i : Nat) (x : Egress) (s : State) : (putEgress i x s).host = s.host := rfl
@[simp] theorem putEgress_own (i : Nat) (x : Egress) (s : State) : (putEgress i x s).own = s.own := rfl
@[simp] theorem putEgress_cp (i : Nat) (x : Egress) (s : State) : (putEgress i x s).cp = s.cp := rfl
@[simp] theorem putEgress_evc (i : Nat) (x : Egress) (s : State) : (putEgress i x s).evc = s.evc := rfl
@[simp] theorem putEgress_mm (i : Nat) (x : Egress) (s : State) : (putEgress i x s).mm = s.mm := rfl
@[simp] theorem putEgress_fs (i : Nat) (x : Egress) (s : State) : (putEgress i x s).fs = s.fs := rfl
@[simp] theorem putEgress_pn (i : Nat) (x : Egress) (s : State) : (putEgress i x s).pn = s.pn := rfl
@[simp] theorem putEgress_col (i : Nat) (x : Egress) (s : State) : (putEgress i x s).col = s.col := rfl
@[simp] theorem putEgress_key (i : Nat) (x : Egress) (s : State) : (putEgress i x s).key = s.key := rfl
@[simp] theorem putEgress_rg (i : Nat) (x : Egress) (s : State) : (putEgress i x s).rg = s.rg := rfl
@[simp] theorem putEgress_un (i : Nat) (x : Egress) (s : State) : (putEgress i x s).un = s.un := rfl
@[simp] theorem putEgress_ts (i : Nat) (x : Egress) (s : State) : (putEgress i x s).ts = s.ts := rfl
@[simp] theorem putEgress_cf (i : Nat) (x : Egress) (s : State) : (putEgress i x s).cf = s.cf := rfl
@[simp] theorem putEgress_tk (i : Nat) (x : Egress) (s : State) : (putEgress i x s).tk = s.tk := rfl
@[simp] theorem putEgress_bl (i : Nat) (x : Egress) (s : State) : (putEgress i x s).bl = s.bl := rfl
@[simp] theorem putEgress_hd (i : Nat) (x : Egress) (s : State) : (putEgress i x s).hd = s.hd := rfl
@[simp] theorem putEgress_pmu (i : Nat) (x : Egress) (s : State) : (putEgress i x s).pmu = s.pmu := rfl
@[simp] theorem putEgress_rel (i : Nat) (x : Egress) (s : State) : (putEgress i x s).rel = s.rel := rfl
@[simp] theorem putEgress_pins (i : Nat) (x : Egress) (s : State) : (putEgress i x s).pins = s.pins := rfl
@[simp] theorem putEgress_prior (i : Nat) (x : Egress) (s : State) : (putEgress i x s).prior = s.prior := rfl

/-! ### putQueue -/

@[simp] theorem putQueue_pending (i : Nat) (x : TsQueue) (s : State) : (putQueue i x s).pending = s.pending := rfl
@[simp] theorem putQueue_out (i : Nat) (x : TsQueue) (s : State) : (putQueue i x s).out = s.out := rfl
@[simp] theorem putQueue_fresh (i : Nat) (x : TsQueue) (s : State) : (putQueue i x s).fresh = s.fresh := rfl
@[simp] theorem putQueue_clk (i : Nat) (x : TsQueue) (s : State) : (putQueue i x s).clk = s.clk := rfl
@[simp] theorem putQueue_host (i : Nat) (x : TsQueue) (s : State) : (putQueue i x s).host = s.host := rfl
@[simp] theorem putQueue_own (i : Nat) (x : TsQueue) (s : State) : (putQueue i x s).own = s.own := rfl
@[simp] theorem putQueue_cp (i : Nat) (x : TsQueue) (s : State) : (putQueue i x s).cp = s.cp := rfl
@[simp] theorem putQueue_evc (i : Nat) (x : TsQueue) (s : State) : (putQueue i x s).evc = s.evc := rfl
@[simp] theorem putQueue_mm (i : Nat) (x : TsQueue) (s : State) : (putQueue i x s).mm = s.mm := rfl
@[simp] theorem putQueue_fs (i : Nat) (x : TsQueue) (s : State) : (putQueue i x s).fs = s.fs := rfl
@[simp] theorem putQueue_pn (i : Nat) (x : TsQueue) (s : State) : (putQueue i x s).pn = s.pn := rfl
@[simp] theorem putQueue_col (i : Nat) (x : TsQueue) (s : State) : (putQueue i x s).col = s.col := rfl
@[simp] theorem putQueue_key (i : Nat) (x : TsQueue) (s : State) : (putQueue i x s).key = s.key := rfl
@[simp] theorem putQueue_rg (i : Nat) (x : TsQueue) (s : State) : (putQueue i x s).rg = s.rg := rfl
@[simp] theorem putQueue_un (i : Nat) (x : TsQueue) (s : State) : (putQueue i x s).un = s.un := rfl
@[simp] theorem putQueue_ne (i : Nat) (x : TsQueue) (s : State) : (putQueue i x s).ne = s.ne := rfl
@[simp] theorem putQueue_cf (i : Nat) (x : TsQueue) (s : State) : (putQueue i x s).cf = s.cf := rfl
@[simp] theorem putQueue_tk (i : Nat) (x : TsQueue) (s : State) : (putQueue i x s).tk = s.tk := rfl
@[simp] theorem putQueue_bl (i : Nat) (x : TsQueue) (s : State) : (putQueue i x s).bl = s.bl := rfl
@[simp] theorem putQueue_hd (i : Nat) (x : TsQueue) (s : State) : (putQueue i x s).hd = s.hd := rfl
@[simp] theorem putQueue_pmu (i : Nat) (x : TsQueue) (s : State) : (putQueue i x s).pmu = s.pmu := rfl
@[simp] theorem putQueue_rel (i : Nat) (x : TsQueue) (s : State) : (putQueue i x s).rel = s.rel := rfl
@[simp] theorem putQueue_pins (i : Nat) (x : TsQueue) (s : State) : (putQueue i x s).pins = s.pins := rfl
@[simp] theorem putQueue_prior (i : Nat) (x : TsQueue) (s : State) : (putQueue i x s).prior = s.prior := rfl

/-! ### putTsPort -/

@[simp] theorem putTsPort_pending (i : Nat) (x : TsPort) (s : State) : (putTsPort i x s).pending = s.pending := rfl
@[simp] theorem putTsPort_out (i : Nat) (x : TsPort) (s : State) : (putTsPort i x s).out = s.out := rfl
@[simp] theorem putTsPort_fresh (i : Nat) (x : TsPort) (s : State) : (putTsPort i x s).fresh = s.fresh := rfl
@[simp] theorem putTsPort_clk (i : Nat) (x : TsPort) (s : State) : (putTsPort i x s).clk = s.clk := rfl
@[simp] theorem putTsPort_host (i : Nat) (x : TsPort) (s : State) : (putTsPort i x s).host = s.host := rfl
@[simp] theorem putTsPort_own (i : Nat) (x : TsPort) (s : State) : (putTsPort i x s).own = s.own := rfl
@[simp] theorem putTsPort_cp (i : Nat) (x : TsPort) (s : State) : (putTsPort i x s).cp = s.cp := rfl
@[simp] theorem putTsPort_evc (i : Nat) (x : TsPort) (s : State) : (putTsPort i x s).evc = s.evc := rfl
@[simp] theorem putTsPort_mm (i : Nat) (x : TsPort) (s : State) : (putTsPort i x s).mm = s.mm := rfl
@[simp] theorem putTsPort_fs (i : Nat) (x : TsPort) (s : State) : (putTsPort i x s).fs = s.fs := rfl
@[simp] theorem putTsPort_pn (i : Nat) (x : TsPort) (s : State) : (putTsPort i x s).pn = s.pn := rfl
@[simp] theorem putTsPort_col (i : Nat) (x : TsPort) (s : State) : (putTsPort i x s).col = s.col := rfl
@[simp] theorem putTsPort_key (i : Nat) (x : TsPort) (s : State) : (putTsPort i x s).key = s.key := rfl
@[simp] theorem putTsPort_rg (i : Nat) (x : TsPort) (s : State) : (putTsPort i x s).rg = s.rg := rfl
@[simp] theorem putTsPort_un (i : Nat) (x : TsPort) (s : State) : (putTsPort i x s).un = s.un := rfl
@[simp] theorem putTsPort_ne (i : Nat) (x : TsPort) (s : State) : (putTsPort i x s).ne = s.ne := rfl
@[simp] theorem putTsPort_cf (i : Nat) (x : TsPort) (s : State) : (putTsPort i x s).cf = s.cf := rfl
@[simp] theorem putTsPort_tk (i : Nat) (x : TsPort) (s : State) : (putTsPort i x s).tk = s.tk := rfl
@[simp] theorem putTsPort_bl (i : Nat) (x : TsPort) (s : State) : (putTsPort i x s).bl = s.bl := rfl
@[simp] theorem putTsPort_hd (i : Nat) (x : TsPort) (s : State) : (putTsPort i x s).hd = s.hd := rfl
@[simp] theorem putTsPort_pmu (i : Nat) (x : TsPort) (s : State) : (putTsPort i x s).pmu = s.pmu := rfl
@[simp] theorem putTsPort_rel (i : Nat) (x : TsPort) (s : State) : (putTsPort i x s).rel = s.rel := rfl
@[simp] theorem putTsPort_pins (i : Nat) (x : TsPort) (s : State) : (putTsPort i x s).pins = s.pins := rfl
@[simp] theorem putTsPort_prior (i : Nat) (x : TsPort) (s : State) : (putTsPort i x s).prior = s.prior := rfl

/-! ### putMeter -/

@[simp] theorem putMeter_pending (i : Nat) (x : Meter) (s : State) : (putMeter i x s).pending = s.pending := rfl
@[simp] theorem putMeter_out (i : Nat) (x : Meter) (s : State) : (putMeter i x s).out = s.out := rfl
@[simp] theorem putMeter_fresh (i : Nat) (x : Meter) (s : State) : (putMeter i x s).fresh = s.fresh := rfl
@[simp] theorem putMeter_clk (i : Nat) (x : Meter) (s : State) : (putMeter i x s).clk = s.clk := rfl
@[simp] theorem putMeter_host (i : Nat) (x : Meter) (s : State) : (putMeter i x s).host = s.host := rfl
@[simp] theorem putMeter_own (i : Nat) (x : Meter) (s : State) : (putMeter i x s).own = s.own := rfl
@[simp] theorem putMeter_cp (i : Nat) (x : Meter) (s : State) : (putMeter i x s).cp = s.cp := rfl
@[simp] theorem putMeter_evc (i : Nat) (x : Meter) (s : State) : (putMeter i x s).evc = s.evc := rfl
@[simp] theorem putMeter_mm (i : Nat) (x : Meter) (s : State) : (putMeter i x s).mm = s.mm := rfl
@[simp] theorem putMeter_fs (i : Nat) (x : Meter) (s : State) : (putMeter i x s).fs = s.fs := rfl
@[simp] theorem putMeter_pn (i : Nat) (x : Meter) (s : State) : (putMeter i x s).pn = s.pn := rfl
@[simp] theorem putMeter_col (i : Nat) (x : Meter) (s : State) : (putMeter i x s).col = s.col := rfl
@[simp] theorem putMeter_key (i : Nat) (x : Meter) (s : State) : (putMeter i x s).key = s.key := rfl
@[simp] theorem putMeter_rg (i : Nat) (x : Meter) (s : State) : (putMeter i x s).rg = s.rg := rfl
@[simp] theorem putMeter_un (i : Nat) (x : Meter) (s : State) : (putMeter i x s).un = s.un := rfl
@[simp] theorem putMeter_ne (i : Nat) (x : Meter) (s : State) : (putMeter i x s).ne = s.ne := rfl
@[simp] theorem putMeter_cf (i : Nat) (x : Meter) (s : State) : (putMeter i x s).cf = s.cf := rfl
@[simp] theorem putMeter_tk (i : Nat) (x : Meter) (s : State) : (putMeter i x s).tk = s.tk := rfl
@[simp] theorem putMeter_bl (i : Nat) (x : Meter) (s : State) : (putMeter i x s).bl = s.bl := rfl
@[simp] theorem putMeter_hd (i : Nat) (x : Meter) (s : State) : (putMeter i x s).hd = s.hd := rfl
@[simp] theorem putMeter_pmu (i : Nat) (x : Meter) (s : State) : (putMeter i x s).pmu = s.pmu := rfl
@[simp] theorem putMeter_rel (i : Nat) (x : Meter) (s : State) : (putMeter i x s).rel = s.rel := rfl
@[simp] theorem putMeter_pins (i : Nat) (x : Meter) (s : State) : (putMeter i x s).pins = s.pins := rfl
@[simp] theorem putMeter_prior (i : Nat) (x : Meter) (s : State) : (putMeter i x s).prior = s.prior := rfl

/-! ### putLink -/

@[simp] theorem putLink_pending (i : Nat) (x : CfLink) (s : State) : (putLink i x s).pending = s.pending := rfl
@[simp] theorem putLink_out (i : Nat) (x : CfLink) (s : State) : (putLink i x s).out = s.out := rfl
@[simp] theorem putLink_fresh (i : Nat) (x : CfLink) (s : State) : (putLink i x s).fresh = s.fresh := rfl
@[simp] theorem putLink_clk (i : Nat) (x : CfLink) (s : State) : (putLink i x s).clk = s.clk := rfl
@[simp] theorem putLink_host (i : Nat) (x : CfLink) (s : State) : (putLink i x s).host = s.host := rfl
@[simp] theorem putLink_own (i : Nat) (x : CfLink) (s : State) : (putLink i x s).own = s.own := rfl
@[simp] theorem putLink_cp (i : Nat) (x : CfLink) (s : State) : (putLink i x s).cp = s.cp := rfl
@[simp] theorem putLink_evc (i : Nat) (x : CfLink) (s : State) : (putLink i x s).evc = s.evc := rfl
@[simp] theorem putLink_mm (i : Nat) (x : CfLink) (s : State) : (putLink i x s).mm = s.mm := rfl
@[simp] theorem putLink_fs (i : Nat) (x : CfLink) (s : State) : (putLink i x s).fs = s.fs := rfl
@[simp] theorem putLink_pn (i : Nat) (x : CfLink) (s : State) : (putLink i x s).pn = s.pn := rfl
@[simp] theorem putLink_col (i : Nat) (x : CfLink) (s : State) : (putLink i x s).col = s.col := rfl
@[simp] theorem putLink_key (i : Nat) (x : CfLink) (s : State) : (putLink i x s).key = s.key := rfl
@[simp] theorem putLink_rg (i : Nat) (x : CfLink) (s : State) : (putLink i x s).rg = s.rg := rfl
@[simp] theorem putLink_un (i : Nat) (x : CfLink) (s : State) : (putLink i x s).un = s.un := rfl
@[simp] theorem putLink_ne (i : Nat) (x : CfLink) (s : State) : (putLink i x s).ne = s.ne := rfl
@[simp] theorem putLink_ts (i : Nat) (x : CfLink) (s : State) : (putLink i x s).ts = s.ts := rfl
@[simp] theorem putLink_tk (i : Nat) (x : CfLink) (s : State) : (putLink i x s).tk = s.tk := rfl
@[simp] theorem putLink_bl (i : Nat) (x : CfLink) (s : State) : (putLink i x s).bl = s.bl := rfl
@[simp] theorem putLink_hd (i : Nat) (x : CfLink) (s : State) : (putLink i x s).hd = s.hd := rfl
@[simp] theorem putLink_pmu (i : Nat) (x : CfLink) (s : State) : (putLink i x s).pmu = s.pmu := rfl
@[simp] theorem putLink_rel (i : Nat) (x : CfLink) (s : State) : (putLink i x s).rel = s.rel := rfl
@[simp] theorem putLink_pins (i : Nat) (x : CfLink) (s : State) : (putLink i x s).pins = s.pins := rfl
@[simp] theorem putLink_prior (i : Nat) (x : CfLink) (s : State) : (putLink i x s).prior = s.prior := rfl

/-! ### putHd -/

@[simp] theorem putHd_pending (i : Nat) (x : HdChan) (s : State) : (putHd i x s).pending = s.pending := rfl
@[simp] theorem putHd_out (i : Nat) (x : HdChan) (s : State) : (putHd i x s).out = s.out := rfl
@[simp] theorem putHd_fresh (i : Nat) (x : HdChan) (s : State) : (putHd i x s).fresh = s.fresh := rfl
@[simp] theorem putHd_clk (i : Nat) (x : HdChan) (s : State) : (putHd i x s).clk = s.clk := rfl
@[simp] theorem putHd_host (i : Nat) (x : HdChan) (s : State) : (putHd i x s).host = s.host := rfl
@[simp] theorem putHd_own (i : Nat) (x : HdChan) (s : State) : (putHd i x s).own = s.own := rfl
@[simp] theorem putHd_cp (i : Nat) (x : HdChan) (s : State) : (putHd i x s).cp = s.cp := rfl
@[simp] theorem putHd_evc (i : Nat) (x : HdChan) (s : State) : (putHd i x s).evc = s.evc := rfl
@[simp] theorem putHd_mm (i : Nat) (x : HdChan) (s : State) : (putHd i x s).mm = s.mm := rfl
@[simp] theorem putHd_fs (i : Nat) (x : HdChan) (s : State) : (putHd i x s).fs = s.fs := rfl
@[simp] theorem putHd_pn (i : Nat) (x : HdChan) (s : State) : (putHd i x s).pn = s.pn := rfl
@[simp] theorem putHd_col (i : Nat) (x : HdChan) (s : State) : (putHd i x s).col = s.col := rfl
@[simp] theorem putHd_key (i : Nat) (x : HdChan) (s : State) : (putHd i x s).key = s.key := rfl
@[simp] theorem putHd_rg (i : Nat) (x : HdChan) (s : State) : (putHd i x s).rg = s.rg := rfl
@[simp] theorem putHd_un (i : Nat) (x : HdChan) (s : State) : (putHd i x s).un = s.un := rfl
@[simp] theorem putHd_ne (i : Nat) (x : HdChan) (s : State) : (putHd i x s).ne = s.ne := rfl
@[simp] theorem putHd_ts (i : Nat) (x : HdChan) (s : State) : (putHd i x s).ts = s.ts := rfl
@[simp] theorem putHd_cf (i : Nat) (x : HdChan) (s : State) : (putHd i x s).cf = s.cf := rfl
@[simp] theorem putHd_tk (i : Nat) (x : HdChan) (s : State) : (putHd i x s).tk = s.tk := rfl
@[simp] theorem putHd_bl (i : Nat) (x : HdChan) (s : State) : (putHd i x s).bl = s.bl := rfl
@[simp] theorem putHd_pmu (i : Nat) (x : HdChan) (s : State) : (putHd i x s).pmu = s.pmu := rfl
@[simp] theorem putHd_rel (i : Nat) (x : HdChan) (s : State) : (putHd i x s).rel = s.rel := rfl
@[simp] theorem putHd_pins (i : Nat) (x : HdChan) (s : State) : (putHd i x s).pins = s.pins := rfl
@[simp] theorem putHd_prior (i : Nat) (x : HdChan) (s : State) : (putHd i x s).prior = s.prior := rfl

/-! ### ltrAdd -/

@[simp] theorem ltrAdd_pending (i x : Nat) (s : State) : (ltrAdd i x s).pending = s.pending := rfl
@[simp] theorem ltrAdd_out (i x : Nat) (s : State) : (ltrAdd i x s).out = s.out := rfl
@[simp] theorem ltrAdd_fresh (i x : Nat) (s : State) : (ltrAdd i x s).fresh = s.fresh := rfl
@[simp] theorem ltrAdd_clk (i x : Nat) (s : State) : (ltrAdd i x s).clk = s.clk := rfl
@[simp] theorem ltrAdd_host (i x : Nat) (s : State) : (ltrAdd i x s).host = s.host := rfl
@[simp] theorem ltrAdd_own (i x : Nat) (s : State) : (ltrAdd i x s).own = s.own := rfl
@[simp] theorem ltrAdd_cp (i x : Nat) (s : State) : (ltrAdd i x s).cp = s.cp := rfl
@[simp] theorem ltrAdd_evc (i x : Nat) (s : State) : (ltrAdd i x s).evc = s.evc := rfl
@[simp] theorem ltrAdd_mm (i x : Nat) (s : State) : (ltrAdd i x s).mm = s.mm := rfl
@[simp] theorem ltrAdd_fs (i x : Nat) (s : State) : (ltrAdd i x s).fs = s.fs := rfl
@[simp] theorem ltrAdd_pn (i x : Nat) (s : State) : (ltrAdd i x s).pn = s.pn := rfl
@[simp] theorem ltrAdd_col (i x : Nat) (s : State) : (ltrAdd i x s).col = s.col := rfl
@[simp] theorem ltrAdd_key (i x : Nat) (s : State) : (ltrAdd i x s).key = s.key := rfl
@[simp] theorem ltrAdd_rg (i x : Nat) (s : State) : (ltrAdd i x s).rg = s.rg := rfl
@[simp] theorem ltrAdd_un (i x : Nat) (s : State) : (ltrAdd i x s).un = s.un := rfl
@[simp] theorem ltrAdd_ne (i x : Nat) (s : State) : (ltrAdd i x s).ne = s.ne := rfl
@[simp] theorem ltrAdd_ts (i x : Nat) (s : State) : (ltrAdd i x s).ts = s.ts := rfl
@[simp] theorem ltrAdd_cf (i x : Nat) (s : State) : (ltrAdd i x s).cf = s.cf := rfl
@[simp] theorem ltrAdd_tk (i x : Nat) (s : State) : (ltrAdd i x s).tk = s.tk := rfl
@[simp] theorem ltrAdd_bl (i x : Nat) (s : State) : (ltrAdd i x s).bl = s.bl := rfl
@[simp] theorem ltrAdd_hd (i x : Nat) (s : State) : (ltrAdd i x s).hd = s.hd := rfl
@[simp] theorem ltrAdd_pmu (i x : Nat) (s : State) : (ltrAdd i x s).pmu = s.pmu := rfl
@[simp] theorem ltrAdd_pins (i x : Nat) (s : State) : (ltrAdd i x s).pins = s.pins := rfl
@[simp] theorem ltrAdd_prior (i x : Nat) (s : State) : (ltrAdd i x s).prior = s.prior := rfl

/-! ### noteSet -/

@[simp] theorem noteSet_pending (key i : Nat) (s : State) : (noteSet key i s).pending = s.pending := rfl
@[simp] theorem noteSet_out (key i : Nat) (s : State) : (noteSet key i s).out = s.out := rfl
@[simp] theorem noteSet_fresh (key i : Nat) (s : State) : (noteSet key i s).fresh = s.fresh := rfl
@[simp] theorem noteSet_clk (key i : Nat) (s : State) : (noteSet key i s).clk = s.clk := rfl
@[simp] theorem noteSet_host (key i : Nat) (s : State) : (noteSet key i s).host = s.host := rfl
@[simp] theorem noteSet_own (key i : Nat) (s : State) : (noteSet key i s).own = s.own := rfl
@[simp] theorem noteSet_cp (key i : Nat) (s : State) : (noteSet key i s).cp = s.cp := rfl
@[simp] theorem noteSet_evc (key i : Nat) (s : State) : (noteSet key i s).evc = s.evc := rfl
@[simp] theorem noteSet_mm (key i : Nat) (s : State) : (noteSet key i s).mm = s.mm := rfl
@[simp] theorem noteSet_fs (key i : Nat) (s : State) : (noteSet key i s).fs = s.fs := rfl
@[simp] theorem noteSet_pn (key i : Nat) (s : State) : (noteSet key i s).pn = s.pn := rfl
@[simp] theorem noteSet_col (key i : Nat) (s : State) : (noteSet key i s).col = s.col := rfl
@[simp] theorem noteSet_key (key i : Nat) (s : State) : (noteSet key i s).key = s.key := rfl
@[simp] theorem noteSet_rg (key i : Nat) (s : State) : (noteSet key i s).rg = s.rg := rfl
@[simp] theorem noteSet_un (key i : Nat) (s : State) : (noteSet key i s).un = s.un := rfl
@[simp] theorem noteSet_ne (key i : Nat) (s : State) : (noteSet key i s).ne = s.ne := rfl
@[simp] theorem noteSet_ts (key i : Nat) (s : State) : (noteSet key i s).ts = s.ts := rfl
@[simp] theorem noteSet_cf (key i : Nat) (s : State) : (noteSet key i s).cf = s.cf := rfl
@[simp] theorem noteSet_tk (key i : Nat) (s : State) : (noteSet key i s).tk = s.tk := rfl
@[simp] theorem noteSet_bl (key i : Nat) (s : State) : (noteSet key i s).bl = s.bl := rfl
@[simp] theorem noteSet_hd (key i : Nat) (s : State) : (noteSet key i s).hd = s.hd := rfl
@[simp] theorem noteSet_pmu (key i : Nat) (s : State) : (noteSet key i s).pmu = s.pmu := rfl
@[simp] theorem noteSet_rel (key i : Nat) (s : State) : (noteSet key i s).rel = s.rel := rfl
@[simp] theorem noteSet_pins (key i : Nat) (s : State) : (noteSet key i s).pins = s.pins := rfl

/-! ### Free values -/

@[simp] theorem takeFree_pending (s : State) : (takeFree s).2.pending = s.pending := rfl
@[simp] theorem takeFree_out (s : State) : (takeFree s).2.out = s.out := rfl
@[simp] theorem takeFree_clk (s : State) : (takeFree s).2.clk = s.clk := rfl
@[simp] theorem takeFree_host (s : State) : (takeFree s).2.host = s.host := rfl
@[simp] theorem takeFree_own (s : State) : (takeFree s).2.own = s.own := rfl
@[simp] theorem takeFree_cp (s : State) : (takeFree s).2.cp = s.cp := rfl
@[simp] theorem takeFree_evc (s : State) : (takeFree s).2.evc = s.evc := rfl
@[simp] theorem takeFree_mm (s : State) : (takeFree s).2.mm = s.mm := rfl
@[simp] theorem takeFree_fs (s : State) : (takeFree s).2.fs = s.fs := rfl
@[simp] theorem takeFree_pn (s : State) : (takeFree s).2.pn = s.pn := rfl
@[simp] theorem takeFree_col (s : State) : (takeFree s).2.col = s.col := rfl
@[simp] theorem takeFree_key (s : State) : (takeFree s).2.key = s.key := rfl
@[simp] theorem takeFree_rg (s : State) : (takeFree s).2.rg = s.rg := rfl
@[simp] theorem takeFree_un (s : State) : (takeFree s).2.un = s.un := rfl
@[simp] theorem takeFree_ne (s : State) : (takeFree s).2.ne = s.ne := rfl
@[simp] theorem takeFree_ts (s : State) : (takeFree s).2.ts = s.ts := rfl
@[simp] theorem takeFree_cf (s : State) : (takeFree s).2.cf = s.cf := rfl
@[simp] theorem takeFree_tk (s : State) : (takeFree s).2.tk = s.tk := rfl
@[simp] theorem takeFree_bl (s : State) : (takeFree s).2.bl = s.bl := rfl
@[simp] theorem takeFree_hd (s : State) : (takeFree s).2.hd = s.hd := rfl
@[simp] theorem takeFree_pmu (s : State) : (takeFree s).2.pmu = s.pmu := rfl
@[simp] theorem takeFree_rel (s : State) : (takeFree s).2.rel = s.rel := rfl
@[simp] theorem takeFree_pins (s : State) : (takeFree s).2.pins = s.pins := rfl
@[simp] theorem takeFree_prior (s : State) : (takeFree s).2.prior = s.prior := rfl

end Sys2Proof.Laws
end

