-- ==== Sys2Proof/Tests/Setup.lean ====
section
/-! SUPPORT. Small states, packets and checks for the tests: a device that is ready with its link up, packets whose
parameters are given as pairs of a byte offset and a value, and the premises of the statements as one Bool. -/
namespace Sys2Proof.Tests
open Sys2Proof Sys2Proof.Machine

/-- Ready, in P0, PF0 enabled on a link that is up, every channel in service. -/
def ready : State :=
  { State.reset with
    pmu := { State.reset.pmu with stage := 5, por := false, inReset := false }
    host := { State.reset.host with linkUp := true, bme := 1, mse := 1 }
    mm := { State.reset.mm with live := 0xFFFF, chan := (List.range 16).map fun n => (n, 0) } }

/-- A packet of PF0 with 48 parameter bytes; each pair gives a value at a byte offset. -/
def pk (l : List (Nat × Nat)) : Packet :=
  { plen := 48, params := leBytes 48 (sumOf (l.map fun e => e.2 * 256 ^ e.1)) }

/-- A packet of an empty FIFO, taken at tick 0. -/
def entryOf (op : Nat) (p : Packet) (s : State) : Entry :=
  { opcode := op, pkt := p, arrived := (advance 0 s).clk.ticks, taken := (advance 0 s).clk.ticks }

/-- A packet of an empty FIFO is taken at tick 0. -/
def takes (op : Nat) (p : Packet) (s : State) : Bool :=
  isRunning (advance 0 s) && (p.origin.isSome || functionOn (advance 0 s) p.func) && (heldAt op p (advance 0 s)).isNone
    && !fenceHolds (advance 0 s) p && !flushPending (advance 0 s) p && s.cp.fifo.isEmpty

theorem takes_taken {op : Nat} {p : Packet} {s : State} (h : takes op p s = true) :
    Taken op 0 p s (entryOf op p s) (advance 0 s) := by
  unfold takes at h
  simp only [Bool.and_eq_true, Bool.or_eq_true, Bool.not_eq_true', List.isEmpty_iff, Option.isNone_iff_eq_none] at h
  obtain ⟨⟨⟨⟨⟨h1, h2⟩, h3⟩, h4⟩, h5⟩, h6⟩ := h
  refine ⟨h1, ?_, h3, ?_⟩
  · intro ho
    rcases h2 with h2 | h2
    · simp [ho] at h2
    · exact h2
  · unfold takeEntry
    have e : (advance 0 s).cp.fifo = [] := h6
    rw [if_neg (by simp [h4, h5]), e]
    rfl

/-- A packet of an empty FIFO runs at once at tick 0. -/
def runsAt (sp : CmdSpec) (p : Packet) (s : State) : Bool :=
  takes sp.opcode p s && stays p (advance 0 s) && !p.atTime
    && begins sp (entryOf sp.opcode p s) (readBlock p (advance 0 s))

/-- A packet runs, and its premises hold of the state that it runs on. -/
def meets (sp : CmdSpec) (p : Packet) (s : State) (more : State → Bool) : Bool :=
  runsAt sp p s && more (readBlock p (advance 0 s))

theorem meets_runs {sp : CmdSpec} {p : Packet} {s : State} {more : State → Bool} (h : meets sp p s more = true) :
    ∃ e s0, Runs sp 0 p s e s0 ∧ more s0 = true := by
  unfold meets runsAt at h
  simp only [Bool.and_eq_true, Bool.not_eq_true'] at h
  obtain ⟨⟨⟨⟨h1, h2⟩, h3⟩, h4⟩, h5⟩ := h
  exact ⟨_, _, ⟨_, takes_taken h1, h2, h3, rfl, h4⟩, h5⟩

/-- An event acts at tick 0, and its premises hold of the state that it acts on. -/
def occurs (s : State) (more : State → Bool) : Bool := isRunning (advance 0 s) && more (advance 0 s)

theorem occurs_acts {s : State} {more : State → Bool} (h : occurs s more = true) :
    ∃ s1, Occurs 0 s s1 ∧ more s1 = true := by
  unfold occurs at h
  rw [Bool.and_eq_true] at h
  exact ⟨_, ⟨rfl, h.1⟩, h.2⟩

/-- An access of function f reaches its registers at tick 0, and its premises hold. -/
def reaches (f : Nat) (s : State) (more : State → Bool) : Bool :=
  hostReaches (advance 0 s) f && mseOf (advance 0 s) f && isReady (advance 0 s) && more (advance 0 s)

theorem reaches_acts {f : Nat} {s : State} {more : State → Bool} (h : reaches f s more = true) :
    ∃ s1, Reaches 0 f s s1 ∧ more s1 = true := by
  unfold reaches at h
  simp only [Bool.and_eq_true] at h
  exact ⟨_, ⟨rfl, h.1.1.1, h.1.1.2, h.1.2⟩, h.2⟩

/-- A flit as it arrives on a link. -/
def flitOf (link fseq : Nat) (f : Flit) : FlitRx := { link := link, image := flitImage f fseq 0 0 0 }

/-- A flit is taken by the link in a state, and the premises hold of the state that it leaves. -/
def lands (x : FlitRx) (types : List Nat) (s : State) (more : State → Bool) : Bool :=
  let l := takeHeader x (linkOf s x.link)
  decide (x.link < 4) && (linkOf s x.link).enabled && !(linkOf s x.link).retraining
    && ((linkOf s x.link).up || (linkLocal x.ty && (linkOf s x.link).bringup.isSome))
    && types.contains x.ty && x.ty != 0 && flitTypeOk x.vc x.ty && x.fseq == l.expect
    && staysHere s x
    && more (putLink x.link { l with expect := (l.expect + 1) % 65536, rxflit := (l.rxflit + 1) % 2 ^ 64,
                                     owed := Tbl.upd l.owed 0 x.vc (· + 1) } s)

theorem lands_acts {x : FlitRx} {types : List Nat} {s : State} {more : State → Bool}
    (h : lands x types s more = true) : ∃ s1, Lands x types s s1 ∧ more s1 = true := by
  unfold lands at h
  simp only [Bool.and_eq_true, Bool.or_eq_true, Bool.not_eq_true', decide_eq_true_eq, List.contains_iff_mem, bne_iff_ne,
    beq_iff_eq] at h
  obtain ⟨⟨⟨⟨⟨⟨⟨⟨⟨h1, h2⟩, h3⟩, h4⟩, h5⟩, h6⟩, h7⟩, h8⟩, h9⟩, h10⟩ := h
  exact ⟨_, ⟨h1, h2, h3, h4, h5, h6, h7, h8, h9, rfl⟩, h10⟩

/-- A flit of a stream arrives, and the premises hold of the state once the flits that waited have gone on. -/
def arrives (f : InFlit) (s : State) (more : State → Bool) : Bool :=
  lands f.flit [f.flit.ty] s fun s2 => more (drainFlits s2)

theorem arrives_acts {f : InFlit} {s : State} {more : State → Bool} (h : arrives f s more = true) :
    ∃ s1, Arrives f s s1 ∧ more s1 = true := by
  obtain ⟨s2, h1, h2⟩ := lands_acts h
  exact ⟨_, ⟨s2, h1, rfl⟩, h2⟩

/-- A flit that has arrived acts at once. -/
def goes (f : InFlit) (s : State) : Bool := !s.cf.inbuf.any (fun y => streamOf y == streamOf f) && flitServed s f

theorem goes_acts {f : InFlit} {s : State} (h : goes f s = true) : Goes f s := by
  unfold goes at h
  rw [Bool.and_eq_true] at h
  exact ⟨by simpa using h.1, h.2⟩

/-- Some position is given where there is one. -/
theorem placeAt_some {n k : Nat} {l : List (Nat × Nat)} (h : k < placeCount n l) : (placeAt n k l).isSome = true := by
  induction l generalizing k with
  | nil => simp [placeCount, sumOf] at h
  | cons e l ih =>
    obtain ⟨a, b⟩ := e
    have hc : placeCount n ((a, b) :: l)
        = (if a + n ≤ b then (b - a - n) / 4096 + 1 else 0) + placeCount n l := by
      have key : ∀ (m : List Nat) (x : Nat), m.foldl (· + ·) x = x + m.foldl (· + ·) 0 := by
        intro m
        induction m with
        | nil => simp
        | cons y m ih => intro x; rw [List.foldl_cons, List.foldl_cons, ih, ih (0 + y)]; omega
      unfold placeCount sumOf
      rw [List.map_cons, List.foldl_cons, key]
      dsimp only
      omega
    unfold placeAt
    split
    · rename_i hf
      rw [hc, if_pos hf] at h
      dsimp only
      split
      · rfl
      · exact ih (by omega)
    · rename_i hf
      rw [hc, if_neg hf] at h
      exact ih (by omega)

/-- Space is found where there is some. -/
theorem allocate_some {skip limit n : Nat} {s : State} (h : 0 < placeCount n (freeExtents s skip limit)) :
    ∃ b s1, allocate skip limit n s = (some b, s1) := by
  unfold allocate
  dsimp only
  rw [if_neg (by omega)]
  obtain ⟨b, hb⟩ := Option.isSome_iff_exists.1 (placeAt_some (Nat.mod_lt (takeFree s).1 h))
  exact ⟨b, _, by rw [hb]⟩

/-- A pane descriptor, each pair giving a value at a byte offset. -/
def desc (l : List (Nat × Nat)) : Desc := leBytes 64 (sumOf (l.map fun e => e.2 * 256 ^ e.1))

/-- The 1080p60 timing. -/
def hd1080 : Timing :=
  { set := true, hact := 1920, hfp := 88, hsync := 44, hbp := 148, vact := 1080, vfp := 4, vsync := 5, vbp := 36,
    latch := 1100, n := 99, d := 800 }

end Sys2Proof.Tests
end

