-- ==== Sys2Proof/Tests/WitnessCommands.lean ====
section
/-! SUPPORT. A state and operands that meet the premises of each statement about a packet, for every clause. -/
namespace Sys2Proof.Tests
set_option Elab.async false
open Sys2Proof Sys2Proof.Machine

/-! ### Host packets -/

theorem witness_nop : meets specNop (pk []) ready (fun _ => true) = true := by decide +kernel
theorem witness_getIdentity :
    meets specGetIdentity (pk [(0, 64)]) ready (fun s0 => bufferOk (pk [(0, 64)]) s0 64 64 true) = true := by decide +kernel
theorem witness_getFirmware : meets specGetFirmware (pk []) ready (fun _ => true) = true := by decide +kernel

/-- The last raster, as a unit. -/
def unitPk : Packet := pk [(0, 0x0100000F)]

theorem witness_queryUnit : (unitOk (prm unitPk 0 4) && meets specQueryUnit unitPk ready fun _ => true) = true := by
  decide +kernel
theorem witness_reconcile_marked : (unitOk (prm unitPk 0 4)
    && meets specReconcile unitPk { ready with un := { ready.un with marked := [(0x0100000F, 0)] } }
      fun s0 => isMarked s0 (prm unitPk 0 4)) = true := by decide +kernel
theorem witness_reconcile_unmarked :
    (unitOk (prm unitPk 0 4) && meets specReconcile unitPk ready fun s0 => !isMarked s0 (prm unitPk 0 4)) = true := by
  decide +kernel

/-- A timed packet with TAG 7 of queue pair 3, for a time in ns. -/
def timedFor (n : Nat) : Timed := ⟨{ opcode := 1, pkt := { pk [] with qp := 3, tag := 7, atTime := true, execTime := n } }, 0⟩
def cancelPk : Packet := pk [(0, 3), (2, 7)]

theorem witness_cancelTimed_waits : meets specCancelTimed cancelPk
    { ready with cp := { ready.cp with timed := [timedFor 1] } }
    (fun s0 => s0.cp.timed == [] ++ timedFor 1 :: [] && cancelMatch cancelPk (timedFor 1) && decide (now s0 < 1)) = true := by
  decide +kernel
theorem witness_cancelTimed_due : meets specCancelTimed cancelPk
    { ready with cp := { ready.cp with timed := [timedFor 0] } }
    (fun s0 => s0.cp.timed == [] ++ timedFor 0 :: [] && cancelMatch cancelPk (timedFor 0) && decide (0 ≤ now s0)) = true := by
  decide +kernel

/-- Ready with every VF enabled. -/
def withVfs : State := { ready with host := { ready.host with vfEnable := true, numVfs := 15 } }
/-- ASSIGN of kind k, FIRST and COUNT to a function. -/
def assignPk (f k first count : Nat) : Packet := pk [(0, f), (1, k), (4, first), (8, count)]
/-- An ASSIGN runs with these fields, and further premises hold. -/
def assigns (s : State) (f k first count : Nat) (more : State → Bool) : Bool :=
  let p := assignPk f k first count
  prmb p 0 1 3 0 == f && prm p 1 1 == k && prm p 4 4 == first && prm p 8 4 == count && meets specAssign p s more

theorem witness_assign_disabled : assigns ready 15 3 0 1 (fun s0 => !functionOn s0 15) = true := by decide +kernel
theorem witness_assign_kinds : ([0, 8].all fun k => assigns withVfs 15 k 0 1 fun s0 => functionOn s0 15) = true := by
  decide +kernel
theorem witness_assign_rasters_past : assigns withVfs 15 1 15 2 (fun s0 => functionOn s0 15) = true := by decide +kernel
theorem witness_assign_rasters : assigns withVfs 15 1 15 1 (fun s0 => functionOn s0 15 && rasterOwner s0 15 != 15
    && rasterIdle s0 15) = true := by decide +kernel
theorem witness_assign_rasters_busy :
    assigns { withVfs with rg := { withVfs.rg with rasters := [(15, { st := .running })] } } 15 1 15 1
      (fun s0 => functionOn s0 15 && rasterOwner s0 15 != 15 && !rasterIdle s0 15) = true := by decide +kernel
theorem witness_assign_pairs_bad : (assigns withVfs 0 4 0 8 (fun s0 => functionOn s0 0)
    && assigns withVfs 15 4 1 8 (fun s0 => functionOn s0 15) && assigns withVfs 15 4 0 9 fun s0 => functionOn s0 15) = true := by
  decide +kernel
theorem witness_assign_pairs : assigns { withVfs with own := { withVfs.own with qpairs := [(15, 1)] } } 15 4 0 0
    (fun s0 => functionOn s0 15 && qpCount s0 15 == 1 && !(qpOf s0 15 0).enable) = true := by decide +kernel
theorem witness_assign_pairs_busy :
    assigns { withVfs with own := { withVfs.own with qpairs := [(15, 1)] }
                           cp := { withVfs.cp with qps := [(120, { enable := true })] } } 15 4 0 0
      (fun s0 => functionOn s0 15 && decide (0 < qpCount s0 15) && (qpOf s0 15 0).enable) = true := by decide +kernel
theorem witness_assign_targets_bad : (assigns withVfs 0 7 0 4 (fun s0 => functionOn s0 0)
    && assigns withVfs 15 7 1 4 (fun s0 => functionOn s0 15) && assigns withVfs 15 7 0 3 fun s0 => functionOn s0 15) = true := by
  decide +kernel
theorem witness_assign_targets : (assigns withVfs 15 7 0 4 (fun s0 => functionOn s0 15 && !Tbl.get s0.own.targets false 15)
    && assigns withVfs 15 7 0 0 fun s0 => functionOn s0 15 && !Tbl.get s0.own.targets false 15) = true := by decide +kernel
theorem witness_assign_range_past : assigns withVfs 15 3 16383 2 (fun s0 => functionOn s0 15 && isRangeKind 3
    && decide (rangeLimit 3 < 16383 + 2)) = true := by decide +kernel

/-- Ready with every VF, VF 14 holding the last index of a kind of range, and a surface there. -/
def held14 (x : Surface) : State :=
  { withVfs with own := { withVfs.own with surfs := [(14, (16383, 1))] }
                 mm := { withVfs.mm with surfs := [(16383, x)] } }

theorem witness_assign_range_crystal : assigns (held14 { valid := true, crystal := true }) 15 3 16383 1 (fun s0 =>
    functionOn s0 15 && holdsCrystal s0 3 16383 1) = true := by decide +kernel
theorem witness_assign_range_other : assigns (held14 {}) 15 3 16383 1 (fun s0 => functionOn s0 15
    && !holdsCrystal s0 3 16383 1 && (rangesOf s0 3).any fun x => x.1 != 15 && runMeets 16383 1 x.2) = true := by
  decide +kernel
theorem witness_assign_range_busy :
    assigns { withVfs with ne := { withVfs.ne with egress := [(1023, { cfg := { kind := 1 } })] } } 15 6 1023 1 (fun s0 =>
      functionOn s0 15 && isRangeKind 6 && !holdsCrystal s0 6 1023 1 && (rangesOf s0 6).isEmpty
        && !indicesIdle s0 6 (newRanges 15 1023 1 []) (movedIndices 6 [] (newRanges 15 1023 1 []))) = true := by
  decide +kernel
theorem witness_assign_range : assigns withVfs 15 5 4095 1 (fun s0 => functionOn s0 15 && isRangeKind 5
    && decide (4095 + 1 ≤ rangeLimit 5) && !holdsCrystal s0 5 4095 1
    && (rangesOf s0 5).isEmpty && indicesIdle s0 5 (newRanges 15 4095 1 []) (movedIndices 5 [] (newRanges 15 4095 1 [])))
    = true := by decide +kernel

/-- QUERY_OWNER of kind k for function f from FIRST. -/
def ownerPk (f k first : Nat) : Packet := pk [(0, f), (1, k), (4, first)]

theorem witness_queryOwner : [1, 4, 7].all (fun k => meets specQueryOwner (ownerPk 15 k 0) withVfs fun _ =>
    prmb (ownerPk 15 k 0) 0 1 3 0 == 15 && prm (ownerPk 15 k 0) 1 1 == k) = true := by decide +kernel
theorem witness_queryOwner_free : meets specQueryOwner (ownerPk 0 6 1023) withVfs (fun _ =>
    prmb (ownerPk 0 6 1023) 0 1 3 0 == 0 && isRangeKind (prm (ownerPk 0 6 1023) 1 1)) = true := by decide +kernel
theorem witness_queryOwner_held :
    meets specQueryOwner (ownerPk 15 2 0) { withVfs with own := { withVfs.own with panes := [(15, (8191, 1))] } } (fun s0 =>
      isRangeKind (prm (ownerPk 15 2 0) 1 1) && Tbl.find? (rangesOf s0 2) 15 == some (8191, 1)) = true := by decide +kernel

/-! ### Surfaces -/

/-- SURFACE_CREATE of the last index: RGBA8, 64 by 64, two slots. -/
def createPk : Packet := pk [(0, 16383), (2, 1), (4, 63), (6, 63), (8, 1)]

theorem witness_surfaceCreate : meets specSurfaceCreate createPk ready (fun s0 => !s0.mm.migrating
    && !surfValid s0 16383 && surfaceOk createPk (prmSurface createPk) && decide (0 < placeCount
      (extentBytes (prmSurface createPk)) (freeExtents s0 noSurface (allocLimit s0 0)))) = true := by decide +kernel
theorem witness_surfaceCreate_space :
    ∃ b s1, allocate noSurface (allocLimit ready 0) (extentBytes (prmSurface createPk)) ready = (some b, s1) :=
  allocate_some (by decide +kernel)

/-- Ready with a surface at the last index, held in slot 1. -/
def withSurf : State :=
  let slots : Tbl Slot := [(0, { published := true, seq := 1 }), (1, { writing := true })]
  let x : Surface := { base := 0x10000000, format := 1, valid := true, widthM1 := 63, heightM1 := 63, pitch := 1,
                       slotsM1 := 1, stride := 4, wslot := 1, newest := 0, pubSeq := 1, slots := slots }
  { ready with mm := { ready.mm with surfs := [(16383, x)] } }
/-- A surface command on it, with further parameters. -/
def surfPk (l : List (Nat × Nat)) : Packet := pk ((0, 16383) :: l)

theorem witness_surfaceDestroy : meets specSurfaceDestroy (surfPk []) withSurf (fun s0 => surfValid s0 16383
    && !(surfOf s0 16383).crystal && !(surfOf s0 16383).frozen && !committedRefers s0 16383 && !hasAutoWriter s0 16383
    && !anyPinned (surfOf s0 16383) && !blRefers s0 16383) = true := by decide +kernel
theorem witness_surfaceQuery : meets specSurfaceQuery (surfPk [(2, 1), (8, 32)]) withSurf (fun s0 =>
    surfValid s0 16383 && decide (prmb (surfPk [(2, 1), (8, 32)]) 2 2 9 0 ≤ (surfOf s0 16383).slotsM1)
      && bufferOk (surfPk [(2, 1), (8, 32)]) s0 32 32 true) = true := by decide +kernel
theorem witness_slotPublish : meets specSlotPublish (surfPk [(4, 1), (8, 9)]) withSurf (fun s0 => surfValid s0 16383
    && !(surfOf s0 16383).crystal && (surfOf s0 16383).writer == 0 && !(surfOf s0 16383).frozen
    && !prmbit (surfPk [(4, 1), (8, 9)]) 2 0 && (surfOf s0 16383).wslot != noSlot
    && prmb (surfPk [(4, 1), (8, 9)]) 4 2 9 0 == (surfOf s0 16383).wslot
    && decide ((surfOf s0 16383).lastCap.getD 0 ≤ 9)) = true := by decide +kernel
theorem witness_surfaceSetSharing : meets specSurfaceSetSharing (surfPk [(2, 1)]) withSurf (fun s0 =>
    surfValid s0 16383 && !(surfOf s0 16383).crystal && prmbit (surfPk [(2, 1)]) 2 0) = true := by decide +kernel
theorem witness_memQuery : meets specMemQuery (pk [(8, 64)]) ready (fun s0 => bufferOk (pk [(8, 64)]) s0 64 64 true) = true := by
  decide +kernel

/-! ### The escapement -/

/-- GATELIST_LOAD of one entry, all classes open for 1,000 ns, into channel 15. -/
def loadPk : Packet := pk [(0, 0x8000), (2, 1), (16, 250), (18, 0xFF)]

theorem witness_gatelistLoad : meets specGatelistLoad loadPk ready (fun s0 =>
    loadEntries loadPk 16 (prmb loadPk 2 2 8 0) == ([⟨250, 0xFF⟩] : List GateEntry).map (fun x => (x, 0))
      && gateListOk [⟨250, 0xFF⟩] && namesLive loadPk (takeOverDue s0)
      && (chMask loadPk).all fun n => (chanFsOf (takeOverDue s0) n).arm != .pending) = true := by decide +kernel

/-- Ready with a list loaded on channel 15. -/
def withGate : State :=
  { ready with fs := { ready.fs with chans := [(15, { armed := [⟨250, 0xFF⟩], arm := .loaded })] } }
/-- GATELIST_ARM on channel 15, or its disarming, for a time in ns. -/
def armPk (disarm at_ : Nat) : Packet := pk [(0, 0x8000), (2, disarm), (8, at_)]

theorem witness_gatelistArm_disarm : meets specGatelistArm (armPk 1 0) withGate (fun s0 => namesLive (armPk 1 0) s0
    && (chMask (armPk 1 0)).all (fun n => (takenTime s0 n).isNone) && prmbit (armPk 1 0) 2 0) = true := by decide +kernel
theorem witness_gatelistArm : meets specGatelistArm (armPk 0 1000) withGate (fun s0 => namesLive (armPk 0 1000) s0
    && (chMask (armPk 0 1000)).all (fun n => (takenTime s0 n).isNone) && !prmbit (armPk 0 1000) 2 0
    && (chMask (armPk 0 1000)).all (fun n => (chanFsOf s0 n).arm != .empty) && decide (now s0 + 1000 ≤ 1000)
    && admitLists s0 (fun n => if (chMask (armPk 0 1000)).contains n then armedAt 1000 false (chanFsOf s0 n)
      else chanFsOf s0 n) == none) = true := by decide +kernel
theorem witness_gatelistQuery : [0, 1].all (fun b => let p := pk [(0, 15), (1, b), (8, 16)]
    meets specGatelistQuery p ready fun s0 => bufferOk p s0 16 16 true && prmbit p 1 0 == (b == 1)) = true := by decide +kernel

/-- SHAPER_SET of raster 15 at the largest values. -/
def shaperPk : Packet := pk [(0, 15), (1, 32), (4, 1048576), (8, 1048576)]

theorem witness_shaperSet : meets specShaperSet shaperPk ready (fun s0 => !(rasterOf s0 15).orphan
    && decide (16 ≤ prmb shaperPk 1 1 5 0 ∧ prmb shaperPk 1 1 5 0 ≤ 32) && burstOk (prmb shaperPk 4 4 20 0)
    && burstOk (prmb shaperPk 8 4 20 0)) = true := by decide +kernel

/-- LEAD_SET of raster 15 to 2 and 16. -/
def leadPk : Packet := pk [(0, 15), (1, 2), (2, 16)]

theorem witness_leadSet : meets specLeadSet leadPk ready (fun s0 => !(rasterOf s0 15).orphan
    && decide (2 ≤ prmb leadPk 1 1 4 0 ∧ prmb leadPk 1 1 4 0 ≤ prmb leadPk 2 1 4 0 ∧ prmb leadPk 2 1 4 0 ≤ 16)
    && admitClaim s0 [(fsOf s0 15).leadMin, prmb leadPk 1 1 4 0] 15 (claimOf s0 15) == none) = true := by decide +kernel
theorem witness_demandQuery : meets specDemandQuery (pk [(0, 15), (8, 16)]) ready (fun s0 =>
    !prmbit (pk [(0, 15), (8, 16)]) 1 0 && bufferOk (pk [(0, 15), (8, 16)]) s0 16 16 false) = true := by decide +kernel
theorem witness_latencyHistRead : meets specLatencyHistRead (pk [(0, 0x8000), (2, 1), (8, 1)]) ready (fun s0 =>
    namesLive (pk [(0, 0x8000), (2, 1), (8, 1)]) s0 && bufferOk (pk [(0, 0x8000), (2, 1), (8, 1)]) s0 1 1 false) = true := by
  decide +kernel

/-! ### Scenes -/

/-- A FILL pane of the last ID on raster 15, visible over the whole 1080p area. -/
def fillDesc : Desc := desc [(0, 8191), (2, 0xFE), (12, 1919), (14, 1079), (36, 0x3FF), (48, 0xFF)]
/-- Raster 15 with a timing on slice 0. -/
def withRaster : State :=
  { ready with rg := { ready.rg with rasters := [(15, { tim := hd1080, first := some 0, g := 1 })]
                                     slices := [(0, { raster := 15, bound := true, gang := 1, leads := true })] } }
/-- A scene of that pane for raster 15. -/
def scenePk : Packet :=
  { pk [(0, 15), (2, 1), (4, 7), (8, 64)] with env := { data := fillDesc } }
/-- What the commands that store a scene ask. -/
def sceneFits (s0 : State) : Bool :=
  !(rasterOf s0 15).orphan && !isFollower s0 15 && (rasterOf s0 15).first.isSome && !hostAccessFails scenePk s0
    && hdrOk scenePk && (firstFault s0 15 (prmDescs scenePk)).isNone && !(prmDescs scenePk).isEmpty
    && (prmDescs scenePk).all fun d => !notOwned s0 0 d

theorem witness_fallbackSet : meets specFallbackSet scenePk withRaster sceneFits = true := by decide +kernel
theorem witness_sceneSubmit : meets specSceneSubmit scenePk withRaster (fun s0 => sceneFits s0 && !strikeLocked s0 15
    && admitScene s0 15 (prmDescs scenePk) == none) = true := by decide +kernel
theorem witness_sceneSubmit_ids : ∀ k, checkIds withRaster 15 [] (prmDescs scenePk) k = k := by
  intro k
  have e : prmDescs scenePk = [fillDesc] := by decide +kernel
  have h : takenElsewhere withRaster 15 (dId fillDesc) = false ∧ isCrystalPane withRaster (dId fillDesc) = false := by
    decide +kernel
  rw [e]
  simp [checkIds, h]
theorem witness_admitCheck : meets specAdmitCheck scenePk withRaster (fun s0 => sceneFits s0 && !strikeLocked s0 15
    && admitScene s0 15 (prmDescs scenePk) == none) = true := by decide +kernel
theorem witness_sceneCommit : meets specSceneCommit (pk [(0, 15)]) withRaster (fun s0 => !(rasterOf s0 15).orphan
    && !isFollower s0 15 && !strikeLocked s0 15) = true := by decide +kernel

/-- The pane in the shadow scene of raster 15. -/
def withShadow : State := { withRaster with pn := { withRaster.pn with shadow := [(8191, fillDesc)] } }
/-- PANE_UPDATE of its fields of the last group. -/
def updatePk : Packet := pk [(0, 15), (2, 8191), (4, 0x400)]

theorem witness_paneUpdate : meets specPaneUpdate updatePk withShadow (fun s0 => !strikeLocked s0 15
    && shadowDesc s0 (prmb updatePk 2 2 12 0) == fillDesc && inShadow s0 15 (prmb updatePk 2 2 12 0)
    && prmb updatePk 4 4 31 11 == 0 && !breaksRules updatePk s0 (prmb updatePk 2 2 12 0) (updated updatePk fillDesc)
    && (newSurface updatePk s0).isNone) = true := by decide +kernel
theorem witness_sceneQuery : [0, 1].all (fun b => let p := pk [(0, 15), (1, b), (2, 0), (4, 4096), (8, 64)]
    meets specSceneQuery p withRaster fun s0 => decide (prmb p 4 2 12 0 ≤ 4096) && bufferOk p s0 64 64 false) = true := by
  decide +kernel
theorem witness_paneCountersRead : meets specPaneCountersRead (pk [(0, 15), (1, 1), (2, 8191), (4, 1), (8, 32)]) withRaster
    (fun s0 => let p := pk [(0, 15), (1, 1), (2, 8191), (4, 1), (8, 32)]
      decide (1 ≤ prmb p 4 2 12 0 ∧ prmb p 4 2 12 0 ≤ 4096 ∧ prmb p 2 2 12 0 + prmb p 4 2 12 0 ≤ 8192)
        && bufferOk p s0 32 32 false) = true := by decide +kernel

/-! ### Colour tables -/

/-- A bank whose every phase is the same bytes. -/
def flatBank (blk : List Byte) : List Byte := (List.replicate 64 blk).flatten
/-- The phase of a horizontal bank with 1,024 at tap 3. -/
def hPhase : List Byte := leBytes 16 (1024 * 65536 ^ 3)
/-- The phase of a vertical bank with 1,024 at tap 2. -/
def vPhase : List Byte := leBytes 12 (1024 * 65536 ^ 2)
/-- COEF_BANK_LOAD of a kind and index with data. -/
def bankPk (kind i taps : Nat) (b : List Byte) : Packet :=
  { pk [(0, kind), (1, i), (2, taps), (8, 64)] with env := { data := b } }
/-- What the load asks of its parameters. -/
def bankFits (kind i taps : Nat) (s0 : State) : Bool :=
  let p := bankPk kind i taps []
  bufferOk p s0 (prm p 8 8) 64 false && onlyBits p [(0, 1, 3), (1, 1, 0x3F), (2, 1, 3), allBits 8 8]
    && !loadOpen s0 (tblKey kind i) && prmb p 0 1 1 0 == kind && prmb p 1 1 5 0 == i && prmb p 2 1 1 0 == taps

theorem rd_flat {blk : List Byte} {n p o w : Nat} (hp : p < n) (h : o + w ≤ blk.length) :
    rd (List.replicate n blk).flatten (blk.length * p + o) w = rd blk o w := by
  have key : ∀ n p, p < n → ((List.replicate n blk).flatten).drop (blk.length * p)
      = blk ++ (List.replicate (n - p - 1) blk).flatten := by
    intro n
    induction n with
    | zero => intro p hp; omega
    | succ n ih =>
      intro p hp
      cases p with
      | zero => simp [List.replicate_succ]
      | succ p =>
        rw [List.replicate_succ, List.flatten_cons, show blk.length * (p + 1) = blk.length + blk.length * p by ring,
          List.drop_append, List.drop_eq_nil_of_le (by omega), List.nil_append, Nat.add_sub_cancel_left, ih p (by omega)]
        congr 3
        omega
  unfold rd
  rw [← List.drop_drop, key n p hp, List.drop_append_of_le_length (by omega), List.take_append_of_le_length (by simp; omega)]
theorem bankCoef_flat {blk : List Byte} {n p k : Nat} (hb : blk.length = 2 * n) (hp : p < 64) (hk : k < n) :
    bankCoef n (flatBank blk) p k = bankCoef n blk 0 k := by
  unfold bankCoef flatBank
  rw [show 2 * (n * p + k) = blk.length * p + 2 * k by rw [hb]; ring, rd_flat hp (by omega)]
  simp
theorem bank_fits {n : Nat} {blk : List Byte} (hb : blk.length = 2 * n) :
    fitBytes (128 * n) (flatBank blk) = flatBank blk := by
  have hl : (flatBank blk).length = 128 * n := by
    unfold flatBank
    rw [List.length_flatten, List.map_replicate, List.sum_replicate, hb, smul_eq_mul]
    ring
  unfold fitBytes
  rw [hl, Nat.sub_self, List.replicate_zero, List.append_nil]
  exact List.take_of_length_le (by omega)
theorem bank_coefs {n : Nat} {blk : List Byte} (hb : blk.length = 2 * n)
    (h : ∀ k < n, -2048 ≤ bankCoef n blk 0 k ∧ bankCoef n blk 0 k ≤ 2047) : badCoef n (flatBank blk) = none := by
  unfold badCoef
  rw [List.findSome?_eq_none_iff]
  rintro ⟨p, k⟩ he
  have hp : p < 64 ∧ k < n := by simpa using he
  have hc := h k hp.2
  rw [← bankCoef_flat hb hp.1 hp.2] at hc
  exact if_pos hc
theorem bank_phases {n : Nat} {blk : List Byte} (hb : blk.length = 2 * n)
    (hs : (List.range n).foldl (fun (a : Int) k => a + bankCoef n blk 0 k) 0 = 1024) : badPhase n (flatBank blk) = none := by
  unfold badPhase
  rw [List.findSome?_eq_none_iff]
  intro p hp
  rw [List.mem_range] at hp
  have key : ∀ (l : List Nat) (a : Int), (∀ k ∈ l, k < n) →
      l.foldl (fun (a : Int) k => a + bankCoef n (flatBank blk) p k) a
        = l.foldl (fun (a : Int) k => a + bankCoef n blk 0 k) a := by
    intro l
    induction l with
    | nil => intro a _; rw [List.foldl_nil, List.foldl_nil]
    | cons x l ih =>
      intro a hl
      rw [List.foldl_cons, List.foldl_cons, bankCoef_flat hb hp (hl x List.mem_cons_self)]
      exact ih _ fun k hk => hl k (List.mem_cons_of_mem _ hk)
  have e := (key (List.range n) 0 fun k hk => List.mem_range.1 hk).trans hs
  generalize List.foldl (fun (a : Int) k => a + bankCoef n (flatBank blk) p k) 0 (List.range n) = c at e ⊢
  subst e
  rfl

theorem witness_coefBankLoad_h :
    meets specCoefBankLoad (bankPk 0 31 0 (flatBank hPhase)) ready (bankFits 0 31 0) = true
      ∧ fitBytes 1024 (bankPk 0 31 0 (flatBank hPhase)).env.data = flatBank hPhase
      ∧ badCoef 8 (flatBank hPhase) = none ∧ badPhase 8 (flatBank hPhase) = none :=
  ⟨by decide +kernel, bank_fits (n := 8) rfl, bank_coefs (n := 8) rfl (by decide +kernel), bank_phases (n := 8) rfl (by decide +kernel)⟩
theorem witness_coefBankLoad_v :
    meets specCoefBankLoad (bankPk 1 31 2 (flatBank vPhase)) ready (fun s0 => bankFits 1 31 2 s0
        && tapsOf (newestCopy s0 (tblKey 1 31)) != tapsOf (some ⟨flatBank vPhase, 2⟩)
        && admitBank s0 (loadTable (tblKey 1 31) ⟨flatBank vPhase, 2⟩ allRasters s0) 31 == none) = true
      ∧ fitBytes 768 (bankPk 1 31 2 (flatBank vPhase)).env.data = flatBank vPhase
      ∧ badCoef 6 (flatBank vPhase) = none ∧ badPhase 6 (flatBank vPhase) = none :=
  ⟨by decide +kernel, bank_fits (n := 6) rfl, bank_coefs (n := 6) rfl (by decide +kernel), bank_phases (n := 6) rfl (by decide +kernel)⟩
theorem witness_coefBankLoad_m : [8, 63].all (fun i => let b := List.replicate 64 0#8
    meets specCoefBankLoad (bankPk 2 i 0 b) ready fun s0 => bankFits 2 i 0 s0
      && fitBytes 64 (bankPk 2 i 0 b).env.data == b && decide (8 ≤ i) && zeroBytes b 42 64) = true := by decide +kernel

theorem rd_zero {bs : List Byte} (h : ∀ b ∈ bs, b = 0#8) (off n : Nat) : rd bs off n = 0 := by
  have key : ∀ l : List Byte, (∀ b ∈ l, b = 0#8) → leNat l = 0 := by
    intro l hl
    induction l with
    | nil => rfl
    | cons b l ih =>
      rw [leNat, ih fun c hc => hl c (List.mem_cons_of_mem _ hc), hl b List.mem_cons_self]
      rfl
  exact key _ fun b hb => h b (List.mem_of_mem_drop (List.mem_of_mem_take hb))
/-- ITF_LUT_LOAD of the last LUT. -/
def itfPk : Packet := pk [(0, 7), (8, 64)]

theorem witness_itfLutLoad : meets specItfLutLoad itfPk ready (fun s0 => bufferOk itfPk s0 (prm itfPk 8 8) 64 false
    && onlyBits itfPk [(0, 1, 7), allBits 8 8] && !loadOpen s0 (tblKey 3 7)) = true := by decide +kernel
theorem fit_zero {n : Nat} : ∀ b ∈ fitBytes n [], b = 0#8 := by
  intro b hb
  unfold fitBytes at hb
  rw [List.take_nil, List.nil_append] at hb
  exact List.eq_of_mem_replicate hb
theorem witness_itfLutLoad_data : badEntry (fitBytes 2048 itfPk.env.data) = none := by
  unfold badEntry
  rw [List.find?_eq_none]
  intro i _
  rw [show itfPk.env.data = [] from rfl, rd_zero fit_zero]
  decide

/-- LUT3D_LOAD of raster 15. -/
def lutPk : Packet := pk [(0, 15), (8, 64)]

theorem witness_lut3dLoad : meets specLut3dLoad lutPk ready (fun s0 => bufferOk lutPk s0 (prm lutPk 8 8) 64 false
    && onlyBits lutPk [(0, 1, 0xF), allBits 8 8] && !loadOpen s0 (tblKey 4 (prmRaster lutPk))) = true := by decide +kernel
theorem witness_lut3dLoad_data :
    nodesReserved (fitBytes 39304 lutPk.env.data) = true ∧ badNode (fitBytes 39304 lutPk.env.data) = none := by
  have h : ∀ b ∈ fitBytes 39304 lutPk.env.data, b = 0#8 := fit_zero
  constructor
  · unfold nodesReserved
    simp [rd_zero h]
  · unfold badNode
    rw [List.find?_eq_none]
    intro n _
    simp only [List.all_cons, rd_zero h, List.all_nil]
    decide

/-- OUTPUT_COLOUR_SET of raster 15 at the last codes. -/
def outPk : Packet := pk [(0, 15), (1, 4), (2, 4), (3, 0x20)]

theorem witness_outputColourSet : meets specOutputColourSet outPk ready (fun s0 =>
    onlyBits outPk [(0, 1, 0xF), (1, 1, 0xF), (2, 1, 7), (3, 1, 0x33), allBits 8 24]
      && decide ((prmOutSet outPk).wtf ≤ 4 ∧ (prmOutSet outPk).otf ≤ 4 ∧ (prmOutSet outPk).dither ≤ 2)
      && !hasAction s0 15 && (rasterTbl s0 15).oldOut.isNone) = true := by decide +kernel

/-! ### The crystal layer -/

/-- Ready with a key, and with what the key has become. -/
def withKey (k : CryKey) : State := { ready with key := { k with key := 77 } }
/-- CRYSTAL_UNLOCK with a key for a duration in ms. -/
def unlockPk (k d : Nat) : Packet := pk [(0, k), (16, d)]
/-- The parameters of the unlock are legal. -/
def unlockFits (k d : Nat) (s : State) (more : State → Bool) : Bool :=
  meets specCrystalUnlock (unlockPk k d) s fun s0 => onlyBits (unlockPk k d) [allBits 0 16, allBits 16 2]
    && prm (unlockPk k d) 0 16 == k && prm (unlockPk k d) 16 2 == d && decide (1 ≤ d ∧ d ≤ 60000) && more s0

theorem witness_crystalUnlock :
    [1, 60000].all (fun d => unlockFits 77 d (withKey {}) fun s0 => s0.key.key == 77 && !isLockedOut s0) = true := by
  decide +kernel
theorem witness_crystalUnlock_wrong :
    unlockFits 78 1 (withKey {}) (fun s0 => s0.key.key == 77 && !isLockedOut s0) = true := by decide +kernel
theorem witness_crystalUnlock_none : unlockFits 78 1 ready (fun s0 => s0.key.key == 0) = true := by decide +kernel
theorem witness_crystalUnlock_locked : unlockFits 77 1 (withKey { lockout := some 1 }) (fun s0 => isLockedOut s0) = true := by
  decide +kernel
theorem witness_crystalLock : meets specCrystalLock (pk []) (withKey {}) (fun _ => onlyBits (pk []) []) = true := by
  decide +kernel
/-- CRYSTAL_KEY_PROVISION of a key over another. -/
def provisionPk (new old : Nat) : Packet := pk [(0, new), (16, old)]
theorem witness_crystalKeyProvision :
    [(ready, 5, 0), (withKey {}, 5, 77), (withKey {}, 5, 78), (ready, 0, 0), (withKey {}, 0, 77)].all (fun x =>
      meets specCrystalKeyProvision (provisionPk x.2.1 x.2.2) x.1 fun _ =>
        onlyBits (provisionPk x.2.1 x.2.2) [allBits 0 16, allBits 16 16] && prm (provisionPk x.2.1 x.2.2) 0 16 == x.2.1
          && prm (provisionPk x.2.1 x.2.2) 16 16 == x.2.2) = true := by decide +kernel

/-- Unlocked, with a timing on raster 15 and a surface with a readable slot. -/
def unlocked : State :=
  { withSurf with key := { key := 77, until_ := some 1 }
                  rg := { withSurf.rg with rasters := [(15, { tim := hd1080 })] } }
/-- CRYSTAL_PANE_SET of pane 8191 on raster 15: 64 by 64 pixels of the surface at the corner; or its removal. -/
def paneSetPk (remove : Nat) : Packet :=
  pk [(0, 15 + 16 * remove), (2, 8191), (4, 16383), (6, 255), (8, 1856), (10, 1016), (12, 63), (14, 63)]
/-- What the crystal commands ask first. -/
def crystalFits (s0 : State) : Bool := isUnlocked s0 && !isFollower s0 15

theorem witness_crystalPaneSet_remove : meets specCrystalPaneSet (paneSetPk 1) unlocked (fun s0 => crystalFits s0
    && onlyBits (paneSetPk 1) paneSetBits && prmbit (paneSetPk 1) 0 4) = true := by decide +kernel
theorem witness_crystalPaneSet : meets specCrystalPaneSet (paneSetPk 0) unlocked (fun s0 => crystalFits s0
    && onlyBits (paneSetPk 0) paneSetBits && !prmbit (paneSetPk 0) 0 4
    && admitCrystal (stage 15 (some (prmb (paneSetPk 0) 2 2 12 0, crystalDesc (paneSetPk 0) s0)) s0) 15 == none) = true := by
  decide +kernel
theorem witness_crystalPaneSet_rules : ∀ k, crystalChecks (paneSetPk 0) unlocked k = k := by
  intro k
  unfold crystalChecks
  dsimp only
  rw [Laws.require_of (by decide +kernel), Laws.require_of (by decide +kernel), Laws.require_of (by decide +kernel),
    Laws.require_of (by decide +kernel)]

/-- The removal, or the crystal, staged on raster 15. -/
def withStaged (remove : Bool) : State :=
  stage 15 (if remove then none else some (8191, crystalDesc (paneSetPk 0) unlocked)) unlocked
/-- CRYSTAL_EXPECT_SET of raster 15 for the slot with sequence number 1. -/
def expectPk : Packet := pk [(0, 15), (1, 2), (4, 1), (8, 99)]
/-- What it asks of its parameters. -/
def expectFits (s0 : State) : Bool :=
  crystalFits s0 && onlyBits expectPk [(0, 1, 0xF), (1, 1, 0xF), allBits 4 4, allBits 8 4] && prmb expectPk 1 1 1 0 != 3
    && (outSetOf s0 15).dither != 2 && (Tbl.get s0.col.out {} 15).dither != 2

theorem witness_crystalExpectSet_remove : meets specCrystalExpectSet expectPk (withStaged true) (fun s0 => expectFits s0
    && (crystalOf s0 15).staged == some none) = true := by decide +kernel
theorem witness_crystalExpectSet : meets specCrystalExpectSet expectPk (withStaged false) (fun s0 => expectFits s0
    && (crystalOf s0 15).staged != some none && committingSurface s0 15 == some 16383
    && (readableSlots (surfOf s0 16383)).find? (fun n => (slotOf (surfOf s0 16383) n).seq == prm expectPk 4 4) == some 0)
    = true := by decide +kernel

/-! ### Rasters -/

/-- RASTER_TIMING_SET of 1080p60 for raster 15, or of two tiles of it for raster 14. -/
def timingPk (r tiles : Nat) : Packet :=
  pk [(0, r), (1, 4 * tiles), (2, 1920), (4, 88), (6, 44), (8, 148), (10, 1080), (12, 4), (14, 5), (16, 36), (18, 1100),
    (20, 99), (24, 800)]
/-- Raster 14 on a gang of 4 slices. -/
def withGang : State :=
  { ready with rg := { ready.rg with
      rasters := [(14, { tim := hd1080, first := some 0, g := 4 })]
      slices := (List.range 4).map fun c => (c, { raster := 14, bound := true, gang := 4, leads := c == 0 }) } }
/-- What the command asks. -/
def timingFits (r tiles : Nat) (s0 : State) : Bool :=
  let p := timingPk r tiles
  !(rasterOf s0 r).orphan && onlyBits p timingBits && !isFollower s0 r
    && timingOk (if (rasterOf s0 r).first.isSome then (rasterOf s0 r).g else 4) (prmTiming p)
    && (prmTiming p).tiles2 == (tiles == 1) && (crystalsOf s0 r).isEmpty
    && (!hasClaim s0 r
      || admitClaim s0 (leadMins s0 r) r (claimOf (setTiming r (prmTiming p) s0) r) == none)

theorem witness_rasterTimingSet : meets specRasterTimingSet (timingPk 15 0) ready (timingFits 15 0) = true := by decide +kernel
theorem witness_rasterTimingSet_tiles : meets specRasterTimingSet (timingPk 14 1) withGang (fun s0 => timingFits 14 1 s0
    && (rasterOf s0 14).first.isSome && (rasterOf s0 14).g == 4 && ownsRaster (timingPk 14 1) s0 15
    && !isStarted (rasterOf s0 15) && !(rasterOf s0 15).orphan && (rasterOf s0 15).first.isNone) = true := by decide +kernel

/-- RASTER_BIND of raster 15 to a gang from slice c, or its unbinding. -/
def bindPk (c code unbind : Nat) : Packet := pk [(0, 15), (1, c), (2, code), (3, unbind)]
/-- What the command asks first. -/
def bindFits (p : Packet) (s0 : State) : Bool :=
  !(rasterOf s0 15).orphan && !isFollower s0 15 && onlyBits p [(0, 1, 0xF), (1, 1, 0xF), (2, 1, 3), (3, 1, 1)]
    && !isStarted (rasterOf s0 15)

theorem witness_rasterBind_unbind : meets specRasterBind (bindPk 0 0 1) withRaster (fun s0 => bindFits (bindPk 0 0 1) s0
    && prmbit (bindPk 0 0 1) 3 0) = true := by decide +kernel
theorem witness_rasterBind : [(15, 0), (14, 1), (12, 2)].all (fun x => meets specRasterBind (bindPk x.1 x.2 0) ready fun s0 =>
    bindFits (bindPk x.1 x.2 0) s0 && !prmbit (bindPk x.1 x.2 0) 3 0 && x.1 % 2 ^ x.2 == 0
      && ((List.range (2 ^ x.2)).all fun i => !(sliceOf s0 (x.1 + i)).retired && !(sliceOf s0 (x.1 + i)).bound)
      && (rasterOf s0 15).g == 0 && (rasterOf s0 15).rehome != .stuck && !(rasterOf s0 15).tim.tiles2
      && !(rasterOf s0 15).tim.set) = true := by decide +kernel
theorem witness_rasterStart : [0, 1].all (fun a => let p := pk [(0, 15), (1, a), (4, 0x3FFFFFFF)]
    meets specRasterStart p withRaster fun s0 => !(rasterOf s0 15).orphan && !isStarted (rasterOf s0 15)
      && onlyBits p [(0, 1, 0xF), (1, 1, 1), (4, 4, 0x3FFFFFFF), allBits 8 8] && (rasterOf s0 15).first.isSome
      && (rasterOf s0 15).tim.set) = true := by decide +kernel

/-- Raster 15 in a state. -/
def withState (x : Raster) : State :=
  { withRaster with rg := { withRaster.rg with rasters := [(15, { x with tim := hd1080, first := some 0, g := 1 })] } }
/-- Raster 15 runs, aligned. -/
def running : State := withState { st := .running, aligned := true }
/-- RASTER_STOP of raster 15. -/
def stopPk : Packet := pk [(0, 15), (1, 1)]
/-- What the command asks. -/
def stopFits (s0 : State) : Bool := !(rasterOf s0 15).orphan && onlyBits stopPk [(0, 1, 0xF), (1, 1, 1)]

theorem witness_rasterStop_stopped : meets specRasterStop stopPk withRaster (fun s0 => stopFits s0
    && !isStarted (rasterOf s0 15)) = true := by decide +kernel
theorem witness_rasterStop_running : meets specRasterStop stopPk running (fun s0 => stopFits s0
    && isStarted (rasterOf s0 15) && (rasterOf s0 15).st != .stopped) = true := by decide +kernel
theorem witness_rasterStop_waiting : meets specRasterStop stopPk (withState { waitingStart := true }) (fun s0 => stopFits s0
    && isStarted (rasterOf s0 15) && (rasterOf s0 15).st == .stopped) = true := by decide +kernel
theorem witness_rasterQuery : meets specRasterQuery (pk [(0, 15), (8, 64)]) ready (fun s0 =>
    onlyBits (pk [(0, 15), (8, 64)]) [(0, 1, 0xF), allBits 8 8]
      && bufferOk (pk [(0, 15), (8, 64)]) s0 64 64 false) = true := by decide +kernel

/-! ### Sinks -/

/-- What SINK_ATTACH to raster 15 asks of every kind. -/
def attachFits (kind : Nat) (p : Packet) (s0 : State) : Bool :=
  !(rasterOf s0 (leaderOf s0 15)).orphan && onlyBits p (attachBits kind) && (tileTiming s0 15).set
    && prmb p 2 1 1 0 != 3 && prmb p 2 1 3 2 != 3 && prmb p 3 1 1 0 != 3 && (sinkOf s0 15 kind).isNone
    && prmb p 1 1 1 0 == kind
/-- Stream 3 of port 3. -/
def dpPk : Packet := pk [(0, 15), (4, 3), (5, 3)]
/-- Raster 15 with port 3 configured for 4 lanes. -/
def withDp (x : DpPort) : State :=
  { withRaster with rg := { withRaster.rg with dps := [(3, { x with enabled := true, mst := true, rate := 2, lanes := 4 })] } }

theorem witness_sinkAttach_dp : meets specSinkAttach dpPk (withDp {}) (fun s0 => let x := prmSink dpPk s0
    let n := streamSlots (tileTiming s0 15) x (portLink (dpOf s0 x.port)).1 (portLink (dpOf s0 x.port)).2
    attachFits 0 dpPk s0 && (dpOf s0 x.port).enabled && (dpOf s0 x.port).mst && dscOk dpPk (tileTiming s0 15) x
      && (portStreams s0 x.port).isEmpty && slotsFit true [n] && !x.dsc && dscFits []) = true := by decide +kernel

/-- The sender of flow 1023. -/
def senderPk : Packet := pk [(0, 15), (1, 1), (4, 1023)]
/-- Raster 15 running, with that flow on a 100G port. -/
def withFlow : State :=
  { running with ne := { running.ne with egress := [(1023, { cfg := { kind := 1, blocks := 7, port := 0 } })]
                                         ports := [(0, { cfgMode := 1, mode := 1, up := true })] } }

theorem witness_sinkAttach_sender : meets specSinkAttach senderPk withFlow (fun s0 => let x := prmSink senderPk s0
    let c := (egressOf s0 x.flow).staged.getD (egressOf s0 x.flow).cfg
    let s1 := putQueue x.flow (senderQueue s0 (tileTiming s0 15) x c (queueOf s0 x.flow)) s0
    attachFits 1 senderPk s0 && isStarted (rasterOf s0 15) && (rasterOf s0 15).aligned && c.kind == 1
      && (egressOf s0 x.flow).sender.isNone && decide (c.blocks * 180 ≤ sinkBytes (tileTiming s0 15) x)
      && checkPort s1 c.port (tsPortOf s1 c.port) == none) = true := by decide +kernel

/-- Writeback to the last surface. -/
def writebackPk : Packet := pk [(0, 15), (1, 2), (4, 16383)]
/-- Raster 15 with that surface of its size. -/
def withBack : State :=
  { withRaster with mm := { withRaster.mm with
      surfs := [(16383, { valid := true, format := 1, writer := 4, widthM1 := 1919, heightM1 := 1079 })] } }

theorem witness_sinkAttach_writeback : meets specSinkAttach writebackPk withBack (fun s0 => let x := prmSink writebackPk s0
    let sf := surfOf s0 x.surface
    attachFits 2 writebackPk s0 && sf.valid && !sf.crystal && sf.writer == 4 && wbFits s0 15 x
      && formatFits sf.format x.enc (sinkBits x) && sf.comp == 0 && !hasAutoWriter s0 x.surface) = true := by decide +kernel

/-- Export to device 65. -/
def exportPk : Packet := pk [(0, 15), (1, 3), (4, 65)]
/-- Raster 15 on device 64 of a node of two devices. -/
def withNode : State := { withRaster with cf := { withRaster.cf with valid := true, devid := 64, wM1 := 1 } }

theorem witness_sinkAttach_export : meets specSinkAttach exportPk withNode (fun s0 => let x := prmSink exportPk s0
    attachFits 3 exportPk s0 && s0.cf.valid && x.dest / 64 == s0.cf.devid / 64 && decide (x.dest % 64 < nodeSize s0)
      && x.dest != s0.cf.devid && exportPk.env.aux.headD 0 == 0 && (firstHop s0 x.dest).isNone) = true := by decide +kernel

theorem witness_sinkDetach : meets specSinkDetach (pk [(0, 15), (1, 3)]) (withState { sinks := [(3, { dest := 65 })] })
    (fun s0 => !(rasterOf s0 (leaderOf s0 15)).orphan && onlyBits (pk [(0, 15), (1, 3)]) [(0, 1, 0xF), (1, 1, 3)]
      && (sinkOf s0 15 3).isSome) = true := by decide +kernel
/-- DP_PORT_CONFIG of port 3. -/
def portPk (enable : Nat) : Packet := pk [(0, 3), (1, 2 + enable), (2, 2), (3, 4), (4, 1)]
theorem witness_dpPortConfig : [0, 1].all (fun b => meets specDpPortConfig (portPk b) (withDp {}) fun s0 =>
    onlyBits (portPk b) [(0, 1, 3), (1, 1, 3), (2, 1, 3), (3, 1, 7), (4, 1, 1)] && prmb (portPk b) 2 1 1 0 != 0
      && prmb (portPk b) 3 1 2 0 == 4 && (portStreams s0 3).isEmpty) = true := by decide +kernel

/-! ### Strikes -/

/-- STRIKE_ARM of raster 15 for 1 s. -/
def strikePk : Packet := pk [(0, 0x8000), (8, 1000000000)]

theorem witness_strikeArm : meets specStrikeArm strikePk running (fun s0 =>
    onlyBits strikePk [allBits 0 2, allBits 2 2, allBits 8 8] && armMembers strikePk == [15] && !isFollower s0 15
      && !(rasterOf s0 15).orphan && isStarted (rasterOf s0 15) && !(rasterOf s0 15).stopping && (rasterOf s0 15).aligned
      && strikeOf s0 15 == none && prm strikePk 2 2 == 0
      && decide (firstStart (commonPeriod (strikeMembers s0 (prm strikePk 0 2))) (prm strikePk 8 8)
        ≤ prm strikePk 8 8 + 10000000000)) = true := by decide +kernel
theorem witness_strikeCancel : meets specStrikeCancel (pk [(0, 15)])
    { running with rg := { running.rg with strikes := [{ members := 0x8000, owner := 0, d := 1000000000 }] } } (fun s0 =>
      onlyBits (pk [(0, 15)]) [(0, 1, 0xF)] && !(rasterOf s0 15).orphan
        && (match strikeOf s0 15 with | some k => !strikeDecided s0 k | none => false)) = true := by decide +kernel

/-! ### The network engine -/

/-- PORT_CONFIG of port 0 to a MODE, with an MTU. -/
def ethPk (mode mtu : Nat) : Packet := pk [(1, mode), (2, mtu), (4, 0x020000000001), (12, 0x0A000001)]
/-- Ready with port 0 at 100G. -/
def withEth : State :=
  { ready with ne := { ready.ne with ports := [(0, { cfgMode := 1, mode := 1, lanes := 1, up := true })] } }

theorem witness_portConfig : [(3, 9216), (1, 1518), (0, 1518)].all (fun x => meets specPortConfig (ethPk x.1 x.2) withEth
    fun s0 => let p := ethPk x.1 x.2
      prmb p 0 1 2 0 == 0 && onlyBits p portConfigBits && decide (1518 ≤ prmb p 2 2 13 0 ∧ prmb p 2 2 13 0 ≤ 9216)
      && prmb p 1 1 2 0 == x.1 && (match modeLanes 0 x.1 with
        | some lanes => Nat.land lanes (etherLanes s0) == lanes
          && ((List.range 8).all fun q => q == 0 || Nat.land lanes (ethOf s0 q).lanes == 0)
          && Nat.land lanes s0.ne.deadLanes == 0 && !portNamed s0 0
          && checkPort (putEth 0 (configuredPort p x.1 lanes (ethOf s0 0)) s0) 0
            (tsPortOf (putEth 0 (configuredPort p x.1 lanes (ethOf s0 0)) s0) 0) == none
        | none => false)) = true := by decide +kernel

/-- A packet with an indirect block of 112 bytes. -/
def pkI (l : List (Nat × Nat)) : Packet :=
  { indirect := true, plen := 7, pptr := 16, params := leBytes 112 (sumOf (l.map fun e => e.2 * 256 ^ e.1)) }
/-- INGEST_FLOW_SET of flow 4095: ENABLE, MERGE, and a leg or two on port 0. -/
def ingestPk (enable merge : Nat) : Packet :=
  pkI ([(0, 4095), (2, enable + 2 * merge), (4, 16383), (16, 8), (20, 5004), (36, 0x0A000002)]
    ++ if merge = 1 then [(64, 8), (68, 5005), (84, 0x0A000002)] else [])
/-- FST_SUBSCRIBE of flow 4095 with a leg on port 0. -/
def fstPk : Packet := pk [(0, 4095), (4, 16383), (8, 99), (16, 8), (20, 5004), (36, 0x0A000002)]
/-- Port 0 on, with a surface of a writer and a COMP. -/
def withTarget (writer comp format : Nat) : State :=
  { withEth with mm := { withEth.mm with
      surfs := [(16383, { valid := true, writer := writer, comp := comp, format := format })] } }
/-- The fields of INGEST_FLOW_SET. -/
def ingestFields (merge : Bool) : Fields :=
  [(0, 2, 0xFFF), (2, 1, 0xF), (3, 1, 0x7F), (4, 2, 0x3FFF), allBits 8 4, (12, 1, 1)] ++ legBits 16
    ++ (if merge then legBits 64 else [allBits 64 48])

theorem witness_ingestFlowSet_end : meets specIngestFlowSet (ingestPk 0 0) withEth (fun _ =>
    prmb (ingestPk 0 0) 0 2 11 0 == 4095 && onlyBits (ingestPk 0 0) (ingestFields false)
      && !prmbit (ingestPk 0 0) 2 0) = true := by decide +kernel
theorem witness_ingestFlowSet : [0, 1].all (fun m => [0x20, 0x28].all fun format =>
    meets specIngestFlowSet (ingestPk 1 m) (withTarget 1 0 format) fun s0 => let p := ingestPk 1 m
      let merge := m == 1
      let x : Ingest := { kind := 1, enabled := true, merge := prmbit p 2 1, fill := prmb p 2 1 3 2,
                          pt := prmb p 3 1 6 0, surface := prmb p 4 2 13 0, ssrc := prm p 8 4,
                          ssrcEn := prmbit p 12 0, legA := prmLeg p 16,
                          legB := if prmbit p 2 1 = true then prmLeg p 64 else {} }
      prmb p 0 2 11 0 == 4095 && prmbit p 2 1 == merge && onlyBits p (ingestFields merge) && prmbit p 2 0
      && (ingestOf s0 4095).kind != 2 && prmb p 2 1 3 2 != 3 && (surfOf s0 (prmb p 4 2 13 0)).valid
      && (surfOf s0 16383).writer == 1 && !(surfOf s0 16383).crystal && (surfOf s0 16383).format == format && (surfOf s0 16383).comp == 0
      && legOk p s0 16 && (!merge || legOk p s0 64) && !boundElsewhere s0 4095 (prmb p 4 2 13 0)
      && legsUnique s0 4095 (legsOf x) && membershipFits (setIngest 4095 x s0)) = true := by decide +kernel
theorem witness_fstSubscribe : meets specFstSubscribe fstPk (withTarget 2 2 0x20) (fun s0 =>
    let x : Ingest := { kind := 2, enabled := true, surface := prmb fstPk 4 2 13 0, handle := prm fstPk 8 4,
                        legA := prmLeg fstPk 16 }
    prmb fstPk 0 2 11 0 == 4095 && onlyBits fstPk ([(0, 2, 0xFFF), (4, 2, 0x3FFF), allBits 8 4] ++ legBits 16)
      && (ingestOf s0 4095).kind != 1 && (surfOf s0 (prmb fstPk 4 2 13 0)).valid && (surfOf s0 16383).writer == 2
      && !(surfOf s0 16383).crystal
      && (surfOf s0 16383).comp == 2 && legOk fstPk s0 16 && !boundElsewhere s0 4095 (prmb fstPk 4 2 13 0)
      && legsUnique s0 4095 (legsOf x) && membershipFits (setIngest 4095 x s0)) = true := by decide +kernel
theorem witness_fstUnsubscribe : meets specFstUnsubscribe (pk [(0, 4095)])
    { withEth with ne := { withEth.ne with ingress := [(4095, { kind := 2, enabled := true })] } } (fun s0 =>
      prmb (pk [(0, 4095)]) 0 2 11 0 == 4095 && onlyBits (pk [(0, 4095)]) [(0, 2, 0xFFF)]
        && (ingestOf s0 4095).kind == 2) = true := by decide +kernel

/-- EGRESS_FLOW_SET of flow 1023 to a kind on port 0. -/
def egressPk (kind : Nat) : Packet :=
  pk ([(0, 1023)] ++ if kind = 0 then [] else [(2, kind), (7, 64), (8, 0x020000000002), (16, 5004), (18, 5004),
    (32, 0x0A000002), (37, 4), (38, 16383)])
theorem witness_egressFlowSet_end : meets specEgressFlowSet (egressPk 0) withFlow (fun s0 =>
    prmb (egressPk 0) 0 2 9 0 == 1023 && onlyBits (egressPk 0) egressBits && (prmEgress (egressPk 0)).kind == 0
      && (egressOf s0 1023).sender.isNone) = true := by decide +kernel
theorem witness_egressFlowSet : [1, 2].all (fun kind => meets specEgressFlowSet (egressPk kind) (withTarget 0 2 1) fun s0 =>
    let c := prmEgress (egressPk kind)
    let s1 := putEgress 1023 { egressOf s0 1023 with cfg := c } s0
    prmb (egressPk kind) 0 2 9 0 == 1023 && onlyBits (egressPk kind) egressBits && c.kind == kind
      && (egressOf s0 1023).cfg.kind == 0 && checkPort s1 c.port (tsPortOf s1 c.port) == none) = true := by decide +kernel
theorem witness_egressFlowSet_rules : ∀ k, egressCheck (egressPk 1) (withTarget 0 2 1) (prmEgress (egressPk 1)) k = k
    ∧ egressCheck (egressPk 2) (withTarget 0 2 1) (prmEgress (egressPk 2)) k = k := by
  intro k
  unfold egressCheck
  dsimp only
  constructor <;>
    rw [Laws.require_of (by decide +kernel), Laws.require_of (by decide +kernel), Laws.require_of (by decide +kernel),
      Laws.require_of (by decide +kernel)]

/-- MCAST_JOIN or MCAST_LEAVE of 224.0.0.1 on port 0. -/
def joinPk : Packet := pk [(20, 0xE0000001)]
/-- Port 0 on, with that entry. -/
def withJoin : State := { withEth with ne := { withEth.ne with joins := [prmJoin joinPk] } }

theorem witness_mcastJoin_again : (joinOk joinPk
    && meets specMcastJoin joinPk withJoin fun s0 => s0.ne.joins.contains (prmJoin joinPk)) = true := by decide +kernel
theorem witness_mcastJoin : (joinOk joinPk && meets specMcastJoin joinPk withEth fun s0 =>
    !s0.ne.joins.contains (prmJoin joinPk) && membershipFits (reportChanges s0
      { s0 with ne := { s0.ne with joins := s0.ne.joins ++ [prmJoin joinPk] } })) = true := by decide +kernel
theorem witness_mcastLeave : (joinOk joinPk
    && meets specMcastLeave joinPk withJoin fun s0 => s0.ne.joins.contains (prmJoin joinPk)) = true := by decide +kernel
theorem witness_flowQuery : [(0, 4095), (1, 1023)].all (fun x => let p := pk [(0, x.1), (2, x.2), (8, 64)]
    meets specFlowQuery p ready fun s0 => prmb p 2 2 11 0 == x.2 && onlyBits p [(0, 1, 1), (2, 2, 0xFFF), allBits 8 8]
      && bufferOk p s0 64 64 true && prmbit p 0 0 == (x.1 == 1)) = true := by decide +kernel

/-! ### The traffic scheduler -/

/-- QUEUE_SHAPER_SET of queue 1023: every group, at the largest rates and limit. -/
def queuePk : Packet :=
  pk [(0, 1023), (2, 15), (3, 7), (4, 800000000), (8, 800000000), (12, 0xFFFFFF), (16, 0xFFFFFF), (20, 8388608), (24, 9)]

theorem witness_queueShaperSet : meets specQueueShaperSet queuePk ready (fun s0 => onlyBits queuePk shaperBits
    && prmb queuePk 0 2 9 0 == 1023 && shaperOk s0 queuePk (shapedQueue s0 queuePk (queueOf s0 1023))
    && (egressOf s0 1023).sender.isNone && !queueOn s0 1023) = true := by decide +kernel

/-- QBV_LIST_LOAD of one entry of 1,000 ns with every class open into port 0. -/
def qbvPk : Packet := pk [(0, 1), (2, 1), (4, 20), (16, 1000), (19, 0xFF)]

theorem witness_qbvListLoad : meets specQbvListLoad qbvPk withEth (fun s0 => let s1 := portsTakeOver s0
    ((List.range 1).map fun i => (⟨prm qbvPk (16 + 4 * i) 3, prm qbvPk (19 + 4 * i) 1⟩ : GateEntry)) == [⟨1000, 0xFF⟩]
      && prmb qbvPk 2 2 9 0 == 1 && onlyBits qbvPk [allBits 0 1, (2, 2, 0x3FF), allBits 4 1, allBits 16 4]
      && portMaskOk qbvPk s1 && portListOk [⟨1000, 0xFF⟩]
      && (portMask qbvPk).all fun i => (tsPortOf s1 i).arm != .pending) = true := by decide +kernel

/-- QBV_LIST_ARM of port 0, or its disarming, for a time in ns. -/
def qbvArmPk (disarm at_ : Nat) : Packet := pk [(0, 1), (1, disarm), (8, at_)]
/-- Port 0 with a list loaded. -/
def withQbv : State :=
  { withEth with ts := { withEth.ts with ports := [(0, { armed := [⟨1000, 0xFF⟩], arm := .loaded })] } }
/-- What the arm asks first. -/
def qbvFits (p : Packet) (s0 : State) : Bool :=
  onlyBits p [allBits 0 1, (1, 1, 1), allBits 8 8] && portMaskOk p s0
    && (portMask p).all fun i => (portTaken s0 i).isNone

theorem witness_qbvListArm_disarm : meets specQbvListArm (qbvArmPk 1 0) withQbv (fun s0 => qbvFits (qbvArmPk 1 0) s0
    && prmbit (qbvArmPk 1 0) 1 0) = true := by decide +kernel
theorem witness_qbvListArm : meets specQbvListArm (qbvArmPk 0 1000) withQbv (fun s0 => qbvFits (qbvArmPk 0 1000) s0
    && !prmbit (qbvArmPk 0 1000) 1 0 && (portMask (qbvArmPk 0 1000)).all (fun i => (tsPortOf s0 i).arm != .empty
      && checkPort s0 i (portArmedAt 1000 false (tsPortOf s0 i)) == none)
    && decide (now s0 + 1000 ≤ prm (qbvArmPk 0 1000) 8 8)) = true := by decide +kernel

/-- METER_SET of meter 4095 at the smallest buckets. -/
def meterPk : Packet := pk [(0, 4095), (2, 3), (4, 5), (8, 5), (12, 64), (16, 64)]

theorem witness_meterSet : meets specMeterSet meterPk ready (fun _ => onlyBits meterPk [(0, 2, 0xFFF), (2, 1, 3),
      (4, 4, 0x3FFFFFFF), (8, 4, 0x3FFFFFFF), (12, 4, 0xFFFFFF), (16, 4, 0xFFFFFF)]
    && decide (prmb meterPk 4 4 29 0 ≤ prmb meterPk 8 4 29 0 ∧ 64 ≤ prmb meterPk 12 4 23 0 ∧ 64 ≤ prmb meterPk 16 4 23 0))
    = true := by decide +kernel
theorem witness_tsStatsRead : [(1, 4032), (0, 960)].all (fun x =>
    let p := pk [(0, x.1), (1, 1), (2, x.2), (4, 64), (8, 64)]
    meets specTsStatsRead p ready fun s0 =>
      onlyBits p [(0, 1, 1), (1, 1, 1), (2, 2, 0xFFF), (4, 2, 0xFFF), allBits 8 8]
        && decide (1 ≤ prmb p 4 2 11 0 ∧ prmb p 4 2 11 0 ≤ 64) && bufferOk p s0 64 64 false && prmbit p 0 0 == (x.1 == 1)
        && decide (prmb p 2 2 11 0 + prmb p 4 2 11 0 ≤ if x.1 = 1 then 4096 else 1024)) = true := by decide +kernel

/-! ### The fabric and time -/

/-- LINK_CONFIG of link 3: the last four lanes, or off. -/
def linkPk (on : Nat) : Packet := pk [(0, 3 + 4 * on), (1, 12 * on), (2, 4 * on)]

theorem witness_linkConfig : [0, 1].all (fun on => meets specLinkConfig (linkPk on) ready fun s0 => let p := linkPk on
    prmb p 0 1 1 0 == 3 && onlyBits p [(0, 1, 7), (1, 1, 0xF), (2, 1, 7)] && prmbit p 0 2 == (on == 1)
      && (on == 0 || (linkMask (prmb p 1 1 3 0) (prmb p 2 1 2 0) == 0xF000 && prmb p 2 1 2 0 == 4
        && prmb p 1 1 3 0 % 4 == 0 && prmb p 1 1 3 0 / 4 == (prmb p 1 1 3 0 + 3) / 4
        && Nat.land 0xF000 (fabricLanes s0) == 0xF000
        && ((List.range 4).all fun j => j == 3 || Nat.land 0xF000 (heldLanes s0 j) == 0)
        && Nat.land 0xF000 s0.ne.deadLanes == 0))) = true := by decide +kernel

/-- NODE_ENUMERATE of a line of two devices as node 4,094, as found on link 0. -/
def enumPk : Packet :=
  { pk [(0, 1), (2, 4094), (4, 2), (5, 1)] with env := { aux := [0, 0, 5, 1, 4, 0, 0, 0] } }
/-- Links with link 0 up. -/
def upLinks : Tbl CfLink := [(0, { enabled := true, up := true, laneMap := 0xF00, width := 4, first := 8 })]
/-- Ready with link 0 up. -/
def withLink : State := { ready with cf := { ready.cf with links := upLinks } }

theorem witness_nodeEnumerate : meets specNodeEnumerate enumPk withLink (fun s0 =>
    onlyBits enumPk [(0, 1, 3), (2, 2, 0xFFF), (4, 1, 0x7F), (5, 1, 0xF)]
      && topoOk (prmb enumPk 0 1 1 0) (prmb enumPk 4 1 6 0) (prmb enumPk 5 1 3 0) && enumPk.dest == 0x3FFFF
      && enumPk.origin.isNone && !s0.cf.valid && enumFault s0 1 2 1 (enumPk.env.aux.getD 1 0) == none
      && prmb enumPk 2 2 11 0 == 4094) = true := by decide +kernel

/-- The anchor of a line of two devices. -/
def anchor : State :=
  { ready with cf := { ready.cf with links := upLinks, devid := 64, valid := true, anchor := true, topo := 1, wM1 := 1,
                                     members := [(1, ⟨5, true, [4, 0, 0, 0]⟩)] } }
/-- PTP_CONFIG as a time transmitter only. -/
def ptpPk : Packet := pk [(1, 2)]

theorem witness_ptpConfig : meets specPtpConfig ptpPk anchor (fun s0 =>
    onlyBits ptpPk [(0, 1, 0x7F), (1, 1, 0xF), allBits 2 6, (8, 1, 1), (9, 1, 0x7F)] && prmb ptpPk 1 1 1 0 != 3
      && s0.cf.valid && s0.cf.anchor) = true := by decide +kernel
theorem witness_timeQuery : meets specTimeQuery (pk [(8, 64)]) ready (fun s0 => onlyBits (pk [(8, 64)]) [allBits 8 8]
    && bufferOk (pk [(8, 64)]) s0 64 64 false) = true := by decide +kernel
theorem witness_beatCalibrate : [(1, 1), (480, 1)].all (fun x => let p := pk [(0, x.1), (4, x.2)]
    meets specBeatCalibrate p anchor fun s0 => onlyBits p [(0, 4, 0xFFFFFF), (4, 4, 0xFFFFFF)] && s0.cf.valid && s0.cf.anchor
      && prmb p 4 4 23 0 != 0 && decide (prmb p 4 4 23 0 ≤ prmb p 0 4 23 0 ∧ prmb p 0 4 23 0 ≤ 480 * prmb p 4 4 23 0))
    = true := by decide +kernel

/-- SURFACE_TRANSFER of an action on the surface, with device 65. -/
def transferPk (action : Nat) : Packet :=
  pk [(0, action), (2, 16383), (8, if action = 3 then 65 else 65 * 16384)]
/-- The anchor with a surface that has a readable slot, of a writer. -/
def withSource (writer : Nat) : State :=
  { anchor with mm := { anchor.mm with surfs := [(16383, { surfOf withSurf 16383 with writer := writer })] } }

theorem witness_surfaceTransfer : [0, 1].all (fun a => meets specSurfaceTransfer (transferPk a) (withSource 0) fun s0 =>
    let p := transferPk a
    onlyBits p transferBits && prmb p 2 2 13 0 == 16383 && prmb p 0 1 1 0 == a
      && slotBySeq (surfOf s0 16383) (if a = 1 then 0 else prm p 12 4) == some 0 && freeCtx s0 == some 0
      && (surfOf s0 16383).valid && !(surfOf s0 16383).crystal && s0.cf.valid && prm p 8 4 / 16384 != s0.cf.devid
      && prm p 8 4 / 16384 / 64 == s0.cf.devid / 64 && decide (prm p 8 4 / 16384 % 64 < nodeSize s0)
      && (firstHop s0 (prm p 8 4 / 16384)).isSome) = true := by decide +kernel
theorem witness_surfaceTransfer_stop : meets specSurfaceTransfer (transferPk 2)
    { withSource 0 with cf := { (withSource 0).cf with
        xfers := [(63, { follow := true, surface := 16383, handle := 65 * 16384, func := 0 })] } } (fun s0 =>
      onlyBits (transferPk 2) transferBits && prmb (transferPk 2) 0 1 1 0 == 2
        && (Tbl.first? s0.cf.xfers (fun _ y => y.follow && y.surface == 16383 && y.handle == prm (transferPk 2) 8 4)).isSome)
    = true := by decide +kernel
theorem witness_surfaceTransfer_import : meets specSurfaceTransfer (transferPk 3) (withSource 3) (fun s0 =>
    onlyBits (transferPk 3) transferBits && prmb (transferPk 3) 0 1 1 0 == 3 && (surfOf s0 16383).valid
      && (surfOf s0 16383).writer == 3 && !(surfOf s0 16383).crystal && s0.cf.imports.isEmpty && s0.cf.xfersIn.isEmpty)
    = true := by decide +kernel
theorem witness_routeQuery : [64, 65, 66].all (fun dev => meets specRouteQuery (pk [(0, dev)]) anchor fun s0 =>
    onlyBits (pk [(0, dev)]) [(0, 4, 0x3FFFF)] && prmb (pk [(0, dev)]) 0 4 17 0 == dev && s0.cf.valid
      && (dev == s0.cf.devid) == (dev == 64) && (dev == 64 || (routeTo s0 dev).isSome == (dev == 65))) = true := by decide +kernel

/-! ### The blitter and the housekeeping DMA -/

theorem witness_blits : [specBlitCopy, specBlitFill, specBlitBlend, specBlitConvert, specBlitMaskExpand, specBlitListRun].all
    (fun sp => meets sp (pk []) { ready with bl := { ready.bl with
      queue := List.replicate 63 ⟨{ opcode := 0xA01, pkt := pk [] }, false, []⟩ } } fun s0 => decide (s0.bl.queue.length < 64))
    = true := by decide +kernel
theorem witness_blitDeadtimeSet : meets specBlitDeadtimeSet (pk [(0, 4095)]) ready (fun _ => true) = true := by decide +kernel

/-- HD_CHANNEL_CONFIG of channel 11. -/
def hdConfigPk : Packet := pk [(0, 11), (1, 3), (2, 12), (4, 0x100000), (8, 4096), (16, 9)]
/-- Channel 11 configured, in a state. -/
def withChan (st : HdState) : State :=
  { ready with hd := { ready.hd with chans := [(11, { configured := true, cqLog2 := 12, st := st, limit := 9 })] } }
/-- HD_START on channel 11, with NOWAIT or not. -/
def hdStartPk (nowait : Nat) : Packet := pk [(0, 11), (1, nowait), (8, 32)]

theorem witness_hdChannelConfig : meets specHdChannelConfig hdConfigPk ready (fun s0 =>
    onlyBits hdConfigPk [(0, 1, 0xF), (1, 1, 0x1F), (2, 1, 0x1F), (4, 4, 0x1FFFFF), allBits 8 8, (16, 4, 0xFFFFF)]
      && prm hdConfigPk 8 8 % 4096 == 0 && (hdOf s0 11).st == .idle && prmChan hdConfigPk == 11) = true := by decide +kernel
theorem witness_hdStart : [0, 1].all (fun n => meets specHdStart (hdStartPk n) (withChan .idle) fun s0 =>
    onlyBits (hdStartPk n) [(0, 1, 0xF), (1, 1, 1), (8, 8, 0xBFFFFFFFFFFFFFE0)] && (hdOf s0 11).configured
      && decide ((hdOf s0 11).burst ≤ 4 ∧ 4 ≤ (hdOf s0 11).cqLog2 ∧ (hdOf s0 11).cqLog2 ≤ 12) && (hdOf s0 11).st == .idle
      && prmbit (hdStartPk n) 1 0 == (n == 1)) = true := by decide +kernel
theorem witness_hdAbort_idle : meets specHdAbort (pk [(0, 11)]) ready (fun s0 => onlyBits (pk [(0, 11)]) [(0, 1, 0xF)]
    && (hdOf s0 11).st == .idle) = true := by decide +kernel
theorem witness_hdAbort_ready : meets specHdAbort (pk [(0, 11)]) (withChan .ready) (fun s0 =>
    onlyBits (pk [(0, 11)]) [(0, 1, 0xF)] && (hdOf (abortChan 11 s0) 11).st == .idle) = true := by decide +kernel
theorem witness_hdAbort_aborting : meets specHdAbort (pk [(0, 11)]) (withChan .aborting) (fun s0 =>
    onlyBits (pk [(0, 11)]) [(0, 1, 0xF)] && (hdOf (abortChan 11 s0) 11).st != .idle) = true := by decide +kernel
theorem witness_hdQuery : meets specHdQuery (pk [(0, 15)]) ready (fun _ => onlyBits (pk [(0, 15)]) [(0, 1, 0xF)]) = true := by
  decide +kernel

/-! ### The event concentrator -/

/-- EVENT_ROUTE of sources from n to the last target. -/
def routePk (n count : Nat) : Packet := pk [(0, n), (2, count), (4, 67), (5, 15), (6, 1)]

theorem witness_eventRoute : [(1, 815), (1008, 1)].all (fun x => let p := routePk x.1 x.2
    meets specEventRoute p ready fun _ =>
      onlyBits p [(0, 2, 0x3FF), (2, 2, 0x7FF), (4, 1, 0x7F), (5, 1, 0xF), (6, 1, 1)] && prm p 0 2 == x.1
        && prm p 2 2 == x.2 && decide (prm p 4 1 ≤ 67)) = true := by decide +kernel
theorem witness_eventQuery : [1, 1023].all (fun n => meets specEventQuery (pk [(0, n)]) ready fun _ =>
    onlyBits (pk [(0, n)]) [(0, 2, 0x3FF)] && prm (pk [(0, n)]) 0 2 == n) = true := by decide +kernel
theorem witness_eventSoftSet : [1008, 1023].all (fun n => meets specEventSoftSet (pk [(0, n)]) ready fun _ =>
    onlyBits (pk [(0, n)]) [(0, 2, 0x3FF)] && prm (pk [(0, n)]) 0 2 == n) = true := by decide +kernel

/-! ### Power -/

/-- Ready in a power state. -/
def inState (n : Nat) : State := { ready with pmu := { ready.pmu with pstate := n } }

theorem witness_powerStateSet : [(0, 0), (0, 1), (1, 0), (2, 0), (2, 1), (0, 2), (1, 3), (2, 3)].all (fun x =>
    let p := pk [(0, x.2), (4, if x.2 = 3 then 5 else 0)]
    meets specPowerStateSet p (inState x.1) fun s0 => !s0.pmu.changing && onlyBits p [(0, 1, 3), allBits 4 4]
      && prmb p 0 1 1 0 == x.2 && s0.pmu.pstate == x.1 && (prm p 4 4 == 0 || x.2 == 3)) = true := by decide +kernel
theorem witness_loopWindowSet : [(0, 650, 850), (1, 60, 20), (2, 0, 31), (3, 0, 3)].all (fun x =>
    let p := pk [(0, x.1), (4, x.2.1), (6, x.2.2)]
    meets specLoopWindowSet p ready fun _ => onlyBits p [(0, 1, 3), allBits 4 2, allBits 6 2] && prmb p 0 1 1 0 == x.1
      && windowOk x.1 (prm p 4 2) (prm p 6 2)) = true := by decide +kernel
theorem witness_shedMaskSet : meets specShedMaskSet (pk [(0, 0x7C)]) ready (fun _ => onlyBits (pk [(0, 0x7C)]) [(0, 1, 0x7C)])
    = true := by decide +kernel
theorem witness_pmuQuery : meets specPmuQuery (pk [(8, 64)]) ready (fun s0 => onlyBits (pk [(8, 64)]) [allBits 8 8]
    && bufferOk (pk [(8, 64)]) s0 64 64 true) = true := by decide +kernel
theorem witness_deviceReset : [0, 3].all (fun n => meets specDeviceReset (pk [(0, n)]) ready fun _ =>
    onlyBits (pk [(0, n)]) [(0, 1, 3)]) = true := by decide +kernel

/-- UNIT_RESET of a unit, on a state. -/
def resetFits (u : Nat) (s : State) (more : State → Bool) : Bool :=
  meets specUnitReset (pk [(0, u)]) s fun s0 => onlyBits (pk [(0, u)]) [allBits 0 4] && prm (pk [(0, u)]) 0 4 == u
    && resettable u && !unitBusy s0 u && more s0

theorem witness_unitReset_raster : [(withState {}, false, true), (withState { waitingStart := true }, true, true),
    (running, true, false)].all (fun x => resetFits (unitRaster 15) x.1 fun s0 => unitKind (unitRaster 15) == 1
      && !isFollower s0 15 && !(rasterOf s0 15).orphan
      && (let y := { rasterOf (cancelStrike 15 s0) 15 with stopping := true, resetting := true, restart := false }
          isStarted y == x.2.1 && (y.st == .stopped) == x.2.2)) = true := by decide +kernel
theorem witness_unitReset_channel : resetFits (unitChan 15) ready (fun s0 => unitKind (unitChan 15) == 2
    && chanState s0 15 != 2) = true := by decide +kernel
theorem witness_unitReset_port : resetFits (unitPort 7) ready (fun s0 => unitKind (unitPort 7) == 3
    && restartMode s0 7 == (0, 0)) = true := by decide +kernel
theorem witness_unitReset_portOn : resetFits (unitPort 0) withEth (fun s0 => unitKind (unitPort 0) == 3
    && restartMode s0 0 == (1, 1)) = true := by decide +kernel
theorem witness_unitReset_link : resetFits (unitLink 3) ready (fun _ => unitKind (unitLink 3) == 4) = true := by decide +kernel
theorem witness_unitReset_dp : [true, false].all (fun b => resetFits (unitDp 3) (withDp { hpd := b }) fun s0 =>
    unitKind (unitDp 3) == 5 && (dpOf s0 3).enabled && (dpOf s0 3).hpd == b) = true := by decide +kernel
theorem witness_unitReset_flow : resetFits (unitFlow 1023) withFlow (fun _ => unitKind (unitFlow 1023) == 6) = true := by
  decide +kernel
theorem witness_unitReset_blitter : [none, some { block := [], func := 0 }].all (fun o =>
    resetFits unitBl { ready with bl := { ready.bl with op := o } } fun s0 => s0.bl.list.isNone
      && s0.bl.op.isSome == o.isSome) = true := by decide +kernel
theorem witness_unitReset_dma : [.idle, .aborting].all (fun st => resetFits unitHd (withChan st) fun s0 =>
    hdQuiet (forAll (List.range 12) abortChan s0) == (st == .idle)) = true := by decide +kernel

/-! ### Reliability -/

theorem witness_retirementQuery : meets specRetirementQuery (pk [(2, 1792), (8, 32)]) ready (fun s0 =>
    onlyBits (pk [(2, 1792), (8, 32)]) [(0, 2, 0x7FF), (2, 2, 0x7FF), allBits 8 8]
      && decide (prm (pk [(2, 1792), (8, 32)]) 2 2 ≤ 1792) && bufferOk (pk [(2, 1792), (8, 32)]) s0 32 32 true) = true := by
  decide +kernel
/-- Slice 15 retired. -/
def withRetired : State := retireSlice 15 17 ready
theorem witness_retirementClear : meets specRetirementClear (pk [(0, 3), (1, 15)]) withRetired (fun s0 =>
    onlyBits (pk [(0, 3), (1, 15)]) [(0, 1, 3), (1, 1, 0xF)] && prmb (pk [(0, 3), (1, 15)]) 0 1 1 0 == 3
      && prmb (pk [(0, 3), (1, 15)]) 1 1 3 0 == 15 && isRetired s0 3 15 && !s0.mm.migrating) = true := by
  decide +kernel
theorem witness_ltrRead : [0, 1, 2].all (fun n => meets specLtrRead (pk [(0, n), (1, 15), (8, 64)]) ready fun s0 =>
    onlyBits (pk [(0, n), (1, 15), (8, 64)]) [(0, 1, 3), (1, 1, 0xF), allBits 8 8]
      && prmb (pk [(0, n), (1, 15), (8, 64)]) 0 1 1 0 == n && bufferOk (pk [(0, n), (1, 15), (8, 64)]) s0 64 64 false) = true := by
  decide +kernel
theorem witness_ltrCheckpoint : meets specLtrCheckpoint (pk []) ready (fun s0 => onlyBits (pk []) [] && !ltrBusy s0) = true := by
  decide +kernel
theorem witness_eccLogRead : [0, 1].all (fun b => meets specEccLogRead (pk [(0, 15), (1, b), (8, 16)]) ready fun s0 =>
    onlyBits (pk [(0, 15), (1, b), (8, 16)]) [(0, 1, 0xF), (1, 1, 1), allBits 8 8]
      && bufferOk (pk [(0, 15), (1, b), (8, 16)]) s0 16 16 false) = true := by decide +kernel

end Sys2Proof.Tests
end

