-- ==== Sys2Proof/Tests/WitnessEvents.lean ====
section
/-! SUPPORT. A state and operands that meet the premises of each statement about an event, for every clause. -/
namespace Sys2Proof.Tests
set_option Elab.async false
open Sys2Proof Sys2Proof.Machine

/-! ### Queue pairs, timed and routed packets -/

/-- Queue pair 7 of PF0. -/
def withPair (x : Qp) : State := { ready with cp := { ready.cp with qps := [(7, x)] } }
/-- The pair as a write of CP_QCTL leaves its plain fields. -/
def afterQctl (s1 : State) (f q v : Nat) : Qp :=
  { qpOf s1 f q with repEvent := tbit v 2, batch := bits v 15 8,
                     flushAt := if tbit v 1 && !(qpOf s1 f q).flush then some s1.clk.ticks else (qpOf s1 f q).flushAt,
                     flush := (qpOf s1 f q).flush || tbit v 1 }

theorem witness_queueEnable : [4, 12].all (fun n => reaches 0 (withPair { slog2 := n, rlog2 := n }) fun s1 =>
    let x := afterQctl s1 0 7 1
    tbit 1 0 && !x.enable && !x.running && !x.stopping && decide (7 < qpCount s1 0) && x.sbase % 4096 == 0
      && x.rbase % 4096 == 0 && decide (4 ≤ x.slog2 ∧ x.slog2 ≤ 12 ∧ 4 ≤ x.rlog2 ∧ x.rlog2 ≤ 12)) = true := by decide +kernel
theorem witness_queueEnable_err2 : reaches 15 { withVfs with host := { withVfs.host with mse := 0x8000 } } (fun s1 =>
    let x := afterQctl s1 15 1 1
    tbit 1 0 && !x.enable && !x.running && !x.stopping && decide (qpCount s1 15 ≤ 1)) = true := by decide +kernel
theorem witness_queueEnable_err1 : [({ sbase := 2048 } : Qp), { slog2 := 3 }, { rlog2 := 13 }].all (fun y =>
    reaches 0 (withPair y) fun s1 => let x := afterQctl s1 0 7 1
      tbit 1 0 && !x.enable && !x.running && !x.stopping && decide (7 < qpCount s1 0)
        && decide (x.sbase % 4096 ≠ 0 ∨ x.slog2 < 4 ∨ 12 < x.rlog2)) = true := by decide +kernel
theorem witness_queueDisable : [true, false].all (fun b => reaches 0 (withPair { enable := true, running := b }) fun s1 =>
    let x := afterQctl s1 0 7 2
    !tbit 2 0 && x.enable && x.running == b) = true := by decide +kernel
theorem witness_queueFlush : reaches 0 (withPair { enable := true, running := true }) (fun s1 =>
    tbit 3 0 && (afterQctl s1 0 7 3).enable && tbit 3 1) = true := by decide +kernel
theorem witness_flushBoundary : occurs (withPair { enable := true, running := true, flush := true }) (fun s1 =>
    (qpOf s1 0 7).flush && (qpOf s1 0 7).flushTo == none) = true := by decide +kernel

theorem witness_submitDoorbell : [15, 16].all (fun v => reaches 0 (withPair { enable := true, running := true, granted := 16 })
    fun s1 => let x := qpOf s1 0 7
      x.enable && x.running && !x.stopping && decide (v < 65536) && x.flushAt != some s1.clk.ticks
        && decide ((v + 65536 - x.pi) % 65536 ≤ (x.granted % 65536 + 65536 - x.pi) % 65536)) = true := by decide +kernel
theorem witness_submitDoorbell_flush :
    [({ flush := false } : Qp), { flush := true, flushTo := some 0 }, { flush := true }].all (fun y =>
      reaches 0 (withPair { y with enable := true, running := true, granted := 16, flushAt := some 0 }) fun s1 =>
        let x := qpOf s1 0 7
        x.enable && x.running && !x.stopping && x.flushAt == some s1.clk.ticks && x.flush == y.flush
          && x.flushTo == y.flushTo && decide ((16 + 65536 - x.pi) % 65536 ≤ (x.granted % 65536 + 65536 - x.pi) % 65536))
      = true := by decide +kernel
theorem witness_submitDoorbell_beyond : reaches 0 (withPair { enable := true, running := true, granted := 16 }) (fun s1 =>
    let x := qpOf s1 0 7
    x.enable && x.running && !x.stopping
      && decide ((x.granted % 65536 + 65536 - x.pi) % 65536 < (17 + 65536 - x.pi) % 65536)) = true := by decide +kernel
theorem witness_replyDoorbell : reaches 0 (withPair { running := true }) (fun _ => true) = true := by decide +kernel

/-- The bytes of an entry of the NOP with a TAG and a SEQ. -/
def nopEntry (seq : Nat) : List Byte := leBytes 64 (7 * 2 ^ 32 + 0x3FFFF * 2 ^ 64 + seq * 2 ^ 96)
/-- A pair with one entry to copy, and a state of the flush. -/
def pairFull (flushTo : Option Nat) : State :=
  withPair { enable := true, running := true, granted := 16, pi := 1, flushTo := flushTo }
/-- What a copy asks. -/
def copyFits (s1 : State) : Bool :=
  nextPair s1 == some (8 * 0 + 7) && decide (1 ≤ freeReplySlots (qpOf s1 0 7))

theorem witness_cpEntryCopy : occurs (pairFull none) (fun s1 => let p := parseEntry 0 7 (nopEntry 0)
    copyFits s1 && p.seq == (qpOf s1 0 7).expected && (qpOf s1 0 7).flushTo == none && inCatalogue (entryOpcode (nopEntry 0))
      && (s1.cp.fifo.find? (ofPair 0 7 none)).isNone && p.func == 0 && p.qp == 7 && p.origin.isNone && !p.atTime)
    = true := by decide +kernel
theorem witness_cpEntryCopy_seq : occurs (pairFull none) (fun s1 =>
    copyFits s1 && (parseEntry 0 7 (nopEntry 1)).seq != (qpOf s1 0 7).expected) = true := by decide +kernel
theorem witness_cpEntryCopy_flush : occurs (pairFull (some 1)) (fun s1 =>
    copyFits s1 && (parseEntry 0 7 (nopEntry 0)).seq == (qpOf s1 0 7).expected && (qpOf s1 0 7).flushTo.isSome) = true := by
  decide +kernel
theorem witness_creditOnlyReply : occurs (withPair { running := true, batch := 16, unreported := 16 }) (fun s1 =>
    let x := qpOf s1 0 7
    x.running && bmeOf s1 0 && !x.replyDead && x.batch != 0 && decide (x.batch ≤ x.unreported ∧ 0 < freeReplySlots x)) = true := by
  decide +kernel
theorem witness_ringFault : occurs (withPair { running := true, rpi := 1 }) (fun s1 => let x := qpOf s1 0 7
    x.running && !x.replyDead && x.rpi != x.ci) = true := by decide +kernel

/-- A NOP of a function and an origin that waits for its time, which has come. -/
def dueNop (origin : Option Nat) : State :=
  { ready with cp := { ready.cp with timed := [⟨{ opcode := 1, pkt := { pk [] with origin := origin, atTime := true } }, 0⟩] } }
/-- It can begin. -/
def dueFits (origin : Option Nat) (more : Timed × State → Bool) : Bool :=
  occurs (dueNop origin) fun s1 =>
    ((heads (dueTimed s1)).findSome? fun x => (beginTimed {} x (noteLevel s1)).map fun s' => (x, s')).any more

theorem witness_timedPacketDue_routed : dueFits (some 65) (fun y => y.1.ent.pkt.origin.isSome) = true := by decide +kernel
theorem witness_timedPacketDue_own : dueFits none (fun y => y.1.ent.pkt.origin.isNone) = true := by decide +kernel

/-- A NOP for device 65. -/
def awayPk : Packet := { pk [] with dest := 65 }
theorem witness_routeForward : occurs anchor (fun s1 => !destLocal s1 awayPk.dest && awayPk.origin.isNone
    && functionOn s1 awayPk.func && inCatalogue 1 && headerOk awayPk && !awayPk.indirect
    && (takeEntry 1 awayPk s1).any fun y => !destLocal y.2 awayPk.dest && (routeTo y.2 awayPk.dest).isSome
      && y.1.opcode != 0x005) = true := by
  decide +kernel
theorem witness_routeTimeout : occurs { anchor with cp := { anchor.cp with
      routed := [{ ent := { opcode := 1, pkt := awayPk }, device := 65, deadline := 0 }] } } (fun s1 =>
    match s1.cp.routed with
    | r :: _ => !r.acked && decide (r.deadline ≤ s1.clk.ticks)
    | [] => false) = true := by decide +kernel
theorem witness_cmdFlitRx : [1, 2].all (fun ty => occurs anchor fun s1 =>
    lands (flitOf 0 0 { vc := 0, ty := ty, dst := 64 }) [1, 2] s1 fun _ => true) = true := by decide +kernel

/-! ### Register accesses, event targets and functions -/

theorem witness_registerWrite : [0, 15].all (fun be => reaches 0 ready fun _ => decide (be % 16 = 15) == (be == 15))
    = true := by decide +kernel
theorem witness_registerWrite_scratch : [0, 3].all (fun i => reaches 0 ready fun _ =>
    (0x40 + 4 * i) / 4 * 4 == 0x40 + 4 * i && decide (i < 4)) = true := by decide +kernel
theorem witness_rcRegisterRead : reaches 0 ready (fun s1 => let o := 0x8C / 4 * 4
    !inPair s1 0 o false && !inPair s1 0 o true && (claimTarget 0 o).isNone) = true := by decide +kernel
theorem witness_pairLowRead : reaches 0 ready (fun s1 => let o := 65584 / 4 * 4
    inPair s1 0 o false && o != 0x90000) = true := by decide +kernel
theorem witness_pairHighRead : [[], [(65584, 5)]].all (fun h => reaches 0 { ready with host := { ready.host with holding := h } }
    fun s1 => let o := 65588 / 4 * 4
      !inPair s1 0 o false && inPair s1 0 o true
        && Tbl.find? s1.host.holding (0 * 2 ^ 23 + (o - 4)) == (if h = [] then none else some 5)) = true := by decide +kernel

/-- The event concentrator has stood so since the arbitration cycle before. -/
def settled (s : State) : State := { s with prior := { s.prior with arb := s.evc } }
/-- A source at target 67 of function 15, with the function enabled and its registers reached. -/
def withSource67 (x : EvcSrc) (g : EvcTgt) (n : Nat) : State := settled
  { withVfs with host := { withVfs.host with mse := 0x8001, bme := 0x8001, msixEn := 0x8001 }
                 own := { withVfs.own with targets := [(15, true)] }
                 evc := { src := [(n, { x with target := 67 })], tgt := [(67, g)] } }

theorem witness_evcClaim : [1, 1023].all (fun n => reaches 15 (withSource67 { pending := true, prio := 1 } {} n) fun s1 =>
    tgtHolder s1 67 == 15 && claimTop s1 67 == n && n != 0) = true := by decide +kernel
theorem witness_evcClaim_held : reaches 15 (withSource67 { pending := true, prio := 1 } { hold := true } 1)
    (fun s1 => tgtHolder s1 67 == 15 && tgtHeld (lastArb s1) 67) = true := by decide +kernel
theorem witness_evcClaim_none : reaches 15 (withSource67 {} {} 1)
    (fun s1 => tgtHolder s1 67 == 15 && claimTop s1 67 == 0) = true := by decide +kernel
theorem witness_evcComplete : [1, 832, 959, 1023].all (fun n => reaches 15 (withSource67 { claimed := true, claimer := 67 } {} n)
    fun s1 => tgtHolder s1 67 == 15 && bits n 9 0 == n && (srcOf s1 n).claimed && (srcOf s1 n).claimer == 67
      && isLevelSource n == (n == 832 || n == 959)) = true := by decide +kernel
theorem witness_evcComplete_bad : [({ claimer := 67 } : EvcSrc), { claimed := true, claimer := 66 }].all (fun x =>
    reaches 15 (withSource67 x {} 5) fun s1 => tgtHolder s1 67 == 15
      && (!(srcOf s1 (bits 5 9 0)).claimed || (srcOf s1 (bits 5 9 0)).claimer != 67)) = true := by decide +kernel
theorem witness_evcTarget_other : reaches 0 (withSource67 {} {} 5) (fun s1 => tgtHolder s1 67 != 0) = true := by decide +kernel
theorem witness_evcGlobal : reaches 0 ready (fun _ => true) = true := by decide +kernel

theorem witness_evcEdge : [true, false].all (fun b => [1, 1023].all fun n => occurs (withSource67 { pending := b } {} n) fun s1 =>
    n != 0 && decide (n ≤ 1023) && !isLevelSource n && !unusedSource n && (srcOf s1 n).pending == b) = true := by decide +kernel
theorem witness_evcLevelChange : [true, false].all (fun b => [832, 959].all fun n =>
    occurs (withSource67 { claimed := b, claimer := 67 } {} n) fun s1 =>
      isLevelSource n && (srcOf s1 n).asserted != true && (srcOf s1 n).claimed == b) = true := by decide +kernel
theorem witness_evcDelivery_high : occurs (withSource67 { pending := true, prio := 1 } {} 1) (fun s1 =>
    deliveryDue s1 67 && (67 - 4) / 4 == 15 && (67 - 4) % 4 == 3) = true := by decide +kernel
theorem witness_evcDelivery_core : occurs (settled
    { ready with evc := { src := [(1, { target := 3, pending := true, prio := 1 })] } }) (fun s1 => deliveryDue s1 3)
    = true := by decide +kernel
theorem witness_evcDelivery_masked : [true, false].all (fun m =>
    let s := withSource67 { pending := true, prio := 1 } {} 1
    occurs { s with host := { s.host with msix := [(63, { mask := m })] } } fun s1 =>
      deliveryDue s1 67 && msixReady (putTgt 67 (tgtOf s1 67) s1) 15 3 == !m) = true := by decide +kernel
theorem witness_msixEntryUnmask : reaches 15 (withSource67 {} {} 1) (fun _ => true) = true := by decide +kernel
theorem witness_evcNowakeFallback : occurs { ready with
      clk := { ready.clk with ticks := 62500 }, pmu := { ready.pmu with pstate := 1 }
      evc := { src := [(1, { target := 3, pending := true, nowake := true })], tgt := [(3, { waiting := true })] } }
    (fun s1 => let x := srcOf s1 1
      x.pending && !x.claimed && x.nowake && x.moved == none && coreAsleep s1 x.target
        && decide (x.pendAt + usTicks 50 ≤ s1.clk.ticks)) = true := by decide +kernel

theorem witness_configWrite : (configReaches (advance 0 withVfs) 15 && configReaches (advance 0 ready) 0
    && !(advance 0 ready).host.vfEnable && (advance 0 withVfs).host.vfEnable) = true := by decide +kernel
theorem witness_flrRemoteApply : occurs ready (fun _ => true) = true := by decide +kernel
theorem witness_perst : (clocked (advance 0 ready) && (advance 0 ready).host.linkUp) = true := by decide +kernel

/-- A BAR2 access of PF0 at an address of a state, once the accesses that waited have gone on. -/
def bar2At (s : State) (off : Nat) (more : State → Bool) : Bool :=
  let s1 := advance 0 s
  hostReaches s1 0 && mseOf s1 0 && decide (off < bar2Size s1 0 ∧ 4096 ≤ 4096 - off % 4096) && more (drainBar2 s1)
/-- Class C6 is shed. -/
def shed6 : State := { withSurf with pmu := { withSurf.pmu with shed := 0x40 } }
/-- The access waits. -/
def bar2Waits (s2 : State) (off : Nat) : Bool :=
  s2.host.posted.any (fun y => y.func == 0) || !channelServes s2 6 (channelOf s2 off)

theorem witness_bar2 : bar2At withSurf 0x10000000 (fun s2 => bar2Allowed s2 0 true 0x10000000
    && bar2Allowed s2 0 false 0x10000000 && !bar2Waits s2 0x10000000 && !fencedAt s2 0x10000000) = true := by decide +kernel
theorem witness_bar2_fenced : bar2At
    { withSurf with mm := { withSurf.mm with chan := (List.range 16).map fun n => (n, 2), migrating := true } }
    0x10000000 (fun s2 => bar2Allowed s2 0 false 0x10000000 && !bar2Waits s2 0x10000000 && fencedAt s2 0x10000000)
    = true := by decide +kernel
theorem witness_bar2_waits : (bar2At shed6 0x10000000 (fun s2 => bar2Allowed s2 0 true 0x10000000
    && bar2Allowed s2 0 false 0x10000000 && bar2Waits s2 0x10000000)
    && bar2At { shed6 with host := { shed6.host with posted := [⟨0, 0x10000000, true, [1#8], 1, 0⟩] } } 0x10000000
      fun s2 => bar2Allowed s2 0 true 0x10000000 && !s2.host.posted.isEmpty && bar2Waits s2 0x10000000) = true := by
  decide +kernel
theorem witness_bar2_denied : bar2At withSurf 0 (fun s2 => !bar2Allowed s2 0 true 0 && !bar2Allowed s2 0 false 0) = true := by
  decide +kernel

/-! ### Registers that command a unit, resets and power -/

/-- A write of COMMIT acts on raster 15. -/
def commits (s1 : State) : Bool :=
  rasterOwner s1 15 == 0 && !isFollower s1 15 && !strikeLocked s1 15 && !(rasterOf s1 15).commit && tbit 1 0

theorem witness_commit : reaches 0 (withState { st := .running }) (fun s1 => commits s1
    && (rasterOf s1 15).latchAt != some s1.clk.ticks) = true := by decide +kernel
theorem witness_commit_orphan : reaches 0 (withState { st := .running, latchAt := some 0, orphan := true }) (fun s1 =>
    commits s1 && (rasterOf s1 15).latchAt == some s1.clk.ticks && (rasterOf s1 15).orphan) = true := by decide +kernel
theorem witness_commit_armed : (let s := withState { st := .running, latchAt := some 0 }
    reaches 0 { s with rg := { s.rg with strikes := [{ members := 0x8000, owner := 0, d := 1000000000 }] } } fun s1 =>
      commits s1 && (rasterOf s1 15).latchAt == some s1.clk.ticks && (strikeOf s1 15).isSome) = true := by decide +kernel
theorem witness_commit_deferred : reaches 0 (withState { st := .running, latchAt := some 0 }) (fun s1 => commits s1
    && (rasterOf s1 15).latchAt == some s1.clk.ticks && !(rasterOf s1 15).orphan && strikeOf s1 15 == none) = true := by
  decide +kernel
theorem witness_paneWindow : [0x100000, 0x17FFC0].all (fun off => reaches 0 withRaster fun s1 =>
    let d := putBytes (shadowDesc s1 ((off - 0x100000) / 64)) (off % 64 / 4 * 4) (leBytes 4 1)
    decide (0x100000 ≤ off ∧ off < 0x180000) && !windowDenied s1 ((off - 0x100000) / 64) d) = true := by decide +kernel
theorem witness_paneWindow_denied : reaches 0 { withVfs with own := { withVfs.own with panes := [(15, (8191, 1))] } } (fun s1 =>
    windowDenied s1 8191 (putBytes (shadowDesc s1 8191) 0 (leBytes 4 1))) = true := by decide +kernel
/-- A register-started list is written, on a state of the blitter. -/
def listStarts (b : BlSt) (drain : Option Ticks) (more : State → Bool) : Bool :=
  reaches 0 { ready with bl := b, pmu := { ready.pmu with drainAt := drain } } fun s1 =>
    tbit 5 0 && !tbit 5 1 && s1.bl.list == none && more s1

theorem witness_blRegListStart_waits : (listStarts {} (some 0) blHolds
    && listStarts { op := some { block := [], func := 0 } } none (fun s1 => s1.bl.op.isSome)
    && listStarts { burstEnd := some 1, laddr := 0x10000000, lcount := 1 } none fun s1 =>
      listWaits { s1 with bl := { s1.bl with stopOnErr := true, regWait := true } } s1.bl.laddr (listLimit s1.bl.lcount))
    = true := by decide +kernel
theorem witness_blRegListStart : listStarts {} none (fun s1 => !blHolds s1 && s1.bl.op == none && s1.bl.job == none
    && !listWaits { s1 with bl := { s1.bl with stopOnErr := true, regWait := true } } s1.bl.laddr (listLimit s1.bl.lcount))
    = true := by decide +kernel
theorem witness_blRegListStop : [none, some { block := [], func := 0 }].all (fun o =>
    reaches 0 { ready with bl := { ready.bl with op := o, list := some { addr := 0, limit := 1 } } } fun s1 =>
      !tbit 2 0 && tbit 2 1 && s1.bl.list.isSome && s1.bl.op.isSome == o.isSome) = true := by decide +kernel
theorem witness_hdRegStart : reaches 0 (withChan .idle) (fun s1 => (hdOf s1 11).st == .idle && hdStartable (hdOf s1 11)) = true := by
  decide +kernel
theorem witness_hdRegAbort : reaches 0 (withChan .ready) (fun s1 => (hdOf s1 11).st != .idle) = true := by decide +kernel
theorem witness_hdReqset : reaches 0 ready (fun _ => true) = true := by decide +kernel

/-- In recovery, with a page being programmed or not. -/
def inRecovery (busy : Bool) : State := { ready with pmu := { ready.pmu with stage := 6, busy := busy } }

theorem witness_recovery : [true, false].all (fun b => let s1 := advance 0 (inRecovery b)
    s1.pmu.stage == 6 && clocked s1 && hostReaches s1 0 && mseOf s1 0 && s1.pmu.busy == b) = true := by decide +kernel

/-- Ready, with the PMU changed. -/
def withPmu (f : PmuSt → PmuSt) : State := { ready with pmu := f ready.pmu }

theorem witness_powerOnReset : ([0, 3].all fun n => [true, false].all fun b =>
    let s1 := advance 0 (withPmu fun p => { p with pstate := n, off := b })
    s1.pmu.pstate == n && s1.pmu.off == b) = true := by decide +kernel
theorem witness_porRelease : (advance 0 State.reset).pmu.por = true := by decide +kernel
theorem witness_pinReset : (!(advance 0 ready).pmu.pinLow && !(advance 0 ready).pmu.por) = true := by decide +kernel
theorem witness_resetNDeassert : ([true, false].all fun b => let s1 := advance 0 (withPmu fun p => { p with pinLow := true, off := b })
    s1.pmu.pinLow && !s1.pmu.por && s1.pmu.off == b) = true := by decide +kernel
theorem witness_tjBelow : (let s1 := advance 0 (withPmu fun p => { p with hotPend := true, off := true })
    s1.pmu.hotPend && !s1.pmu.pinLow && s1.pmu.off) = true := by decide +kernel
theorem witness_thermtrip : (!(advance 0 ready).pmu.por && !(advance 0 ready).pmu.off && clocked (advance 0 ready)) = true := by
  decide +kernel
theorem witness_watchdog : (let s1 := advance 1250000000 (withPmu fun p => { p with warned := [(3, 0)] })
    isRunning s1 && !(tgtOf s1 3).waiting && Tbl.find? s1.pmu.warned 3 == some 0
      && decide (0 + secTicks 1 ≤ s1.clk.ticks)) = true := by decide +kernel
theorem witness_wake : (let s1 := advance 0 (withPmu fun p => { p with pstate := 3, wakeAt := some 0, perstLow := true })
    asleep s1 && s1.pmu.wakeAt == some 0 && decide (0 ≤ s1.clk.ticks) && s1.pmu.perstLow) = true := by decide +kernel
theorem witness_wakePin : isRunning (advance 0 ready) = true := by decide +kernel
theorem witness_bootReady : [0, 1, 2].all (fun b => let s1 := advance 0 (withPmu fun p => { p with stage := 0, strapBoot := b })
    clocked s1 && s1.pmu.stage == 0 && s1.pmu.strapBoot == b) = true := by decide +kernel
theorem witness_bootReady_recovered : (let s1 := advance 0 (withPmu fun p => { p with stage := 3 })
    clocked s1 && s1.pmu.stage == 3) = true := by decide +kernel

theorem witness_drainEnd : occurs (withPmu fun p => { p with drainAt := some 0 }) (fun s1 =>
    s1.pmu.drainAt.isSome && drained s1) = true := by decide +kernel
theorem witness_drainTimeout : (let s0 := withPmu fun p => { p with drainAt := some 0 }
    occurs { s0 with clk := { s0.clk with ticks := 125000000 }, bl := { s0.bl with op := some { block := [], func := 0 } } }
      fun s1 => s1.pmu.drainAt == some 0 && decide (0 + msTicks 100 ≤ s1.clk.ticks) && !drained s1) = true := by decide +kernel
/-- Channel 15 restarting since tick 0, at the tick 2 ms later. -/
def restarting : State :=
  { ready with clk := { ready.clk with ticks := 2500000 }
               mm := { ready.mm with chan := [(15, 1)], restart := [(15, 0)] } }
theorem witness_channelRestart : occurs restarting (fun s1 => Tbl.find? s1.mm.restart 15 == some 0 && chanState s1 15 == 1
    && decide (s1.clk.ticks ≤ 0 + msTicks 2 ∧ 0 + msTicks 2 ≤ s1.clk.ticks)) = true := by decide +kernel
theorem witness_pfw : occurs ready (fun s1 => !ltrBusy s1 && !ltrBusy (raise 999 s1)) = true := by decide +kernel
theorem witness_pfw_busy : occurs (startCheckpoint 4 ready) (fun s1 => ltrBusy (raise 999 s1)) = true := by decide +kernel
theorem witness_thermalSample : occurs ready (fun s1 => dueAfter s1 (msTicks 1) s1.pmu.tjAt) = true := by decide +kernel
/-- The window and the setpoint stand at the voltage floor, rounded up. -/
def atFloor : State := withPmu fun p => { p with
  vmin := Config.voltageFloor p.tj, vmax := Config.voltageFloor p.tj + 3, vset := roundUp (10 * Config.voltageFloor p.tj) 25 }
theorem witness_avsUpdate : isRunning (advance 0 atFloor) = true ∧ (let s1 := advance 0 atFloor
    let m := roundUp s1.pmu.vset 25
    dueAfter s1 (msTicks 1) s1.pmu.avsAt = true ∧ s1.pmu.vset ≤ m + 100 ∧ m ≤ s1.pmu.vset + 100
      ∧ 10 * s1.pmu.vmin ≤ m ∧ m ≤ 10 * s1.pmu.vmax ∧ roundUp (10 * floorMv s1) 25 ≤ m ∧ floorMv s1 ≤ s1.pmu.vmin) := by
  have h : (advance 0 atFloor).pmu = atFloor.pmu := rfl
  refine ⟨rfl, ?_⟩
  dsimp only
  unfold floorMv
  rw [h]
  unfold atFloor withPmu roundUp cdiv dueAfter
  dsimp only
  refine ⟨rfl, ?_⟩
  simp only [OfNat.ofNat_ne_zero, if_false]
  generalize Config.voltageFloor ready.pmu.tj = F
  omega
theorem witness_refreshPoll : occurs ready (fun s1 => dueAfter s1 (msTicks 16) s1.pmu.rfAt && decide (0 ≤ s1.pmu.rfMin
    ∧ (s1.pmu.rfMin : Int) ≤ wantedRefresh { s1 with pmu := { s1.pmu with mr4 := 0, rfAt := some s1.clk.ticks } }
    ∧ wantedRefresh { s1 with pmu := { s1.pmu with mr4 := 0, rfAt := some s1.clk.ticks } } ≤ s1.pmu.rfMax
    ∧ s1.pmu.rfMax ≤ 3)) = true := by decide +kernel
theorem witness_serdesEqAdapt : [0, 31].all (fun code => occurs ready fun s1 =>
    decide ((Tbl.get s1.pmu.eqWin (0, 31) 15).1 ≤ code ∧ code ≤ (Tbl.get s1.pmu.eqWin (0, 31) 15).2)) = true := by decide +kernel

/-! ### The fetch scheduler, frames, comparisons and the key -/

/-- A pane of ID 8191 on raster 15 of the surface of `withSurf`, at (0, 0), 64 by 16. -/
def surfDesc (type : Nat) : Desc :=
  desc [(0, 8191), (2, 0xFC + type), (6, 16383), (12, 63), (14, 15), (20, 63), (22, 15), (36, 0x3FF), (48, 0xFF)]
/-- A small timing of 64 by 16. -/
def tiny : Timing :=
  { set := true, hact := 64, hfp := 16, hsync := 16, hbp := 16, vact := 16, vfp := 4, vsync := 4, vbp := 8, latch := 20,
    n := 1, d := 10 }
/-- Raster 15 with that timing and surface, and a scene of that pane. -/
def fetchState (x : Raster) (f : RasterFs) : State :=
  let s := withSurf
  { s with pn := { active := [(8191, surfDesc 0)], run := [(8191, { use := .slot 0 })] }
           fs := { s.fs with rasters := [(15, f)] }
           rg := { s.rg with rasters := [(15, { x with tim := tiny, first := some 0, g := 1 })]
                             slices := [(0, { raster := 15, bound := true, gang := 1, leads := true })] } }
/-- Its fetch progress, with full buckets. -/
def fullFs : RasterFs := { active := true, bc := 4294967296, bp := 268435456 }
/-- A state at the tick 1,000,000. -/
def late (s : State) : State := { s with clk := { s.clk with ticks := 1000000 } }

theorem witness_rasterStartLatch : [true, false].all (fun b =>
    let s := fetchState { waitingStart := true } {}
    occurs { s with pmu := { s.pmu with resuming := b } } fun s1 => let x := rasterOf s1 15
      let y := { x with waitingStart := false, leadIn := true, restart := false, line := x.tim.latch,
                        accAt := s1.clk.ticks, pos0 := x.tim.latch * linePixels x.tim, starts := 0 }
      let s2 := takeLatch 15 s1.clk.ticks (putRaster 15 y s1)
      x.waitingStart && !s1.pmu.entering && decide (x.startFt ≤ nsAt s1 (s1.clk.ticks + leadTicks x.tim))
        && s2.pmu.resuming == b && (List.range 16).all fun k => !(rasterOf s2 k).restart) = true := by decide +kernel
theorem witness_rasterLatch : [19, 20].all (fun n => occurs (late (fetchState { st := .running, line := n } {})) fun s1 =>
    let x := rasterOf s1 15
    x.st != .stopped && !x.latched && !x.newFrame && decide (x.tim.latch ≤ x.line + 1)
      && decide (lineTick x x.tim.latch ≤ s1.clk.ticks)) = true := by decide +kernel
theorem witness_rasterFrameStart : [(false, false), (false, true), (true, false)].all (fun b =>
    occurs (late (fetchState { st := if b.1 then .stopped else .running, leadIn := b.1, stopping := b.2, latched := true,
                               line := 31 } {})) fun s1 =>
      let x := rasterOf s1 15
      (x.st != .stopped || x.leadIn) && x.latched && !x.newFrame && x.line + 1 == vTotal x.tim
        && decide (frameTick x ≤ s1.clk.ticks) && x.leadIn == b.1 && x.stopping == b.2) = true := by decide +kernel
/-- Raster 15 has come to a line. -/
def atLine (n y : Nat) (newFrame : Bool) : Bool :=
  occurs (late (fetchState { st := .running, latched := decide (20 ≤ n), newFrame := newFrame, line := n } {})) fun s1 =>
    lineDue s1 (rasterOf s1 15) y && !(rasterOf s1 15).leadIn && (rasterOf s1 15).tim.vact == 16
      && vTotal (rasterOf s1 15).tim == 32
theorem witness_rasterLineStart : (atLine 0 0 true && atLine 13 14 false && atLine 15 16 false && atLine 29 30 false
    && atLine 30 31 false) = true := by decide +kernel
theorem witness_indexBuildDone : occurs { ready with rg := { ready.rg with scenes := [(15, { building := true })] } }
    (fun s1 => (sceneOf s1 15).building) = true := by decide +kernel

/-- A slot of channel 1, with what each class has left and the state once the waits for a gate are counted. -/
def slotOf1 (s : State) (more : State → Nat → Nat → State → Bool) : Bool :=
  occurs s fun s1 =>
    let c := chanFsOf s1 1
    let left0 := openLeft s1 c 1
    let left1 := openLeft s1 c 2
    let s2 := guardClass 1 left0 ((List.range 16).filterMap fun r => (offer0 s1 r 1).map fun o => (r, o.1)) s1
    let s3 := guardClass 1 left1 ((List.range 16).filterMap fun r => (offer1 s2 r 1).map fun o => (r, o.1)) s2
    more s1 (left0.getD 0) (left1.getD 0) s3

theorem witness_fsRequestIssue_c0 : slotOf1 (fetchState { st := .running } fullFs) (fun s1 a _ s3 =>
    (chanFsOf s1 1).lastIssue.isNone && decide (8 ≤ a) && (choose0 s3 1).isSome) = true := by decide +kernel
/-- The crystal of raster 15 is shown from that surface. -/
def crystalState (c : ChanFs) : State :=
  let s := fetchState { st := .running } fullFs
  { s with pn := { s.pn with active := [(8191, surfDesc 3)] }
           fs := { s.fs with chans := [(1, c)] }
           rg := { s.rg with crystals := [(15, { pane := some 8191, slot := some (16383, 0) })] } }
theorem witness_fsRequestIssue_c1 : slotOf1 (crystalState {}) (fun s1 _ b s3 =>
    (chanFsOf s1 1).lastIssue.isNone && (choose0 s3 1).isNone && decide (8 ≤ b) && (choose1 s3 1).isSome) = true := by
  decide +kernel
theorem witness_fsRequestIssue_guard : slotOf1 (crystalState { arm := .pending, armT := 4 }) (fun s1 _ b s3 =>
    (chanFsOf s1 1).lastIssue.isNone && (choose0 s3 1).isNone && decide (b < 8)) = true := by decide +kernel
theorem witness_fsRequestIssue_early : occurs (crystalState { lastIssue := some 0 }) (fun s1 =>
    (chanFsOf s1 1).lastIssue == some 0 && decide (s1.clk.ticks < 0 + 10)) = true := by decide +kernel

/-- A request of that pane returns from channel 1 in a state; the surface is linear or compressed. -/
def returns (st comp k : Nat) (old : Bool) (more : State → FetchFlight → Nat × Surface → Bool) : Bool :=
  let s := fetchState { st := .running } fullFs
  let s := { s with mm := { s.mm with chan := [(1, st)]
                                      mem := (List.range 16).map fun i => (0x10000000 + i, 0xFF#8)
                                      surfs := s.mm.surfs.map fun e => (e.1, { e.2 with comp := comp }) }
                    fs := { s.fs with flights := [⟨15, ⟨8191, 0, k⟩, 1, 0, 0, old⟩] } }
  occurs s fun s1 =>
    match s1.fs.flights with
    | x :: l =>
      let s2 := { s1 with fs := { s1.fs with flights := l } }
      let pd := reqPane s2 15 8191
      let sf := surfOf s2 (dSurface pd.1)
      x.raster == 15 && x.req == ⟨8191, 0, k⟩ && chanState s1 x.channel != 1
        && (fenced s2 x.channel || (slotOf sf (pd.2.getD 0)).invalid
          || sectorBad s2 (reqAddr s2 pd.1 (pd.2.getD 0) ⟨8191, 0, k⟩) 256) == (st == 2)
        && more s2 x (uMax sf.format + 1, sf) && decide (sf.comp = 1) == (comp == 1)
    | [] => false

theorem witness_fetchDataArrive : [false, true].all (fun b => returns 0 0 0 b fun _ x _ => x.old == b) = true := by decide +kernel
theorem witness_fetchDataArrive_bad : returns 2 0 0 false (fun _ _ _ => true) = true := by decide +kernel
theorem witness_fetchDataArrive_decode : [(0, true), (1, false)].all (fun e => returns 0 1 e.1 false fun s2 _ y =>
    !tileDecodes s2 y.2 0 (dSX (reqPane s2 15 8191).1 / 32 + e.1 / y.1) 0 && (e.1 % y.1 == 0) == e.2) = true := by
  decide +kernel
theorem witness_gateSwitch : occurs { ready with fs := { ready.fs with chans := [(15, { arm := .pending })] } } (fun s1 =>
    (chanFsOf s1 15).arm == .pending && decide ((chanFsOf s1 15).armT ≤ now s1)) = true := by decide +kernel

theorem witness_divergenceCompare : [false, true].all (fun b =>
    let s := withState { newFrame := true }
    occurs { s with un := { s.un with mgmt := if b then [(0x0100000F, 1)] else [] } } fun s1 =>
      unitOk 0x0100000F && unitKind 0x0100000F == 1 && (rasterOf s1 (unitIndex 0x0100000F)).newFrame && !quiesced s1
        && !s1.pmu.resuming && !isMarked s1 0x0100000F && differs s1 0x0100000F == b) = true := by decide +kernel
theorem witness_crystalExpire : [none, some 1].all (fun o => occurs { ready with key := { ready.key with until_ := o } } fun s1 =>
    isUnlocked s1 == o.isSome && !isLockedOut s1) = true := by decide +kernel

/-! ### Strikes -/

/-- Raster 15 running with a built index, in a strike. -/
def inStrike (k : Strike) (built : Bool) : State :=
  let s := withState { st := .running, aligned := true, commit := built, commitAt := 1 }
  let rg := { s.rg with strikes := [{ k with members := 0x8000 }], scenes := [(15, { built := built })] }
  { s with rg := rg, prior := { s.prior with rg := rg } }
theorem witness_strikeDecision : [true, false].all (fun b => occurs (inStrike { members := 0, owner := 0 } b) fun s1 =>
    match strikeOf s1 15 with
    | some k => k.id == 0 && !k.struck && decide (k.d ≤ now s1) && strikeReady s1 k.members == b
    | none => false) = true := by decide +kernel
theorem witness_strikeVoteTime : occurs (inStrike { members := 0, owner := 0, id := 1025, c := 1, d := 100000 } true) (fun s1 =>
    match partOf s1 1 with
    | some k => k.c != 0 && !k.voted && !k.struck && decide (k.d ≤ now s1 + 100000)
    | none => false) = true := by decide +kernel

/-- A strike open at the anchor with the boundary C; device 65 has registered. -/
def openStrike (c : Nat) (votes : List (Nat × Bool)) (struck : Bool) (parts : Nat) : State :=
  let o : OpenStrike := { num := 1, t := 0, parts := parts, func := 0, regs := [(65, [⟨1000, 1, 0⟩])], c := c, votes := votes,
                          struck := struck }
  { anchor with cf := { anchor.cf with strikes := [o] } }
theorem witness_strikeVerdictDeadline : [[(65, true)], [(65, false)], []].all (fun v => occurs (openStrike 50000 v false 1) fun s1 =>
    match openOf s1 1 with
    | some o => s1.cf.anchor && o.c != 0 && !o.struck
        && decide (decisionTime (commonPeriod (openMembers o)) (openMembers o) o.c ≤ now s1 + 50000)
        && (o.regs.all fun x => o.votes.contains (x.1, true)) == (v == [(65, true)])
    | none => false) = true := by decide +kernel

/-- A flit of a type on link 0 for device 64. -/
def flit (vc ty : Nat) : FlitRx := flitOf 0 0 { vc := vc, ty := ty, dst := 64 }
theorem witness_strikeRegistrationRx : occurs anchor (fun s1 => lands (flit 3 0xF) [0xF] s1 fun s2 =>
    s2.cf.valid && s2.cf.anchor && strikeNum 1 != 0 && 65 != s2.cf.devid) = true := by decide +kernel
theorem witness_strikeVoteRx : [false, true].all (fun b => occurs (openStrike 50000 [] b 1) fun s1 =>
    lands (flit 3 0xF) [0xF] s1 fun s2 => s2.cf.valid && s2.cf.anchor && match openOf s2 1 with
      | some o => o.c != 0 && o.struck == b
          && decide (now s2 + 50000 ≤ decisionTime (commonPeriod (openMembers o)) (openMembers o) o.c)
      | none => false) = true := by decide +kernel
theorem witness_strikeVerdictRx : occurs { anchor with rg := { anchor.rg with
      strikes := [{ members := 0x8000, owner := 0, id := 1, voted := true }] } } (fun s1 =>
    lands (flit 3 0xF) [0xF] s1 fun s2 => match partOf s2 1 with | some k => k.voted | none => false) = true := by decide +kernel
theorem witness_strikeRegistrationTimeout : (let s := openStrike 0 [] false 2
    occurs { s with clk := { s.clk with ticks := 12500000001 } } fun s1 => match openOf s1 1 with
      | some o => s1.cf.anchor && decide (o.regs.length < o.parts ∧ o.t + 10000000000 ≤ now s1)
      | none => false) = true := by decide +kernel

/-! ### Ethernet, PTP and the traffic scheduler -/

/-- A UDP frame to a MAC address. -/
def udpTo (mac : Nat) : List Byte :=
  buildUdp { smac := 0x020000000002, dmac := mac, vlan := none, ipv6 := false, src := 0x0A000002, dst := 0x0A000001,
             dscp := 0, ttl := 4, sport := 5004, dport := 5004 } [0#8]
/-- Port 0 up with an address. -/
def withMac : State :=
  { ready with ne := { ready.ne with ports := [(0, { cfgMode := 1, mode := 1, lanes := 1, up := true, mac := 0x020000000001 })] } }
theorem witness_ethFrameRx_down : occurs ready (fun s1 => !portCarries (countFixed 0 0 s1) 0) = true := by decide +kernel
theorem witness_ethFrameRx_bad : occurs withMac (fun s1 => (ethOf s1 0).up && portCarries (countFixed 0 0 s1) 0
    && !frameOk (ethOf (countFixed 0 0 s1) 0).mtu []) = true := by decide +kernel

/-- A good frame arrives on port 0 and is counted. -/
def receives (s : State) (b : List Byte) (more : State → Bool) : Bool :=
  occurs s fun s1 =>
    let s2 := countFixed 0 0 s1
    let x := ethOf s2 0
    portCarries s2 0 && frameOk x.mtu b
      && more (putEth 0 { x with rxfr := (x.rxfr + 1) % 2 ^ 64, rxoct := (x.rxoct + b.length) % 2 ^ 64 } s2)
/-- A frame of another kind to the port. -/
def frameOf (type : Nat) : List Byte :=
  let b := beBytes 6 0x020000000001 ++ beBytes 6 2 ++ beBytes 2 type ++ List.replicate 46 0#8
  b ++ fcs b
theorem witness_ethFrameRx_other : receives withMac (udpTo 0x020000000003) (fun s3 =>
    !acceptsAddress s3 0 (udpTo 0x020000000003)) = true := by decide +kernel
theorem witness_ethFrameRx_types : [(0x1234, RxKind.error), (0x0806, .control)].all (fun e => receives withMac (frameOf e.1) fun s3 =>
    acceptsAddress s3 0 (frameOf e.1) && parseFrame (frameOf e.1) == e.2) = true := by decide +kernel

/-- A UDP frame to the port is accepted, and what its payload meets. -/
def takesUdp (s : State) (payload : List Byte) (more : State → UdpRx → Bool) : Bool :=
  let b := buildUdp { smac := 0x020000000002, dmac := 0x020000000001, vlan := none, ipv6 := false, src := 0x0A000002,
                      dst := 0x0A000001, dscp := 0, ttl := 4, sport := 5004, dport := 5004 } payload
  receives s b fun s3 => acceptsAddress s3 0 b && match parseFrame b with
    | .udp u => more s3 u
    | _ => false
theorem witness_ethFrameRx_noflow : takesUdp withMac [] (fun s3 u => (matchLeg s3 0 u).isNone) = true := by decide +kernel

/-- Port 0 with the surface of `withSurf`, and flow 4095 that takes what comes there. -/
def withIngest (x : Ingest) : State :=
  { withSurf with ne := { withMac.ne with ingress := [(4095, { x with
      enabled := true, surface := 16383, handle := 7, legA := { valid := true, udp := 5004, dst := 0x0A000001 } })] } }
/-- What the packet meets at the flow. -/
def meetsFlow (s : State) (payload : List Byte) (more : State → Ingest → Surface → UdpRx → Bool) : Bool :=
  takesUdp s payload fun s3 u => match matchLeg s3 0 u with
    | some (f, _) => f == 4095 && more s3 (ingestOf s3 f) (surfOf s3 (ingestOf s3 f).surface) u
    | none => false
/-- The END packet of an FST slot for a handle. -/
def endOf (handle : Nat) : List Byte :=
  fstBytes { version := 1, ty := 1, last := false, tcount := 0, handle := handle, pseq := 5, slotSeq := 1, capture := 0,
             format := 1, budget := 0, widthM1 := 63, heightM1 := 63, first := 0 }
theorem witness_ethFrameRx_malformed : ([1, 2].all fun k => meetsFlow (withIngest { kind := k }) [] fun s3 fl sf u =>
    if k = 1 then fl.kind != 2 && (rtpCheck fl sf (now s3) u.payload).isNone
    else fl.kind == 2 && match fstCheck fl sf u.payload with | .malformed => true | _ => false) = true := by decide +kernel
theorem witness_ethFrameRx_mismatch : meetsFlow (withIngest { kind := 2 }) (endOf 8) (fun _ fl sf u =>
    fl.kind == 2 && match fstCheck fl sf u.payload with | .mismatch => true | _ => false) = true := by decide +kernel

/-- The packet goes to the window, in a state of the flow. -/
def toWindow (s : State) (more : State → FlowPkt → Bool) : Bool :=
  meetsFlow s (endOf 7) fun s3 fl sf u => fl.kind == 2 && match fstCheck fl sf u.payload with
    | .ok q => more s3 q
    | _ => false
theorem witness_ethFrameRx_dup : toWindow (withIngest { kind := 2, highest := some 5, recv := [5] }) (fun s3 q =>
    (window q.seq (ingestOf s3 4095)).1 != .used) = true := by decide +kernel
/-- The packet is used, and how its meter decides at a level of the buffer. -/
def toMeter (s : State) (level : Nat) (more : Bool → State → FlowPkt → Bool) : Bool :=
  toWindow s fun s3 q =>
    let w := window q.seq (ingestOf s3 4095)
    let z := w.2
    w.1 == .used &&
      (let m := meterPacket 4095 0 82 level (putIngest 4095 { z with packets := (z.packets + 1) % 2 ^ 64,
                                                                      cntA := sat 32 (z.cntA + 1) } s3)
       more m.1 m.2 q)
theorem witness_ethFrameRx_metered : (let s := withIngest { kind := 2 }
    toMeter { s with ts := { s.ts with meters := [(4095, { en := true })] } } 0 fun ok _ _ => !ok) = true := by decide +kernel
theorem witness_ethFrameRx_buffer : [(4096, true), (4095, false)].all (fun e => toMeter (withIngest { kind := 2 }) e.1 fun ok s4 _ =>
    ok && decide (4194304 < max (e.1 * 1024) (sumOf (s4.ne.ibuf.map (·.len))) + 82) == e.2) = true := by decide +kernel
theorem witness_ethFrameRx_served : [0, 8].all (fun shed => (let s := withIngest { kind := 2 }
    toMeter { s with pmu := { s.pmu with shed := shed } } 0 fun ok s4 q => ok
      && packetServed (drainIngest s4) ⟨4095, 82, q⟩ == (shed == 0))) = true := by decide +kernel

theorem witness_fwFrameService_down : occurs ready (fun s1 => !portCarries s1 0) = true := by decide +kernel
/-- Firmware has answered n frames of the port in this second. -/
def answered (n : Nat) (more : State → EthPort → Bool) : Bool :=
  let s := withMac
  occurs { s with ne := { s.ne with ports := [(0, { ethOf s 0 with fwCount := n, ipv4 := 0x0A000001, ipv6 := 1 })] } } fun s1 =>
    let e := ethOf s1 0
    portCarries s1 0 && (if e.fwSecond = now s1 / 1000000000 then e.fwCount else 0) == n && more s1 e
theorem witness_fwFrameService : (answered 10000 (fun _ _ => true)
    && answered 9999 fun _ e => e.ipv4 == 0x0A000001 && e.ipv6 == 1 && e.mac == 0x020000000001) = true := by decide +kernel
theorem witness_ethLinkUp : [true, false].all (fun b =>
    occurs { ready with ne := { ready.ne with ports := [(7, { cfgMode := 1, mode := 1, lanes := 0x80, adopt := b })] } } fun s1 =>
      (ethOf s1 7).mode != 0 && !(ethOf s1 7).up && (ethOf s1 7).adopt == b) = true := by decide +kernel
theorem witness_ethLinkDown : occurs withMac (fun s1 => (ethOf s1 0).up && !(ethOf s1 1).up) = true := by decide +kernel
theorem witness_fecUncorrectable : [true, false].all (fun b => occurs
    { ready with ne := { ready.ne with ports := [(7, { mode := 1, up := true, retraining := b })] } } fun s1 =>
      (ethOf s1 7).up && (ethOf s1 7).retraining == b) = true := by decide +kernel
/-- Flow 4095 has had no packet for 100 ms, and memory serves class C3. -/
def flowStands (x : Ingest) (newest : Nat) (more : Ingest → Surface → Bool) : Bool :=
  let s := withIngest x
  occurs { s with clk := { s.clk with ticks := 125000000 }
                  mm := { s.mm with surfs := s.mm.surfs.map fun e => (e.1, { e.2 with newest := newest }) } } fun s1 =>
    let y := ingestOf s1 4095
    decide (y.lastPkt + msTicks 100 ≤ s1.clk.ticks) && s1.ne.ibuf.isEmpty && servedAll s1 3 && more y (surfOf s1 y.surface)
theorem witness_ingestFrameTimeout_closed : [FrState.idle, .discarding].all (fun st => flowStands { st := st } 0 fun x _ =>
    x.st == st) = true := by decide +kernel
theorem witness_ingestFrameTimeout_video : [(2, 0), (1, 0), (0, noSlot), (0, 0)].all (fun e =>
    flowStands { kind := 1, st := .opened, fill := e.1 } e.2 fun x sf => x.st == .opened && x.kind != 2 && x.fill == e.1
      && sf.newest == e.2) = true := by decide +kernel
theorem witness_ingestFrameTimeout_fst : flowStands { kind := 2, st := .opened } 0 (fun x sf => x.st == .opened && x.kind == 2
    && !((List.range (tilesX (sWidth sf) * tilesY (sHeight sf))).filter fun i => !x.tiles.contains i).isEmpty) = true := by
  decide +kernel
/-- A frame of two packets of which the first has its data. -/
def twoPackets : SendFrame :=
  { ft := 0, cfg := { kind := 1, blocks := 1 }, format := 0, lineLen := 180, total := 360, npkt := 2, ra := 0, rb := 0, rc := 1,
    data := List.replicate 180 0#8 }
theorem witness_packetRelease : [(262144, true), (0, false)].all (fun e => occurs { withEth with
      ne := { withEth.ne with egress := [(1023, { cfg := { kind := 1, blocks := 1 }, frames := [twoPackets] })] }
      ts := { withEth.ts with queues := [(1023, { qlimit := e.1 })] } } fun s1 =>
    let x := egressOf s1 1023
    x.cfg.kind == 1 && !x.stopped && queueRoom s1 1023 (if e.2 then 9216 else 1) == e.2 && match x.frames with
      | g :: _ => decide (min g.total ((g.next + 1) * g.cfg.blocks * 180) ≤ g.data.length
          ∧ g.ft + (g.ra + g.next * g.rb) / g.rc ≤ now s1)
      | [] => false) = true := by decide +kernel
/-- An FST sender whose tiles have all gone. -/
def fstDone : State :=
  { withSurf with ne := { withEth.ne with egress := [(1023,
      { cfg := { kind := 2, surface := 16383 }, fst := some { slot := 0, seq := 1, tile := tilesX 64 * tilesY 64 } })] } }
theorem witness_fstPacketSend_end : occurs fstDone (fun s1 => let x := egressOf s1 1023
    let sf := surfOf s1 x.cfg.surface
    x.cfg.kind == 2 && !x.stopped && match x.fst with
      | some g =>
        let h : FstHdr :=
          { version := 1, ty := 1, last := false, tcount := 0, handle := ownHandle s1 x.cfg.surface, pseq := x.nextSeq,
            slotSeq := g.seq, capture := (slotOf sf g.slot).capture, format := sf.format, budget := sf.budget,
            widthM1 := sf.widthM1, heightM1 := sf.heightM1, first := 0 }
        g.tile == tilesX (sWidth sf) * tilesY (sHeight sf)
          && queueRoom s1 1023 (buildUdp (flowUdp s1 x.cfg) (fstBytes h)).length
      | none => false) = true := by decide +kernel

/-- An FST sender with all its tiles to go, into a queue with room for n bytes. -/
def fstBegun (n : Nat) : State :=
  { withSurf with ne := { withEth.ne with egress := [(1023,
      { cfg := { kind := 2, blocks := 1, surface := 16383 }, fst := some { slot := 0, seq := 1 } })] }
                  ts := { withSurf.ts with queues := [(1023, { qlimit := n })] } }
theorem witness_fstPacketSend_tiles : [(262144, true), (0, false)].all (fun e => occurs (fstBegun e.1) fun s1 =>
    let x := egressOf s1 1023
    let sf := surfOf s1 x.cfg.surface
    let a := slotAddr sf 0 + tileOffset sf 0
    x.cfg.kind == 2 && !x.stopped && x.fst == some { slot := 0, seq := 1 } && decide (0 < tilesX (sWidth sf) * tilesY (sHeight sf))
      && min x.cfg.blocks (tilesX (sWidth sf) * tilesY (sHeight sf) - 0) == 1 && readable s1 a (tileBytes sf.budget)
      && served s1 3 a (tileBytes sf.budget) && queueRoom s1 1023 (if e.2 then 9216 else 1) == e.2) = true := by decide +kernel

/-- The anchor running PTP on port 0 in a state. -/
def ptpState (state role : Nat) : State :=
  { anchor with ne := withEth.ne, tk := { anchor.tk with state := state, ptp := { anchor.tk.ptp with role := role, steer := true } } }
theorem witness_ptpMessageRx : occurs (ptpState 1 1) (fun s1 => runsPtp s1 && ptpPort s1 0 && portCarries s1 0 && stepAllowed s1 20000)
    = true := by decide +kernel
theorem witness_ptpAnnounceTimeout : [1, 2].all (fun role => (let s := ptpState 3 role
    occurs { s with clk := { s.clk with ticks := 1250000000000 } } fun s1 => runsPtp s1
      && decide (1 ≤ s1.tk.state ∧ s1.tk.state ≤ 3 ∧ s1.tk.lastAnn + 3 * logTicks s1.tk.ptp.logAnn ≤ s1.clk.ticks)
      && s1.tk.ptp.role == role)) = true := by decide +kernel
theorem witness_ptpMessageInterval : [(1, 2), (3, 2), (4, 0), (4, 1)].all (fun x => occurs (ptpState x.1 2) fun s1 =>
    runsPtp s1 && ptpPort s1 0 && portCarries s1 0 && (Tbl.find? s1.tk.lastMsg (4 * 0 + x.2)).isNone
      && decide (x.2 = 2 ∧ 1 ≤ s1.tk.state ∧ s1.tk.state ≤ 3 ∨ x.2 < 2 ∧ s1.tk.state = 4)) = true := by decide +kernel
theorem witness_dcoSteer : (let s := ptpState 3 1
    occurs { s with clk := { s.clk with ticks := 1250000000 } } fun s1 => runsPtp s1 && s1.tk.ptp.steer
      && decide (s1.tk.lastDco + secTicks 1 ≤ s1.clk.ticks)) = true := by decide +kernel

/-- Queue 1023 on port 0 with a frame or none. -/
def withFrame (l : List QFrame) : State :=
  { withEth with ne := { withEth.ne with egress := [(1023, { cfg := { kind := 1 } })] }
                 ts := { withEth.ts with queues := [(1023, { frames := l })] } }
theorem witness_portTxSelect : [[⟨List.replicate 64 0#8, 0⟩], []].all (fun l => occurs (withFrame l) fun s1 =>
    let s2 := countGuards 0 (forAll (queuesOf s1 0) (fun q s => dropHeads 0 q (queueOf s q).frames.length s) s1)
    portRate s1 0 != 0 && decide ((tsPortOf s1 0).freeAt ≤ now s1 * 1000) && (chooseQueue s2 0).isSome == !l.isEmpty) = true := by
  decide +kernel
theorem witness_qbvGateSwitch : occurs { ready with ts := { ready.ts with ports := [(7, { arm := .pending })] } } (fun s1 =>
    (tsPortOf s1 7).arm == .pending && decide ((tsPortOf s1 7).armT ≤ now s1)) = true := by decide +kernel
theorem witness_queueStatsSample : (let s := withFrame []
    occurs { s with clk := { s.clk with ticks := 12500 } } fun s1 => now s1 / 1000 != s1.ts.sampled) = true := by decide +kernel

/-! ### Links -/

/-- Ready with link 3 as given. -/
def linkIs (l : CfLink) : State := { ready with cf := { ready.cf with links := [(3, l)] } }
/-- Link 3 up on the last four lanes. -/
def up3 : CfLink := { enabled := true, first := 12, width := 4, up := true, laneMap := 0xF000 }

theorem witness_retrain : ([0, 14, 30].all fun n => occurs { linkIs { up3 with retraining := true } with
      rel := { ready.rel with laneRt := List.replicate n (15, 0) } } fun s1 =>
    retrains s1 11 && tbit (linkKeyLanes s1 11) 15 && linkKeyLanes s1 11 == 0xF000
      && Nat.land 0x8001 (linkKeyLanes s1 11) != 0) = true := by decide +kernel
theorem witness_retrain_port : occurs { ready with ne := { ready.ne with ports := [(7, { lanes := 0x80, retraining := true })] } }
    (fun s1 => retrains s1 7 && tbit (linkKeyLanes s1 7) 7) = true := by decide +kernel
theorem witness_retrainAttemptFail : [1, 2].all (fun n => occurs { linkIs { up3 with retraining := true } with
      rel := { ready.rel with attempts := List.replicate n (11, 0) } } fun s1 =>
    let l := (11, s1.clk.onTicks) :: s1.rel.attempts.filter fun e => withinLast s1 (secTicks 10) e.2
    retrains s1 11 && decide ((l.filter fun e => e.1 == 11).length < 3) == (n == 1)) = true := by decide +kernel
theorem witness_cfBlockDecodeFail : [true, false].all (fun b => occurs (linkIs { up3 with retraining := b }) fun s1 =>
    (linkOf s1 3).up && (linkOf s1 3).retraining == b) = true := by decide +kernel
theorem witness_cfLinkUp : occurs (linkIs { enabled := true, first := 12, width := 4, bringup := some 0, peer := some (5, 2, 4),
                                             calibrated := true }) (fun s1 => let l := linkOf s1 3
    l.enabled && l.bringup.isSome && l.peer == some (5, opposite 3, 4) && l.calibrated && !l.adopt
      && maskOf ((bitList 16 (Nat.land 0xFFFF (linkMask l.first l.width))).filter fun i => !tbit s1.ne.deadLanes i) != 0)
    = true := by decide +kernel
theorem witness_cfBringupTimeout : (let s := linkIs { enabled := true, bringup := some 0 }
    occurs { s with clk := { s.clk with ticks := 625000000 } } fun s1 =>
      (linkOf s1 3).bringup == some 0 && decide (0 + msTicks 500 ≤ s1.clk.ticks)) = true := by decide +kernel
theorem witness_cfBringupRetry : (let s := linkIs { enabled := true }
    occurs { s with clk := { s.clk with ticks := 1250000000 } } fun s1 => let l := linkOf s1 3
      l.enabled && !l.up && l.bringup == none && decide (l.downAt + secTicks 1 ≤ s1.clk.ticks)) = true := by decide +kernel
theorem witness_cfLinkDown : occurs (linkIs up3) (fun s1 => (linkOf s1 3).up) = true := by decide +kernel
/-- Link 3 may send. -/
def maySend (s1 : State) : Bool :=
  let l := linkOf s1 3
  l.enabled && l.up && !l.retraining && decide (l.replay.length < 1024)
theorem witness_cfFlitTx_waiting : occurs (linkIs { up3 with waiting := [{ vc := 0, ty := 1 }], credits := [(0, 1)] }) (fun s1 =>
    maySend s1 && (nextWaiting (linkOf s1 3)).isSome) = true := by decide +kernel
theorem witness_cfFlitTx_idle : occurs (linkIs up3) (fun s1 =>
    maySend s1 && (nextWaiting (linkOf s1 3)).isNone && (makeXferFlit 3 s1).isNone) = true := by decide +kernel
/-- The anchor that sends the surface of `withSource` to device 65, with a credit on link 0. -/
def sending (x : Xfer) : State :=
  let s := withSource 0
  { s with cf := { s.cf with links := upLinks.map (fun e => (e.1, { e.2 with credits := [(2, 1)] }))
                             xfers := [(0, { x with surface := 16383, handle := 65 * 16384 })] } }
theorem witness_cfFlitTx_transfer : occurs (sending { follow := false, surface := 0, handle := 0, func := 0, slot := some 0,
                                                       seq := 1, started := true }) (fun s1 => let l := linkOf s1 0
    l.enabled && l.up && !l.retraining && decide (l.replay.length < 1024 ∧ 0 < Tbl.get l.credits 0 (halfKey vcSurf false))
      && (nextWaiting l).isNone && (l.waiting.all fun f => f.vc != vcSurf) && (makeXferFlit 0 s1).isSome) = true := by
  decide +kernel
theorem witness_idleFlitRx : occurs (linkIs up3) (fun s1 => (linkOf s1 3).enabled && (linkOf s1 3).up && !(linkOf s1 3).retraining)
    = true := by decide +kernel

/-! ### The time of a node -/

theorem witness_helloRx : [1, 2].all (fun k => occurs { ready with cf := { ready.cf with
      links := [(0, { enabled := true, bringup := some 0 })] } } fun s1 =>
    lands (flitOf 0 0 { vc := 3, ty := 0x10, dst := 64, tagw := k }) [0x10] s1 fun s2 =>
      (k == opposite 0) == (k == 1) && (linkOf s2 0).peer == none) = true := by decide +kernel
theorem witness_calReqRx : occurs anchor (fun s1 => lands (flit 3 0xD) [0xD] s1 fun _ => true) = true := by decide +kernel
theorem witness_calRespRx : [65534, 65535].all (fun n => occurs { ready with cf := { ready.cf with
      links := [(0, { enabled := true, bringup := some 0, calCount := n })] } } fun s1 =>
    lands (flit 3 0xE) [0xE] s1 fun s2 => decide ((linkOf s2 0).calCount + 1 = 65536) == (n == 65535)
      && decide ((linkOf s2 0).calCount + 1 ≤ 65536)) = true := by decide +kernel
theorem witness_beatEmit : occurs { anchor with clk := { anchor.clk with ticks := 1250000000 } } (fun s1 =>
    s1.cf.valid && s1.cf.anchor && s1.tk.stRef == none && decide (s1.tk.beatNo < beatNow s1)) = true := by decide +kernel
/-- Device 65 of a line of two, with its link to the anchor. -/
def child (state : Nat) : State :=
  { ready with
    cf := { ready.cf with links := [(1, { enabled := true, up := true, laneMap := 0xF00, width := 4, first := 8 })], devid := 65
                          valid := true, topo := 1, wM1 := 1, members := [(0, ⟨5, true, [4, 0, 0, 0]⟩)] }
    tk := { ready.tk with state := state } }
theorem witness_beatRx : occurs (child 6) (fun s1 => lands (flitOf 1 0 { vc := 3, ty := 0xC, dst := 65 }) [0xC] s1 fun s2 =>
    s2.cf.valid && !s2.cf.anchor && beatParent s2 == some 1) = true := by decide +kernel
theorem witness_beatLoss : (let s := child 6
    occurs { s with clk := { s.clk with ticks := 62500000 } } fun s1 => s1.cf.valid && !s1.cf.anchor && s1.tk.state == 6
      && decide (s1.tk.lastBeat + cdiv (3 * 1000000000 * s1.tk.refD) s1.tk.refN ≤ now s1)) = true := by decide +kernel

/-! ### Transfers and imports -/

/-- What a source tells of a surface. -/
def srcInfo (x : Surface) : SrcInfo := ⟨0, x.format, x.comp, x.budget, x.widthM1, x.heightM1, x.pitch⟩
/-- The anchor with that surface, written by transfers, with a write slot or not. -/
def target (wslot : Nat) : State :=
  let s := withSource 3
  { s with mm := { s.mm with surfs := [(16383, { surfOf s 16383 with wslot := wslot })] } }
/-- A flit of a transfer of device 65, of context 0, or of the stream of import 0. -/
def streamFlit (vc ty : Nat) (payload : List Byte) : InFlit :=
  ⟨65, flitOf 0 0 { vc := vc, ty := ty, dst := 64, payload := payload }, none, true⟩
/-- The header of context 0 of device 65 for a handle. -/
def hdrFlit (handle : Nat) (src : SrcInfo) : InFlit :=
  { streamFlit 1 4 (beBytes 3 65 ++ beBytes 5 0 ++ beBytes 4 handle ++ beBytes 8 0) with src := some src }
theorem witness_xferHdrRx : [(65, 1), (64, 1), (64, noSlot)].all (fun y => occurs (target y.2) fun s1 =>
    let f := hdrFlit (y.1 * 16384 + 16383) (srcInfo (surfOf s1 16383))
    let x := f.flit
    arrives f s1 fun s2 => goes f s2 && rdBE x.payload 0 3 == 65 && x.ty == 4 && x.tagw / 2 ^ 26 == 0
      && rdBE x.payload 8 4 % 16384 == 16383 && (rdBE x.payload 8 4 / 16384 == s2.cf.devid) == (y.1 == 64)
      && xferStatus s2 (65 * 64 + 0) 16383 (srcInfo (surfOf s2 16383)) == 0
      && (surfOf s2 16383).wslot == y.2) = true := by decide +kernel
theorem witness_xferHdrRx_refused : occurs (target 1) (fun s1 =>
    let src := { srcInfo (surfOf s1 16383) with format := 2 }
    let f := hdrFlit (64 * 16384 + 16383) src
    arrives f s1 fun s2 => goes f s2 && xferStatus s2 (65 * 64 + 0) 16383 src != 0) = true := by decide +kernel
/-- A transfer of device 65 is received, its frame lost or not. -/
def receiving (lost : Bool) : State :=
  { target 1 with cf := { anchor.cf with xfersIn := [(65 * 64, { source := 65, surface := 16383, capture := 0, lost })] } }
theorem witness_xferDataRx : [false, true].all (fun lost => occurs (receiving lost) fun s1 =>
    let go := fun ty => arrives (streamFlit 1 ty []) s1 fun s2 => goes (streamFlit 1 ty []) s2 &&
      match Tbl.find? s2.cf.xfersIn (65 * 64 + (streamFlit 1 ty []).flit.tagw / 2 ^ 26) with
      | some m => m.lost == lost
      | none => false
    go 5 && go 6) = true := by decide +kernel
theorem witness_transferFlitWaits : occurs { receiving false with pmu := { ready.pmu with shed := 8 } } (fun s1 =>
    (arrives (streamFlit 1 5 [1#8]) s1 fun s2 => !flitServed s2 (streamFlit 1 5 [1#8]))
      && (arrives (streamFlit 2 9 []) s1 fun s2 => !flitServed s2 (streamFlit 2 9 []))
      && let s2 := { s1 with cf := { s1.cf with inbuf := [streamFlit 1 5 [1#8]] } }
         arrives (streamFlit 1 6 []) s2 fun s3 => s3.cf.inbuf.any fun y => streamOf y == streamOf (streamFlit 1 6 []))
    = true := by decide +kernel
theorem witness_xferAnswerRx : [({ follow := false, surface := 0, handle := 0, func := 0, slot := some 0 } : Xfer),
      { follow := false, surface := 0, handle := 0, func := 0, ended := true }].all (fun y => occurs (sending y) fun s1 =>
    match xferOf s1 0 with
    | some x => x.handle / 16384 == 65 && ((x.slot.isSome && !x.started) || (!x.follow && x.ended))
    | none => false) = true := by decide +kernel
/-- Import 0 of the anchor, from device 65. -/
def importing (m : Import) : State := { target 1 with cf := { anchor.cf with imports := [(0, { m with surface := 16383, device := 65 })] } }
/-- The start of a frame of RGBA8 of some width by 64 lines, from device 65. -/
def startFlit (width : Nat) : InFlit :=
  streamFlit 2 8 (beBytes 3 65 ++ beBytes 5 0 ++ beBytes 4 (64 * 65536 + width) ++ List.replicate 13 0#8)
theorem witness_frameStartRx : [64, 65].all (fun w => occurs (importing { surface := 0, device := 0 }) fun s1 =>
    let f := startFlit w
    arrives f s1 fun s2 => goes f s2 && f.flit.ty == 8 && f.flit.tagw / 2 ^ 28 == 0
      && rdBE f.flit.payload 0 3 == 65 && match Tbl.find? s2.cf.imports 0 with
      | some m => m.device == 65 && importFits (surfOf s2 m.surface) f.flit.payload == (w == 64)
      | none => false) = true := by decide +kernel
theorem witness_frameStartRx_none : occurs anchor (fun s1 => arrives (startFlit 64) s1 fun s2 => goes (startFlit 64) s2
    && (Tbl.find? s2.cf.imports 0).isNone) = true := by decide +kernel
theorem witness_lineDataRx : occurs (importing { surface := 0, device := 0, active := true }) (fun s1 =>
    let f := streamFlit 2 9 []
    arrives f s1 fun s2 => goes f s2 && !quiesced s2 && f.flit.ty == 9 && match Tbl.find? s2.cf.imports 0 with
      | some m => 66 != m.device && 65 == m.device && m.active && tbit f.flit.tagw 27 == m.parity
      | none => false) = true := by decide +kernel
theorem witness_importPublishTimeout : (let s := importing { surface := 0, device := 0, active := true }
    occurs { s with clk := { s.clk with ticks := 125000000 } } fun s1 => !quiesced s1 && s1.cf.inbuf.isEmpty
      && match Tbl.find? s1.cf.imports 0 with
      | some m => m.active && decide (m.lastLine + msTicks 100 ≤ s1.clk.ticks)
      | none => false) = true := by decide +kernel

/-! ### DisplayPort -/

theorem witness_dpTrainingDone : occurs (withDp { hpd := true, training := true }) (fun s1 => let d := dpOf s1 3
    d.enabled && d.hpd && d.training && !d.hpdLost && d.lanes != 0) = true := by decide +kernel
theorem witness_dpHpdChange : [true, false].all (fun b => occurs (withDp { hpd := b }) fun s1 => (dpOf s1 3).hpd == b) = true := by
  decide +kernel
theorem witness_hdcpAuthResult : [(true, 0), (false, 8)].all (fun y =>
    let s := withState { sinks := [(0, { port := 3, stream := 3, hdcp := true })] }
    occurs { s with rg := { s.rg with dps := [(3, { trained := y.1, auth := y.2 })] } } fun s1 =>
      match (portStreams s1 3).find? fun e => e.2.stream == 3 with
      | some (_, x) => x.hdcp && (dpOf s1 3).trained == y.1 && tbit (dpOf s1 3).auth 3 == (y.2 == 8)
      | none => false) = true := by decide +kernel

/-! ### The blitter at work -/

/-- The block of a FILL of one pixel of surface 16383 into its write slot. -/
def fillBlock : List Byte := leBytes 256 (sumOf ([(0, 1), (48, 8), (50, 16383)].map fun e => e.2 * 256 ^ e.1))
/-- A BLIT_FILL with a block. -/
def fillJob (plen : Nat) (b : List Byte) : BlJob := { ent := { opcode := 0xA01, pkt := { indirect := true, plen := plen, params := b } } }
theorem witness_blJobStart : [(15, fillBlock), (16, []), (16, fillBlock)].all (fun y =>
    occurs { withSurf with bl := { withSurf.bl with queue := [fillJob y.1 y.2] } } fun s1 => blIdle s1 && !s1.bl.regWait
      && match s1.bl.queue with
        | j :: rest => j.ent.opcode != 0xA05 && blockGiven j.ent.pkt == (y.1 == 16)
            && (blitRefusal { s1 with bl := { s1.bl with queue := rest } } 0 (j.ent.opcode % 256) (prms j.ent.pkt)).isNone
              == (y.1 == 16 && y.2 != [] || y.1 == 15)
        | [] => false) = true := by decide +kernel
/-- A list at an address with a limit: it waits for the dead time or begins, and a limit of 0 is refused. -/
theorem witness_blJobStart_list : [(0, none), (8, some 5), (8, none)].all (fun y =>
    let j : BlJob := { ent := { opcode := 0xA05, pkt := pk [(0, 0x20000000), (8, y.1)] } }
    occurs { withSurf with bl := { withSurf.bl with queue := [j], burstEnd := y.2 } } fun s1 => blIdle s1 && !s1.bl.regWait
      && prmb j.ent.pkt 0 8 39 0 == 0x20000000 && prmb j.ent.pkt 8 4 16 0 == y.1
      && listWaits s1 0x20000000 y.1 == y.2.isSome) = true := by decide +kernel
/-- Ready with that FILL in progress, n lines of it done. -/
def filling (n : Nat) : State := { withSurf with bl := { withSurf.bl with
  op := some { block := fillBlock, func := 0, dst := some (16383, 1), line := n }, job := some (fillJob 16 fillBlock) } }
/-- That FILL, with one clip rectangle that leaves its pixel out. -/
def fillClipped : State := { withSurf with bl := { withSurf.bl with
  op := some { block := leBytes 256 (sumOf ([(0, 1), (1, 1), (48, 8), (50, 16383), (128, 4)].map fun e => e.2 * 256 ^ e.1)), func := 0, dst := some (16383, 1) } } }
theorem witness_blBurst : [(filling 0, false, false), (filling 0, true, false), (fillClipped, false, true)].all (fun y =>
    let s := y.1
    let lost := y.2.1
    occurs (if lost then { s with mm := { s.mm with chan := (List.range 16).map fun n => (n, 2) } } else s) fun s1 =>
    match s1.bl.op with
    | some o =>
      let c := blitOf s1 o
      let e := walkLine c o.line
      let all := (burstsOf c e.1 e.2).getD o.chunk []
      let us := c.written e.1 e.2 all
      let addr := fun u => opndAddr c.dst + unitOff c.dst e.1 e.2 u
      let s2 := forAll (c.failedTiles e.1 e.2 us) (fun _ s => ftcError c.src.surf s)
        (forAll (burstReads c e.1 e.2 us) (fun k s => countRead (256 * k) 256 s) s1)
      !opOver s1 o && s1.bl.burstEnd == none && all != [] && us.isEmpty == y.2.2 && !hasSpare c.dst.sf.format
        && c4Open s1 (channelOf s1 (addr (us.headD 0))) && burstServed s1 c e.1 e.2 us
        && ((us.map fun u => (u, c.unit e.1 e.2 0 u)).all fun r =>
          r.2.2 == false && (r.2.1.isNone || !meetsFence s2 (addr r.1) 1)) == !lost
    | none => false) = true := by decide +kernel
theorem witness_blJobEnd : occurs (filling 1) (fun s1 => match s1.bl.op with
    | some o => o.src == none && !o.stop && decide (opLines s1 o ≤ o.line) && s1.bl.list == none && s1.bl.job.isSome
        && !s1.bl.regWait
    | none => false) = true := by decide +kernel
/-- A write by host software into the destination of the running operation is noted and one beside it is not (R470). -/
theorem witness_noteRace : (match (filling 1).bl.op with
    | some o =>
      let e := (extentOf (blitOf (filling 1) o).dst (bW o.block) (bH o.block)).headD (0, 0)
      let at_ := fun a => ((noteRace a 1 (filling 1)).bl.op.map (·.raced)) == some [(a, a + 1)]
      at_ e.1 && at_ (e.2 - 1) && !at_ (e.1 - 1)
    | none => false) = true := by decide +kernel
/-- A list at an address, with a block there. -/
def inList (a : Nat) (b : List Byte) : State :=
  { withSurf with bl := { withSurf.bl with list := some { addr := a, limit := 8 } }
                  mm := { withSurf.mm with mem := memPutBytes [] a b } }
theorem witness_blListEntryRun : [[0xE#8], [0xF#8], fillBlock].all (fun b => occurs (inList 0x20000000 b) fun s1 => match s1.bl.list with
    | some l =>
      let e := l.addr + 256 * l.next
      let b' := memRead s1 e 256
      s1.bl.op == none && !blHolds s1 && s1.bl.burstEnd == none && served s1 4 e 256 && readable s1 e 256
        && (b != fillBlock || (bOp b' != 0xE && bOp b' != 0xF && (blitRefusal s1 0 (bOp b') b').isNone))
        && (b == fillBlock || bOp b' == (b.headD 0#8).toNat)
    | none => false) = true := by decide +kernel
/-- A FILL of surface 0, which is not valid, is refused. -/
theorem witness_blListEntryRun_refused : occurs (inList 0x20000000 [1#8]) (fun s1 => match s1.bl.list with
    | some l =>
      let e := l.addr + 256 * l.next
      let b := memRead s1 e 256
      let s2 := afterBursts 1 (countRead e 256 s1)
      s1.bl.op == none && !blHolds s1 && served s1 4 e 256 && readable s1 e 256 && bOp b == 1
        && (blitRefusal s2 0 (bOp b) b).isSome
    | none => false) = true := by decide +kernel
theorem witness_blListEntryRun_unreadable : occurs (inList 0xFFFFFFFF00 []) (fun s1 => match s1.bl.list with
    | some l => s1.bl.op == none && !blHolds s1 && served s1 4 (l.addr + 256 * l.next) 256 && !readable s1 (l.addr + 256 * l.next) 256
    | none => false) = true := by decide +kernel

/-! ### The housekeeping DMA at work -/

/-- Channel 11 carries out a descriptor. -/
def onDesc (x : HdChan) (l : List (Nat × Nat)) : State :=
  let d := leBytes 64 (sumOf (l.map fun e => e.2 * 256 ^ e.1))
  { ready with hd := { ready.hd with chans := [(11, { x with configured := true, st := .running, desc := some d })] } }
theorem witness_hdChannelSelect : occurs (withChan .ready) (fun s1 => hdRunning s1 == none && !blHolds s1
    && nextChannel s1 == some 11 && !descWaits s1 (hdOf s1 11).head) = true := by decide +kernel
theorem witness_hdHwRequest : [254, 255].all (fun n => occurs { ready with hd := { ready.hd with req := [(11, n)] } } fun s1 =>
    Tbl.get s1.hd.req 0 11 == n && hdRunning s1 == none) = true := by decide +kernel
/-- The running channel 11 with its descriptor. -/
def onRun (s : State) (more : State → HdChan → List Byte → Bool) : Bool :=
  occurs s fun s1 => hdRunning s1 == some 11 && match (hdOf s1 11).desc with
    | some d => more s1 (hdOf s1 11) d
    | none => false
theorem witness_hdBurst_fill : [(0x10000000, true), (2 ^ 63 + 256, false)].all (fun y =>
    onRun (onDesc {} [(0, 1), (4, 256), (16, y.1)]) fun s1 x d =>
      x.st == .running && x.phase == .burst && !x.waitreq && !hPaced d && c5Open s1 (hDst d) x.k
        && hdServed s1 (hDst d) x.k (burstLen x d) && hdServed s1 (hSrc d) x.k (burstLen x d) && !hReads d && hWrites d
        && match burstWrite (hDst d) x.k (patternBytes d x.k (burstLen x d)) false s1 with
          | .inr _ => y.2
          | .inl _ => !y.2) = true := by decide +kernel
theorem witness_hdBurst_copy : [true, false].all (fun ok =>
    onRun (onDesc {} [(0, 0), (4, 256), (8, 2 ^ 63 + 512), (16, 0x10000000)]) fun s1 x d =>
      x.st == .running && x.phase == .burst && !x.waitreq && !hPaced d && c5Open s1 (hDst d) x.k
        && hdServed s1 (hDst d) x.k (burstLen x d) && hdServed s1 (hSrc d) x.k (burstLen x d) && hReads d && hWrites d
        && c5Open s1 (hSrc d) x.k && match burstData s1 (hSrc d) x.k (burstLen x d) [] ok with
          | .inr v =>
            let w := copied d x.k v (noteRead (hSrc d) x.k (burstLen x d) s1)
            ok && (match burstWrite (hDst d) x.k w.1 ok w.2 with
              | .inr _ => true
              | .inl _ => false)
          | .inl _ => !ok) = true := by decide +kernel
/-- A COPY of 256 bytes to 128 bytes above its source takes one free value; to 256 bytes above, none (R490). -/
theorem witness_hdBurst_overlap : [(0x10000080, 1), (0x10000100, 0)].all (fun y =>
    onRun (onDesc {} [(0, 0), (4, 256), (8, 0x10000000), (16, y.1)]) fun s1 x d =>
      x.st == .running && x.phase == .burst && !x.waitreq && !hPaced d && c5Open s1 (hDst d) x.k
        && hdServed s1 (hDst d) x.k (burstLen x d) && hdServed s1 (hSrc d) x.k (burstLen x d) && hReads d && hWrites d
        && c5Open s1 (hSrc d) x.k && match burstData s1 (hSrc d) x.k (burstLen x d) [] true with
          | .inr v => (copied d x.k v s1).2.fresh == s1.fresh + y.2
          | .inl _ => false) = true := by decide +kernel
theorem witness_hdDescComplete : [0, 256].all (fun k =>
    onRun (onDesc { phase := .closing, k := k } [(0, 1), (4, k), (16, 0x10000000)]) fun s1 x d => x.phase == .closing
      && (x.k == 0 || hdServed s1 (hDst d) (x.k - 1) 1) && (rdbit d 31 6 || !descWaits s1 (nextDesc d))
      && (readBackFails (if hWrites d = true ∧ x.k ≠ 0 then noteRead (hDst d) (x.k - 1) 1 s1 else s1) x d true).isNone
      && decide (hLen d ≤ x.k)) = true := by decide +kernel
theorem witness_hdDescComplete_fails : onRun (onDesc { phase := .closing, k := 256 } [(0, 1), (4, 256), (16, 2 ^ 63 + 256)])
    (fun s1 x d => x.phase == .closing && hdServed s1 (hDst d) (x.k - 1) 1
      && (rdbit d 31 6 || !descWaits s1 (nextDesc d))
      && (readBackFails (if hWrites d = true ∧ x.k ≠ 0 then noteRead (hDst d) (x.k - 1) 1 s1 else s1) x d false).isSome) = true := by
  decide +kernel
theorem witness_hdReqTimeout : (let s := onDesc { waitreq := true, ctmo := 1 } []
    onRun { s with clk := { s.clk with ticks := 1251 } } fun s1 x _ => x.waitreq && x.ctmo != 0
      && decide (x.waitAt + usTicks x.ctmo < s1.clk.ticks)) = true := by decide +kernel
theorem witness_hdAccessTimeout : (let s := onDesc {} [(0, 1), (4, 256), (16, 2 ^ 63)]
    onRun { s with clk := { s.clk with ticks := 12500 } } fun s1 x d => x.st == .running && x.phase == .burst && !x.waitreq
      && decide (x.accessAt + usTicks 10 ≤ s1.clk.ticks) && c5Open s1 (if hReads d = true then hSrc d else hDst d) x.k) = true := by
  decide +kernel

/-! ### Errors of memory and the lifetime recorder -/

/-- An error of the link code at the start of that surface. -/
def anEcc : EccHit := ⟨0x10000000, 1, 1, 0, true, 2⟩
/-- Its row. -/
def anRow (s : State) : RowRef := ⟨channelOf s anEcc.addr, anEcc.die, anEcc.bank, anEcc.row⟩
/-- The first, the eighth of its row, the eighth of a row with its repair scheduled, and of one whose bank is used. -/
theorem witness_eccCorrected :
    let w := anRow withSurf
    [(0, [], []), (7, [], []), (7, [w], []), (7, [], [w])].all (fun y =>
      occurs { withSurf with rel := { withSurf.rel with corr := List.replicate y.1 (w, 0), pprPending := y.2.1,
                                                        pprDone := y.2.2 } } fun s1 =>
        eccInReach s1 anEcc && anRow s1 == w && bankUsed s1 w == !y.2.2.isEmpty
          && (s1.rel.corr.filter fun e => withinLast s1 (hourTicks 24) e.2).length == y.1
          && s1.rel.pprPending.contains w == !y.2.1.isEmpty && !s1.rel.pprExhausted.contains w) = true := by decide +kernel
/-- The first error, one of a sector that is known, and the fifth sector of its channel. -/
theorem witness_eccUncorrectable :
    let n := channelOf withSurf anEcc.addr
    [[], [(n, 0x100000, 0)], [(n, 1, 0), (n, 2, 0), (n, 3, 0), (n, 4, 0)]].all (fun l =>
      occurs { withSurf with rel := { withSurf.rel with sectors := l, errAt := l } } fun s1 => eccInReach s1 anEcc
        && channelOf s1 anEcc.addr == n && anEcc.addr / 256 == 0x100000
        && (s1.rel.sectors.filter fun e => withinLast s1 (hourTicks 24) e.2.2) == l && loggedErrors s1 == l) = true := by decide +kernel
/-- Channel 15 leaves: a surface is being moved, or none. -/
def leaving (m : Option Nat) : State := { withSurf with mm := { withSurf.mm with migr := some ⟨15, 0, m⟩, migrating := true } }
theorem witness_migrationSurfaceMoved : occurs (leaving (some 16383)) (fun s1 => match s1.mm.migr with
    | some m => m.moving == some 16383
        && decide (0 < placeCount (extentBytes (surfOf s1 16383)) (freeExtents s1 16384 (allocLimit s1 (surfOwner s1 16383))))
    | none => false) = true := by decide +kernel
theorem witness_migrationSurfaceMoved_none : (let s := leaving (some 16383)
    occurs { s with mm := { s.mm with live := 1, surfs := s.mm.surfs ++ [(1, { valid := true, base := 0, stride := 2 ^ 30 })] } }
      fun s1 => match s1.mm.migr with
        | some m => m.moving == some 16383
            && (allocate 16384 (allocLimit s1 (surfOwner s1 16383)) (extentBytes (surfOf s1 16383)) s1).1.isNone
        | none => false) = true := by decide +kernel
theorem witness_migrationDone : [[], [(⟨14, 0, none⟩ : Migration)]].all (fun w => (let s := leaving none
    occurs { s with mm := { s.mm with waiting := w } } fun s1 => match s1.mm.migr with
      | some m => m.moving.isNone && s1.mm.waiting == w
      | none => false)) = true := by decide +kernel
/-- Slice 0 is not bound, or leads a raster that runs; it is the first or the seventeenth error within 1 s. -/
theorem witness_parity : [0, 16].all (fun n => [ready, running].all fun s =>
    occurs { s with rel := { s.rel with parity := List.replicate n (0, 0) } } fun s1 =>
      ((sliceOf s1 0).bound && (rasterOf s1 (sliceOf s1 0).raster).st != .stopped) == (s == running)
        && (s1.rel.parity.filter fun e => withinLast s1 (secTicks 1) e.2).length == n) = true := by decide +kernel

theorem witness_ltrPeriodic : (let s := ready
    occurs { s with clk := { s.clk with onTicks := 750000000000 } } fun s1 => !ltrBusy s1
      && decide (s1.rel.lastCkpt + secTicks 600 ≤ s1.clk.onTicks)) = true := by decide +kernel
theorem witness_ltrCheckpointDone : [true, false].all (fun b => occurs { ready with rel := { ready.rel with
      ltrPend := some {}, ltrRetry := b } } fun s1 => s1.rel.ltrPend.isSome && s1.rel.ltrRetry == b) = true := by decide +kernel
theorem witness_ltrSecondSample : occurs { ready with clk := { ready.clk with onTicks := 1250000000 } } (fun s1 =>
    let n := powerOn s1
    decide (s1.rel.lastSec < n
      ∧ n / 3600 ≤ (ltrAdd (0xD0 + 4 * voltBin s1.pmu.vset) 1 (ltrAdd (0x50 + 4 * tjBin s1.pmu.tj) 1 s1)).rel.berAt)) = true := by
  decide +kernel

end Sys2Proof.Tests
end

