-- ==== Sys2Proof/Tests/WitnessMachine.lean ====
section
/-! SUPPORT. States and operands that meet the premises of the statements about every packet and about the machine. -/
namespace Sys2Proof.Tests
set_option Elab.async false
open Sys2Proof Sys2Proof.Machine

/-! ### Every packet and the whole machine -/

/-- A packet is taken as a NOP at tick 0, and the premises hold of its entry and the state. -/
def receivesNop (p : Packet) (s : State) (more : Entry → State → Bool) : Bool :=
  takes specNop.opcode p s && more (entryOf specNop.opcode p s) (advance 0 s)

theorem witness_nopRuns : ∀ t p s, exec (.nop t p) s = runPacket specNop t p s := fun _ _ _ => rfl
theorem witness_refusal_header : receivesNop { pk [] with reserved := 1 } ready (fun _ _ => !headerOk { pk [] with reserved := 1 })
    = true := by decide +kernel
theorem witness_refusal_unreachable : ([ready, anchor, { anchor with cf := { anchor.cf with links := [] } }].all fun s =>
    let p := { pk [] with dest := if s.cf.valid && s.cf.links != [] then 66 else 65 }
    receivesNop p s fun _ s0 => headerOk p && !destLocal s0 p.dest
      && (!s0.cf.valid || p.dest / 64 != s0.cf.devid / 64 || decide (nodeSize s0 ≤ p.dest % 64)
        || ((routeCandidates s0 (ownMember s0) (p.dest % 64)).all fun r => r.any fun hop => memberLanes s0 hop.1 hop.2 == 0)))
    = true := by decide +kernel
theorem witness_refusal_block : receivesNop { pkI [] with env := { blockFails := true } } ready (fun _ s0 =>
    headerOk (pkI []) && destLocal s0 (pkI []).dest && (pkI []).indirect) = true := by decide +kernel
theorem witness_refusal_p2 : receivesNop (pk []) (inState 2) (fun _ s0 => stays (pk []) s0 && !(pk []).atTime && s0.pmu.pstate == 2)
    = true := by decide +kernel
/-- A command with its packet in a state where its units are free, or busy, and its function owns what it names, or not. -/
def checked (sp : CmdSpec) (p : Packet) (s : State) (busy owns marked : Bool) : Bool :=
  let s0 := advance 0 s
  takes sp.opcode p s && stays p s0 && !p.atTime && !p.indirect && s0.pmu.pstate != 2
    && mustWait sp (entryOf sp.opcode p s) s0 == busy && sp.owns p s0 == owns && divergedHit sp p s0 == marked
theorem witness_refusal_sp : (∀ t p s, exec (.rasterStop t p) s = runPacket specRasterStop t p s) := fun _ _ _ => rfl
theorem witness_refusal_busy : checked specRasterStop stopPk { running with cp := { running.cp with
      inflight := [⟨{ opcode := 1, pkt := pk [] }, unitRaster 15, false⟩] } } true true false = true := by decide +kernel
theorem witness_refusal_notOwner : checked specRasterStop { stopPk with func := 15 } { running with host := withVfs.host }
    false false false = true := by decide +kernel
theorem witness_refusal_diverged : checked specRasterStop stopPk { running with un := { running.un with
      marked := [(0x0100000F, 0)] } } false true true = true := by decide +kernel

/-- A NOP for a time in ns. -/
def atPk (n : Nat) : Packet := { pk [] with plen := 40, atTime := true, execTime := n }
theorem witness_timed_far : receivesNop (atPk 1000000000000001) ready (fun _ s0 => stays (atPk 1000000000000001) s0
    && decide (now s0 + 1000000000000000 < (atPk 1000000000000001).execTime)) = true := by decide +kernel
theorem witness_timed : [255, 256].all (fun n => receivesNop (atPk 1000000000000000) { ready with cp := { ready.cp with
      timed := List.replicate n ⟨{ opcode := 1, pkt := atPk 9 }, 0⟩ } } fun _ s0 => stays (atPk 1000000000000000) s0
    && decide ((atPk 1000000000000000).execTime ≤ now s0 + 1000000000000000) && timedWaiting s0 == n) = true := by decide +kernel
theorem witness_held : (let s1 := advance 0 ready
    let op := specNop.opcode
    let fenced : State := { ready with cp := { ready.cp with inflight := [⟨{ opcode := 1, pkt := pk [] }, 0, false⟩] } }
    let flushing : State := { ready with cp := { ready.cp with qps := [(0, { flush := true })] } }
    let behind : State := { ready with cp := { ready.cp with fifo := [{ opcode := 2, pkt := pk [] }] } }
    !isRunning (advance 0 State.reset) && !functionOn s1 15
      && (heldAt op (pk []) (advance 0 fenced)).isNone && earlierOpen (advance 0 fenced) 0 0 none
      && (heldAt op (pk []) (advance 0 flushing)).isNone && (qpOf (advance 0 flushing) 0 0).flush
      && (qpOf (advance 0 flushing) 0 0).flushTo.isNone
      && (heldAt op (pk []) (advance 0 behind)).isNone
      && ((advance 0 behind).cp.fifo.find? (ofPair 0 0 none)).isSome
      && (nextEntry (advance 0 behind)).all fun e => e.opcode != op) = true := by decide +kernel
/-- A packet of raster 15 waits while another acts on it. -/
theorem witness_held_busy : (let s1 := advance 0 { running with cp := { running.cp with
      inflight := [⟨{ opcode := 1, pkt := pk [] }, unitRaster 15, false⟩],
      held := [⟨{ opcode := specRasterStop.opcode, pkt := stopPk }, [unitRaster 15]⟩] } }
    heldAt specRasterStop.opcode stopPk s1 == some 0 && s1.pmu.pstate != 2 && match s1.cp.held[0]? with
      | some h => unitsBusy (s1.cp.held.take 0) specRasterStop { h.ent.pkt with env := stopPk.env }
          { s1 with cp := { s1.cp with held := dropAt s1.cp.held 0 } }
      | none => false) = true := by decide +kernel
theorem witness_reply : (let x := qpOf ready 0 0
    !x.replyDead && bmeOf ready 0) = true := by decide +kernel
theorem witness_memory : Memory.wf [] = true := rfl
theorem witness_inv : Inv State.reset ∧ step State.reset = .next State.reset := by
  refine ⟨⟨rfl, ?_⟩, rfl⟩
  show legalMode 0 0 0
  unfold legalMode
  omega

end Sys2Proof.Tests
end

