-- ==== Sys2Proof/WellFormed.lean ====
section
/-! DEFINITION. Well-formed commands: every operand lies in the range that the device's address spaces, register
widths and unit counts give it. The machine is total without it: an ill-formed event changes nothing but the
time. -/
namespace Sys2Proof

/-! ### Ranges -/

/-- A function: PF0 or VF1 to VF15. -/
def isFunction (n : Nat) : Bool := decide (n < 16)
/-- A function, or 16 for Movement firmware. -/
def isAgent (n : Nat) : Bool := decide (n < 17)
/-- A queue pair of a function. -/
def isPair (n : Nat) : Bool := decide (n < 8)
/-- A 16-bit value. -/
def isHalfword (n : Nat) : Bool := decide (n < 2 ^ 16)
/-- A register value. -/
def isWord (n : Nat) : Bool := decide (n < 2 ^ 32)
/-- An offset in BAR0, which is 4 MiB for PF0 (R602). -/
def isBar0 (n : Nat) : Bool := decide (n < 2 ^ 22)
/-- An offset in BAR2, of at most 128 GiB (R603). -/
def isBar2 (n : Nat) : Bool := decide (n < 2 ^ 37)
/-- The size code of a BAR2 (R603). -/
def isBarSize (n : Nat) : Bool := decide (30 ≤ n ∧ n ≤ 37)
/-- Byte enables of one register. -/
def isEnable (n : Nat) : Bool := decide (n < 16)
/-- Byte enables of one or two registers. -/
def isEnables (n : Nat) : Bool := decide (n < 256)
/-- An event target (R510). -/
def isTarget (n : Nat) : Bool := decide (n < 68)
/-- An event source (R508). -/
def isSource (n : Nat) : Bool := decide (n < 1024)
/-- A raster generator. -/
def isRaster (n : Nat) : Bool := decide (n < 16)
/-- A composition slice. -/
def isSlice (n : Nat) : Bool := decide (n < 16)
/-- A memory channel or a DMA channel. -/
def isChannel (n : Nat) : Bool := decide (n < 16)
/-- A Movement core. -/
def isCore (n : Nat) : Bool := decide (n < 4)
/-- An import. -/
def isImport (n : Nat) : Bool := decide (n < 16)
/-- A SerDes lane. -/
def isLane (n : Nat) : Bool := decide (n < 16)
/-- A request line of the housekeeping DMA (R491). -/
def isLine (n : Nat) : Bool := decide (n < 32)
/-- A Cririk link. -/
def isLink (n : Nat) : Bool := decide (n < 4)
/-- An Ethernet port, or 8 and the number of a Cririk link. -/
def isTrained (n : Nat) : Bool := decide (n < 12)
/-- An Ethernet port. -/
def isPort (n : Nat) : Bool := decide (n < 8)
/-- A DisplayPort port. -/
def isDp (n : Nat) : Bool := decide (n < 4)
/-- A flow of the network engine. -/
def isFlow (n : Nat) : Bool := decide (n < 4096)
/-- A surface index. -/
def isSurface (n : Nat) : Bool := decide (n < 16384)
/-- A pane ID. -/
def isPane (n : Nat) : Bool := decide (n < 8192)
/-- A device ID (R2). -/
def isDevice (n : Nat) : Bool := decide (n < 2 ^ 18)
/-- The strap pins sampled at the end of a POR (R537). -/
def isStraps (n : Nat) : Bool := decide (n < 16)
/-- NumVFs (R597). -/
def isVfCount (n : Nat) : Bool := decide (n ≤ 15)
/-- An entry of a submission ring: 64 bytes (R55). -/
def isEntry (b : List Byte) : Bool := b.length == 64

/-- A packet's header fields and provenance (R55 to R58): an indirect block holds at most 255
units of 16 bytes. -/
def Packet.wf (p : Packet) : Bool :=
  isFunction p.func && isPair p.qp && isHalfword p.tag && isDevice p.dest && isWord p.seq
    && decide (p.execTime < 2 ^ 64 ∧ p.pptr < 2 ^ 64 ∧ p.plen < 256 ∧ p.params.length ≤ 4080)
    && (match p.origin with
      | some d => isDevice d
      | none => true)

/-- A frame for firmware: its addresses and the version of its protocol. -/
def fwRequestWf : FwRequest → Bool
  | .arp t => isWord t
  | .solicit t => decide (t < 2 ^ 128)
  | .echo v6 d _ => if v6 then decide (d < 2 ^ 128) else isWord d
  | .query v6 v g => (if v6 then 1 ≤ v && v ≤ 2 else 1 ≤ v && v ≤ 3) && decide (g < 2 ^ 128)
  | .other => true


/-- A flit of 256 bytes on a link (R421). -/
def FlitRx.wf (x : FlitRx) : Bool := isLink x.link && x.image.length == 256

/-- A command message: a packet names its origin device. -/
def msgWf (m : Option CmdMsg) : Bool :=
  match m with
  | some (.request op p) => isHalfword op && p.wf && p.origin.isSome
  | some (.reply d f q tag _ r0 r1) =>
    isDevice d && isFunction f && isPair q && isHalfword tag && isWord r0 && isWord r1
  | some (.assignId d topo w h _) => isDevice d && decide (topo < 4 ∧ w < 64 ∧ h < 8)
  | some (.flrApply f) => isFunction f
  | some (.flushTimed d f q) => isDevice d && isFunction f && isPair q
  | some (.linkState d lanes) => isDevice d && decide (lanes.length ≤ 4)
  | some (.xferAnswer d ctx _ _ r0) => isDevice d && decide (ctx < 64) && isWord r0
  | some (.refRate n d _) => isWord n && isWord d
  | none => true

/-- A configuration write names a BAR2 size. -/
def CfgWrite.wf (c : CfgWrite) : Bool := isBarSize c.bar2

/-! ### Commands -/

/-- A command is well formed. -/
def Instr.wf (i : Instr) : Bool :=
  match i with
  | .nop _ p => p.wf
  | .getIdentity _ p => p.wf
  | .queryUnit _ p => p.wf
  | .reconcile _ p => p.wf
  | .cancelTimed _ p => p.wf
  | .assign _ p => p.wf
  | .queryOwner _ p => p.wf
  | .getFirmware _ p => p.wf
  | .surfaceCreate _ p => p.wf
  | .surfaceDestroy _ p => p.wf
  | .surfaceQuery _ p => p.wf
  | .slotPublish _ p => p.wf
  | .surfaceSetSharing _ p => p.wf
  | .memQuery _ p => p.wf
  | .gatelistLoad _ p => p.wf
  | .gatelistArm _ p => p.wf
  | .gatelistQuery _ p => p.wf
  | .shaperSet _ p => p.wf
  | .leadSet _ p => p.wf
  | .admitCheck _ p => p.wf
  | .demandQuery _ p => p.wf
  | .latencyHistRead _ p => p.wf
  | .sceneSubmit _ p => p.wf
  | .sceneCommit _ p => p.wf
  | .paneUpdate _ p => p.wf
  | .sceneQuery _ p => p.wf
  | .fallbackSet _ p => p.wf
  | .paneCountersRead _ p => p.wf
  | .coefBankLoad _ p => p.wf
  | .itfLutLoad _ p => p.wf
  | .lut3dLoad _ p => p.wf
  | .outputColourSet _ p => p.wf
  | .rasterTimingSet _ p => p.wf
  | .rasterStart _ p => p.wf
  | .rasterStop _ p => p.wf
  | .sinkAttach _ p => p.wf
  | .sinkDetach _ p => p.wf
  | .strikeArm _ p => p.wf
  | .strikeCancel _ p => p.wf
  | .dpPortConfig _ p => p.wf
  | .rasterBind _ p => p.wf
  | .rasterQuery _ p => p.wf
  | .crystalUnlock _ p => p.wf
  | .crystalPaneSet _ p => p.wf
  | .crystalExpectSet _ p => p.wf
  | .crystalLock _ p => p.wf
  | .crystalKeyProvision _ p => p.wf
  | .portConfig _ p => p.wf
  | .ingestFlowSet _ p => p.wf
  | .egressFlowSet _ p => p.wf
  | .mcastJoin _ p => p.wf
  | .mcastLeave _ p => p.wf
  | .fstSubscribe _ p => p.wf
  | .fstUnsubscribe _ p => p.wf
  | .flowQuery _ p => p.wf
  | .queueShaperSet _ p => p.wf
  | .qbvListLoad _ p => p.wf
  | .qbvListArm _ p => p.wf
  | .meterSet _ p => p.wf
  | .tsStatsRead _ p => p.wf
  | .linkConfig _ p => p.wf
  | .nodeEnumerate _ p => p.wf
  | .ptpConfig _ p => p.wf
  | .timeQuery _ p => p.wf
  | .beatCalibrate _ p => p.wf
  | .surfaceTransfer _ p => p.wf
  | .routeQuery _ p => p.wf
  | .blitCopy _ p => p.wf
  | .blitFill _ p => p.wf
  | .blitBlend _ p => p.wf
  | .blitConvert _ p => p.wf
  | .blitMaskExpand _ p => p.wf
  | .blitListRun _ p => p.wf
  | .blitDeadtimeSet _ p => p.wf
  | .hdChannelConfig _ p => p.wf
  | .hdStart _ p => p.wf
  | .hdAbort _ p => p.wf
  | .hdQuery _ p => p.wf
  | .eventRoute _ p => p.wf
  | .eventQuery _ p => p.wf
  | .eventSoftSet _ p => p.wf
  | .powerStateSet _ p => p.wf
  | .unitReset _ p => p.wf
  | .deviceReset _ p => p.wf
  | .loopWindowSet _ p => p.wf
  | .shedMaskSet _ p => p.wf
  | .pmuQuery _ p => p.wf
  | .retirementQuery _ p => p.wf
  | .retirementClear _ p => p.wf
  | .ltrRead _ p => p.wf
  | .ltrCheckpoint _ p => p.wf
  | .eccLogRead _ p => p.wf
  | .queueEnable _ f q v => isFunction f && isPair q && isWord v
  | .queueDisable _ f q v => isFunction f && isPair q && isWord v
  | .queueFlush _ f q v => isFunction f && isPair q && isWord v
  | .flushBoundary _ f q => isFunction f && isPair q
  | .submitDoorbell _ f q v => isFunction f && isPair q && isWord v
  | .replyDoorbell _ f q v => isFunction f && isPair q && isWord v
  | .cpEntryCopy _ f q entry => isFunction f && isPair q && isEntry entry
  | .creditOnlyReply _ f q => isFunction f && isPair q
  | .ringFault _ f q _ => isFunction f && isPair q
  | .timedPacketDue _ _ => true
  | .routeForward _ op p => isHalfword op && p.wf
  | .routeTimeout _ => true
  | .cmdFlitRx _ x m => x.wf && msgWf m
  | .registerWrite _ f off be v => isFunction f && isBar0 off && isEnable be && isWord v
  | .rcRegisterRead _ f off be => isFunction f && isBar0 off && isEnables be
  | .pairLowRead _ f off be => isFunction f && isBar0 off && isEnables be
  | .pairHighRead _ f off be => isFunction f && isBar0 off && isEnables be
  | .evcClaim _ f tg => isAgent f && isTarget tg
  | .evcComplete _ f tg v => isAgent f && isTarget tg && isWord v
  | .evcTargetHold _ f tg v => isAgent f && isTarget tg && isWord v
  | .evcTargetIdle _ f tg v => isAgent f && isTarget tg && isWord v
  | .evcGlobalHold _ f v => isAgent f && isWord v
  | .evcSwsetWrite _ f v => isAgent f && isWord v
  | .msixEntryUnmask _ f v => isFunction f && isWord v
  | .busMasterEnableChange _ f c => isFunction f && c.wf
  | .vfEnableSet _ num bar2 => isVfCount num && isBarSize bar2
  | .vfEnableClear _ => true
  | .evcEdge _ src => isSource src
  | .evcLevelChange _ src _ => isSource src
  | .evcDelivery _ tg => isTarget tg
  | .evcNowakeFallback _ src => isSource src
  | .rgCommitWrite _ f r v => isFunction f && isRaster r && isWord v
  | .paneWindowWrite _ f off v => isFunction f && isBar0 off && isWord v
  | .blRegListStart _ f v => isFunction f && isWord v
  | .blRegListStop _ f v => isFunction f && isWord v
  | .hdRegStart _ f c => isFunction f && isChannel c
  | .hdRegAbort _ f c => isFunction f && isChannel c
  | .hdReqsetWrite _ f v => isFunction f && isWord v
  | .recoveryPageCommit _ f => isFunction f
  | .recoveryPageProgrammed _ => true
  | .recoveryDone _ f _ => isFunction f
  | .bar2Write _ f off _ => isFunction f && isBar2 off
  | .bar2Read _ f off _ => isFunction f && isBar2 off
  | .bar2Atomicop _ f off => isFunction f && isBar2 off
  | .flr _ f => isFunction f
  | .flrRemoteApply _ f device => isFunction f && isDevice device
  | .perstNAssert _ => true
  | .perstNWake _ => true
  | .hotReset _ => true
  | .powerOnReset _ _ => true
  | .porRelease _ straps => isStraps straps
  | .pinReset _ => true
  | .wakePin _ => true
  | .wakeTimer _ => true
  | .pfw _ => true
  | .thermtrip _ => true
  | .refclkLoss _ => true
  | .pllLockLoss _ => true
  | .pcieRefclkLoss _ => true
  | .wdogWarn _ core => isCore core
  | .watchdogReset _ core => isCore core
  | .avsUpdate _ _ => true
  | .thermalSample _ _ => true
  | .refreshPoll _ _ => true
  | .powerStateDrainEnd _ => true
  | .powerStateDrainTimeout _ => true
  | .rasterStartLatch _ r => isRaster r
  | .rasterFrameStart _ r => isRaster r
  | .rasterLatch _ r => isRaster r
  | .rasterLineStart _ r _ => isRaster r
  | .indexBuildDone _ r => isRaster r
  | .fsRequestIssue _ n => isChannel n
  | .fetchDataArrive _ r pane _ _ _ => isRaster r && isPane pane
  | .mcgEntryAdvance _ n => isChannel n
  | .gateSwitch _ n => isChannel n
  | .divergenceCompare _ _ => true
  | .strikeDecision _ r => isRaster r
  | .strikeVoteTime _ _ => true
  | .strikeVerdictDeadline _ _ => true
  | .strikeRegistrationRx _ x _ => x.wf
  | .strikeVoteRx _ x device _ _ => x.wf && isDevice device
  | .strikeVerdictRx _ x _ _ => x.wf
  | .strikeRegistrationTimeout _ _ => true
  | .crystalUnlockExpire _ => true
  | .crystalLockoutExpire _ => true
  | .ethFrameRx _ port _ _ _ => isPort port
  | .fwFrameService _ port x => isPort port && fwRequestWf x
  | .ptpMessageRx _ port _ => isPort port
  | .ptpAnnounceTimeout _ _ => true
  | .dcoSteer _ => true
  | .ingestFrameTimeout _ flow => isFlow flow
  | .st2110PacketRelease _ flow => isFlow flow
  | .fstPacketSend _ flow => isFlow flow
  | .portTxSelect _ port => isPort port
  | .qbvEntryAdvance _ port => isPort port
  | .qbvGateSwitch _ port => isPort port
  | .queueStatsSample _ => true
  | .ethLinkUp _ port => isPort port
  | .ethLinkDown _ port => isPort port
  | .fecUncorrectable _ port _ => isPort port
  | .cfBlockDecodeFail _ k _ => isLink k
  | .retrainDone _ link lane => isTrained link && isLane lane
  | .retrainAttemptFail _ link _ => isTrained link
  | .cfLinkUp _ k _ => isLink k
  | .cfBringupTimeout _ k => isLink k
  | .cfBringupRetry _ k => isLink k
  | .cfLinkDown _ k => isLink k
  | .cfFlitTx _ k => isLink k
  | .idleFlitRx _ x => x.wf
  | .helloRx _ x _ _ => x.wf
  | .calReqRx _ x => x.wf
  | .calRespRx _ x _ _ => x.wf
  | .beatEmit _ => true
  | .beatRx _ x => x.wf
  | .beatLoss _ => true
  | .xferHdrRx _ x _ => x.wf
  | .xferDataRx _ device x => isDevice device && x.wf
  | .xferEndRx _ device x => isDevice device && x.wf
  | .frameStartRx _ x => x.wf
  | .lineDataRx _ device x => isDevice device && x.wf
  | .importPublishTimeout _ imp => isImport imp
  | .dpTrainingDone _ port _ _ => isDp port
  | .dpHpdChange _ port _ => isDp port
  | .hdcpAuthResult _ port _ _ _ => isDp port
  | .blJobStart _ => true
  | .blBurst _ => true
  | .blJobEnd _ => true
  | .blListEntryRun _ => true
  | .hdChannelSelect _ _ _ => true
  | .hdHwRequest _ line => isLine line
  | .hdBurst _ _ _ _ => true
  | .hdDescComplete _ _ _ _ => true
  | .hdReqTimeout _ => true
  | .hdAccessTimeout _ => true
  | .eccCorrected _ _ => true
  | .eccUncorrectable _ _ => true
  | .migrationSurfaceMoved _ surf => isSurface surf
  | .migrationDone _ _ => true
  | .channelRestartDone _ n => isChannel n
  | .channelRestartTimeout _ n => isChannel n
  | .parity _ slice pane _ => isSlice slice && isPane pane
  | .ltrPeriodic _ => true
  | .ltrCheckpointDone _ _ => true
  | .ltrSecondSample _ _ => true
  | .resetNDeassert _ _ => true
  | .bootReady _ _ => true
  | .tjBelow115BootStart _ _ => true
  | .xferAnswerRx _ device _ _ _ _ => isDevice device
  | .ptpMessageInterval _ port _ => isPort port
  | .serdesEqAdapt _ lane _ => isLane lane
  | .pcieLinkTrained _ => true

/-- The time that a command carries (DESIGN CHOICE, notes/assumptions/1.md). -/
def Instr.time (i : Instr) : Ticks :=
  match i with
  | .nop t _ => t
  | .getIdentity t _ => t
  | .queryUnit t _ => t
  | .reconcile t _ => t
  | .cancelTimed t _ => t
  | .assign t _ => t
  | .queryOwner t _ => t
  | .getFirmware t _ => t
  | .surfaceCreate t _ => t
  | .surfaceDestroy t _ => t
  | .surfaceQuery t _ => t
  | .slotPublish t _ => t
  | .surfaceSetSharing t _ => t
  | .memQuery t _ => t
  | .gatelistLoad t _ => t
  | .gatelistArm t _ => t
  | .gatelistQuery t _ => t
  | .shaperSet t _ => t
  | .leadSet t _ => t
  | .admitCheck t _ => t
  | .demandQuery t _ => t
  | .latencyHistRead t _ => t
  | .sceneSubmit t _ => t
  | .sceneCommit t _ => t
  | .paneUpdate t _ => t
  | .sceneQuery t _ => t
  | .fallbackSet t _ => t
  | .paneCountersRead t _ => t
  | .coefBankLoad t _ => t
  | .itfLutLoad t _ => t
  | .lut3dLoad t _ => t
  | .outputColourSet t _ => t
  | .rasterTimingSet t _ => t
  | .rasterStart t _ => t
  | .rasterStop t _ => t
  | .sinkAttach t _ => t
  | .sinkDetach t _ => t
  | .strikeArm t _ => t
  | .strikeCancel t _ => t
  | .dpPortConfig t _ => t
  | .rasterBind t _ => t
  | .rasterQuery t _ => t
  | .crystalUnlock t _ => t
  | .crystalPaneSet t _ => t
  | .crystalExpectSet t _ => t
  | .crystalLock t _ => t
  | .crystalKeyProvision t _ => t
  | .portConfig t _ => t
  | .ingestFlowSet t _ => t
  | .egressFlowSet t _ => t
  | .mcastJoin t _ => t
  | .mcastLeave t _ => t
  | .fstSubscribe t _ => t
  | .fstUnsubscribe t _ => t
  | .flowQuery t _ => t
  | .queueShaperSet t _ => t
  | .qbvListLoad t _ => t
  | .qbvListArm t _ => t
  | .meterSet t _ => t
  | .tsStatsRead t _ => t
  | .linkConfig t _ => t
  | .nodeEnumerate t _ => t
  | .ptpConfig t _ => t
  | .timeQuery t _ => t
  | .beatCalibrate t _ => t
  | .surfaceTransfer t _ => t
  | .routeQuery t _ => t
  | .blitCopy t _ => t
  | .blitFill t _ => t
  | .blitBlend t _ => t
  | .blitConvert t _ => t
  | .blitMaskExpand t _ => t
  | .blitListRun t _ => t
  | .blitDeadtimeSet t _ => t
  | .hdChannelConfig t _ => t
  | .hdStart t _ => t
  | .hdAbort t _ => t
  | .hdQuery t _ => t
  | .eventRoute t _ => t
  | .eventQuery t _ => t
  | .eventSoftSet t _ => t
  | .powerStateSet t _ => t
  | .unitReset t _ => t
  | .deviceReset t _ => t
  | .loopWindowSet t _ => t
  | .shedMaskSet t _ => t
  | .pmuQuery t _ => t
  | .retirementQuery t _ => t
  | .retirementClear t _ => t
  | .ltrRead t _ => t
  | .ltrCheckpoint t _ => t
  | .eccLogRead t _ => t
  | .queueEnable t _ _ _ => t
  | .queueDisable t _ _ _ => t
  | .queueFlush t _ _ _ => t
  | .flushBoundary t _ _ => t
  | .submitDoorbell t _ _ _ => t
  | .replyDoorbell t _ _ _ => t
  | .cpEntryCopy t _ _ _ => t
  | .creditOnlyReply t _ _ => t
  | .ringFault t _ _ _ => t
  | .timedPacketDue t _ => t
  | .routeForward t _ _ => t
  | .routeTimeout t => t
  | .cmdFlitRx t _ _ => t
  | .registerWrite t _ _ _ _ => t
  | .rcRegisterRead t _ _ _ => t
  | .pairLowRead t _ _ _ => t
  | .pairHighRead t _ _ _ => t
  | .evcClaim t _ _ => t
  | .evcComplete t _ _ _ => t
  | .evcTargetHold t _ _ _ => t
  | .evcTargetIdle t _ _ _ => t
  | .evcGlobalHold t _ _ => t
  | .evcSwsetWrite t _ _ => t
  | .msixEntryUnmask t _ _ => t
  | .busMasterEnableChange t _ _ => t
  | .vfEnableSet t _ _ => t
  | .vfEnableClear t => t
  | .evcEdge t _ => t
  | .evcLevelChange t _ _ => t
  | .evcDelivery t _ => t
  | .evcNowakeFallback t _ => t
  | .rgCommitWrite t _ _ _ => t
  | .paneWindowWrite t _ _ _ => t
  | .blRegListStart t _ _ => t
  | .blRegListStop t _ _ => t
  | .hdRegStart t _ _ => t
  | .hdRegAbort t _ _ => t
  | .hdReqsetWrite t _ _ => t
  | .recoveryPageCommit t _ => t
  | .recoveryPageProgrammed t => t
  | .recoveryDone t _ _ => t
  | .bar2Write t _ _ _ => t
  | .bar2Read t _ _ _ => t
  | .bar2Atomicop t _ _ => t
  | .flr t _ => t
  | .flrRemoteApply t _ _ => t
  | .perstNAssert t => t
  | .perstNWake t => t
  | .hotReset t => t
  | .powerOnReset t _ => t
  | .porRelease t _ => t
  | .pinReset t => t
  | .wakePin t => t
  | .wakeTimer t => t
  | .pfw t => t
  | .thermtrip t => t
  | .refclkLoss t => t
  | .pllLockLoss t => t
  | .pcieRefclkLoss t => t
  | .wdogWarn t _ => t
  | .watchdogReset t _ => t
  | .avsUpdate t _ => t
  | .thermalSample t _ => t
  | .refreshPoll t _ => t
  | .powerStateDrainEnd t => t
  | .powerStateDrainTimeout t => t
  | .rasterStartLatch t _ => t
  | .rasterFrameStart t _ => t
  | .rasterLatch t _ => t
  | .rasterLineStart t _ _ => t
  | .indexBuildDone t _ => t
  | .fsRequestIssue t _ => t
  | .fetchDataArrive t _ _ _ _ _ => t
  | .mcgEntryAdvance t _ => t
  | .gateSwitch t _ => t
  | .divergenceCompare t _ => t
  | .strikeDecision t _ => t
  | .strikeVoteTime t _ => t
  | .strikeVerdictDeadline t _ => t
  | .strikeRegistrationRx t _ _ => t
  | .strikeVoteRx t _ _ _ _ => t
  | .strikeVerdictRx t _ _ _ => t
  | .strikeRegistrationTimeout t _ => t
  | .crystalUnlockExpire t => t
  | .crystalLockoutExpire t => t
  | .ethFrameRx t _ _ _ _ => t
  | .fwFrameService t _ _ => t
  | .ptpMessageRx t _ _ => t
  | .ptpAnnounceTimeout t _ => t
  | .dcoSteer t => t
  | .ingestFrameTimeout t _ => t
  | .st2110PacketRelease t _ => t
  | .fstPacketSend t _ => t
  | .portTxSelect t _ => t
  | .qbvEntryAdvance t _ => t
  | .qbvGateSwitch t _ => t
  | .queueStatsSample t => t
  | .ethLinkUp t _ => t
  | .ethLinkDown t _ => t
  | .fecUncorrectable t _ _ => t
  | .cfBlockDecodeFail t _ _ => t
  | .retrainDone t _ _ => t
  | .retrainAttemptFail t _ _ => t
  | .cfLinkUp t _ _ => t
  | .cfBringupTimeout t _ => t
  | .cfBringupRetry t _ => t
  | .cfLinkDown t _ => t
  | .cfFlitTx t _ => t
  | .idleFlitRx t _ => t
  | .helloRx t _ _ _ => t
  | .calReqRx t _ => t
  | .calRespRx t _ _ _ => t
  | .beatEmit t => t
  | .beatRx t _ => t
  | .beatLoss t => t
  | .xferHdrRx t _ _ => t
  | .xferDataRx t _ _ => t
  | .xferEndRx t _ _ => t
  | .frameStartRx t _ => t
  | .lineDataRx t _ _ => t
  | .importPublishTimeout t _ => t
  | .dpTrainingDone t _ _ _ => t
  | .dpHpdChange t _ _ => t
  | .hdcpAuthResult t _ _ _ _ => t
  | .blJobStart t => t
  | .blBurst t => t
  | .blJobEnd t => t
  | .blListEntryRun t => t
  | .hdChannelSelect t _ _ => t
  | .hdHwRequest t _ => t
  | .hdBurst t _ _ _ => t
  | .hdDescComplete t _ _ _ => t
  | .hdReqTimeout t => t
  | .hdAccessTimeout t => t
  | .eccCorrected t _ => t
  | .eccUncorrectable t _ => t
  | .migrationSurfaceMoved t _ => t
  | .migrationDone t _ => t
  | .channelRestartDone t _ => t
  | .channelRestartTimeout t _ => t
  | .parity t _ _ _ => t
  | .ltrPeriodic t => t
  | .ltrCheckpointDone t _ => t
  | .ltrSecondSample t _ => t
  | .resetNDeassert t _ => t
  | .bootReady t _ => t
  | .tjBelow115BootStart t _ => t
  | .xferAnswerRx t _ _ _ _ _ => t
  | .ptpMessageInterval t _ _ => t
  | .serdesEqAdapt t _ _ => t
  | .pcieLinkTrained t => t

end Sys2Proof
end

