-- ==== Sys2Proof/Tests/Slice0.lean ====
section
/-! SUPPORT. The tests of the row: ill-formed commands that WellFormed refuses, and the worked examples of the spec.
Every expected value of an example stands in the spec, in the chapter that the docstring names. -/
namespace Sys2Proof.Tests
set_option Elab.async false
open Sys2Proof Sys2Proof.Machine

/-! ### Well-formed commands -/

/-- One command past the end of each range. -/
def illFormed : List Instr :=
  [ .flr 0 16, .evcClaim 0 17 0, .flushBoundary 0 0 8, .evcGlobalHold 0 0 (2 ^ 32), .registerWrite 0 0 (2 ^ 22) 15 0,
    .registerWrite 0 0 0 16 0, .rcRegisterRead 0 0 0 256, .bar2Read 0 0 (2 ^ 37) 4, .vfEnableSet 0 16 32, .vfEnableSet 0 6 29,
    .evcDelivery 0 68, .evcEdge 0 1024, .rasterLatch 0 16, .fsRequestIssue 0 16, .hdRegStart 0 0 16, .wdogWarn 0 4,
    .importPublishTimeout 0 16, .retrainDone 0 12 0, .retrainDone 0 11 16, .cfLinkDown 0 4, .ethLinkDown 0 8,
    .dpHpdChange 0 4 true, .ingestFrameTimeout 0 4096, .migrationSurfaceMoved 0 16384, .parity 0 16 0 0, .parity 0 0 8192 0,
    .fetchDataArrive 0 0 8192 0 0 true, .flrRemoteApply 0 0 (2 ^ 18), .porRelease 0 16, .cpEntryCopy 0 0 0 (leBytes 63 0),
    .hdHwRequest 0 32, .busMasterEnableChange 0 0 ⟨true, true, true, 38⟩ ]

theorem test_wf_refuses : illFormed.all (fun i => !i.wf) = true := by decide +kernel

/-- A packet with one field out of its range. -/
def illPackets : List Packet :=
  [ { func := 16 }, { qp := 8 }, { tag := 2 ^ 16 }, { dest := 2 ^ 18 }, { seq := 2 ^ 32 }, { execTime := 2 ^ 64 },
    { pptr := 2 ^ 64 }, { plen := 256 }, { params := List.replicate 4081 0#8 }, { origin := some (2 ^ 18) } ]
theorem test_wf_packets : illPackets.all (fun p => !(Instr.nop 0 p).wf) = true := by decide +kernel

/-- A flit of no link, or not of 256 bytes. -/
def illFlits : List FlitRx :=
  [ { flitOf 0 0 { vc := 0, ty := 0 } with link := 4 }, { link := 0, image := List.replicate 255 0#8 },
    { link := 0, image := List.replicate 257 0#8 } ]
theorem test_wf_flits : illFlits.all (fun x => !(Instr.idleFlitRx 0 x).wf) = true := by decide +kernel

/-- A command message with one field out of its range. -/
def illMessages : List CmdMsg :=
  [ .request 65536 { origin := some 0 }, .request 0 {}, .reply (2 ^ 18) 0 0 0 0 0 0, .reply 0 16 0 0 0 0 0,
    .reply 0 0 8 0 0 0 0, .reply 0 0 0 65536 0 0 0, .reply 0 0 0 0 0 (2 ^ 32) 0, .assignId 0 4 0 0 [], .assignId 0 0 64 0 [],
    .assignId 0 0 0 8 [], .flrApply 16, .flushTimed (2 ^ 18) 0 0, .flushTimed 0 0 8,
    .linkState (2 ^ 18) [], .linkState 0 [0, 0, 0, 0, 0], .xferAnswer 0 64 true 0 0, .refRate (2 ^ 32) 1 0 ]
theorem test_wf_messages : illMessages.all (fun m =>
    !(Instr.cmdFlitRx 0 (flitOf 0 0 { vc := 0, ty := 1 }) (some m)).wf) = true := by decide +kernel

/-- Cririk Fabric: the header of a flit, byte by byte: VC and TYPE, PLEN, FSEQ, ACKSEQ, CVC and CCOUNT, DST, TAGW. -/
theorem test_flitHeader : (flitImage { vc := 1, ty := 5, dst := 0xC5, tagw := 0x08000002, payload := List.replicate 240 0#8 }
    0x1234 0x5678 2 9).take 16 = [0x29#8, 0xF0#8, 0x12#8, 0x34#8, 0x56#8, 0x78#8, 0x08#8, 0#8, 0xC5#8, 9#8, 0#8, 0#8, 8#8, 0#8, 0#8,
      2#8] := by decide +kernel

theorem test_wf_accepts : ([.flr 0 15, .evcClaim 0 16 67, .registerWrite 0 0 (2 ^ 22 - 4) 15 0, .vfEnableSet 0 15 37,
    .evcEdge 0 1023, .retrainDone 0 11 15, .nop 0 (pk []), .cpEntryCopy 0 15 7 (leBytes 64 0)] : List Instr).all (·.wf)
    = true := by decide +kernel

/-- The table gives no row any bits. -/
theorem test_decodeTableWord : decodeTableWord 32 0 = none := rfl

/-! ### Worked examples of the spec -/

/-- The state that a step answers. -/
def outcome (o : Host.Outcome State Fault Refusal) : State :=
  match o with
  | .next s => s
  | _ => State.reset

/-- Command Port: QUERY_UNIT of RG5 from VF2. -/
def queryPk : Packet := { func := 2, replyAlways := true, plen := 4, tag := 0x10, params := [5#8, 0#8, 0#8, 1#8] }
/-- VF2 with RG5 halted, its view scene 13, and three entries copied. -/
def queryState : State :=
  { withVfs with
    host := { withVfs.host with bme := 5 }
    own := { withVfs.own with raster := [(5, 2)] }
    rg := { withVfs.rg with rasters := [(5, { st := .halted })] }
    un := { withVfs.un with marked := [(0x01000005, 0x0100000D)] }
    cp := { withVfs.cp with
            qps := [(16, { enable := true, running := true, granted := 0x13, copied := 3, expected := 3, pi := 3, unreported := 3,
                           outstanding := 3, reserved := 3, rbase := 0x10000, sbase := 0x20000 })]
            fifo := [{ opcode := 2, pkt := queryPk, slots := 1, counted := true }] } }
/-- Command Port: its reply, byte for byte. -/
theorem test_queryUnit_reply : (outcome (exec (.queryUnit 0 queryPk) queryState)).out.contains
    (.hostWrite 2 0x10000 [0x10#8, 0#8, 0#8, 0#8, 0x0D#8, 0#8, 0#8, 0x81#8, 0#8, 0#8, 0#8, 5#8, 3#8, 0#8, 1#8, 0#8]) = true := by
  decide +kernel
/-- Command Port: slot 0 of the example, read as a packet. -/
theorem test_parseEntry : (let p := parseEntry 2 0 ([0x02#8, 0#8, 0x02#8, 0x04#8, 0x10#8, 0#8, 0#8, 0#8, 0xFF#8, 0xFF#8, 0x03#8, 0#8,
      0#8, 0#8, 0#8, 0#8, 5#8, 0#8, 0#8, 1#8] ++ List.replicate 44 0#8)
    p.replyAlways && !p.fence && p.plen == 4 && p.tag == 0x10 && p.dest == 0x3FFFF && p.seq == 0
      && p.params == [5#8, 0#8, 0#8, 1#8]) = true := by decide +kernel

/-- Device Memory and Surfaces: the interleave with ECC and 8 GiB channels. -/
theorem test_interleave : (let s := { ready with mm := { ready.mm with ecc := true, cap := 2, live := 0xFFFF } }
    granulesPer s == 1966080 && channelOf s 0x1A7F5A40 == 6 && channelAddress s 0x1A7F5A40 == 0x1C43A40) = true := by decide +kernel
/-- Device Memory and Surfaces: pitches and strides of the camera surface, uncompressed, FTC-F and FTC-L. -/
theorem test_strides : ([minPitch 0x21 0 0 1920, slotStride 0x21 0 19 1920 1080, minPitch 0x21 2 1 1920,
    slotStride 0x21 2 120 1920 1080, minPitch 0x21 1 0 1920, slotStride 0x21 1 300 1920 1080] : List Nat)
    = [19, 1283, 120, 510, 300, 1291] := by decide +kernel
/-- Host Interface and Register Summary: slot 1 of VF3's surface. -/
theorem test_slotAddr : slotAddr { base := 0x24C000000, stride := 1283 } 1 = 0x24C503000 := by decide +kernel

/-- The 8K60 timing of the examples. -/
def uhd60 : Timing :=
  { set := true, hact := 7680, hfp := 400, hsync := 400, hbp := 520, vact := 4320, vfp := 20, vsync := 20, vbp := 40, latch := 4320,
    n := 99, d := 50 }
/-- Escapement: capacity of the gate list for C0, the CIR of the peak band and of a steady band. -/
theorem test_escapement : (capacity 1 [⟨1200, 0x03⟩, ⟨500, 0x0C⟩, ⟨150, 0x30⟩, ⟨150, 0xC0⟩] == 16173000000
    && cirOf uhd60 9961472 == 0x88F862 && demandRate uhd60 9961472 == 164364288000) = true := by decide +kernel
/-- Scaling and Colour: the factors chosen, the step and the phase of a 2:1 reduction. -/
theorem test_scaling : (autoPre 1920 240 == 3 && autoPre 1080 135 == 3 && phaseStep 480 240 == 0x2000000
    && phaseBits (phaseAt 480 240 0 7) == 32) = true := by decide +kernel
/-- Scaling and Colour: zero chroma of a narrow container, and 13 pixels of 16 that dither up from 254.81. -/
theorem test_colour : (normalise 0x13 1 true ⟨0x8000, 1⟩ == 0
    && ((List.range 16).filter fun i => let t := ditherT 1 (i % 4) (i / 4) 0
        decide (255 * 100 * (t.d : Int) ≤ 25481 * t.d + 100 * t.n)).length == 13) = true := by decide +kernel
/-- Rasters and Outputs: the latch is cycle 19,636,364 of the frame and the frame has 20,000,000, in 0.8 ns ticks. -/
theorem test_rasterTimes : (let x : Raster := { tim := uhd60 }
    lineTick x 4320 == 19636364 * 25 / 24 && frameTick x == 20000000 * 25 / 24) = true := by decide +kernel
/-- Rasters and Outputs: slots of an uncompressed and of a compressed 8K60 stream on UHBR20. -/
theorem test_streamSlots : (streamSlots uhd60 { depth := 1 } 3 4 == 60
    && streamSlots uhd60 { depth := 1, dsc := true, bpp := 192 } 3 4 == 24) = true := by decide +kernel
/-- Network Engine: the capture time of the example, and the packets of an 8K60 frame. -/
theorem test_network : (rtpCapture 1700000000010000000 380014592 == 1700000000000000000
    && packetCount uhd60 { enc := 2, depth := 1 } { blocks := 7 } == 65829
    && ownHandle { ready with cf := { ready.cf with devid := 0xC5 } } 1234 == 0x3144D2) = true := by decide +kernel
/-- Traffic Scheduling: class 6 and the total on the list of the example, and the CIR of its sender. -/
theorem test_traffic : (let s := { ready with ne := { ready.ne with ports := [(0, { mtu := 1518 })] } }
    let c : EgressCfg := { kind := 1, blocks := 7, vlan := true }
    portCapacity 400 1518 0x40 [⟨8000, 0xFF⟩, ⟨2000, 0x80⟩] == 318769600
      && portCapacity 400 1518 0x80 [⟨8000, 0xFF⟩, ⟨2000, 0x80⟩] == 400000000
      && senderCir s uhd60 { enc := 2, depth := 1 } c == 43640239) = true := by decide +kernel
/-- Cririk Fabric: the boundary C and the decision D of the strike of RG2 and RG7, and the boundary after C. -/
theorem test_strike : (let t0 := 1700000000000000000
    let ms : List StrikeMember := [⟨11000000000, 660, 200000000⟩, ⟨1000000000, 30, 40000000⟩]
    let p := commonPeriod ms
    firstStart p (t0 + 5000000) == t0 + 33333334 && decisionTime p ms (t0 + 33333334) == t0 + 32000000
      && nextBoundary p (t0 + 33333334) == t0 + 66666667) = true := by decide +kernel
/-- Blitter: the pixels of the scroll, and of the glyph within its clip. -/
theorem test_pixelCount : (let block := fun (l : List (Nat × Nat)) => leBytes 256 (sumOf (l.map fun e => e.2 * 256 ^ e.1))
    pixelCount (block [(8, 3831), (10, 63)]) == 245248
      && pixelCount (block [(1, 1), (8, 7), (10, 63), (56, 3832), (130, 4), (132, 3839), (134, 55)]) == 448) = true := by
  decide +kernel
/-- Housekeeping DMA: the lengths of the first and of the last burst of the example. -/
theorem test_hdBursts : (let d := [0x0C#8, 0#8, 0#8, 0#8, 0x13#8, 0x27#8, 0#8, 0#8, 0x40#8, 0#8, 0#8, 0#8, 1#8, 0#8, 0#8, 0x80#8,
      0xF0#8, 0x0F#8,
      0#8, 0x34#8, 0x12#8, 0#8, 0#8, 0#8, 0#8, 0#8, 0#8, 0#8, 0#8, 0#8, 0#8, 0x40#8]
    burstLen {} d == 16 && burstLen { k := 16 } d == 4096 && burstLen { k := 8208 } d == 1795) = true := by decide +kernel
/-- Housekeeping DMA: the record of the example in its queue. -/
theorem test_hdRecord : (let s := writeRecord 2 { status := 0, chainEnd := true } { ready with hd := { ready.hd with
      chans := [(2, { configured := true, cqbase := 0x20000000, count := 1 })] } }
    memRead s 0x20000000 16 == [0#8, 0#8, 2#8, 0x81#8, 1#8, 0#8, 0#8, 0#8, 0#8, 0#8, 0#8, 0#8, 0#8, 0#8, 0#8, 0#8]) = true := by
  decide +kernel
/-- Event Concentrator: an edge on source 229 is delivered at once to the idle target T13 of VF2, whose claim then
returns 229, above 848. -/
def t13 : State :=
  { withVfs with
    host := { withVfs.host with bme := 4, mse := 4, msixEn := 4, msix := [(9, { mask := false, addr := 0x1000, data := 7 })] }
    own := { withVfs.own with targets := [(2, true)] }
    evc := { src := [(229, { target := 13, prio := 8 }), (848, { target := 13, prio := 4, pending := true })]
             tgt := [(13, { idle := true, interval := 50, count := 4 })] } }
theorem test_evcDelivery : (outcome (exec (.evcDelivery 9 13) (outcome (exec (.evcEdge 0 229) t13)))).out.contains
    (.msix 2 1 0x1000 7) = true := by decide +kernel
theorem test_evcClaim : (outcome (exec (.evcClaim 9 2 13) (outcome (exec (.evcEdge 0 229) t13)))).out.contains
    (.readData 2 229) = true := by decide +kernel

/-- Reset: a released POR boots to READY. -/
theorem test_boot : (let s := outcome (exec (.porRelease 0 4) State.reset)
    (outcome (exec (.bootReady 0 {}) s)).pmu.stage == 5 && s.pmu.stage == 0) = true := by decide +kernel
/-- Reliability: the fifth sector of a channel within 24 h retires it. -/
theorem test_retire : (let s := { withSurf with rel := { withSurf.rel with sectors := [(0, 1, 0), (0, 2, 0), (0, 3, 0), (0, 4, 0)] } }
    let n := channelOf s 0x10000000
    let s := { s with rel := { s.rel with sectors := s.rel.sectors.map fun e => (n, e.2) } }
    chanState (outcome (exec (.eccUncorrectable 0 anEcc) s)) n == 2) = true := by decide +kernel

end Sys2Proof.Tests
end

/-! SUPPORT. Accesses of host software to registers through BAR0 (O37): what an access that reaches the device acts as,
what a read answers for a register outside pairs and for each word of a pair, and the two registers of the DEV page that
the statement spells out, the scratch words and the counts of BAR2 denials. -/
namespace Sys2Proof.Proofs
open Sys2Proof Sys2Proof.Machine Sys2Proof.Laws

variable {t : Ticks} {s s1 : State} {f off be o : Nat}

/-! ### Accesses that reach the device (R541, R601, R607) -/

theorem exec_registerWrite (t : Ticks) (f off be v : Nat) (s : State) :
    exec (.registerWrite t f off be v) s = execRegisterWrite t f off be v s := rfl
theorem exec_rcRegisterRead (t : Ticks) (f off be : Nat) (s : State) :
    exec (.rcRegisterRead t f off be) s = readAccess t f off be s := rfl
theorem exec_pairLowRead (t : Ticks) (f off be : Nat) (s : State) :
    exec (.pairLowRead t f off be) s = readAccess t f off be s := rfl
theorem exec_pairHighRead (t : Ticks) (f off be : Nat) (s : State) :
    exec (.pairHighRead t f off be) s = readAccess t f off be s := rfl

/-- A write that reaches a READY device acts with its byte enables. -/
theorem exec_registerWrite_of (h : Reaches t f s s1) (hf : f < 16) (off be v : Nat) :
    exec (.registerWrite t f off be v) s = .next (writeRegister f off be v s1) := by
  rw [exec_registerWrite]
  unfold execRegisterWrite
  rw [regAccess_of h, if_pos hf]

theorem registerWrite_whole (h : Reaches t f s s1) (hf : f < 16) (hbe : be % 16 = 15) (off v : Nat) :
    exec (.registerWrite t f off be v) s = .next (writeOne f (off / 4 * 4) (v % 2 ^ 32) s1) := by
  rw [exec_registerWrite_of h hf, writeRegister, if_pos hbe]

theorem registerWrite_narrow (h : Reaches t f s s1) (hf : f < 16) (hbe : be % 16 ≠ 15) (off v : Nat) :
    exec (.registerWrite t f off be v) s = .next (narrowWrite f s1) := by
  rw [exec_registerWrite_of h hf, writeRegister, if_neg hbe]

/-- A read that reaches a READY device acts with its byte enables. -/
theorem readAccess_of (h : Reaches t f s s1) (hf : f < 16) (off be : Nat) :
    readAccess t f off be s = .next (readRegister f off be s1) := by
  unfold readAccess
  rw [regAccess_of h, if_pos hf]

/-- A read of at most 4 bytes answers the enabled bytes of the word at its offset. -/
theorem readRegister_narrow (hbe : be < 16) (f off : Nat) (s : State) :
    readRegister f off be s
      = emit (.readData f (enabledBytes be (readOne f (off / 4 * 4) s).1)) (readOne f (off / 4 * 4) s).2 := by
  unfold readRegister
  rw [if_neg (by omega)]

/-- A read of at most 4 bytes that reaches a READY device, by what the word at its offset reads as. -/
theorem readAccess_narrow (h : Reaches t f s s1) (hf : f < 16) (hbe : be < 16) (ho : off / 4 * 4 = o)
    {w : Nat} {s2 : State} (hread : readOne f o s1 = (w, s2)) :
    readAccess t f off be s = .next (emit (.readData f (enabledBytes be w)) s2) := by
  rw [readAccess_of h hf, readRegister_narrow hbe, ho, hread]

/-! ### One word (R14, R15) -/

/-- A register outside pairs that claims nothing: its word, and its RC fields are cleared. -/
theorem readOne_plain (hlow : inPair s f o false = false) (hhigh : inPair s f o true = false)
    (hclaim : claimTarget f o = none) : readOne f o s = (liveWord s f o, clearRc f o s) := by
  simp [readOne, readWord, hlow, hhigh, hclaim]

/-- The low word of a pair other than TK_TIME: its word, and the high word goes into the holding register. -/
theorem readOne_pairLow (hlow : inPair s f o false = true) (htime : ¬(f = 0 ∧ o = 0x90000)) :
    readOne f o s = (liveWord s f o, { s with host := { s.host with
      holding := Tbl.set s.host.holding (holdKey f o) (liveWord s f (o + 4)) } }) := by
  simp [readOne, captureHigh, hlow, htime]

/-- The high word of a pair that is held: the word held, and it is held no longer. -/
theorem readOne_pairHigh_held {w : Nat} (hlow : inPair s f o false = false) (hhigh : inPair s f o true = true)
    (hheld : Tbl.find? s.host.holding (holdKey f (o - 4)) = some w) :
    readOne f o s = (w, { s with host := { s.host with
      holding := Tbl.del s.host.holding (holdKey f (o - 4)) } }) := by
  simp [readOne, hlow, hhigh, hheld]

/-- The high word of a pair of which nothing is held: its live word. -/
theorem readOne_pairHigh_free (hlow : inPair s f o false = false) (hhigh : inPair s f o true = true)
    (hfree : Tbl.find? s.host.holding (holdKey f (o - 4)) = none) : readOne f o s = (liveWord s f o, s) := by
  simp [readOne, hlow, hhigh, hfree]

/-! ### The DEV page: scratch words and BAR2 denials (R613) -/

/-- A write at the offset of scratch word i stores it there. -/
theorem writeOne_scratch {i : Nat} (hi : i < 4) (v : Nat) (s : State) :
    writeOne 0 (0x40 + 4 * i) v s
      = { s with host := { s.host with scratch := Tbl.set s.host.scratch i (v % 2 ^ 32) } } := by
  have hword : (0x40 + 4 * i - 0x40) / 4 = i := by omega
  unfold writeOne writeLow
  rw [if_pos rfl, if_pos (by omega), if_neg (by omega), if_pos (by omega), hword]

theorem registerWrite_scratch {i : Nat} (h : Reaches t 0 s s1) (hbe : be % 16 = 15) (hi : i < 4) {v : Nat}
    (hv : v < 2 ^ 32) : exec (.registerWrite t 0 (0x40 + 4 * i) be v) s
      = .next { s1 with host := { s1.host with scratch := Tbl.set s1.host.scratch i v } } := by
  have hoff : (0x40 + 4 * i) / 4 * 4 = 0x40 + 4 * i := by omega
  rw [registerWrite_whole h (by omega) hbe, hoff, writeOne_scratch hi, Nat.mod_mod, Nat.mod_eq_of_lt hv]

/-- Of n words in a row at the end of a page, the one at the offset of word i is word i. -/
theorem regAt_append_words {l : List Reg} {n i b : Nat} (v : Nat → Nat) (hi : i < n)
    (hl : regAt l (b + 4 * i) = none) :
    regAt (l ++ (List.range n).map fun j => reg (b + 4 * j) (v j)) (b + 4 * i) = some (reg (b + 4 * i) (v i)) := by
  have hfind : (List.range n).find? (fun j => b + 4 * j == b + 4 * i) = some i :=
    List.find?_range_eq_some.2 ⟨by simp, List.mem_range.2 hi, fun j hj => by simp; omega⟩
  unfold regAt at hl ⊢
  rw [List.find?_append, hl, Option.none_or, List.find?_map]
  simp only [Function.comp_def, reg, Bool.false_and, Bool.or_false]
  rw [hfind, Option.map_some]

/-- The registers that the DEV page lists in front of the counts of BAR2 denials: identity, status and scratch words. -/
def devHead (s : State) : List Reg :=
  [reg 0x000 s.rel.partid, reg 0x010 (rd s.rel.lot 0 4), reg 0x014 (rd s.rel.lot 4 2),
   reg 0x018 (s.rel.wafer + shl s.rel.dieX 8 + shl s.rel.dieY 16), pair 0x020 s.rel.uid,
   reg 0x030 (gstatWord s), reg 0x100 (crykeyWord s)]
    ++ (List.range 4).map fun i => reg (0x040 + 4 * i) (Tbl.get s.host.scratch 0 i)

theorem devPage_eq (s : State) :
    devPage s = devHead s ++ (List.range 16).map fun j => reg (0x80 + 4 * j) (deniedOf s j) := rfl

/-- Those registers, with the high words of pairs, keep clear of the offsets of the counts. -/
theorem devHead_away {r : Reg} (hr : r ∈ devHead s) : r.1 + 4 < 0x80 ∨ r.1 = 0x100 := by
  rcases List.mem_append.1 hr with hfixed | hscratch
  · simp only [List.mem_cons, List.not_mem_nil, or_false] at hfixed
    rcases hfixed with rfl | rfl | rfl | rfl | rfl | rfl | rfl <;> simp [reg, pair]
  · obtain ⟨i, hi, rfl⟩ := List.mem_map.1 hscratch
    have := List.mem_range.1 hi
    simp only [reg]
    omega

theorem located_dev (ho : o < 0x4000) (s : State) : located s 0 o = (devPage s, o) := by
  unfold located pfLow
  rw [if_neg (by simp), if_pos (by omega), if_pos ho]

theorem clearRc_low (ho : o < 0x50000) (s : State) :
    clearRc 0 o s = { clearLowRc (keepNow s o) o s with
      prior := { (clearLowRc (keepNow s o) o s).prior with
        cleared := insertNat o (clearLowRc (keepNow s o) o s).prior.cleared } } := by
  simp [clearRc, ho]

section
variable {i : Nat} (hi : i < 16)
include hi

theorem regAt_devPage_denied (s : State) :
    regAt (devPage s) (0x80 + 4 * i) = some (reg (0x80 + 4 * i) (deniedOf s i)) := by
  refine regAt_append_words _ hi (List.find?_eq_none.2 fun r hr => ?_)
  have := devHead_away hr
  simp only [Bool.or_eq_true, Bool.and_eq_true, beq_iff_eq]
  omega

/-- A count of denials is the word of no pair. -/
theorem inPair_denied (s : State) (high : Bool) : inPair s 0 (0x80 + 4 * i) high = false := by
  unfold inPair isPairWord
  rw [located_dev (by omega), devPage_eq, List.any_append, Bool.or_eq_false_iff]
  refine ⟨List.any_eq_false.2 fun r hr => ?_, by simp [reg]⟩
  have := devHead_away hr
  cases high <;> simp <;> omega

theorem claimTarget_denied : claimTarget 0 (0x80 + 4 * i) = none := by
  unfold claimTarget
  rw [if_pos rfl, if_neg (by omega)]

theorem liveWord_denied (s : State) : liveWord s 0 (0x80 + 4 * i) = deniedOf s i % 2 ^ 32 := by
  unfold liveWord regWord
  rw [located_dev (by omega), regAt_devPage_denied hi]
  simp [reg]

theorem clearLowRc_denied (keep : Nat → Nat → Nat) (s : State) :
    clearLowRc keep (0x80 + 4 * i) s = clearDenied keep i s := by
  have hfunc : (0x80 + 4 * i - 0x80) / 4 = i := by omega
  unfold clearLowRc
  rw [if_pos (by omega), hfunc]

/-- Reading a count of denials leaves of it what this tick has counted (R17). -/
theorem clearRc_denied (s : State) :
    clearRc 0 (0x80 + 4 * i) s =
      let kept := keepNow s (0x80 + 4 * i) (deniedOf s i) (Tbl.get s.prior.host.denied 0 i)
      { s with host := { s.host with denied := Tbl.set s.host.denied i kept },
               prior := { s.prior with cleared := insertNat (0x80 + 4 * i) s.prior.cleared } } := by
  rw [clearRc_low (by omega), clearLowRc_denied hi]
  rfl

end

theorem rcRegisterRead_denied {i : Nat} (h : Reaches t 0 s s1) (hi : i < 16) :
    exec (.rcRegisterRead t 0 (0x80 + 4 * i) 15) s
      = .next (emit (.readData 0 (enabledBytes 15 (deniedOf s1 i % 2 ^ 32)))
          (let kept := keepNow s1 (0x80 + 4 * i) (deniedOf s1 i) (Tbl.get s1.prior.host.denied 0 i)
          { s1 with host := { s1.host with denied := Tbl.set s1.host.denied i kept },
                    prior := { s1.prior with cleared := insertNat (0x80 + 4 * i) s1.prior.cleared } })) := by
  have hread := readOne_plain (inPair_denied hi s1 false) (inPair_denied hi s1 true) (claimTarget_denied hi)
  rw [liveWord_denied hi, clearRc_denied hi] at hread
  rw [exec_rcRegisterRead]
  exact readAccess_narrow h (by omega) (by omega) (by omega) hread

/-! ### The statement -/

/-- Settles O37: an access that reaches the device is one write or one read of a word, and each clause is one case of
`writeRegister` or `readOne`. -/
theorem registerAccessesAct : Obligations.RegisterAccessesAct := by
  intro t s s1 f off be v h hf
  refine ⟨fun hbe => ⟨registerWrite_whole h hf hbe off v, ?scratch⟩, fun hbe => registerWrite_narrow h hf hbe off v,
    fun hbe o ho => ⟨?plain, ?pairLow, fun hlow hhigh => ⟨?held, ?free⟩⟩, ?denied⟩
  case scratch =>
    rintro i hi rfl rfl hv
    exact registerWrite_scratch h hbe hi hv
  case plain =>
    intro hlow hhigh hclaim
    rw [exec_rcRegisterRead]
    exact readAccess_narrow h hf hbe ho (readOne_plain hlow hhigh hclaim)
  case pairLow =>
    intro hlow htime
    rw [exec_pairLowRead]
    exact readAccess_narrow h hf hbe ho (readOne_pairLow hlow htime)
  case held =>
    intro w hheld
    rw [exec_pairHighRead]
    exact readAccess_narrow h hf hbe ho (readOne_pairHigh_held hlow hhigh hheld)
  case free =>
    intro hfree
    rw [exec_pairHighRead]
    exact readAccess_narrow h hf hbe ho (readOne_pairHigh_free hlow hhigh hfree)
  case denied =>
    rintro i hi rfl rfl
    exact rcRegisterRead_denied h hi

end Sys2Proof.Proofs

/-! SUPPORT. Comparisons of a unit's two states and the times of the crystal key (O47). -/
namespace Sys2Proof.Proofs
open Sys2Proof Sys2Proof.Machine Sys2Proof.Laws

variable {t : Ticks} {s s1 : State} {u : Nat}

/-- Where firmware may compare and the unit is not marked yet, a comparison marks it just when its states differ. -/
theorem compareUnit_eq (hq : quiesced s = false) (hr : s.pmu.resuming = false) (hm : isMarked s u = false) :
    compareUnit u s = if differs s u = true then markUnit u s else s := by
  unfold compareUnit
  cases differs s u <;> simp [hq, hr, hm]

/-- A comparison of a unit that exists, and of a raster at its frame boundary, compares it (R36). -/
theorem exec_divergenceCompare (h : Occurs t s s1) (hu : unitOk u = true)
    (hf : unitKind u = 1 → (rasterOf s1 (unitIndex u)).newFrame = true) :
    exec (.divergenceCompare t u) s = .next (compareUnit u s1) := by
  have hgo : (unitOk u && (unitKind u != 1 || (rasterOf s1 (unitIndex u)).newFrame)) = true := by
    by_cases hk : unitKind u = 1 <;> simp [hu, hk, hf]
  calc exec (.divergenceCompare t u) s = execDivergenceCompare t u s := rfl
    _ = .next (compareUnit u s1) := by
      unfold execDivergenceCompare
      rw [whenRunning_of h, if_pos hgo]

theorem exec_crystalUnlockExpire (h : Occurs t s s1) :
    exec (.crystalUnlockExpire t) s = .next (settleUnlock s1) :=
  whenRunning_of h settleUnlock

theorem exec_crystalLockoutExpire (h : Occurs t s s1) : exec (.crystalLockoutExpire t) s
    = .next (if isLockedOut s1 = true then s1 else { s1 with key := { s1.key with lockout := none } }) := by
  calc exec (.crystalLockoutExpire t) s = execCrystalLockoutExpire t s := rfl
    _ = _ := by
      unfold execCrystalLockoutExpire
      rw [whenRunning_of h]

/-- Settles O47: each event is one operation on the state it occurs in, and each clause one branch of it. -/
theorem firmwareWatchActs : Obligations.FirmwareWatchActs := by
  intro t s s1 h
  refine ⟨fun u hu hf hq hr hm => ⟨fun hd => ?_, fun hd => ?_⟩, fun hl => ?_, fun hl => ?_, fun hl => ?_⟩
  · rw [exec_divergenceCompare h hu hf, compareUnit_eq hq hr hm, if_pos hd]
  · rw [exec_divergenceCompare h hu hf, compareUnit_eq hq hr hm, if_neg (by simp [hd])]
  · rw [exec_crystalUnlockExpire h, settleUnlock, if_neg (by simp [hl])]
  · rw [exec_crystalUnlockExpire h, settleUnlock, if_pos hl]
  · rw [exec_crystalLockoutExpire h, if_neg (by simp [hl])]

end Sys2Proof.Proofs

/-! SUPPORT. The commands that report a unit's state words and that adopt its data path (O12). -/
namespace Sys2Proof.Proofs
open Sys2Proof Sys2Proof.Machine Sys2Proof.Laws

variable {p : Packet} {s : State}

theorem queryUnitBody_eq (hu : unitOk (prm p 0 4) = true) : specQueryUnit.body p s
    = .ok (some (mgmtWord s (reportUnit s (prm p 0 4)))) (some (dataWord s (reportUnit s (prm p 0 4)))) s :=
  require_of hu _ _

theorem reconcileBody_eq (hu : unitOk (prm p 0 4) = true) : specReconcile.body p s
    = if isMarked s (prm p 0 4) = true
      then .ok (some (dataWord s (prm p 0 4))) (some 1) (adoptData (prm p 0 4) s) else .ok none (some 0) s :=
  require_of hu _ _

/-- Settles O12: on a unit that exists both commands complete, and RECONCILE adopts where the unit is marked. -/
theorem unitCommandsAnswer : Obligations.UnitCommandsAnswer := by
  intro t p s e s0 hu
  refine ⟨fun h => run_ok h (queryUnitBody_eq hu), fun h hm => run_ok h ?_, fun h hm => run_ok h ?_⟩
  · rw [reconcileBody_eq hu, if_pos hm]
  · rw [reconcileBody_eq hu, if_neg (by simp [hm])]

end Sys2Proof.Proofs

/-! SUPPORT. The checks of R74 in their order, for every opcode, and what a refusal leaves alone (O6). -/
namespace Sys2Proof.Proofs
open Sys2Proof Sys2Proof.Machine Sys2Proof.Laws

variable {sp : CmdSpec} {t : Ticks} {p : Packet} {e : Entry} {s s1 s0 : State} {here : State → Option State}

/-! ### Checks 2 to 4, at the receiving device -/

theorem atReceiver_badHeader (hh : headerOk e.pkt = false) :
    atReceiver e here s = some (finish e 0x101 none none s) := by
  simp [atReceiver, hh]

theorem atReceiver_unreachable (hh : headerOk e.pkt = true) (hd : destLocal s e.pkt.dest = false)
    (hr : routeTo s e.pkt.dest = none) : atReceiver e here s = some (finish e 0x109 none none s) := by
  simp [atReceiver, hh, hd, hr]

theorem atReceiver_blockFails (hh : headerOk e.pkt = true)
    (hd : destLocal s e.pkt.dest = true ∨ (routeTo s e.pkt.dest).isSome = true) (hi : e.pkt.indirect = true)
    (hb : e.pkt.env.blockFails = true ∨ bmeOf s e.pkt.func = false) :
    atReceiver e here s = some (finish e 0x110 none none s) := by
  have hroute : (!destLocal s e.pkt.dest && (routeTo s e.pkt.dest).isNone) = false := by
    rcases hd with hd | hd <;> simp [hd]
  have hblock : (e.pkt.indirect && (e.pkt.env.blockFails || !bmeOf s e.pkt.func)) = true := by
    rcases hb with hb | hb <;> simp [hi, hb]
  simp [atReceiver, hh, hroute, hblock]

/-- No route leads to a device of another node, to none of this node, or where every candidate has a dead hop (R433). -/
theorem routeTo_eq_none {dev : Nat} (h : s.cf.valid = false ∨ dev / 64 ≠ s.cf.devid / 64 ∨ nodeSize s ≤ dev % 64
    ∨ ∀ r ∈ routeCandidates s (ownMember s) (dev % 64), ∃ hop ∈ r, memberLanes s hop.1 hop.2 = 0) :
    routeTo s dev = none := by
  unfold routeTo
  rcases h with h | h | h | h
  · simp [h]
  · simp [h]
  · simp [h]
  · split
    · rfl
    · refine List.find?_eq_none.2 fun r hr => ?_
      obtain ⟨hop, hmem, hdead⟩ := h r hr
      simp only [List.all_eq_true, decide_eq_true_eq]
      exact fun hlive => absurd (hlive hop hmem) (by omega)

/-- A packet of the host that a check at the receiving device refuses answers with that status. -/
theorem runPacket_of_atReceiver {st : Nat} (h : Taken sp.opcode t p s e s1) (ho : p.origin = none)
    (hr : ∀ here, atReceiver e here s1 = some (finish e st none none s1)) :
    runPacket sp t p s = answers p e st none none s1 := by
  have hrun : runTaken sp e s1 = some (finish e st none none s1) := by
    unfold runTaken
    rw [takeEntry_pkt h.2.2.2, if_neg (by simp [ho]), hr]
  rw [runPacket_of_taken h, hrun]
  rfl

/-! ### Checks 6 and 7, at the destination -/

/-- A packet that passes checks 1 to 4 and is not timed goes on to the later checks in the state with its block read. -/
theorem runPacket_of_executeNow (h : Taken sp.opcode t p s e s1) (hs : stays p s1 = true) (ha : p.atTime = false)
    (hb : readBlock p s1 = s0) : runPacket sp t p s
      = .next (afterwards p ((executeNow sp e false s0).getD (holdPacket sp e s0))) := by
  have hp := takeEntry_pkt h.2.2.2
  rw [runPacket_of_taken h, runTaken_of_stays hp hs, hb, atDestination, hp, if_neg (by simp [ha])]
  cases executeNow sp e false s0 <;> rfl

theorem executeNow_p2 (hp : s.pmu.pstate = 2) (hr : runsInP2 sp.opcode = false) :
    executeNow sp e false s = some (finish e 0x107 none none s) := by
  simp [executeNow, executeBehind, hp, hr]

section
variable (hp : s.pmu.pstate ≠ 2 ∨ runsInP2 sp.opcode = true)
include hp

theorem not_heldInP2 : ¬(decide (s.pmu.pstate = 2) && !runsInP2 sp.opcode) = true := by
  rcases hp with hp | hp <;> simp [hp]

theorem executeNow_mustWait (hw : mustWait sp e s = true) : executeNow sp e false s = none := by
  unfold mustWait at hw
  unfold executeNow executeBehind
  rw [if_neg (not_heldInP2 hp), if_pos hw]

theorem executeNow_notOwner (hw : mustWait sp e s = false) (ho : sp.owns e.pkt s = false) :
    executeNow sp e false s = some (finish e 0x106 none none s) := by
  unfold mustWait at hw
  unfold executeNow executeBehind
  rw [if_neg (not_heldInP2 hp), if_neg (by simp [hw]), if_pos (by simp [ho])]

theorem executeNow_diverged (hw : mustWait sp e s = false) (ho : sp.owns e.pkt s = true)
    (hd : divergedHit sp e.pkt s = true) : executeNow sp e false s = some (finish e 0x105 none none s) := by
  unfold mustWait at hw
  unfold executeNow executeBehind
  rw [if_neg (not_heldInP2 hp), if_neg (by simp [hw]), if_neg (by simp [ho]), if_pos hd]

end

/-! ### What a refusal leaves alone -/

/-- Up to the block read, taking a packet touches only what an answer touches. -/
theorem rest_of_received {op : Nat} (h : Taken op t p s e s1) (h0 : s0 = s1 ∨ s0 = readBlock p s1) :
    rest s0 = rest (advance t s) := by
  have htaken := rest_of_taken h.2.2.2
  rcases h0 with rfl | rfl
  · exact htaken
  · rw [rest_readBlock, htaken]

/-- An answer to a packet of the host leaves all but the answer's parts alone, an answer to another device all but those,
what waits on the links and the number of the next message. -/
theorem answers_frame {op st : Nat} {r0 r1 : Option Nat} {s' : State} (h : Taken op t p s e s1)
    (h0 : s0 = s1 ∨ s0 = readBlock p s1) (ha : answers p e st r0 r1 s0 = .next s') :
    (p.origin = none → rest s' = rest (advance t s))
      ∧ beyond s' = beyond (advance t s) ∧ ∀ k, unladen s' k = unladen (advance t s) k := by
  obtain rfl : afterwards p (finish e st r0 r1 s0) = s' := by
    injection ha
  have hrest := rest_of_received h h0
  refine ⟨fun ho => ?_, ?_, fun k => ?_⟩
  · rw [rest_afterwards, rest_finish (by rw [takeEntry_pkt h.2.2.2, ho]), hrest]
  · rw [beyond_afterwards, beyond_finish, beyond_of_rest hrest]
  · rw [unladen_of_rest (rest_afterwards p _), unladen_finish, unladen_of_rest hrest]

/-- Settles O6: each refusal is the first check of `atReceiver`, or of `executeBehind` once the block is read, that fails. -/
theorem refusalsComeInOrder : Obligations.RefusalsComeInOrder := by
  intro c sp hc t p s e s1 h
  obtain rfl : e.pkt = p := takeEntry_pkt h.2.2.2
  refine ⟨fun ho => ⟨fun hh => ?header, fun hh hd hr => ?route, fun hh hd hi hb => ?block⟩,
    fun s0 hs ha hb => ⟨fun hp hr => ?p2, fun hp => ⟨fun hw => ?wait, fun hw => ⟨fun hown => ?owner, fun hown hdiv => ?marked⟩⟩⟩,
    fun s0 st r0 r1 s' h0 hans => answers_frame h h0 hans⟩
  case header => rw [hc, runPacket_of_atReceiver h ho fun _ => atReceiver_badHeader hh]
  case route => rw [hc, runPacket_of_atReceiver h ho fun _ => atReceiver_unreachable hh hd (routeTo_eq_none hr)]
  case block => rw [hc, runPacket_of_atReceiver h ho fun _ => atReceiver_blockFails hh hd hi hb]
  all_goals rw [hc, runPacket_of_executeNow h hs ha hb]
  case p2 => rw [executeNow_p2 hp hr]; rfl
  case wait => rw [executeNow_mustWait hp hw]; rfl
  case owner => rw [executeNow_notOwner hp hw hown]; rfl
  case marked => rw [executeNow_diverged hp hw hown hdiv]; rfl

end Sys2Proof.Proofs

/-! SUPPORT. Flits of transfers and of imports, and the events that end them (O55). -/
namespace Sys2Proof.Proofs
open Sys2Proof Sys2Proof.Machine Sys2Proof.Laws

variable {t : Ticks} {s s1 s2 : State} {dev ctx n st r0 : Nat} {x : FlitRx} {src : SrcInfo} {f : InFlit}

/-! ### Flits of a stream (R19, R422, R561) -/

/-- The event by which a flit of a stream reaches the device: one opcode for each TYPE of a stream. -/
inductive StreamEvent (t : Ticks) : Instr → InFlit → Prop
  | xferHdr (x : FlitRx) (src : SrcInfo) (h : x.ty = 4) :
    StreamEvent t (.xferHdrRx t x src) ⟨rdBE x.payload 0 3, x, some src, true⟩
  | xferData (dev : Nat) (x : FlitRx) (h : x.ty = 5) : StreamEvent t (.xferDataRx t dev x) ⟨dev, x, none, true⟩
  | xferEnd (dev : Nat) (x : FlitRx) (h : x.ty = 6) : StreamEvent t (.xferEndRx t dev x) ⟨dev, x, none, true⟩
  | frameStart (x : FlitRx) (h : x.ty = 8) :
    StreamEvent t (.frameStartRx t x) ⟨rdBE x.payload 0 3, x, none, true⟩
  | lineData (dev : Nat) (x : FlitRx) (h : x.ty = 9) : StreamEvent t (.lineDataRx t dev x) ⟨dev, x, none, true⟩

variable {c : Instr}

theorem StreamEvent.held (h : StreamEvent t c f) : f.held = true := by
  cases h <;> rfl

/-- Every event of a stream receives its flit in the same way. -/
theorem StreamEvent.exec_eq (h : StreamEvent t c f) (s : State) : exec c s = streamRx t f.flit.ty f s := by
  cases h with
  | xferHdr x src h => rw [h]; rfl
  | xferData dev x h => rw [h]; rfl
  | xferEnd dev x h => rw [h]; rfl
  | frameStart x h => rw [h]; rfl
  | lineData dev x h => rw [h]; rfl

/-- A flit that need not wait acts. -/
theorem StreamEvent.acts (hc : StreamEvent t c f) (h : Occurs t s s1) (ha : Arrives f s1 s2) (hg : Goes f s2) :
    exec c s = .next (actFlit f s2) := by
  rw [hc.exec_eq, streamRx_of h rfl ha hg]

/-- A flit that must wait stays in its place of the receive buffer, its credit not returned. -/
theorem StreamEvent.waits (hc : StreamEvent t c f) (h : Occurs t s s1) (ha : Arrives f s1 s2)
    (hw : (∃ y ∈ s2.cf.inbuf, streamOf y = streamOf f) ∨ flitServed s2 f = false) :
    exec c s = .next (let s3 := keepCredit f.flit.link f.flit.vc s2
      { s3 with cf := { s3.cf with inbuf := s3.cf.inbuf ++ [f] } }) := by
  rw [hc.exec_eq, streamRx_holds h rfl ha hw, holdFlit, if_pos hc.held]

/-! ### What a flit does (R434 to R436) -/

theorem actFlit_header (hx : x.ty = 4) (held : Bool) :
    actFlit ⟨dev, x, some src, held⟩ s = xferHeader x src s := by
  simp [actFlit, hx]
theorem actFlit_data (hx : x.ty = 5) (o : Option SrcInfo) (held : Bool) :
    actFlit ⟨dev, x, o, held⟩ s = xferChunkIn dev x s := by
  simp [actFlit, hx]
theorem actFlit_end (hx : x.ty = 6) (o : Option SrcInfo) (held : Bool) :
    actFlit ⟨dev, x, o, held⟩ s = Machine.xferEnd dev x s := by
  simp [actFlit, hx]
theorem actFlit_frameStart (hx : x.ty = 8) (o : Option SrcInfo) (held : Bool) :
    actFlit ⟨dev, x, o, held⟩ s = frameStartIn x s := by
  simp [actFlit, hx]
theorem actFlit_lineData (hx : x.ty = 9) (o : Option SrcInfo) (held : Bool) :
    actFlit ⟨dev, x, o, held⟩ s = lineDataIn dev x s := by
  simp [actFlit, hx]

/-- What a destination answers to the header of a transfer. -/
def headerStatus (x : FlitRx) (src : SrcInfo) (s : State) : Nat :=
  if rdBE x.payload 8 4 / 16384 = s.cf.devid
  then xferStatus s (rdBE x.payload 0 3 * 64 + x.tagw / 2 ^ 26) (rdBE x.payload 8 4 % 16384) src else 0x101

theorem xferHeader_refused (h : headerStatus x src s ≠ 0) : xferHeader x src s
    = answerXfer (rdBE x.payload 0 3) (x.tagw / 2 ^ 26) false (headerStatus x src s) 0 s :=
  if_pos h

theorem xferHeader_noSlot (h : headerStatus x src s = 0)
    (hw : (surfOf s (rdBE x.payload 8 4 % 16384)).wslot = noSlot) : xferHeader x src s
    = answerXfer (rdBE x.payload 0 3) (x.tagw / 2 ^ 26) false 0x107 0 (noWriteSlot (rdBE x.payload 8 4 % 16384) s) :=
  (if_neg (not_not.2 h)).trans (if_pos hw)

theorem xferHeader_taken (h : headerStatus x src s = 0)
    (hw : (surfOf s (rdBE x.payload 8 4 % 16384)).wslot ≠ noSlot) : xferHeader x src s
    = answerXfer (rdBE x.payload 0 3) (x.tagw / 2 ^ 26) false 0 0 (useSlot (rdBE x.payload 8 4 % 16384)
        { s with cf := { s.cf with
          xfersIn := Tbl.set s.cf.xfersIn (rdBE x.payload 0 3 * 64 + x.tagw / 2 ^ 26)
            { source := rdBE x.payload 0 3, surface := rdBE x.payload 8 4 % 16384, capture := rdBE x.payload 12 8 } } }) :=
  (if_neg (not_not.2 h)).trans (if_neg hw)

section
variable {m : XferIn} (hm : Tbl.find? s.cf.xfersIn (dev * 64 + x.tagw / 2 ^ 26) = some m)
include hm

theorem xferChunkIn_of_found : xferChunkIn dev x s = if m.lost = true then s
    else writeSlot (surfOf s m.surface) (240 * (x.tagw % 2 ^ 26))
      (x.payload.take ((surfOf s m.surface).stride * 4096 - 240 * (x.tagw % 2 ^ 26))) s := by
  unfold xferChunkIn inKey
  rw [hm]
  rfl

/-- The end of a transfer of a frame that lost its slot answers BUSY; of any other the frame is published. -/
theorem xferEnd_of_found (hs : { s with cf := { s.cf with
      xfersIn := Tbl.del s.cf.xfersIn (dev * 64 + x.tagw / 2 ^ 26) } } = s2) :
    Machine.xferEnd dev x s = if m.lost = true then answerXfer dev (x.tagw / 2 ^ 26) true 0x107 0 s2
      else answerXfer dev (x.tagw / 2 ^ 26) true 0
        (surfOf (publishAuto m.surface m.capture false 0 s2) m.surface).pubSeq
        (publishAuto m.surface m.capture false 0 s2) := by
  subst hs
  unfold Machine.xferEnd inKey
  rw [hm]

end

/-! ### Imports (R436) -/

theorem frameStartIn_unbound (h : Tbl.find? s.cf.imports (x.tagw / 2 ^ 28) = none) :
    frameStartIn x s = badFlit x.link s := by
  unfold frameStartIn importOf
  rw [h]

section
variable {m : Import} (hm : Tbl.find? s.cf.imports (x.tagw / 2 ^ 28) = some m)
include hm

theorem frameStartIn_of_bound : frameStartIn x s
    = if rdBE x.payload 0 3 ≠ m.device ∨ importFits (surfOf s m.surface) x.payload = false then badFlit x.link s
      else beginImport (x.tagw / 2 ^ 28) x.payload (publishImport (x.tagw / 2 ^ 28) s) := by
  unfold frameStartIn importOf
  rw [hm]

theorem lineDataIn_foreign (hd : dev ≠ m.device) : lineDataIn dev x s = badFlit x.link s := by
  unfold lineDataIn importOf
  rw [hm]
  exact if_pos hd

/-- A line of the frame in progress is taken. -/
theorem lineDataIn_of_bound (hd : dev = m.device) (hq : quiesced s = false) (ha : m.active = true)
    (hp : tbit x.tagw 27 = m.parity) : lineDataIn dev x s
      = importChunk (x.tagw / 2 ^ 28) (bits x.tagw 26 13) (bits x.tagw 12 0) x.payload m s := by
  have hgo : ¬(quiesced s || !m.active || tbit x.tagw 27 != m.parity) = true := by simp [hq, ha, hp]
  unfold lineDataIn importOf
  rw [hm]
  exact (if_neg (not_not.2 hd)).trans (if_neg hgo)

end

/-- The frame in progress is published; the lines that did not arrive are its loss. -/
theorem publishImport_active {m : Import} (hm : Tbl.find? s.cf.imports n = some m) (ha : m.active = true)
    (hq : quiesced s = false) : publishImport n s
      = publishAuto m.surface m.ft (decide (0 < m.vact - m.lines.length)) (m.vact - m.lines.length)
          { s with cf := { s.cf with
            imports := Tbl.set s.cf.imports n { m with active := false, parts := [], lines := [] } } } := by
  unfold publishImport
  rw [hm]
  exact (if_neg (by simp [ha])).trans (if_neg (ne_true_of_eq_false hq))

theorem exec_importPublishTimeout {m : Import} (h : Occurs t s s1) (hm : Tbl.find? s1.cf.imports n = some m)
    (ha : m.active = true) (hl : m.lastLine + msTicks 100 ≤ s1.clk.ticks)
    (hw : ∀ y ∈ s1.cf.inbuf, streamOf y ≠ (1, n)) :
    exec (.importPublishTimeout t n) s = .next (publishImport n s1) := by
  have hgo : (m.active && !(s1.cf.inbuf.any fun y => streamOf y == (1, n))
      && decide (m.lastLine + msTicks 100 ≤ s1.clk.ticks)) = true := by
    simpa [ha, hl] using hw
  calc exec (.importPublishTimeout t n) s = execImportPublishTimeout t n s := rfl
    _ = .next (publishImport n s1) := by
      unfold execImportPublishTimeout
      rw [whenRunning_of h, hm]
      exact congrArg _ (if_pos hgo)

/-! ### The answers at the source (R434) -/

theorem exec_xferAnswerRx (h : Occurs t s s1) (published : Bool) :
    exec (.xferAnswerRx t dev ctx published st r0) s = .next (xferAnswered dev ctx published st r0 s1) :=
  whenRunning_of h _

section
variable {y : Xfer} (hy : xferOf s ctx = some y) (hd : y.handle / 16384 = dev)
include hy hd

theorem xferAnswered_header (hslot : y.slot.isSome = true) (hstart : y.started = false) :
    xferAnswered dev ctx false st r0 s = headerAnswer ctx st y s := by
  simp [xferAnswered, hy, hd, hslot, hstart]

theorem xferAnswered_published (hfollow : y.follow = false) (hend : y.ended = true) :
    xferAnswered dev ctx true st r0 s = finishUnit (xferUnit ctx) st (some r0) none (dropXfer ctx s) := by
  simp [xferAnswered, hy, hd, hfollow, hend]

end

/-! ### The statement -/

/-- Settles O55: a flit of a stream waits or acts, and each clause is a branch of what it, or an event of a transfer or
an import, does. -/
theorem transfersAct : Obligations.TransfersAct := by
  intro t s s1 h
  refine ⟨?waits, ?header, ?data, ?ending, ?answer, ?frame, ?line, ?timeout⟩
  case waits =>
    intro dev src x c f s2 hc ha hw
    have hev : StreamEvent t c f := by
      rcases hc with ⟨rfl, hx, rfl⟩ | ⟨rfl, hx, rfl⟩ | ⟨rfl, hx, rfl⟩ | ⟨rfl, hx, rfl⟩ | ⟨rfl, hx, rfl⟩
      · exact .xferHdr x src hx
      · exact .xferData dev x hx
      · exact .xferEnd dev x hx
      · exact .frameStart x hx
      · exact .lineData dev x hx
    have hx : f.flit = x := by
      rcases hc with ⟨-, -, rfl⟩ | ⟨-, -, rfl⟩ | ⟨-, -, rfl⟩ | ⟨-, -, rfl⟩ | ⟨-, -, rfl⟩ <;> rfl
    rw [hev.waits h ha hw, hx]
  case header =>
    rintro x src f s2 rfl hx ha hg dev ctx i st rfl rfl rfl rfl
    rw [StreamEvent.acts (.xferHdr x src hx) h ha hg, actFlit_header hx]
    refine ⟨fun hst => ?_, fun hst hw => ?_, fun hst hw => ?_⟩
    · rw [xferHeader_refused hst]; rfl
    · rw [xferHeader_noSlot hst hw]; rfl
    · rw [xferHeader_taken hst hw]; rfl
  case data =>
    rintro dev x f s2 m rfl hx ha hg hm
    rw [StreamEvent.acts (.xferData dev x hx) h ha hg, actFlit_data hx, xferChunkIn_of_found hm]
    refine ⟨fun hl => by rw [if_pos hl], ?_⟩
    rintro hl _ _ rfl rfl
    rw [if_neg (by simp [hl])]
  case ending =>
    rintro dev x f s2 m key rfl hx ha hg rfl hm s3 hs
    rw [StreamEvent.acts (.xferEnd dev x hx) h ha hg, actFlit_end hx, xferEnd_of_found hm hs]
    refine ⟨fun hl => by rw [if_pos hl]; rfl, ?_⟩
    rintro hl _ rfl
    rw [if_neg (by simp [hl])]
    rfl
  case answer =>
    intro dev ctx y hy hd
    refine ⟨fun st r0 hslot hstart => ?_, fun st r0 hfollow hend => ?_⟩
    · rw [exec_xferAnswerRx h, xferAnswered_header hy hd hslot hstart]
    · rw [exec_xferAnswerRx h, xferAnswered_published hy hd hfollow hend]
      rfl
  case frame =>
    rintro x f s2 n rfl hx ha hg rfl
    rw [StreamEvent.acts (.frameStart x hx) h ha hg, actFlit_frameStart hx]
    refine ⟨fun hm => by rw [frameStartIn_unbound hm], fun m hm => ⟨fun hbad => ?_, fun hdev hfit => ?_⟩⟩
    · rw [frameStartIn_of_bound hm, if_pos hbad]
    · rw [frameStartIn_of_bound hm, if_neg (by simp [hdev, hfit])]
  case line =>
    rintro dev x f s2 n m rfl hx ha hg rfl hm
    rw [StreamEvent.acts (.lineData dev x hx) h ha hg, actFlit_lineData hx]
    refine ⟨fun hd => ?_, fun hd hq hact hp => ?_⟩
    · rw [lineDataIn_foreign hm hd]
    · rw [lineDataIn_of_bound hm hd hq hact hp]
  case timeout =>
    intro n m hm hact hl hq hw
    rw [exec_importPublishTimeout h hm hact hl hw, publishImport_active hm hact hq]

end Sys2Proof.Proofs

/-! SUPPORT. The commands of raster timing, binding, starting, stopping and query (O22). -/
namespace Sys2Proof.Proofs
open Sys2Proof Sys2Proof.Machine Sys2Proof.Laws

variable {p : Packet} {s : State} {r : Nat}

/-! ### RASTER_TIMING_SET (R298, R305, R343) -/

/-- The RG beside a raster may become its follower: the packet's function owns it, and it is stopped and unbound. -/
theorem followerCheck_of (ho : ownsRaster p s (r + 1) = true) (hs : isStarted (rasterOf s (r + 1)) = false)
    (hh : (rasterOf s (r + 1)).orphan = false) (hf : (rasterOf s (r + 1)).first = none) (k : Res) :
    followerCheck p s r k = k := by
  simp [followerCheck, require, ho, hs, hh, hf]

/-- What RASTER_TIMING_SET asks of a timing before admission: its fields and its raster allow it, a follower for its second
tile can be had, and no crystal leaves the active area. -/
structure TimingTaken (p : Packet) (s : State) (r : Nat) (tm : Timing) : Prop where
  notOrphan : (rasterOf s r).orphan = false
  fields : onlyBits p timingBits = true
  notFollower : isFollower s r = false
  legal : timingOk (if (rasterOf s r).first.isSome = true then (rasterOf s r).g else 4) tm = true
  follower : tm.tiles2 = true → r % 2 = 0 ∧ (rasterOf s r).first.isSome = true ∧ (rasterOf s r).g = 4
    ∧ ownsRaster p s (r + 1) = true ∧ isStarted (rasterOf s (r + 1)) = false
    ∧ (rasterOf s (r + 1)).orphan = false ∧ (rasterOf s (r + 1)).first = none
  crystals : ∀ d ∈ crystalsOf s r, insideArea tm d = true

section
variable {tm : Timing} (h : TimingTaken p s r tm)
include h

/-- Two tiles stand on an even raster that holds a gang of 4. -/
theorem TimingTaken.pair : (!tm.tiles2 || (r % 2 == 0 && (rasterOf s r).first.isSome && (rasterOf s r).g == 4)) = true := by
  cases h2 : tm.tiles2
  · rfl
  · obtain ⟨heven, hfirst, hgang, -⟩ := h.follower h2
    simp [heven, hfirst, hgang]

theorem TimingTaken.followerCheck_eq (k : Res) : (if tm.tiles2 = true then followerCheck p s r else id) k = k := by
  split
  next h2 =>
    obtain ⟨-, -, -, hown, hstop, hhold, hfree⟩ := h.follower h2
    exact followerCheck_of hown hstop hhold hfree k
  next => rfl

/-- A timing that admission takes as well completes with its frame rate and the demand of its claim. -/
theorem rasterTimingSetBody_ok (hr : prmRaster p = r) (htm : prmTiming p = tm) {s1 : State} (h1 : setTiming r tm s = s1)
    (hadm : hasClaim s r = true → admitClaim s (leadMins s r) r (claimOf s1 r) = none) :
    specRasterTimingSet.body p s = .ok (some (1200000000000 * tm.n / (tm.d * frameTotal tm)))
      (some (mbps (peak0 s1 r (claimOf s1 r)))) s1 := by
  subst hr htm h1
  have hverdict : (if hasClaim s (prmRaster p) = true then admitClaim s (leadMins s (prmRaster p)) (prmRaster p)
      (claimOf (setTiming (prmRaster p) (prmTiming p) s) (prmRaster p)) else none) = none := by
    split
    next hc => exact hadm hc
    next => rfl
  calc specRasterTimingSet.body p s = rasterTimingSetBody p s := rfl
    _ = _ := by
      unfold rasterTimingSetBody
      dsimp only
      rw [require_of (by simp [h.notOrphan]), require_of (by rw [h.fields, h.notFollower, h.legal, h.pair]; rfl),
        h.followerCheck_eq, require_of (List.all_eq_true.2 h.crystals), hverdict]
      rfl

end

/-! ### RASTER_BIND (R21, R307) -/

/-- What RASTER_BIND asks of the raster that it names. -/
structure BindAllowed (p : Packet) (s : State) (r : Nat) : Prop where
  named : prmRaster p = r
  notOrphan : (rasterOf s r).orphan = false
  notFollower : isFollower s r = false
  fields : onlyBits p [(0, 1, 0xF), (1, 1, 0xF), (2, 1, 3), (3, 1, 1)] = true
  stopped : isStarted (rasterOf s r) = false

/-- What RASTER_BIND asks of a gang of g slices from slice c: they are live and free, the raster may take that many, and
they carry its timing of one tile. -/
structure GangFits (s : State) (r c g : Nat) : Prop where
  slices : ∀ i < g, (sliceOf s (c + i)).retired = false
    ∧ ((sliceOf s (c + i)).bound = true → (sliceOf s (c + i)).raster = r)
  size : (rasterOf s r).g = 0 ∨ (rasterOf s r).g = g ∨ hasScene s r = false
  notStuck : (rasterOf s r).rehome ≠ .stuck
  oneTile : (rasterOf s r).tim.tiles2 = false
  carries : (rasterOf s r).tim.set = true → gangCarries g (rasterOf s r).tim = true

section
variable {c g : Nat} (h : GangFits s r c g)
include h

theorem GangFits.live : (!(List.range g).any fun i => (sliceOf s (c + i)).retired) = true := by
  simp only [Bool.not_eq_true', List.any_eq_false, List.mem_range]
  exact fun i hi => by simp [(h.slices i hi).1]

theorem GangFits.free : (!(List.range g).any fun i => (sliceOf s (c + i)).bound && (sliceOf s (c + i)).raster != r) = true := by
  simp only [Bool.not_eq_true', List.any_eq_false, List.mem_range, Bool.and_eq_true, bne_iff_ne, not_and, not_not]
  exact fun i hi => (h.slices i hi).2

theorem GangFits.sizeOk : ((rasterOf s r).g == 0 || (rasterOf s r).g == g || !(hasScene s r || false)) = true := by
  rcases h.size with hg | hg | hg <;> simp [hg]

theorem GangFits.timingOk :
    (!(rasterOf s r).tim.set || (gangCarries g (rasterOf s r).tim && (!(rasterOf s r).tim.tiles2 || g == 4))) = true := by
  cases hset : (rasterOf s r).tim.set
  · rfl
  · simp [h.carries hset, h.oneTile]

end

section
variable (h : BindAllowed p s r)
include h

theorem rasterBindBody_unbind (hu : prmbit p 3 0 = true) : specRasterBind.body p s
    = .ok (some 0) none (clearMgmt (unitRaster r) (unbindSlices r s)) := by
  obtain ⟨rfl, horph, hfol, hbits, hstop⟩ := h
  calc specRasterBind.body p s = rasterBindBody p s := rfl
    _ = _ := by
      unfold rasterBindBody
      dsimp only
      rw [require_of (by simp [horph]), require_of (by simp [hbits, hfol]), if_pos hu, require_of (by simp [hstop])]

theorem rasterBindBody_bind {c code : Nat} (hu : prmbit p 3 0 = false) (hc : prmb p 1 1 3 0 = c)
    (hcode : prmb p 2 1 1 0 = code) (h3 : code ≠ 3) (halign : c % 2 ^ code = 0) (hg : GangFits s r c (2 ^ code)) :
    specRasterBind.body p s = .ok (some (sliceMask (bindSlices r c (2 ^ code) (unbindSlices r s)) r)) none
      (clearMgmt (unitRaster r) (startBuild r (bindSlices r c (2 ^ code) (unbindSlices r s)))) := by
  obtain ⟨rfl, horph, hfol, hbits, hstop⟩ := h
  subst hc hcode
  have hnostuck : ((rasterOf s (prmRaster p)).rehome == .stuck) = false := by simpa using hg.notStuck
  calc specRasterBind.body p s = rasterBindBody p s := rfl
    _ = _ := by
      unfold rasterBindBody
      dsimp only
      rw [require_of (by simp [horph]), require_of (by simp [hbits, hfol]), if_neg (by simp [hu]),
        require_of (by simp [h3, halign]), require_of (by simp [hstop]), require_of hg.live, require_of hg.free, hnostuck,
        require_of hg.sizeOk, require_of hg.timingOk, if_neg (by simp [hg.oneTile]), if_neg (by simp)]
      rfl

end

/-! ### RASTER_START, RASTER_STOP and RASTER_QUERY (R310, R311, R340, R345) -/

theorem rasterStartBody_ok (hr : prmRaster p = r) (horph : (rasterOf s r).orphan = false)
    (hstop : isStarted (rasterOf s r) = false)
    (hbits : onlyBits p [(0, 1, 0xF), (1, 1, 1), (4, 4, 0x3FFFFFFF), allBits 8 8] = true)
    (hfirst : (rasterOf s r).first.isSome = true) (hset : (rasterOf s r).tim.set = true) {ft : Nat}
    (hft : firstFt s (rasterOf s r).tim (prmbit p 1 0) (prm p 8 8) = ft) :
    specRasterStart.body p s = .ok (some ft) (some (ft / 2 ^ 32))
      (beginStart r ft (prmbit p 1 0) (putRaster r { rasterOf s r with blank := prmb p 4 4 29 0 } s)) := by
  subst hr hft
  calc specRasterStart.body p s = rasterStartBody p s := rfl
    _ = _ := by
      unfold rasterStartBody
      dsimp only
      rw [require_of (by simp [horph, hstop]), require_of (by simp [hbits, hfirst, hset])]

/-- A stop that PF0 or the owner outside orphan hold gives: of a stopped raster, of one before its first frame, and of one
that runs. -/
theorem rasterStopBody_eq (hr : prmRaster p = r) (hown : (rasterOf s r).orphan = false ∨ p.func = 0)
    (hbits : onlyBits p [(0, 1, 0xF), (1, 1, 1)] = true) : specRasterStop.body p s
      = if isStarted (rasterOf s r) = false then
          .ok (some (rasterOf s r).lastEnd) (some ((rasterOf s r).lastEnd / 2 ^ 32))
            (if prmbit p 1 0 = true
              then discardScenes r (putRaster r { rasterOf s r with restart := false, orphan := false } s)
              else putRaster r { rasterOf s r with restart := false, orphan := false } s)
        else if (rasterOf s r).st = .stopped then
          .ok (some (rasterOf s r).lastEnd) (some ((rasterOf s r).lastEnd / 2 ^ 32))
            (stopRaster r (commandStop r (prmbit p 1 0) s))
        else .pend (unitRaster r) (commandStop r (prmbit p 1 0) s) := by
  subst hr
  calc specRasterStop.body p s = rasterStopBody p s := rfl
    _ = _ := by
      unfold rasterStopBody
      dsimp only
      rw [require_of (by rcases hown with h | h <;> simp [h]), require_of hbits]
      cases isStarted (rasterOf s (prmRaster p)) <;> rfl

theorem rasterQueryBody_ok (hr : prmRaster p = r) (hbits : onlyBits p [(0, 1, 0xF), allBits 8 8] = true)
    (hbuf : bufferOk p s (prm p 8 8) 64 false = true) :
    specRasterQuery.body p s = .ok none none (bufferWrite p (prm p 8 8) false (rasterRecord s r) s) := by
  subst hr
  exact (require_of hbits _ _).trans (withBuf_ok hbuf _ none none)

/-! ### The statement -/

/-- Settles O22: each clause is the opcode's own part under the checks that its premises pass. -/
theorem rasterCommandsAnswer : Obligations.RasterCommandsAnswer := by
  intro t p s e s0 r hr
  refine ⟨fun h horph hbits hfol hok htiles hcry hadm => ?timing, fun h horph hfol hbits hstop => ⟨fun hu => ?unbind,
    fun hu c code hc hcode h3 halign hslices hgang hstuck htiles hcarry => ?bind⟩,
    fun h horph hstop hbits hfirst hset => ?start, fun h hown hbits => ⟨fun hstop => ?stopped, fun hrun hst => ?running,
    fun hrun hst => ?waiting⟩, fun h hbits hbuf => ?query⟩
  case timing => exact run_ok h (rasterTimingSetBody_ok ⟨horph, hbits, hfol, hok, htiles, hcry⟩ hr rfl rfl hadm)
  case unbind => exact run_ok h (rasterBindBody_unbind ⟨hr, horph, hfol, hbits, hstop⟩ hu)
  case bind =>
    exact run_ok h (rasterBindBody_bind ⟨hr, horph, hfol, hbits, hstop⟩ hu hc hcode h3 halign
      ⟨hslices, hgang, hstuck, htiles, hcarry⟩)
  case start => exact run_ok h (rasterStartBody_ok hr horph hstop hbits hfirst hset rfl)
  case query => exact run_ok h (rasterQueryBody_ok hr hbits hbuf)
  all_goals have hbody := rasterStopBody_eq hr hown hbits
  case stopped => exact run_ok h (hbody.trans (if_pos hstop))
  all_goals replace hbody := hbody.trans (if_neg (by simp [hrun]))
  case running => exact run_pend h (hbody.trans (if_neg hst))
  case waiting => exact run_ok h (hbody.trans (if_pos hst))

end Sys2Proof.Proofs

/-! SUPPORT. UNIT_RESET of each kind of unit (O32). -/
namespace Sys2Proof.Proofs
open Sys2Proof Sys2Proof.Machine Sys2Proof.Laws

variable {t : Ticks} {p : Packet} {s s0 s1 : State} {e : Entry} {u i : Nat}

/-- A unit that can be reset is reset as its kind says. -/
theorem unitResetBody_eq (hbits : onlyBits p [allBits 0 4] = true) (hp : prm p 0 4 = u) (hu : resettable u = true) :
    specUnitReset.body p s = resetUnit p u s := by
  subst hp
  exact require_of (by rw [hbits, hu]; rfl) _ _

/-- A reset that is over answers at once with the state word of the unit, which has adopted its data path. -/
theorem unitReset_done (h : Runs specUnitReset t p s e s0) (hb : specUnitReset.body p s0 = resetDone u s1) :
    exec (.unitReset t p) s = answers p e 0 (some (mgmtWord (adoptData u s1) u)) none (adoptData u s1) :=
  run_ok h hb

/-- A reset that takes until the unit is back leaves the packet in flight on it. -/
theorem unitReset_pends (h : Runs specUnitReset t p s e s0) (hb : specUnitReset.body p s0 = .pend u s1) :
    exec (.unitReset t p) s = pends p e u s1 :=
  run_pend h hb

/-! ### Rasters (R552) -/

/-- A raster that is not followed, and that PF0 or its owner outside orphan hold resets. -/
theorem resetRasterUnit_eq {x : Raster} (hfol : isFollower s i = false)
    (hown : (rasterOf s i).orphan = false ∨ p.func = 0)
    (hx : { rasterOf (cancelStrike i s) i with stopping := true, resetting := true, restart := false } = x) :
    resetRasterUnit p i s
      = if isStarted x = false then resetDone (unitRaster i) (resetRaster i (cancelStrike i s))
        else if x.st = .stopped then resetDone (unitRaster i) (stopRaster i (putRaster i x (cancelStrike i s)))
        else .pend (unitRaster i) (putRaster i x (cancelStrike i s)) := by
  subst hx
  unfold resetRasterUnit
  dsimp only
  rw [require_of (by rcases hown with h | h <;> simp [hfol, h])]
  cases isStarted _ <;> rfl

/-! ### Ports and links (R554) -/

/-- An Ethernet port as a reset leaves it, with its mode and lanes. -/
def restartedPort (o : EthPort) (m lanes : Nat) : EthPort :=
  { cfgMode := o.cfgMode, mode := m, lanes := lanes, cr := o.cr, mtu := o.mtu, mac := o.mac, ipv4 := o.ipv4,
    ipv6 := o.ipv6, up := o.up, coming := m != 0, adopt := m != 0, fwSecond := o.fwSecond, fwCount := o.fwCount,
    degraded := o.degraded && m != o.cfgMode }

theorem resetPortUnit_eq {m lanes : Nat} (hm : restartMode s i = (m, lanes)) : resetPortUnit i s
    = resetDone (unitPort i) (setPortUp i false (setMgmt (unitPort i) (portWord false lanes)
        (putEth i (restartedPort (ethOf s i) m lanes) s))) := by
  unfold resetPortUnit
  rw [hm]
  rfl

/-- A port without a mode does not come up. -/
theorem restartedPort_off (o : EthPort) : restartedPort o 0 0
    = { cfgMode := o.cfgMode, cr := o.cr, mtu := o.mtu, mac := o.mac, ipv4 := o.ipv4, ipv6 := o.ipv6, up := o.up,
        fwSecond := o.fwSecond, fwCount := o.fwCount, degraded := o.degraded && o.cfgMode != 0 } := by
  unfold restartedPort
  rw [bne_comm (a := 0) (b := o.cfgMode)]
  rfl

/-- A port with a mode comes up anew. -/
theorem restartedPort_on (o : EthPort) {m : Nat} (lanes : Nat) (hm : m ≠ 0) : restartedPort o m lanes
    = { cfgMode := o.cfgMode, mode := m, lanes := lanes, cr := o.cr, mtu := o.mtu, mac := o.mac, ipv4 := o.ipv4,
        ipv6 := o.ipv6, up := o.up, coming := true, adopt := true, fwSecond := o.fwSecond, fwCount := o.fwCount,
        degraded := o.degraded && m != o.cfgMode } := by
  have hne : (m != 0) = true := bne_iff_ne.2 hm
  unfold restartedPort
  rw [hne]

theorem resetDpUnit_on (hen : (dpOf s i).enabled = true) (hpd : (dpOf s i).hpd = true) : resetDpUnit i s
    = .pend (unitDp i) (dpDown i { dpOf s i with training := true, retrain := 0, hpdLost := false } s) := by
  simp [resetDpUnit, hen, hpd]

theorem resetDpUnit_off (h : (dpOf s i).enabled = false ∨ (dpOf s i).hpd = false) : resetDpUnit i s
    = resetDone (unitDp i) (dpDown i { dpOf s i with training := false, retrain := 0, hpdLost := false } s) := by
  have hoff : ((dpOf s i).enabled && (dpOf s i).hpd) = false := by
    rcases h with h | h <;> simp [h]
  simp [resetDpUnit, hoff]

/-! ### The blitter (R471) -/

/-- Jobs that complete with FLUSHED leave the blitter as it stands. -/
theorem bl_flushJobs (jobs : List BlJob) (s : State) :
    (forAll jobs (fun j s => settlePair j.ent (flushEntry j.ent s)) s).bl = s.bl := by
  have hbeyond : beyond (forAll jobs (fun j s => settlePair j.ent (flushEntry j.ent s)) s) = beyond s :=
    forAll_same beyond jobs _ (fun j s => by rw [beyond_settlePair, beyond_flushEntry]) s
  calc (forAll jobs (fun j s => settlePair j.ent (flushEntry j.ent s)) s).bl
      = (beyond (forAll jobs (fun j s => settlePair j.ent (flushEntry j.ent s)) s)).bl := rfl
    _ = (beyond s).bl := by rw [hbeyond]

/-- With no list in progress the queued jobs complete with FLUSHED, and the reset waits for the operation in progress. -/
theorem resetBlUnit_eq (hlist : s.bl.list = none)
    (h1 : forAll s.bl.queue (fun j s => settlePair j.ent (flushEntry j.ent s)) { s with bl := { s.bl with queue := [] } }
      = s1) : resetBlUnit s = if s.bl.op.isSome = true then .pend unitBl s1 else .ok (some 0) none s1 := by
  have hbl : s1.bl = { s.bl with queue := [] } := by rw [← h1, bl_flushJobs]
  have hlist1 : s1.bl.list = none := by rw [hbl, hlist]
  have hop1 : s1.bl.op = s.bl.op := by rw [hbl]
  have hstep : listStep s1 = s1 := by rw [listStep, hlist1]
  unfold resetBlUnit
  dsimp only
  rw [h1, hlist1]
  dsimp only
  rw [hop1, hstep]

/-! ### The statement -/

section
variable (hi : unitIndex u = i)
include hi

theorem resetUnit_raster (hk : unitKind u = 1) : resetUnit p u s = resetRasterUnit p i s := by
  simp only [resetUnit, hk, hi]
theorem resetUnit_channel (hk : unitKind u = 2) : resetUnit p u s = resetChannelUnit i s := by
  simp only [resetUnit, hk, hi]
theorem resetUnit_port (hk : unitKind u = 3) : resetUnit p u s = resetPortUnit i s := by
  simp only [resetUnit, hk, hi]
theorem resetUnit_link (hk : unitKind u = 4) : resetUnit p u s = resetLinkUnit i s := by
  simp only [resetUnit, hk, hi]
theorem resetUnit_dp (hk : unitKind u = 5) : resetUnit p u s = resetDpUnit i s := by
  simp only [resetUnit, hk, hi]
theorem resetUnit_flow (hk : unitKind u = 6) : resetUnit p u s = resetFlowUnit i s := by
  simp only [resetUnit, hk, hi]

end

theorem resetUnit_bl : resetUnit p unitBl s = resetBlUnit s := rfl
theorem resetUnit_hd : resetUnit p unitHd s = resetHdUnit s := rfl

/-- Settles O32: the reset of a unit is the reset of its kind, and each clause one branch of it. -/
theorem unitResetAnswers : Obligations.UnitResetAnswers := by
  intro t p s e s0 u i h hbits hp hu hi fresh
  have hbody : specUnitReset.body p s0 = resetUnit p u s0 := unitResetBody_eq hbits hp hu
  refine ⟨fun hk hfol hown hui => ?raster, fun hk hui hlive => ?channel, fun hk hui hm => ?portOff,
    fun hk hui m lanes hm hm0 => ?portOn, fun hk hui => ?link, fun hk hui => ?dp, fun hk hui => ?flow,
    fun hui hlist => ?bl, fun hui => ?hd⟩
  case raster =>
    rw [resetUnit_raster hi hk, resetRasterUnit_eq hfol hown rfl, ← hui] at hbody
    refine ⟨fun hstop => ?_, fun hrun hst => ?_, fun hrun hst => ?_⟩
    · exact unitReset_done h (hbody.trans (if_pos hstop))
    · exact unitReset_done h (hbody.trans ((if_neg (by simp [hrun])).trans (if_pos hst)))
    · exact unitReset_pends h (hbody.trans ((if_neg (by simp [hrun])).trans (if_neg hst)))
  case channel =>
    rw [resetUnit_channel hi hk, resetChannelUnit, require_of (by simpa using hlive), ← hui] at hbody
    exact unitReset_pends h hbody
  case portOff =>
    rw [resetUnit_port hi hk, resetPortUnit_eq hm, restartedPort_off, ← hui] at hbody
    exact unitReset_done h hbody
  case portOn =>
    rw [resetUnit_port hi hk, resetPortUnit_eq hm, restartedPort_on _ _ hm0, ← hui] at hbody
    exact unitReset_done h hbody
  case link =>
    rw [resetUnit_link hi hk, resetLinkUnit, ← hui] at hbody
    exact unitReset_done h hbody
  case dp =>
    refine ⟨fun hen hpd => ?_, fun hoff => ?_⟩
    · rw [resetUnit_dp hi hk, resetDpUnit_on hen hpd, ← hui] at hbody
      exact unitReset_pends h hbody
    · rw [resetUnit_dp hi hk, resetDpUnit_off hoff, ← hui] at hbody
      exact unitReset_done h hbody
  case flow =>
    rw [resetUnit_flow hi hk, resetFlowUnit, ← hui] at hbody
    exact unitReset_done h hbody
  case bl =>
    subst hui
    rw [resetUnit_bl, resetBlUnit_eq hlist rfl] at hbody
    refine ⟨fun hidle => ?_, fun hbusy => ?_⟩
    · exact run_ok h (hbody.trans (if_neg (by simp [hidle])))
    · exact unitReset_pends h (hbody.trans (if_pos hbusy))
  case hd =>
    subst hui
    rw [resetUnit_hd, resetHdUnit] at hbody
    refine ⟨fun hquiet => ?_, fun hbusy => ?_⟩
    · exact run_ok h (hbody.trans (if_pos hquiet))
    · exact unitReset_pends h (hbody.trans (if_neg (by simpa using hbusy)))

end Sys2Proof.Proofs

/-! SUPPORT. ASSIGN of each kind (O14). -/
namespace Sys2Proof.Proofs
open Sys2Proof Sys2Proof.Machine Sys2Proof.Laws

variable {t : Ticks} {p : Packet} {s s0 s1 : State} {e : Entry} {f first count k r : Nat}

/-! ### Which assignments are legal (R99 to R101) -/

/-- The fields of an ASSIGN that a range of indices allows (R101). -/
def rangeFits (s : State) (f first count kind : Nat) : Prop :=
  (first + count ≤ rangeLimit kind ∨ (f ≠ 0 ∧ count = 0))
    ∧ (f ≠ 0 ∨ ∀ x ∈ rangesOf s kind, splits first count x.2 = false)

/-- The fields of an ASSIGN that each kind allows. -/
def fieldsFit (s : State) (f first count : Nat) : Nat → Prop
  | 1 => first + count ≤ 16
  | 4 => f ≠ 0 ∧ first = 0 ∧ count ≤ 8
  | 7 => f ≠ 0 ∧ first = 0 ∧ (count = 0 ∨ count = 4)
  | k => isRangeKind k = true ∧ rangeFits s f first count k

theorem isRangeKind_iff : isRangeKind k = true ↔ k = 2 ∨ k = 3 ∨ k = 5 ∨ k = 6 := by
  simp [isRangeKind]

theorem fieldsFit_range (hk : isRangeKind k = true) : fieldsFit s f first count k ↔ rangeFits s f first count k := by
  rcases isRangeKind_iff.1 hk with rfl | rfl | rfl | rfl <;> exact and_iff_right hk

/-- No fields fit a kind that is none. -/
theorem not_fieldsFit (hk : k ∉ [1, 2, 3, 4, 5, 6, 7]) : ¬fieldsFit s f first count k := by
  unfold fieldsFit
  split
  next => exact absurd (by decide) hk
  next => exact absurd (by decide) hk
  next => exact absurd (by decide) hk
  next =>
    rintro ⟨hrange, -⟩
    rcases isRangeKind_iff.1 hrange with rfl | rfl | rfl | rfl <;> exact absurd (by decide) hk

/-- An ASSIGN of PF0 is legal when the function that it names exists and its kind allows its fields. -/
theorem assignOk_iff (hp : p.func = 0) : assignOk p s f k first count = true
    ↔ (p.origin.isSome = true ∨ functionOn s f = true) ∧ fieldsFit s f first count k := by
  have hand : ∀ {a b : Bool} {P : Prop}, (b = true ↔ P) → ((a && b && p.func == 0) = true ↔ a = true ∧ P) := by
    rintro a b P h
    simp [hp, h]
  unfold assignOk
  rw [← Bool.or_eq_true]
  refine hand ?_
  unfold fieldsFit rangeFits
  split
  next => simp
  next => simp [and_assoc]
  next => simp [and_assoc]
  next => simp [and_assoc]

/-- ASSIGN is PF0's. -/
theorem runs_assign_func (h : Runs specAssign t p s e s0) : p.func = 0 := by
  have hb := runs_begins h
  rw [begins, runs_pkt h] at hb
  simp only [Bool.and_eq_true] at hb
  obtain ⟨⟨-, hown⟩, -⟩ := hb
  exact beq_iff_eq.1 hown

section
variable (h : Runs specAssign t p s e s0) (hf : prmb p 0 1 3 0 = f) (hk : prm p 1 1 = k) (hfirst : prm p 4 4 = first)
  (hcount : prm p 8 4 = count)
include h hf hk hfirst hcount

/-- An ASSIGN that is not legal answers BAD_PARAM. -/
theorem assign_illegal (hbad : ¬((p.origin.isSome = true ∨ functionOn s0 f = true) ∧ fieldsFit s0 f first count k)) :
    exec (.assign t p) s = answers p e 0x101 none none s0 := by
  subst hf hk hfirst hcount
  rw [← assignOk_iff (runs_assign_func h), Bool.not_eq_true] at hbad
  refine run_fail h ?_
  calc specAssign.body p s0 = assignBody p s0 := rfl
    _ = _ := by
      unfold assignBody
      dsimp only
      rw [hbad]
      rfl

/-- A legal ASSIGN assigns what its kind says. -/
theorem assignBody_legal (hvf : p.origin.isSome = true ∨ functionOn s0 f = true) (hfit : fieldsFit s0 f first count k) :
    specAssign.body p s0 = if k = 1 then assignRasters f first count s0 else if k = 4 then assignPairs f count s0
      else if k = 7 then assignTargets f count s0 else assignRange f k first count s0 := by
  subst hf hk hfirst hcount
  exact require_of ((assignOk_iff (runs_assign_func h)).2 ⟨hvf, hfit⟩) _ _

end

/-! ### What changes owner -/

@[simp] theorem own_evcRehomeSrc (n : Nat) (s : State) : (evcRehomeSrc n s).own = s.own := rfl

theorem own_forAll_evcRehomeSrc (l : List Nat) (s : State) : (forAll l evcRehomeSrc s).own = s.own :=
  forAll_same State.own l _ own_evcRehomeSrc s

theorem own_rehomeSlices (before s : State) : (rehomeSlices before s).own = s.own := by
  unfold rehomeSlices
  refine forAll_same State.own _ _ (fun c s => ?_) s
  split
  · rfl
  · exact forAll_same State.own _ _ (fun k s => own_evcRehomeSrc _ s) s

theorem rasterOwner_setRasterOwner (r f : Nat) (s : State) (j : Nat) :
    rasterOwner (setRasterOwner r f s) j = if j = r then f else rasterOwner s j := by
  unfold setRasterOwner
  split
  next heq =>
    split
    · subst j
      exact heq
    · rfl
  next =>
    unfold rasterOwner
    rw [own_rehomeSlices, own_forAll_evcRehomeSrc]
    exact get_set _ _ _ _ _

theorem rasterOwner_assignRaster (f r : Nat) (s : State) (j : Nat) :
    rasterOwner (assignRaster f r s) j = if j = r then f else rasterOwner s j := by
  unfold assignRaster
  rw [rasterOwner_setRasterOwner]
  rfl

/-- The rasters named come to belong to the function, and no other changes owner. -/
theorem rasterOwner_assignRasters (f : Nat) (rs : List Nat) (s : State) (r : Nat) :
    rasterOwner (forAll rs (assignRaster f) s) r = if r ∈ rs then f else rasterOwner s r := by
  induction rs generalizing s with
  | nil => rfl
  | cons j rs ih =>
    calc rasterOwner (forAll (j :: rs) (assignRaster f) s) r
        = rasterOwner (forAll rs (assignRaster f) (assignRaster f j s)) r := rfl
      _ = if r ∈ rs then f else if r = j then f else rasterOwner s r := by rw [ih, rasterOwner_assignRaster]
      _ = if r ∈ j :: rs then f else rasterOwner s r := by
        by_cases hrs : r ∈ rs <;> by_cases hj : r = j <;> simp [hrs, hj]

/-- The ranges of a kind are replaced, and those of the other kinds stay. -/
theorem rangesOf_putRanges {j : Nat} (hk : isRangeKind k = true) (hj : isRangeKind j = true) (new : Tbl (Nat × Nat))
    (s : State) : rangesOf (putRanges k new s) j = if j = k then new else rangesOf s j := by
  rcases isRangeKind_iff.1 hk with rfl | rfl | rfl | rfl <;> rcases isRangeKind_iff.1 hj with rfl | rfl | rfl | rfl <;> rfl

theorem putRanges_own (hk : isRangeKind k = true) (new : Tbl (Nat × Nat)) (s : State) :
    putRanges k new s = { s with own := (putRanges k new s).own } := by
  rcases isRangeKind_iff.1 hk with rfl | rfl | rfl | rfl <;> rfl

/-! ### What each kind answers -/

theorem assignPairs_free (h : ∀ q, count ≤ q → q < qpCount s f → (qpOf s f q).enable = false) : assignPairs f count s
    = .ok (some (max (qpCount s f) count - min (qpCount s f) count)) none
        { s with own := { s.own with qpairs := Tbl.set s.own.qpairs f count } } := by
  unfold assignPairs
  dsimp only
  rw [require_of]
  simp only [List.all_eq_true, List.mem_filter, List.mem_range, decide_eq_true_eq, Bool.not_eq_true']
  exact fun q hq => h q hq.2 hq.1

theorem assignPairs_used {q : Nat} (hc : count ≤ q) (hq : q < qpCount s f) (he : (qpOf s f q).enable = true) :
    assignPairs f count s = busy := by
  unfold assignPairs require
  dsimp only
  rw [if_neg]
  simp only [List.all_eq_true, List.mem_filter, List.mem_range, decide_eq_true_eq, Bool.not_eq_true', not_forall]
  exact ⟨q, ⟨hq, hc⟩, by simp [he]⟩

theorem assignTargets_same (h : Tbl.get s.own.targets false f = (count != 0)) :
    assignTargets f count s = .ok (some 0) none s := by
  rw [assignTargets, setTargetOwner, if_pos h, if_pos h]

theorem assignTargets_moved (h : Tbl.get s.own.targets false f ≠ (count != 0)) : assignTargets f count s
    = .ok (some 4) none (forAll (List.range 4) (fun v s => rehomeTarget (4 + 4 * f + v) s)
        { s with own := { s.own with targets := Tbl.set s.own.targets f (count != 0) } }) := by
  rw [assignTargets, setTargetOwner, if_neg h, if_neg h]

section
variable {old new : Tbl (Nat × Nat)} {moved : List Nat} (hold : rangesOf s k = old)
  (hnew : newRanges f first count old = new) (hmoved : movedIndices k old new = moved)

theorem assignRange_crystal (hc : holdsCrystal s k first count = true) :
    assignRange f k first count s = protectedRes := by
  simp [assignRange, require, hc]

include hold

/-- A range of another VF is not to be had. -/
theorem assignRange_apart (hc : holdsCrystal s k first count = false)
    (ha : ¬(f = 0 ∨ ∀ x ∈ old, x.1 ≠ f → runMeets first count x.2 = false)) : assignRange f k first count s = busy := by
  have hbusy : ¬(f == 0 || !old.any fun e => e.1 != f && runMeets first count e.2) = true := by
    simpa using ha
  unfold assignRange
  dsimp only
  rw [require_of (by simp [hc]), hold, require, if_neg hbusy]

include hnew hmoved

/-- Indices in use stay with their owner. -/
theorem assignRange_used (hc : holdsCrystal s k first count = false) (hi : indicesIdle s k new moved = false) :
    assignRange f k first count s = busy := by
  unfold assignRange
  dsimp only
  rw [require_of (by simp [hc]), hold, hnew, hmoved, hi]
  exact ite_self _

theorem assignRange_idle (hc : holdsCrystal s k first count = false)
    (ha : f = 0 ∨ ∀ x ∈ old, x.1 ≠ f → runMeets first count x.2 = false) (hi : indicesIdle s k new moved = true) :
    assignRange f k first count s = .ok (some moved.length) none (putRanges k new s) := by
  have hfree : (f == 0 || !old.any fun e => e.1 != f && runMeets first count e.2) = true := by
    simpa using ha
  unfold assignRange
  dsimp only
  rw [require_of (by simp [hc]), hold, hnew, hmoved, require_of hfree, require_of hi]

end

/-! ### The statement -/

/-- Settles O14: an ASSIGN that is not legal is refused, and a legal one is that of its kind. -/
theorem assignMoves : Obligations.AssignMoves := by
  intro t p s e s0 f first count k h hf hk hfirst hcount
  have hbad := assign_illegal h hf hk hfirst hcount
  have hbody := assignBody_legal h hf hk hfirst hcount
  refine ⟨fun ho hoff => hbad ?noVf, fun hkind => hbad fun hok => not_fieldsFit hkind hok.2,
    fun hvf => ⟨?rasters, ?pairs, ?targets, ?ranges⟩⟩
  case noVf => simp [ho, hoff]
  case rasters =>
    rintro rfl
    refine ⟨fun hfar => hbad fun hok => absurd hok.2 (not_le.2 hfar), fun hnear => ?_⟩
    replace hbody := (hbody hvf hnear).trans (if_pos rfl)
    refine ⟨fun hidle s1 hs1 => ⟨run_ok h ?_, fun r => ?_⟩, fun hbusy => run_fail h ?_⟩
    · rw [hbody, assignRasters, require_of hidle, hs1]
    · rw [← hs1, rasterOwner_assignRasters]
    · rw [hbody, assignRasters, require, if_neg (by rw [hbusy]; exact Bool.false_ne_true)]
      rfl
  case pairs =>
    rintro rfl
    refine ⟨fun hout => hbad ?_, fun hf0 hz hle => ?_⟩
    · rintro ⟨-, hf0, hz, hle⟩
      omega
    replace hbody : specAssign.body p s0 = assignPairs f count s0 := hbody hvf ⟨hf0, hz, hle⟩
    refine ⟨fun hfree => run_ok h (hbody.trans (assignPairs_free hfree)), fun q hc hq he => run_fail h ?_⟩
    exact hbody.trans (assignPairs_used hc hq he)
  case targets =>
    rintro rfl
    refine ⟨fun hout => hbad ?_, fun hf0 hz held hheld => ?_⟩
    · rintro ⟨-, hf0, hz, hle⟩
      omega
    have hcount4 : count = 0 ∨ count = 4 := by
      rcases hheld with ⟨-, hc⟩ | ⟨-, hc⟩ <;> simp [hc]
    obtain rfl : (count != 0) = held := by
      rcases hheld with ⟨rfl, rfl⟩ | ⟨rfl, rfl⟩ <;> rfl
    replace hbody : specAssign.body p s0 = assignTargets f count s0 := hbody hvf ⟨hf0, hz, hcount4⟩
    exact ⟨fun hsame => run_ok h (hbody.trans (assignTargets_same hsame)),
      fun hmoved => run_ok h (hbody.trans (assignTargets_moved hmoved))⟩
  case ranges =>
    intro hrange old new moved hold hnew hmoved
    have hfits : fieldsFit s0 f first count k ↔ rangeFits s0 f first count k := fieldsFit_range hrange
    unfold rangeFits at hfits
    rw [hold] at hfits
    replace hbody : fieldsFit s0 f first count k → specAssign.body p s0 = assignRange f k first count s0 := by
      intro hfit
      rw [hbody hvf hfit]
      rcases isRangeKind_iff.1 hrange with rfl | rfl | rfl | rfl <;> rfl
    refine ⟨fun hill => hbad fun hok => hill (hfits.1 hok.2), fun hlegal hc => run_fail h ?_,
      fun hlegal hc ha => run_fail h ?_, fun hlegal hc hi => run_fail h ?_,
      fun hlegal hc ha hi s1 hs1 => ⟨run_ok h ?_, ?_, ?_, fun j hj hjr => ?_⟩⟩
    · exact (hbody (hfits.2 hlegal)).trans (assignRange_crystal hc)
    · exact (hbody (hfits.2 hlegal)).trans (assignRange_apart hold hc ha)
    · exact (hbody (hfits.2 hlegal)).trans (assignRange_used hold hnew hmoved hc hi)
    · rw [hbody (hfits.2 hlegal), assignRange_idle hold hnew hmoved hc ha hi, hs1]
    · rw [← hs1, rangesOf_putRanges hrange hrange, if_pos rfl]
    · rw [← hs1]
      exact putRanges_own hrange new s0
    · rw [← hs1, rangesOf_putRanges hrange hjr, if_neg hj]

end Sys2Proof.Proofs

/-! SUPPORT. One step of the machine (O1, O2): every command answers a next state and keeps the rest of the queue, and
time does not go back. -/
namespace Sys2Proof.Proofs
open Sys2Proof Sys2Proof.Machine Sys2Proof.Laws

theorem step_nil {s : State} (h : s.pending = []) : step s = .next s := by
  unfold step
  rw [h]

theorem step_cons {s : State} {c : Instr} {l : List Instr} (h : s.pending = c :: l) :
    step s = exec c { s with pending := l } := by
  unfold step
  rw [h]

/-- An answer that is a next state and keeps what every operation keeps. -/
theorem answers_of_next {s s' : State} {o : Host.Outcome State Fault Refusal} (ho : o = .next s') (hk : KeepsX s o) :
    ∃ s', o = .next s' ∧ Keeps s s' :=
  ⟨s', ho, hk s' ho⟩

/-- A packet answers a next state in every branch of its taking; an opcode of the catalogue keeps what every operation
keeps. -/
theorem packet_answers {sp : CmdSpec} (hsp : specOf sp.opcode = some sp) (t : Ticks) (p : Packet) (s : State) :
    ∃ s', runPacket sp t p s = .next s' ∧ Keeps s s' := by
  have hnext : ∃ s', runPacket sp t p s = .next s' := by
    unfold runPacket
    dsimp only
    split
    · exact ⟨_, rfl⟩
    · split
      · exact ⟨_, rfl⟩
      · split <;> exact ⟨_, rfl⟩
  obtain ⟨s', hs'⟩ := hnext
  exact answers_of_next hs' (keeps_runPacket sp t p s (keeps_specOf hsp) (.refl s))

/-- R94: every command answers a next state and keeps what every operation keeps, a packet by its row of the catalogue
and an event by what its operation keeps. -/
theorem exec_answers (c : Instr) (s : State) : ∃ s', exec c s = .next s' ∧ Keeps s s' := by
  have h := Keeps.refl s
  cases c with
  | nop | getIdentity | queryUnit | reconcile | cancelTimed | assign | queryOwner | getFirmware | surfaceCreate
  | surfaceDestroy | surfaceQuery | slotPublish | surfaceSetSharing | memQuery | gatelistLoad | gatelistArm
  | gatelistQuery | shaperSet | leadSet | admitCheck | demandQuery | latencyHistRead | sceneSubmit | sceneCommit
  | paneUpdate | sceneQuery | fallbackSet | paneCountersRead | coefBankLoad | itfLutLoad | lut3dLoad
  | outputColourSet | rasterTimingSet | rasterStart | rasterStop | sinkAttach | sinkDetach | strikeArm
  | strikeCancel | dpPortConfig | rasterBind | rasterQuery | crystalUnlock | crystalPaneSet | crystalExpectSet
  | crystalLock | crystalKeyProvision | portConfig | ingestFlowSet | egressFlowSet | mcastJoin | mcastLeave
  | fstSubscribe | fstUnsubscribe | flowQuery | queueShaperSet | qbvListLoad | qbvListArm | meterSet | tsStatsRead
  | linkConfig | nodeEnumerate | ptpConfig | timeQuery | beatCalibrate | surfaceTransfer | routeQuery | blitCopy
  | blitFill | blitBlend | blitConvert | blitMaskExpand | blitListRun | blitDeadtimeSet | hdChannelConfig | hdStart
  | hdAbort | hdQuery | eventRoute | eventQuery | eventSoftSet | powerStateSet | unitReset | deviceReset
  | loopWindowSet | shedMaskSet | pmuQuery | retirementQuery | retirementClear | ltrRead | ltrCheckpoint
  | eccLogRead =>
    exact packet_answers rfl _ _ s
  | queueEnable => exact answers_of_next rfl (keeps_execQueueEnable _ _ _ _ _ h)
  | queueDisable => exact answers_of_next rfl (keeps_execQueueDisable _ _ _ _ _ h)
  | queueFlush => exact answers_of_next rfl (keeps_execQueueFlush _ _ _ _ _ h)
  | flushBoundary => exact answers_of_next rfl (keeps_execFlushBoundary _ _ _ _ h)
  | submitDoorbell => exact answers_of_next rfl (keeps_execSubmitDoorbell _ _ _ _ _ h)
  | replyDoorbell => exact answers_of_next rfl (keeps_execReplyDoorbell _ _ _ _ _ h)
  | cpEntryCopy => exact answers_of_next rfl (keeps_execCpEntryCopy _ _ _ _ _ h)
  | creditOnlyReply => exact answers_of_next rfl (keeps_execCreditOnlyReply _ _ _ _ h)
  | ringFault => exact answers_of_next rfl (keeps_execRingFault _ _ _ _ _ h)
  | timedPacketDue => exact answers_of_next rfl (keeps_execTimedPacketDue _ _ _ h)
  | routeForward => exact answers_of_next rfl (keeps_execRouteForward _ _ _ _ h)
  | routeTimeout => exact answers_of_next rfl (keeps_execRouteTimeout _ _ h)
  | cmdFlitRx => exact answers_of_next rfl (keeps_execCmdFlitRx _ _ _ _ h)
  | registerWrite => exact answers_of_next rfl (keeps_execRegisterWrite _ _ _ _ _ _ h)
  | rcRegisterRead => exact answers_of_next rfl (keeps_execRcRegisterRead _ _ _ _ _ h)
  | pairLowRead => exact answers_of_next rfl (keeps_execPairLowRead _ _ _ _ _ h)
  | pairHighRead => exact answers_of_next rfl (keeps_execPairHighRead _ _ _ _ _ h)
  | evcClaim => exact answers_of_next rfl (keeps_execEvcClaim _ _ _ _ h)
  | evcComplete => exact answers_of_next rfl (keeps_execEvcComplete _ _ _ _ _ h)
  | evcTargetHold => exact answers_of_next rfl (keeps_execEvcTargetHold _ _ _ _ _ h)
  | evcTargetIdle => exact answers_of_next rfl (keeps_execEvcTargetIdle _ _ _ _ _ h)
  | evcGlobalHold => exact answers_of_next rfl (keeps_execEvcGlobalHold _ _ _ _ h)
  | evcSwsetWrite => exact answers_of_next rfl (keeps_execEvcSwsetWrite _ _ _ _ h)
  | msixEntryUnmask => exact answers_of_next rfl (keeps_execMsixEntryUnmask _ _ _ _ h)
  | busMasterEnableChange => exact answers_of_next rfl (keeps_execBusMasterEnableChange _ _ _ _ h)
  | vfEnableSet => exact answers_of_next rfl (keeps_execVfEnableSet _ _ _ _ h)
  | vfEnableClear => exact answers_of_next rfl (keeps_execVfEnableClear _ _ h)
  | evcEdge => exact answers_of_next rfl (keeps_execEvcEdge _ _ _ h)
  | evcLevelChange => exact answers_of_next rfl (keeps_execEvcLevelChange _ _ _ _ h)
  | evcDelivery => exact answers_of_next rfl (keeps_execEvcDelivery _ _ _ h)
  | evcNowakeFallback => exact answers_of_next rfl (keeps_execEvcNowakeFallback _ _ _ h)
  | rgCommitWrite => exact answers_of_next rfl (keeps_execRgCommitWrite _ _ _ _ _ h)
  | paneWindowWrite => exact answers_of_next rfl (keeps_execPaneWindowWrite _ _ _ _ _ h)
  | blRegListStart => exact answers_of_next rfl (keeps_execBlRegListStart _ _ _ _ h)
  | blRegListStop => exact answers_of_next rfl (keeps_execBlRegListStop _ _ _ _ h)
  | hdRegStart => exact answers_of_next rfl (keeps_execHdRegStart _ _ _ _ h)
  | hdRegAbort => exact answers_of_next rfl (keeps_execHdRegAbort _ _ _ _ h)
  | hdReqsetWrite => exact answers_of_next rfl (keeps_execHdReqsetWrite _ _ _ _ h)
  | recoveryPageCommit => exact answers_of_next rfl (keeps_execRecoveryPageCommit _ _ _ h)
  | recoveryPageProgrammed => exact answers_of_next rfl (keeps_execRecoveryPageProgrammed _ _ h)
  | recoveryDone => exact answers_of_next rfl (keeps_execRecoveryDone _ _ _ _ h)
  | bar2Write => exact answers_of_next rfl (keeps_execBar2Write _ _ _ _ _ h)
  | bar2Read => exact answers_of_next rfl (keeps_execBar2Read _ _ _ _ _ h)
  | bar2Atomicop => exact answers_of_next rfl (keeps_execBar2Atomicop _ _ _ _ h)
  | flr => exact answers_of_next rfl (keeps_execFlr _ _ _ h)
  | flrRemoteApply => exact answers_of_next rfl (keeps_execFlrRemoteApply _ _ _ _ h)
  | perstNAssert => exact answers_of_next rfl (keeps_execPerstNAssert _ _ h)
  | perstNWake => exact answers_of_next rfl (keeps_execPerstNWake _ _ h)
  | hotReset => exact answers_of_next rfl (keeps_execHotReset _ _ h)
  | powerOnReset => exact answers_of_next rfl (keeps_execPowerOnReset _ _ _ h)
  | porRelease => exact answers_of_next rfl (keeps_execPorRelease _ _ _ h)
  | pinReset => exact answers_of_next rfl (keeps_execPinReset _ _ h)
  | wakePin => exact answers_of_next rfl (keeps_execWakePin _ _ h)
  | wakeTimer => exact answers_of_next rfl (keeps_execWakeTimer _ _ h)
  | pfw => exact answers_of_next rfl (keeps_execPfw _ _ h)
  | thermtrip => exact answers_of_next rfl (keeps_execThermtrip _ _ h)
  | refclkLoss => exact answers_of_next rfl (keeps_execRefclkLoss _ _ h)
  | pllLockLoss => exact answers_of_next rfl (keeps_execPllLockLoss _ _ h)
  | pcieRefclkLoss => exact answers_of_next rfl (keeps_execPcieRefclkLoss _ _ h)
  | wdogWarn => exact answers_of_next rfl (keeps_execWdogWarn _ _ _ h)
  | watchdogReset => exact answers_of_next rfl (keeps_execWatchdogReset _ _ _ h)
  | avsUpdate => exact answers_of_next rfl (keeps_execAvsUpdate _ _ _ h)
  | thermalSample => exact answers_of_next rfl (keeps_execThermalSample _ _ _ h)
  | refreshPoll => exact answers_of_next rfl (keeps_execRefreshPoll _ _ _ h)
  | powerStateDrainEnd => exact answers_of_next rfl (keeps_execPowerStateDrainEnd _ _ h)
  | powerStateDrainTimeout => exact answers_of_next rfl (keeps_execPowerStateDrainTimeout _ _ h)
  | rasterStartLatch => exact answers_of_next rfl (keeps_execRasterStartLatch _ _ _ h)
  | rasterFrameStart => exact answers_of_next rfl (keeps_execRasterFrameStart _ _ _ h)
  | rasterLatch => exact answers_of_next rfl (keeps_execRasterLatch _ _ _ h)
  | rasterLineStart => exact answers_of_next rfl (keeps_execRasterLineStart _ _ _ _ h)
  | indexBuildDone => exact answers_of_next rfl (keeps_execIndexBuildDone _ _ _ h)
  | fsRequestIssue => exact answers_of_next rfl (keeps_execFsRequestIssue _ _ _ h)
  | fetchDataArrive => exact answers_of_next rfl (keeps_execFetchDataArrive _ _ _ _ _ _ _ h)
  | mcgEntryAdvance => exact answers_of_next rfl (keeps_execMcgEntryAdvance _ _ _ h)
  | gateSwitch => exact answers_of_next rfl (keeps_execGateSwitch _ _ _ h)
  | divergenceCompare => exact answers_of_next rfl (keeps_execDivergenceCompare _ _ _ h)
  | strikeDecision => exact answers_of_next rfl (keeps_execStrikeDecision _ _ _ h)
  | strikeVoteTime => exact answers_of_next rfl (keeps_execStrikeVoteTime _ _ _ h)
  | strikeVerdictDeadline => exact answers_of_next rfl (keeps_execStrikeVerdictDeadline _ _ _ h)
  | strikeRegistrationRx => exact answers_of_next rfl (keeps_execStrikeRegistrationRx _ _ _ _ h)
  | strikeVoteRx => exact answers_of_next rfl (keeps_execStrikeVoteRx _ _ _ _ _ _ h)
  | strikeVerdictRx => exact answers_of_next rfl (keeps_execStrikeVerdictRx _ _ _ _ _ h)
  | strikeRegistrationTimeout => exact answers_of_next rfl (keeps_execStrikeRegistrationTimeout _ _ _ h)
  | crystalUnlockExpire => exact answers_of_next rfl (keeps_execCrystalUnlockExpire _ _ h)
  | crystalLockoutExpire => exact answers_of_next rfl (keeps_execCrystalLockoutExpire _ _ h)
  | ethFrameRx => exact answers_of_next rfl (keeps_execEthFrameRx _ _ _ _ _ _ h)
  | fwFrameService => exact answers_of_next rfl (keeps_execFwFrameService _ _ _ _ h)
  | ptpMessageRx => exact answers_of_next rfl (keeps_execPtpMessageRx _ _ _ _ h)
  | ptpAnnounceTimeout => exact answers_of_next rfl (keeps_execPtpAnnounceTimeout _ _ _ h)
  | dcoSteer => exact answers_of_next rfl (keeps_execDcoSteer _ _ h)
  | ingestFrameTimeout => exact answers_of_next rfl (keeps_execIngestFrameTimeout _ _ _ h)
  | st2110PacketRelease => exact answers_of_next rfl (keeps_execSt2110PacketRelease _ _ _ h)
  | fstPacketSend => exact answers_of_next rfl (keeps_execFstPacketSend _ _ _ h)
  | portTxSelect => exact answers_of_next rfl (keeps_execPortTxSelect _ _ _ h)
  | qbvEntryAdvance => exact answers_of_next rfl (keeps_execQbvEntryAdvance _ _ _ h)
  | qbvGateSwitch => exact answers_of_next rfl (keeps_execQbvGateSwitch _ _ _ h)
  | queueStatsSample => exact answers_of_next rfl (keeps_execQueueStatsSample _ _ h)
  | ethLinkUp => exact answers_of_next rfl (keeps_execEthLinkUp _ _ _ h)
  | ethLinkDown => exact answers_of_next rfl (keeps_execEthLinkDown _ _ _ h)
  | fecUncorrectable => exact answers_of_next rfl (keeps_execFecUncorrectable _ _ _ _ h)
  | cfBlockDecodeFail => exact answers_of_next rfl (keeps_execCfBlockDecodeFail _ _ _ _ h)
  | retrainDone => exact answers_of_next rfl (keeps_execRetrainDone _ _ _ _ h)
  | retrainAttemptFail => exact answers_of_next rfl (keeps_execRetrainAttemptFail _ _ _ _ h)
  | cfLinkUp => exact answers_of_next rfl (keeps_execCfLinkUp _ _ _ _ h)
  | cfBringupTimeout => exact answers_of_next rfl (keeps_execCfBringupTimeout _ _ _ h)
  | cfBringupRetry => exact answers_of_next rfl (keeps_execCfBringupRetry _ _ _ h)
  | cfLinkDown => exact answers_of_next rfl (keeps_execCfLinkDown _ _ _ h)
  | cfFlitTx => exact answers_of_next rfl (keeps_execCfFlitTx _ _ _ h)
  | idleFlitRx => exact answers_of_next rfl (keeps_execIdleFlitRx _ _ _ h)
  | helloRx => exact answers_of_next rfl (keeps_execHelloRx _ _ _ _ _ h)
  | calReqRx => exact answers_of_next rfl (keeps_execCalReqRx _ _ _ h)
  | calRespRx => exact answers_of_next rfl (keeps_execCalRespRx _ _ _ _ _ h)
  | beatEmit => exact answers_of_next rfl (keeps_execBeatEmit _ _ h)
  | beatRx => exact answers_of_next rfl (keeps_execBeatRx _ _ _ h)
  | beatLoss => exact answers_of_next rfl (keeps_execBeatLoss _ _ h)
  | xferHdrRx => exact answers_of_next rfl (keeps_execXferHdrRx _ _ _ _ h)
  | xferDataRx => exact answers_of_next rfl (keeps_execXferDataRx _ _ _ _ h)
  | xferEndRx => exact answers_of_next rfl (keeps_execXferEndRx _ _ _ _ h)
  | frameStartRx => exact answers_of_next rfl (keeps_execFrameStartRx _ _ _ h)
  | lineDataRx => exact answers_of_next rfl (keeps_execLineDataRx _ _ _ _ h)
  | importPublishTimeout => exact answers_of_next rfl (keeps_execImportPublishTimeout _ _ _ h)
  | dpTrainingDone => exact answers_of_next rfl (keeps_execDpTrainingDone _ _ _ _ _ h)
  | dpHpdChange => exact answers_of_next rfl (keeps_execDpHpdChange _ _ _ _ h)
  | hdcpAuthResult => exact answers_of_next rfl (keeps_execHdcpAuthResult _ _ _ _ _ _ h)
  | blJobStart => exact answers_of_next rfl (keeps_execBlJobStart _ _ h)
  | blBurst => exact answers_of_next rfl (keeps_execBlBurst _ _ h)
  | blJobEnd => exact answers_of_next rfl (keeps_execBlJobEnd _ _ h)
  | blListEntryRun => exact answers_of_next rfl (keeps_execBlListEntryRun _ _ h)
  | hdChannelSelect => exact answers_of_next rfl (keeps_execHdChannelSelect _ _ _ _ h)
  | hdHwRequest => exact answers_of_next rfl (keeps_execHdHwRequest _ _ _ h)
  | hdBurst => exact answers_of_next rfl (keeps_execHdBurst _ _ _ _ _ h)
  | hdDescComplete => exact answers_of_next rfl (keeps_execHdDescComplete _ _ _ _ _ h)
  | hdReqTimeout => exact answers_of_next rfl (keeps_execHdReqTimeout _ _ h)
  | hdAccessTimeout => exact answers_of_next rfl (keeps_execHdAccessTimeout _ _ h)
  | eccCorrected => exact answers_of_next rfl (keeps_execEccCorrected _ _ _ h)
  | eccUncorrectable => exact answers_of_next rfl (keeps_execEccUncorrectable _ _ _ h)
  | migrationSurfaceMoved => exact answers_of_next rfl (keeps_execMigrationSurfaceMoved _ _ _ h)
  | migrationDone => exact answers_of_next rfl (keeps_execMigrationDone _ _ _ h)
  | channelRestartDone => exact answers_of_next rfl (keeps_execChannelRestartDone _ _ _ h)
  | channelRestartTimeout => exact answers_of_next rfl (keeps_execChannelRestartTimeout _ _ _ h)
  | parity => exact answers_of_next rfl (keeps_execParity _ _ _ _ _ h)
  | ltrPeriodic => exact answers_of_next rfl (keeps_execLtrPeriodic _ _ h)
  | ltrCheckpointDone => exact answers_of_next rfl (keeps_execLtrCheckpointDone _ _ _ h)
  | ltrSecondSample => exact answers_of_next rfl (keeps_execLtrSecondSample _ _ _ h)
  | resetNDeassert => exact answers_of_next rfl (keeps_execResetNDeassert _ _ _ h)
  | bootReady => exact answers_of_next rfl (keeps_execBootReady _ _ _ h)
  | tjBelow115BootStart => exact answers_of_next rfl (keeps_execTjBelow115BootStart _ _ _ h)
  | xferAnswerRx => exact answers_of_next rfl (keeps_execXferAnswerRx _ _ _ _ _ _ _ h)
  | ptpMessageInterval => exact answers_of_next rfl (keeps_execPtpMessageInterval _ _ _ _ h)
  | serdesEqAdapt => exact answers_of_next rfl (keeps_execSerdesEqAdapt _ _ _ _ h)
  | pcieLinkTrained => exact answers_of_next rfl (keeps_execPcieLinkTrained _ _ h)

/-- Settles O1: `step` is a case on the queue. -/
theorem stepTakesTheFront : Obligations.StepTakesTheFront :=
  ⟨fun _ _ => step_cons rfl, fun _ h => step_nil h⟩

/-- Settles O2: with an empty queue nothing changes; otherwise the front command answers a state that keeps the queue
behind it and a time no earlier. -/
theorem everyStepAnswers : Obligations.EveryStepAnswers := by
  intro s
  cases hq : s.pending with
  | nil => exact ⟨s, step_nil hq, hq, le_rfl⟩
  | cons c l =>
    obtain ⟨s', hs', hpending, hticks, -⟩ := exec_answers c { s with pending := l }
    exact ⟨s', (step_cons hq).trans hs', hpending, hticks⟩

end Sys2Proof.Proofs

/-! SUPPORT. The commands that answer the identity of the part and what a function holds (O11, O15). -/
namespace Sys2Proof.Proofs
open Sys2Proof Sys2Proof.Machine Sys2Proof.Laws

variable {p : Packet} {s : State} {f k : Nat}

/-- Settles O11: each body completes with OK, GET_IDENTITY through its record's buffer. -/
theorem identityCommandsAnswer : Obligations.IdentityCommandsAnswer := by
  intro t p s e s0
  exact ⟨fun h => run_ok h rfl, fun h hbuf => run_ok h (withBuf_ok hbuf (identityRecord s0) _ _), fun h => run_ok h rfl⟩

theorem queryOwnerBody_rasters (hf : prmb p 0 1 3 0 = f) (hk : prm p 1 1 = 1) : specQueryOwner.body p s
    = .ok (some (maskOf ((List.range 16).filter fun r => rasterOwner s r == f))) (some 0) s := by
  subst hf
  exact if_pos hk

theorem queryOwnerBody_pairs (hf : prmb p 0 1 3 0 = f) (hk : prm p 1 1 = 4) :
    specQueryOwner.body p s = .ok (some 0) (some (qpCount s f)) s := by
  subst hf
  exact (if_neg (by simp [hk])).trans (if_pos hk)

theorem queryOwnerBody_targets (hf : prmb p 0 1 3 0 = f) (hk : prm p 1 1 = 7) : specQueryOwner.body p s
    = .ok (some 0) (some (if f = 0 ∨ Tbl.get s.own.targets false f = true then 4 else 0)) s := by
  subst hf
  exact (if_neg (by simp [hk])).trans ((if_neg (by simp [hk])).trans (if_pos hk))

/-! ### Kinds that are held as ranges (R101, R102) -/

section
variable (hk : prm p 1 1 = k) (hr : isRangeKind k = true)
include hk hr

/-- PF0 holds what no VF does: it is answered the lowest free run from FIRST. -/
theorem queryOwnerBody_free (hf : prmb p 0 1 3 0 = 0) : specQueryOwner.body p s
    = .ok (some (freeRun (rangesOf s k) (rangeLimit k) (prm p 4 4)).1)
        (some (freeRun (rangesOf s k) (rangeLimit k) (prm p 4 4)).2) s := by
  have hkinds := isRangeKind_iff.1 hr
  change queryOwnerBody p s = _
  simp [queryOwnerBody, hk, hr, hf, show k ≠ 1 by omega, show k ≠ 4 by omega, show k ≠ 7 by omega]

theorem queryOwnerBody_held {r : Nat × Nat} (hf : prmb p 0 1 3 0 = f) (hf0 : f ≠ 0)
    (hfound : Tbl.find? (rangesOf s k) f = some r) : specQueryOwner.body p s = .ok (some r.1) (some r.2) s := by
  have hkinds := isRangeKind_iff.1 hr
  change queryOwnerBody p s = _
  simp [queryOwnerBody, hk, hr, hf, hf0, hfound, show k ≠ 1 by omega, show k ≠ 4 by omega, show k ≠ 7 by omega]

end

/-- Settles O15: each clause is the branch of its kind, for a range that of PF0 or of a VF. -/
theorem queryOwnerAnswers : Obligations.QueryOwnerAnswers := by
  intro t p s e s0 f h hf
  refine ⟨fun hk => run_ok h (queryOwnerBody_rasters hf hk), fun hk => run_ok h (queryOwnerBody_pairs hf hk),
    fun hk => run_ok h (queryOwnerBody_targets hf hk), fun hr hf0 => ?free, fun hr hf0 r hfound => ?held⟩
  case free => exact run_ok h (queryOwnerBody_free rfl hr (hf.trans hf0))
  case held => exact run_ok h (queryOwnerBody_held rfl hr hf hf0 hfound)

end Sys2Proof.Proofs

/-! SUPPORT. CANCEL_TIMED (O13). -/
namespace Sys2Proof.Proofs
open Sys2Proof Sys2Proof.Machine Sys2Proof.Laws

/-- The first element that a predicate holds of, behind a stretch of which it does not hold. -/
theorem findPos_append_cons {α : Type} {q : α → Bool} {a b : List α} {x : α} (ha : ∀ y ∈ a, q y = false)
    (hx : q x = true) : findPos q (a ++ x :: b) = some a.length := by
  induction a with
  | nil => simp [findPos, hx]
  | cons y a ih =>
    obtain ⟨hy, ha⟩ := List.forall_mem_cons.1 ha
    simp [findPos, hy, ih ha]

theorem dropAt_append_cons {α : Type} (a b : List α) (x : α) : dropAt (a ++ x :: b) a.length = a ++ b := by
  simp [dropAt]

/-- The earliest-accepted match is cancelled while its time has not come. -/
theorem cancelTimedBody_of_first {p : Packet} {s : State} {a b : List Timed} {x : Timed} (hs : s.cp.timed = a ++ x :: b)
    (ha : ∀ y ∈ a, cancelMatch p y = false) (hx : cancelMatch p x = true) : specCancelTimed.body p s
      = if now s < x.ent.pkt.execTime then
          okay (settlePair x.ent (flushEntry x.ent { s with cp := { s.cp with timed := a ++ b } }))
        else busy := by
  have hget : (a ++ x :: b)[a.length]? = some x := by simp
  change cancelTimedBody p s = _
  unfold cancelTimedBody require
  rw [hs, findPos_append_cons ha hx]
  dsimp only
  rw [hget, dropAt_append_cons]
  simp only [decide_eq_true_eq]

/-- Settles O13: the earliest-accepted match is the one that is found, and its time decides. -/
theorem cancelTimedAnswers : Obligations.CancelTimedAnswers := by
  intro t p s e s0 a b x h hs ha hx
  have hbody := cancelTimedBody_of_first hs ha hx
  exact ⟨fun hwaits => run_ok h (hbody.trans (if_pos hwaits)),
    fun hdue => run_fail h (hbody.trans (if_neg (not_lt.2 hdue)))⟩

end Sys2Proof.Proofs

/-! SUPPORT. Packets that are not taken, and held packets that cannot begin (O8). -/
namespace Sys2Proof.Proofs
open Sys2Proof Sys2Proof.Machine Sys2Proof.Laws

variable {sp : CmdSpec} {t : Ticks} {p : Packet} {s s1 : State} {i : Nat} {h : Held}

/-! ### Before a packet is looked for (R541, R596) -/

theorem runPacket_notRunning (hs : advance t s = s1) (hr : isRunning s1 = false) : runPacket sp t p s = .next s1 := by
  subst hs
  simp [runPacket, hr]

theorem runPacket_functionOff (hs : advance t s = s1) (ho : p.origin = none) (hf : functionOn s1 p.func = false) :
    runPacket sp t p s = .next s1 := by
  subst hs
  simp [runPacket, ho, hf]

/-! ### A packet that is not taken (R73, R80, R93) -/

theorem runPacket_untaken (hs : advance t s = s1) (hheld : heldAt sp.opcode p s1 = none)
    (htake : takeEntry sp.opcode p s1 = none) : runPacket sp t p s = .next s1 := by
  subst hs
  unfold runPacket
  dsimp only
  rw [hheld, htake]
  exact ite_self _

theorem takeEntry_fenced (op : Nat) (hf : p.fence = true) (ho : earlierOpen s p.func p.qp p.origin = true) :
    takeEntry op p s = none := by
  have hholds : fenceHolds s p = true := by simp [fenceHolds, hf, ho]
  simp [takeEntry, hholds]

theorem takeEntry_flushing (op : Nat) (ho : p.origin = none) (hf : (qpOf s p.func p.qp).flush = true)
    (hb : (qpOf s p.func p.qp).flushTo = none) : takeEntry op p s = none := by
  have hpending : flushPending s p = true := by simp [flushPending, ho, hf, hb]
  simp [takeEntry, hpending]

/-- With packets of its pair in the FIFO, a packet is taken only as the one that the next read returns. -/
theorem takeEntry_notNext {op : Nat} (hfifo : (s.cp.fifo.find? (ofPair p.func p.qp p.origin)).isSome = true)
    (hnext : ∀ e, nextEntry s = some e →
      ofPair p.func p.qp p.origin e = false ∨ e.opcode ≠ op ∨ samePacket e.pkt p = false) :
    takeEntry op p s = none := by
  have hsome : ¬(s.cp.fifo.find? (ofPair p.func p.qp p.origin)).isNone = true := by
    rw [← Option.not_isSome, hfifo]
    exact Bool.false_ne_true
  unfold takeEntry
  rw [if_neg hsome]
  cases hn : nextEntry s with
  | none => exact ite_self _
  | some e =>
    have hother : ¬(ofPair p.func p.qp p.origin e && e.opcode == op && samePacket e.pkt p) = true := by
      rcases hnext e hn with hx | hx | hx <;> simp [hx]
    dsimp only
    rw [if_neg hother, ite_self]

/-! ### A held packet (R72) -/

theorem executeBehind_busy {ahead : List Held} {e : Entry} {late : Bool}
    (hp : s.pmu.pstate ≠ 2 ∨ runsInP2 sp.opcode = true) (hb : unitsBusy ahead sp e.pkt s = true) :
    executeBehind ahead sp e late s = none := by
  unfold executeBehind
  rw [if_neg (not_heldInP2 hp), if_pos (by simp [hb])]

/-- A held packet stays held while something that it acts on is busy. -/
theorem beginHeld_busy (hi : s.cp.held[i]? = some h) (hp : s.pmu.pstate ≠ 2 ∨ runsInP2 sp.opcode = true)
    (hb : unitsBusy (s.cp.held.take i) sp { h.ent.pkt with env := p.env }
      { s with cp := { s.cp with held := dropAt s.cp.held i } } = true) : beginHeld sp p i s = s := by
  have hnone := executeBehind_busy (e := { h.ent with pkt := { h.ent.pkt with env := p.env } }) (late := false)
    (s := { s with cp := { s.cp with held := dropAt s.cp.held i } }) hp hb
  unfold beginHeld
  rw [hi]
  dsimp only
  rw [hnone]

theorem runPacket_heldBusy (hs : advance t s = s1) (hheld : heldAt sp.opcode p s1 = some i)
    (hbegin : beginHeld sp p i s1 = s1) : runPacket sp t p s = .next s1 := by
  subst hs
  unfold runPacket
  dsimp only
  rw [hheld]
  dsimp only
  rw [hbegin, ite_self]

/-- Settles O8: before READY and from a function that is off no packet is looked for; a packet that is not held is not
taken; one that is held does not begin. -/
theorem heldPacketsWait : Obligations.HeldPacketsWait := by
  intro c sp hc t p s s1 hs
  rw [hc]
  refine ⟨runPacket_notRunning hs, runPacket_functionOff hs, fun hheld => ⟨fun hf ho => ?fence, fun ho hf hb => ?flush,
    fun hfifo hnext => ?next⟩, fun i h hheld hi hp hb => ?held⟩
  case fence => exact runPacket_untaken hs hheld (takeEntry_fenced _ hf ho)
  case flush => exact runPacket_untaken hs hheld (takeEntry_flushing _ ho hf hb)
  case next => exact runPacket_untaken hs hheld (takeEntry_notNext hfifo hnext)
  case held => exact runPacket_heldBusy hs hheld (beginHeld_busy hi hp hb)

end Sys2Proof.Proofs

/-! SUPPORT. What the operations of a queue pair change: the record of the pair, the level of its source in the event
concentrator and, with a reply, the output. Completions and their replies (O9). -/
namespace Sys2Proof.Proofs
open Sys2Proof Sys2Proof.Machine Sys2Proof.Laws

variable {f q : Nat}

/-! ### A pair that is stored (R53) -/

theorem wakeFor_eq (n : Nat) (s : State) : wakeFor n s = { s with evc := (wakeFor n s).evc } := by
  unfold wakeFor
  dsimp only
  split <;> rfl

theorem evcLevel_eq (n : Nat) (b : Bool) (s : State) : evcLevel n b s = { s with evc := (evcLevel n b s).evc } := by
  unfold evcLevel
  dsimp only
  split
  · rfl
  · rw [wakeFor_eq]
    rfl

theorem putQp_eq (f q : Nat) (x : Qp) (s : State) : putQp f q x s
    = { s with cp := { s.cp with qps := Tbl.set s.cp.qps (8 * f + q) x }, evc := (putQp f q x s).evc } :=
  evcLevel_eq _ _ _

@[simp] theorem putQp_out (f q : Nat) (x : Qp) (s : State) : (putQp f q x s).out = s.out := by rw [putQp_eq]
@[simp] theorem putQp_host (f q : Nat) (x : Qp) (s : State) : (putQp f q x s).host = s.host := by rw [putQp_eq]
@[simp] theorem putQp_fifo (f q : Nat) (x : Qp) (s : State) : (putQp f q x s).cp.fifo = s.cp.fifo := by rw [putQp_eq]

@[simp] theorem qpOf_putQp (f q : Nat) (x : Qp) (s : State) : qpOf (putQp f q x s) f q = x := by
  rw [putQp_eq]
  exact Tbl_get_set _ _ _ _

@[simp] theorem bmeOf_putQp (f q : Nat) (x : Qp) (s : State) (g : Nat) : bmeOf (putQp f q x s) g = bmeOf s g := by
  unfold bmeOf
  rw [putQp_host]

@[simp] theorem emit_out (o : Out) (s : State) : (emit o s).out = o :: s.out := rfl

/-! ### The reply ring of a pair (R63, R68, R69) -/

/-- A pair's reply ring as its next reply finds it: what has been sent, where the ring stands, the next index, the
credits that are not reported, and whether replies are written now. -/
structure ReplyRing where
  sent    : List Out
  base    : Nat
  log2    : Nat
  next    : Nat
  credits : Nat
  live    : Bool

/-- The reply ring of pair q of function f. -/
def replyRing (f q : Nat) (s : State) : ReplyRing :=
  let x := qpOf s f q
  { sent := s.out, base := x.rbase, log2 := x.rlog2, next := x.rpi, credits := x.unreported,
    live := !x.replyDead && bmeOf s f }

/-- The 16 bytes of the next reply with their address. -/
def ReplyRing.write (v : ReplyRing) (f : Nat) (r : Reply) : Out :=
  .hostWrite f (v.base + 16 * (v.next % 2 ^ v.log2)) (replyBytes r v.credits (1 - v.next / 2 ^ v.log2 % 2))

/-- The ring once a reply has been written. -/
def ReplyRing.put (v : ReplyRing) (f : Nat) (r : Reply) : ReplyRing :=
  { v with sent := v.write f r :: v.sent, next := (v.next + 1) % 65536, credits := 0 }

/-- A pair is stored whose reply ring is that of the pair it replaces. -/
theorem replyRing_putQp {x : Qp} {s : State}
    (h : (x.rbase, x.rlog2, x.rpi, x.unreported, x.replyDead) = ((qpOf s f q).rbase, (qpOf s f q).rlog2,
      (qpOf s f q).rpi, (qpOf s f q).unreported, (qpOf s f q).replyDead)) :
    replyRing f q (putQp f q x s) = replyRing f q s := by
  simp only [Prod.mk.injEq] at h
  obtain ⟨hbase, hlog2, hrpi, hcredits, hdead⟩ := h
  simp [replyRing, hbase, hlog2, hrpi, hcredits, hdead]

/-- Counting packets in or off leaves the reply ring as it stands. -/
@[simp] theorem replyRing_outstanding (n : Nat) (s : State) :
    replyRing f q (putQp f q { qpOf s f q with outstanding := n } s) = replyRing f q s :=
  replyRing_putQp rfl

@[simp] theorem replyRing_releaseSlots (n : Nat) (s : State) : replyRing f q (releaseSlots f q n s) = replyRing f q s :=
  replyRing_putQp rfl

@[simp] theorem replyRing_stopCheck (s : State) : replyRing f q (stopCheck f q s) = replyRing f q s := by
  unfold stopCheck
  dsimp only
  split
  · exact replyRing_putQp rfl
  · rfl

@[simp] theorem replyRing_flushCheck (s : State) : replyRing f q (flushCheck f q s) = replyRing f q s := by
  unfold flushCheck
  dsimp only
  split
  · split
    · exact (replyRing_stopCheck _).trans (replyRing_putQp rfl)
    · rfl
  · exact replyRing_stopCheck s

theorem replyRing_putReply (r : Reply) (s : State) : replyRing f q (putReply f q r s) = (replyRing f q s).put f r := by
  unfold putReply
  simp [replyRing, ReplyRing.put, ReplyRing.write, bmeOf]

/-- While replies are written, a packet's reply is written at once. -/
theorem replyRing_sendReply {r : Reply} {s : State} (h : (replyRing f q s).live = true) :
    replyRing f q (sendReply f q r s) = (replyRing f q s).put f r := by
  obtain ⟨hdead, hbme⟩ : (qpOf s f q).replyDead = false ∧ bmeOf s f = true := by
    simpa [replyRing] using h
  unfold sendReply
  dsimp only
  rw [if_neg (by simp [hdead]), if_pos hbme, replyRing_putReply, replyRing_releaseSlots]

/-! ### A completion and its reply (R65, R67) -/

/-- A packet of a ring that completes leaves its pair's ring with one reply more, or as it stands. -/
theorem replyRing_completeAs {routed : Bool} {e : Entry} {st r0 r1 : Nat} {s : State} (ho : e.pkt.origin = none)
    (hc : e.counted = true) (hlive : (replyRing e.pkt.func e.pkt.qp s).live = true) :
    replyRing e.pkt.func e.pkt.qp (completeAs routed e st r0 r1 s) =
      let v := replyRing e.pkt.func e.pkt.qp
        (emit (.completion e.pkt.func e.pkt.qp e.pkt.tag st (wrap 32 r0) (wrap 32 r1)) s)
      if 0x100 ≤ st ∨ e.pkt.replyAlways = true then v.put e.pkt.func (replyOf e st (wrap 32 r0) (wrap 32 r1) routed)
      else v := by
  unfold completeAs
  simp only [ho, hc, Bool.not_true, Bool.false_eq_true, if_false, Bool.or_eq_true, decide_eq_true_eq]
  split
  · rw [replyRing_flushCheck, replyRing_sendReply, replyRing_releaseSlots, replyRing_outstanding]
    rw [replyRing_releaseSlots, replyRing_outstanding]
    exact hlive
  · rw [replyRing_flushCheck, replyRing_releaseSlots, replyRing_outstanding]

/-- Settles O9: the completion of a packet of a ring touches only what an answer touches, and moves the reply ring of its
pair on by one reply or by none. -/
theorem repliesAreWritten : Obligations.RepliesAreWritten := by
  intro e st r0 r1 s x ho hc _ hx hdead hbme s' x' n
  have hlive : (replyRing e.pkt.func e.pkt.qp s).live = true := by
    simp [replyRing, hx, hdead, hbme]
  have hring := replyRing_completeAs (routed := false) (st := st) (r0 := r0) (r1 := r1) ho hc hlive
  subst hx
  refine ⟨rest_completeAs ho _ _ _ _ _, fun hr => ?reply, fun hst ha => ?silent⟩
  case reply =>
    replace hring := hring.trans (if_pos hr)
    have hsent : s'.out = _ := congrArg ReplyRing.sent hring
    exact ⟨hsent.symm ▸ List.mem_cons_self, congrArg ReplyRing.next hring, congrArg ReplyRing.credits hring⟩
  case silent =>
    replace hring := hring.trans (if_neg (by simp [ha, hst]))
    have hsent : s'.out = _ := congrArg ReplyRing.sent hring
    refine ⟨congrArg ReplyRing.next hring, congrArg ReplyRing.credits hring, fun a b hab => ?_⟩
    rw [hsent] at hab
    simpa [replyRing] using hab

end Sys2Proof.Proofs

/-! SUPPORT. Timed packets at their destination: accepted into the timed list, or refused (O7). -/
namespace Sys2Proof.Proofs
open Sys2Proof Sys2Proof.Machine Sys2Proof.Laws

variable {sp : CmdSpec} {t : Ticks} {p : Packet} {e : Entry} {s s1 s0 : State} {f q : Nat}

/-! ### What a reply and a command message leave of the command port -/

/-- The command port without the records of its queue pairs. -/
def offPairs (s : State) : CpSt := { s.cp with qps := [] }

@[simp] theorem offPairs_putQp (x : Qp) (s : State) : offPairs (putQp f q x s) = offPairs s := by
  unfold offPairs
  rw [putQp_eq]

@[simp] theorem offPairs_releaseSlots (n : Nat) (s : State) : offPairs (releaseSlots f q n s) = offPairs s :=
  offPairs_putQp _ s

@[simp] theorem offPairs_putReply (r : Reply) (s : State) : offPairs (putReply f q r s) = offPairs s :=
  offPairs_putQp _ _

@[simp] theorem offPairs_sendReply (r : Reply) (s : State) : offPairs (sendReply f q r s) = offPairs s := by
  unfold sendReply
  dsimp only
  split
  · exact offPairs_releaseSlots _ s
  · split
    · rw [offPairs_putReply, offPairs_releaseSlots]
    · exact offPairs_putQp _ s

@[simp] theorem sendTo_cp (dev : Nat) (x : Flit) (s : State) : (sendTo dev x s).cp = s.cp := by
  unfold sendTo
  split <;> rfl

@[simp] theorem sendMsg_cp (dev : Nat) (m : CmdMsg) (s : State) : (sendMsg dev m s).cp = s.cp :=
  forAll_same State.cp _ _ (fun _ s => sendTo_cp dev _ s) _

/-! ### Acceptance (R76) -/

/-- ACCEPTED_AT_TIME on its way: to the origin device always, to the host as a reply with REPLY_ALWAYS. -/
def tellAccepted (e : Entry) (s : State) : State :=
  let f := e.pkt.func
  let q := e.pkt.qp
  let r0 := wrap 32 (takeFree s).1
  let r1 := wrap 32 (takeFree (takeFree s).2).1
  let s' := (takeFree (takeFree s).2).2
  match e.pkt.origin with
  | some dev => sendMsg dev (.reply s'.cf.devid f q e.pkt.tag 1 r0 r1) s'
  | none =>
    let s'' := emit (.completion f q e.pkt.tag 1 r0 r1) s'
    if e.counted && e.pkt.replyAlways then sendReply f q (replyOf e 1 r0 r1 false) s'' else s''

/-- A packet as it stands in the timed list, one reservation less when its acceptance took one. -/
def acceptedEntry (e : Entry) : Entry :=
  { e with slots := if e.counted && e.pkt.replyAlways then e.slots - 1 else e.slots }

theorem acceptTimed_eq (e : Entry) (s : State) : acceptTimed e s
    = noteLevel { tellAccepted e s with cp := { (tellAccepted e s).cp with
        timed := (tellAccepted e s).cp.timed ++ [⟨acceptedEntry e, (tellAccepted e s).cp.order⟩],
        order := (tellAccepted e s).cp.order + 1 } } := by
  unfold acceptTimed tellAccepted
  cases e.pkt.origin <;> rfl

@[simp] theorem offPairs_tellAccepted (e : Entry) (s : State) : offPairs (tellAccepted e s) = offPairs s := by
  unfold tellAccepted
  dsimp only
  split
  · unfold offPairs
    rw [sendMsg_cp]
    rfl
  · split
    · exact offPairs_sendReply _ _
    · rfl

theorem rest_tellAccepted (ho : e.pkt.origin = none) (s : State) : rest (tellAccepted e s) = rest s := by
  unfold tellAccepted
  rw [ho]
  dsimp only
  split
  · rw [rest_sendReply, rest_emit, rest_takeFree2]
  · rw [rest_emit, rest_takeFree2]

theorem rest_acceptTimed (ho : e.pkt.origin = none) (s : State) : rest (acceptTimed e s) = rest s := by
  rw [acceptTimed_eq, rest_noteLevel]
  exact rest_tellAccepted ho s

@[simp] theorem beyond_tellAccepted (e : Entry) (s : State) : beyond (tellAccepted e s) = beyond s := by
  cases ho : e.pkt.origin with
  | none => exact beyond_of_rest (rest_tellAccepted ho s)
  | some dev =>
    unfold tellAccepted
    rw [ho]
    exact beyond_sendMsg _ _ _

@[simp] theorem unladen_tellAccepted (e : Entry) (s : State) (k : Nat) :
    unladen (tellAccepted e s) k = unladen s k := by
  cases ho : e.pkt.origin with
  | none => exact unladen_of_rest (rest_tellAccepted ho s) k
  | some dev =>
    unfold tellAccepted
    rw [ho]
    exact unladen_sendMsg _ _ _ k

theorem beyond_acceptTimed (e : Entry) (s : State) : beyond (acceptTimed e s) = beyond s := by
  rw [acceptTimed_eq, beyond_of_rest (rest_noteLevel _)]
  exact beyond_tellAccepted e s

theorem unladen_acceptTimed (e : Entry) (s : State) (k : Nat) : unladen (acceptTimed e s) k = unladen s k := by
  rw [acceptTimed_eq, unladen_of_rest (rest_noteLevel _)]
  exact unladen_tellAccepted e s k

/-- The timed list grows by the packet at its end, with the next place in order of acceptance (R78). -/
theorem acceptTimed_list (e : Entry) (s : State) :
    (acceptTimed e s).cp.timed = s.cp.timed ++ [⟨acceptedEntry e, s.cp.order⟩]
      ∧ (acceptTimed e s).cp.order = s.cp.order + 1 := by
  have hcp := offPairs_tellAccepted e s
  have htimed : (tellAccepted e s).cp.timed = s.cp.timed := (congrArg CpSt.timed hcp :)
  have horder : (tellAccepted e s).cp.order = s.cp.order := (congrArg CpSt.order hcp :)
  rw [acceptTimed_eq]
  simp only [noteLevel, htimed, horder, and_self]

/-! ### The statement -/

/-- Check 5: a timed packet is refused or accepted at once (R76, R78). -/
theorem atDestination_atTime (ha : e.pkt.atTime = true) : atDestination sp e s
    = some (if now s + 1000000000000000 < e.pkt.execTime then finish e 0x101 none none s
        else if 256 ≤ timedWaiting s then raise 11 (finish e 0x102 none none s) else acceptTimed e s) := by
  rw [atDestination, if_pos ha, apply_ite some, apply_ite some]

/-- Settles O7: check 5 refuses a packet too far ahead or one for which there is no place; any other joins the list. -/
theorem timedPacketsAreAccepted : Obligations.TimedPacketsAreAccepted := by
  intro c sp hc t p s e s1 s0 h hs ha hb
  obtain rfl : e.pkt = p := takeEntry_pkt h.2.2.2
  rw [hc, runPacket_of_taken h, runTaken_of_stays rfl hs, hb, atDestination_atTime ha]
  have hrest := rest_of_received h (.inr hb.symm)
  refine ⟨fun hfar => ?far, fun hnear hfull => ?full, fun hnear hroom => ⟨?accepted, fun ho => ?rest, ?beyond,
    fun k => ?links, acceptedEntry e, ?list, rfl, ?order⟩⟩
  case far => rw [if_pos hfar]; rfl
  case full => rw [if_neg (not_lt.2 hnear), if_pos hfull]
  case accepted => rw [if_neg (not_lt.2 hnear), if_neg (not_le.2 hroom)]
  case rest => rw [rest_acceptTimed ho, hrest]
  case beyond => rw [beyond_acceptTimed, beyond_of_rest hrest]
  case links => rw [unladen_acceptTimed, unladen_of_rest hrest]
  case list => exact (acceptTimed_list e s0).1
  case order => exact (acceptTimed_list e s0).2

end Sys2Proof.Proofs

/-! SUPPORT. Writes of CP_QCTL and the packet boundary of a flush (O34). -/
namespace Sys2Proof.Proofs
open Sys2Proof Sys2Proof.Machine Sys2Proof.Laws

variable {t : Ticks} {s s1 : State} {f q v : Nat} {x : Qp}

/-! ### Writes of CP_QCTL (R49, R51) -/

/-- A pair as a write of CP_QCTL finds it once the fields that every write sets are set. -/
def controlled (f q v : Nat) (s : State) : Qp :=
  { qpOf s f q with repEvent := tbit v 2, batch := bits v 15 8,
                    flushAt := if tbit v 1 && !(qpOf s f q).flush then some s.clk.ticks else (qpOf s f q).flushAt,
                    flush := (qpOf s f q).flush || tbit v 1 }

theorem writeQctl_eq (hx : controlled f q v s = x) : writeQctl f q v s
    = if tbit v 0 = true then
        if (x.enable || x.running || x.stopping) = true then putQp f q x s
        else if enableError s f q x = 0 then putQp f q (enabledQp x) s
        else putQp f q { x with err := enableError s f q x } s
      else if x.enable = true then
        flushTimed f q (putQp f q { x with enable := false, stopping := x.running, flush := x.flush || x.running } s)
      else putQp f q x s := by
  subst hx
  rfl

/-- A request to flush marks the pair. -/
theorem controlled_flush (hv : tbit v 1 = true) (s : State) : (controlled f q v s).flush = true := by
  simp [controlled, hv]

section
variable (hx : controlled f q v s = x)
include hx

/-- ENABLE of a stopped pair starts it, or gives the ERR code of what is wrong with its configuration. -/
theorem writeQctl_start (hv : tbit v 0 = true) (he : x.enable = false) (hr : x.running = false)
    (hs : x.stopping = false) : writeQctl f q v s = putQp f q (if enableError s f q x = 0 then enabledQp x
      else { x with err := enableError s f q x }) s := by
  rw [writeQctl_eq hx, if_pos hv, if_neg (by simp [he, hr, hs])]
  split <;> rfl

theorem writeQctl_enabled (hv : tbit v 0 = true) (he : x.enable = true) : writeQctl f q v s = putQp f q x s := by
  rw [writeQctl_eq hx, if_pos hv, if_pos (by simp [he])]

theorem writeQctl_stop (hv : tbit v 0 = false) (he : x.enable = true) : writeQctl f q v s = flushTimed f q
    (putQp f q { x with enable := false, stopping := x.running, flush := x.flush || x.running } s) := by
  rw [writeQctl_eq hx, if_neg (by simp [hv]), if_pos he]

end

theorem enableError_notAssigned (hq : qpCount s f ≤ q) : enableError s f q x = 2 :=
  if_pos hq

/-- The configuration of an assigned pair is good when its rings are aligned and of 16 to 4,096 slots. -/
theorem enableError_assigned (hq : q < qpCount s f) : enableError s f q x
    = if x.sbase % 4096 = 0 ∧ x.rbase % 4096 = 0 ∧ 4 ≤ x.slog2 ∧ x.slog2 ≤ 12 ∧ 4 ≤ x.rlog2 ∧ x.rlog2 ≤ 12 then 0
      else 1 := by
  simp only [enableError, if_neg (not_le.2 hq), Bool.or_eq_true, decide_eq_true_eq]
  split_ifs <;> omega

/-! ### The packet boundary (R80) -/

/-- At its boundary a flush takes the pair's packets out of the command FIFO and fixes where it ends. -/
theorem flushBoundary_eq (hf : (qpOf s f q).flush = true) (hb : (qpOf s f q).flushTo = none) {s2 : State}
    (h2 : forAll (s.cp.fifo.filter (ofPair f q none)) flushEntry
      { s with cp := { s.cp with fifo := s.cp.fifo.filter fun e => !ofPair f q none e,
                                 hwm := max s.cp.hwm (fifoLevel s) } } = s2) :
    flushBoundary f q s = flushCheck f q (putQp f q { qpOf s2 f q with
      flushTo := some (if (qpOf s2 f q).running && (qpOf s2 f q).err == 0 then (qpOf s2 f q).pi
        else (qpOf s2 f q).copied) } s2) := by
  subst h2
  exact if_neg (by simp [hf, hb])

/-- Settles O34: each write is one branch of `writeQctl`, and the boundary is that of a pair marked for it. -/
theorem queueControlActs : Obligations.QueueControlActs := by
  intro t s s1 f q v hf hq x hx
  replace hx : controlled f q v s1 = x := hx
  refine ⟨fun h hv he hr hs => ?start, fun h hv he => ?stop, fun h hv he hflush => ?flush,
    fun h hflush hto => ?boundary⟩
  case start =>
    have hexec : exec (.queueEnable t f q v) s = _ :=
      (qpAccess_of h hf hq _).trans (congrArg _ (writeQctl_start hx hv he hr hs))
    refine ⟨fun hqc hsb hrb hs4 hs12 hr4 hr12 => ?good, fun hqc => ?notAssigned, fun hqc hbad => ?badConfig⟩
    case good =>
      have herr : enableError s1 f q x = 0 := (enableError_assigned hqc).trans (if_pos ⟨hsb, hrb, hs4, hs12, hr4, hr12⟩)
      rw [hexec, herr]; rfl
    case notAssigned => rw [hexec, enableError_notAssigned hqc]; rfl
    case badConfig =>
      have herr : enableError s1 f q x = 1 := (enableError_assigned hqc).trans (if_neg (by omega))
      rw [hexec, herr]; rfl
  case stop => exact (qpAccess_of h hf hq _).trans (congrArg _ (writeQctl_stop hx hv he))
  case flush =>
    have hmarked : { x with flush := true } = x := by
      rw [← hx, ← controlled_flush hflush s1]
    rw [hmarked]
    exact (qpAccess_of h hf hq _).trans (congrArg _ (writeQctl_enabled hx hv he))
  case boundary => exact (whenRunning_of h _).trans (congrArg _ (flushBoundary_eq hflush hto rfl))

end Sys2Proof.Proofs

/-! SUPPORT. Doorbells, the copying of entries, credit-only replies and ring faults (O35). -/
namespace Sys2Proof.Proofs
open Sys2Proof Sys2Proof.Machine Sys2Proof.Laws

variable {t : Ticks} {s s1 : State} {f q v : Nat} {x : Qp}

/-! ### Doorbells (R61, R80) -/

/-- A doorbell of a pair that runs goes as far as the granted credits reach past the last PI, or is an overrun. -/
theorem submitDoorbell_eq (hx : qpOf s f q = x) (he : x.enable = true) (hr : x.running = true) (hs : x.stopping = false)
    (hv : v < 65536) : submitDoorbell f q v s
      = if (x.granted % 65536 + 65536 - x.pi) % 65536 < (v + 65536 - x.pi) % 65536 then faultQp f q 3 s
        else putQp f q (joinFlush s.clk.ticks { x with pi := v }) s := by
  subst hx
  unfold submitDoorbell
  dsimp only
  rw [Nat.mod_eq_of_lt hv, if_neg (by simp [he, hr, hs])]

/-- Outside the tick of a flush, and while its boundary is to come, a doorbell joins no flush. -/
theorem joinFlush_apart {u : Ticks} (h : x.flushAt ≠ some u ∨ (x.flush = true ∧ x.flushTo = none)) :
    joinFlush u { x with pi := v } = { x with pi := v } := by
  refine if_neg ?_
  rcases h with h | ⟨hflush, hto⟩
  · simp [h]
  · simp [hflush, hto]

/-- In the tick of a flush whose boundary has passed a doorbell's entries are flushed too. -/
theorem joinFlush_joins {u : Ticks} (hu : x.flushAt = some u) (h : x.flush = false ∨ x.flushTo.isSome = true) :
    joinFlush u { x with pi := v } = { x with pi := v, flush := true, flushTo := some v } := by
  refine if_pos ?_
  rcases h with h | h <;> simp [hu, h]

/-! ### Copying (R52, R54, R62, R64, R67, R71) -/

/-- A pair whose first entry in the FIFO has a known opcode has nothing to settle. -/
theorem settleFifo_known {e : Entry} (n : Nat) (hfind : s.cp.fifo.find? (ofPair f q none) = some e)
    (hk : inCatalogue e.opcode = true) : settleFifo f q n s = s := by
  cases n with
  | zero => rfl
  | succ n =>
    unfold settleFifo
    rw [hfind]
    exact if_pos (by simp [hk])

/-- The reply slots that an entry reserves: two when its acceptance and its completion are both answered (R67). -/
def slotsOf (p : Packet) : Nat := if p.atTime && p.replyAlways then 2 else 1

/-- A pair once an entry that reserves n reply slots has been copied. -/
def copiedQp (x : Qp) (n : Nat) : Qp :=
  { x with expected := (x.expected + 1) % 2 ^ 32, copied := (x.copied + 1) % 65536,
           granted := (x.granted + 1) % 65536, unreported := x.unreported + 1,
           outstanding := x.outstanding + 1, reserved := x.reserved + n }

/-- A copied entry inside the device. -/
def copiedEntry (f q : Nat) (entry : List Byte) (s : State) : Entry :=
  { opcode := entryOpcode entry, pkt := parseEntry f q entry, slots := slotsOf (parseEntry f q entry), counted := true,
    arrived := s.clk.ticks }

/-- The device once it has read the next entry of a pair from its slot of the ring. -/
def entryRead (f q : Nat) (x : Qp) (s : State) : State :=
  emit (.hostRead f (x.sbase + 64 * (x.copied % 2 ^ x.slog2)) 64)
    { s with cp := { s.cp with roundPos := 8 * f + q + 1 } }

theorem exec_cpEntryCopy (h : Occurs t s s1) (hn : nextPair s1 = some (8 * f + q)) (entry : List Byte) :
    exec (.cpEntryCopy t f q entry) s = .next (copyEntry f q entry s1) := by
  calc exec (.cpEntryCopy t f q entry) s = execCpEntryCopy t f q entry s := rfl
    _ = .next (copyEntry f q entry s1) := by
      unfold execCpEntryCopy
      rw [whenRunning_of h, if_pos hn]

section
variable {entry : List Byte} (hx : qpOf s f q = x) (hfree : slotsOf (parseEntry f q entry) ≤ freeReplySlots x)
include hx hfree

theorem copyEntry_outOfSequence (hseq : (parseEntry f q entry).seq ≠ x.expected) :
    copyEntry f q entry s = faultQp f q 4 (entryRead f q x s) := by
  subst hx
  exact (if_neg (not_lt.2 hfree)).trans (if_pos hseq)

/-- An entry in sequence is flushed, or joins the command FIFO and lets an unknown opcode in front of it complete. -/
theorem copyEntry_inSequence (hseq : (parseEntry f q entry).seq = x.expected) {s3 : State}
    (h3 : putQp f q (copiedQp x (slotsOf (parseEntry f q entry))) (entryRead f q x s) = s3) :
    copyEntry f q entry s = if x.flushTo.isSome = true then flushEntry (copiedEntry f q entry s) s3
      else settleFifo f q (s3.cp.fifo ++ [copiedEntry f q entry s]).length
        (noteLevel { s3 with cp := { s3.cp with fifo := s3.cp.fifo ++ [copiedEntry f q entry s] } }) := by
  subst hx h3
  exact (if_neg (not_lt.2 hfree)).trans (if_neg (not_not.2 hseq))

end

/-- The first entry of a pair in the FIFO, of a known opcode, joins it and stays. -/
theorem settleFifo_joined {e : Entry} {n : Nat} (hfifo : s.cp.fifo.find? (ofPair f q none) = none)
    (he : ofPair f q none e = true) (hk : inCatalogue e.opcode = true) :
    settleFifo f q n (noteLevel { s with cp := { s.cp with fifo := s.cp.fifo ++ [e] } })
      = noteLevel { s with cp := { s.cp with fifo := s.cp.fifo ++ [e] } } := by
  refine settleFifo_known n (e := e) ?_ hk
  change (s.cp.fifo ++ [e]).find? (ofPair f q none) = some e
  simp [List.find?_append, hfifo, he]

/-! ### Credit-only replies and ring faults (R66, R69, R84, R85) -/

theorem creditOnly_due (hx : qpOf s f q = x) (hr : x.running = true) (hb : bmeOf s f = true) (hd : x.replyDead = false)
    (h0 : x.batch ≠ 0) (hu : x.batch ≤ x.unreported) (hfree : 0 < freeReplySlots x) :
    creditOnly f q s = putReply f q [0, 0, 0, 0, 2] s := by
  subst hx
  exact if_pos (by simp [hr, hb, hd, h0, hu, hfree])

theorem ringFault_read (hx : qpOf s f q = x) (hr : x.running = true) :
    ringFault f q false s = faultQp f q 5 (putQp f q x s) := by
  subst hx
  unfold ringFault
  dsimp only
  rw [if_neg (by simp [hr]), Bool.or_false]
  rfl

/-- A reply write that failed has produced nothing: RPI takes it back. -/
theorem ringFault_reply (hx : qpOf s f q = x) (hr : x.running = true) (hd : x.replyDead = false) (hrpi : x.rpi ≠ x.ci) :
    ringFault f q true s
      = faultQp f q 5 (putQp f q { x with replyDead := true, rpi := (x.rpi + 65535) % 65536 } s) := by
  subst hx
  unfold ringFault
  dsimp only
  rw [if_neg (by simp [hr]), if_pos (by simp [hd, hrpi]), Bool.or_true]

/-- Settles O35: each event is one operation on its pair, and each clause one branch of it. -/
theorem queueTrafficActs : Obligations.QueueTrafficActs := by
  intro t s s1 f q v hf hq x hx
  refine ⟨fun h he hr hs hv => ?submit, fun h => ?reply, fun h hn entry p n hp hslots hfree => ?copy,
    fun h hr hb hd h0 hu hfree => ?credit, fun h hr => ⟨?readFault, fun hd hrpi => ?replyFault⟩⟩
  case submit =>
    have hexec : exec (.submitDoorbell t f q v) s = _ :=
      (qpAccess_of h hf hq _).trans (congrArg _ (submitDoorbell_eq hx he hr hs hv))
    refine ⟨fun hle => ⟨fun hapart => ?_, fun hu hj => ?_⟩, fun hlt => ?_⟩
    · rw [hexec, if_neg (not_lt.2 hle), joinFlush_apart hapart]
    · rw [hexec, if_neg (not_lt.2 hle), joinFlush_joins hu hj]
    · rw [hexec, if_pos hlt]
  case reply =>
    subst hx
    exact qpAccess_of h hf hq _
  case copy =>
    subst hp hslots
    rw [exec_cpEntryCopy h hn]
    refine ⟨fun hseq => ?_, fun hseq hto hk hfifo hpf hpq hpo => ?_, fun hseq hto => ?_⟩
    · rw [copyEntry_outOfSequence hx hfree hseq]
      rfl
    · have he : ofPair f q none (copiedEntry f q entry s1) = true := by
        simp [ofPair, copiedEntry, hpf, hpq, hpo]
      rw [copyEntry_inSequence hx hfree hseq rfl, if_neg (by simp [hto]), settleFifo_joined ?_ he hk]
      · rfl
      · rw [putQp_fifo]
        exact hfifo
    · rw [copyEntry_inSequence hx hfree hseq rfl, if_pos hto]
      rfl
  case credit =>
    subst hx
    exact (whenRunning_of h _).trans (congrArg _ (creditOnly_due rfl hr hb hd h0 hu hfree))
  case readFault => exact (whenRunning_of h _).trans (congrArg _ (ringFault_read hx hr))
  case replyFault => exact (whenRunning_of h _).trans (congrArg _ (ringFault_reply hx hr hd hrpi))

end Sys2Proof.Proofs

/-! SUPPORT. Due timed packets, packets forwarded to other devices with their time-outs, and command messages (O36). -/
namespace Sys2Proof.Proofs
open Sys2Proof Sys2Proof.Machine Sys2Proof.Laws

variable {t : Ticks} {s s1 s2 : State} {p : Packet} {e : Entry} {op : Nat} {r : Routed} {l : List Routed}

/-- The first due packet that can begin has begun (R76, R78): what it held back in its pair goes on. -/
theorem runDue_of_begun {env : Env} {x : Timed}
    (hx : (heads (dueTimed s)).findSome? (fun x => (beginTimed env x (noteLevel s)).map fun s' => (x, s'))
      = some (x, s2)) : runDue env s = settlePair x.ent s2 := by
  unfold runDue
  rw [hx]

/-! ### Forwarding (R87, R433) -/

/-- A packet that passes checks 2 to 4 and has a live route to another device is forwarded there, its block read. -/
theorem atReceiver_forwards {here : State → Option State} (hh : headerOk e.pkt = true)
    (hd : destLocal s e.pkt.dest = false) (hr : (routeTo s e.pkt.dest).isSome = true)
    (hb : e.pkt.indirect = true → e.pkt.env.blockFails = false ∧ bmeOf s e.pkt.func = true)
    (hvf : e.opcode = 0x005 → e.pkt.func = 0 → functionOn s (prmb e.pkt 0 1 3 0) = true) :
    atReceiver e here s = some (forwardPacket e (readBlock e.pkt s)) := by
  have hroute : routeTo s e.pkt.dest ≠ none := Option.isSome_iff_ne_none.1 hr
  have hblock : (e.pkt.indirect && (e.pkt.env.blockFails || !bmeOf s e.pkt.func)) = false := by
    cases hi : e.pkt.indirect with
    | false => rfl
    | true => simp [hb hi]
  have hassign : assignsNoVf e s = false := by
    by_cases hop : e.opcode = 0x005 ∧ e.pkt.func = 0
    · simp [assignsNoVf, hvf hop.1 hop.2]
    · simp only [assignsNoVf, Bool.and_eq_false_iff, beq_eq_false_iff_ne, ne_eq]
      exact .inl (not_and_or.1 hop)
  simp [atReceiver, hh, hd, hroute, hblock, hassign]

theorem exec_routeForward (h : Occurs t s s1) (hd : destLocal s1 p.dest = false) (ho : p.origin = none)
    (hf : functionOn s1 p.func = true) (hk : inCatalogue op = true) (htake : takeEntry op p s1 = some (e, s2))
    {s' : State} (hr : atReceiver e (fun _ => none) s2 = some s') :
    exec (.routeForward t op p) s = .next (afterwards p s') := by
  have hgo : ¬(destLocal s1 p.dest || p.origin.isSome || !functionOn s1 p.func || !inCatalogue op) = true := by
    simp [hd, ho, hf, hk]
  calc exec (.routeForward t op p) s = execRouteForward t op p s := rfl
    _ = .next (afterwards p s') := by
      unfold execRouteForward
      rw [whenRunning_of h, if_neg hgo, htake, Option.bind_some, hr]
      rfl

/-! ### No response in time (R89) -/

theorem exec_routeTimeout (h : Occurs t s s1) (hl : s1.cp.routed = r :: l) (ha : r.acked = false)
    (hdue : r.deadline ≤ s1.clk.ticks) : exec (.routeTimeout t) s = .next (timeoutRouted 0 r s1) := by
  have hfind : findPos (fun (r : Routed) => !r.acked && decide (r.deadline ≤ s1.clk.ticks)) s1.cp.routed = some 0 := by
    rw [hl]
    exact if_pos (by simp [ha, hdue])
  have hget : s1.cp.routed[0]? = some r := by
    rw [hl]
    rfl
  calc exec (.routeTimeout t) s = execRouteTimeout t s := rfl
    _ = .next (timeoutRouted 0 r s1) := by
      unfold execRouteTimeout
      rw [whenRunning_of h, hfind]
      dsimp only
      rw [hget]

/-- A forwarded packet that times out leaves the list and completes with TIMEOUT, its results free values. -/
theorem timeoutRouted_front {a b : Nat} {s3 : State} (hl : s.cp.routed = r :: l) (ha : takeFree s = (a, s2))
    (hb : takeFree s2 = (b, s3)) : timeoutRouted 0 r s
      = settlePair r.ent (completeAs true r.ent 0x10A a b { s3 with cp := { s3.cp with routed := l } }) := by
  have h2 : s2 = (takeFree s).2 := by rw [ha]
  have h3 : s3 = (takeFree s2).2 := by rw [hb]
  have hrouted : dropAt s3.cp.routed 0 = l := by
    rw [h3, takeFree_cp, h2, takeFree_cp, hl]
    rfl
  unfold timeoutRouted endRouted
  dsimp only
  rw [ha, hb, hrouted]

/-! ### Command messages (R87) -/

theorem exec_cmdFlitRx {x : FlitRx} (h : Occurs t s s1) (hx : Lands x [1, 2] s1 s2) (m : Option CmdMsg) :
    exec (.cmdFlitRx t x m) s = .next (m.elim s2 (takeMessage · s2)) := by
  calc exec (.cmdFlitRx t x m) s = execCmdFlitRx t x m s := rfl
    _ = _ := by
      unfold execCmdFlitRx
      rw [whenRunning_of h, flitRx_of hx]
      cases m <;> rfl

/-- Settles O36: each event finds the packet or the message it is about, which then goes on as the statement says. -/
theorem routedAndTimedAct : Obligations.RoutedAndTimedAct := by
  intro t s s1 h
  refine ⟨fun env x s2 hx => ?due, fun op p e s2 hd ho hf hk htake hh hd2 hr hb hvf => ?forward,
    fun r l hl ha hdue a b s2 s3 h2 h3 => ?timeout,
    fun x m s2 hx => ⟨exec_cmdFlitRx h hx (some m), exec_cmdFlitRx h hx none⟩⟩
  case due => exact (whenRunning_of h _).trans (congrArg _ (runDue_of_begun hx))
  case forward =>
    obtain rfl : e.pkt = p := takeEntry_pkt htake
    exact exec_routeForward h hd ho hf hk htake (atReceiver_forwards hh hd2 hr hb hvf)
  case timeout => rw [exec_routeTimeout h hl ha hdue, timeoutRouted_front hl h2 h3]

end Sys2Proof.Proofs

/-! SUPPORT. Device memory as the list of its cells: a read is membership, and cells in order are one list (O10). -/
namespace Sys2Proof.Proofs
open Sys2Proof Sys2Proof.Machine Sys2Proof.Laws

variable {m n : List Host.Cell} {k : Nat} {b : Byte}

/-! ### The cells of a memory in canonical form -/

/-- In canonical form an address reads as b, other than the value of an unlisted one, where the cell is listed. -/
theorem memGet_eq_iff_mem (h : Memory.wf m = true) (hb : b ≠ memDefault) : memGet m k = b ↔ (k, b) ∈ m := by
  induction m with
  | nil => simp [memGet, hb.symm]
  | cons c m ih =>
    obtain ⟨a, v⟩ := c
    obtain ⟨-, hrise, hm⟩ := wf_cons.1 h
    have hbeyond : k ≤ a → (k, b) ∉ m := fun hka hc => absurd (hrise _ hc) (by omega)
    unfold memGet
    rw [List.mem_cons, Prod.mk.injEq]
    by_cases hak : a = k
    · subst hak
      simp [eq_comm, hbeyond le_rfl]
    · rw [if_neg hak]
      split
      next hlow => simp [hb.symm, Ne.symm hak, hbeyond hlow.le]
      next => rw [ih hm]; simp [Ne.symm hak]

/-- Bytes that agree wherever either is other than the value of an unlisted address are the same. -/
theorem byte_ext {x y : Byte} (h : ∀ b, b ≠ memDefault → (x = b ↔ y = b)) : x = y := by
  by_cases hx : x = memDefault
  · by_cases hy : y = memDefault
    · rw [hx, hy]
    · exact (h y hy).2 rfl
  · exact ((h x hx).1 rfl).symm

/-! ### What is read after a write -/

/-- The cells of consecutive bytes are those of the bytes that an unlisted address does not read as. -/
theorem mem_memCells {a : Nat} {bs : List Byte} :
    (k, b) ∈ memCells a bs ↔ b ≠ memDefault ∧ a ≤ k ∧ bs[k - a]? = some b := by
  induction bs generalizing a with
  | nil => simp [memCells]
  | cons v bs ih =>
    have hcell : (k, b) ∈ memCells a (v :: bs) ↔ (v ≠ memDefault ∧ k = a ∧ b = v) ∨ (k, b) ∈ memCells (a + 1) bs := by
      rw [memCells]
      split
      next hv => exact ⟨.inr, fun h => h.resolve_left fun ⟨hne, _⟩ => hne hv⟩
      next hv => simp [hv]
    rw [hcell, ih]
    rcases Nat.lt_trichotomy k a with hk | rfl | hk
    · simp [show ¬a + 1 ≤ k by omega, show ¬a ≤ k by omega, show k ≠ a by omega]
    · simp only [Nat.sub_self, List.getElem?_cons_zero, Option.some.injEq]
      grind
    · obtain ⟨d, rfl⟩ : ∃ d, k = a + 1 + d := ⟨k - (a + 1), by omega⟩
      simp [show a + 1 + d - a = d + 1 by omega, show a + 1 + d ≠ a by omega, show a ≤ a + 1 + d by omega]

theorem mem_memPutBytes {a : Nat} {bs : List Byte} : (k, b) ∈ memPutBytes m a bs
    ↔ if a ≤ k ∧ k < a + bs.length then b ≠ memDefault ∧ bs[k - a]? = some b else (k, b) ∈ m := by
  unfold memPutBytes
  simp only [List.mem_append, List.mem_filter, mem_memCells, decide_eq_true_eq]
  split
  next h => simp [show ¬k < a by omega, show ¬a + bs.length ≤ k by omega, h.1]
  next h =>
    have hout : ¬(b ≠ memDefault ∧ a ≤ k ∧ bs[k - a]? = some b) := fun ⟨_, hak, hget⟩ => by
      have := (List.getElem?_eq_some_iff.1 hget).1
      omega
    have hside : k < a ∨ a + bs.length ≤ k := by omega
    simp only [hout, false_or, ← and_or_left, hside, and_true]

/-- A write is read back where it went, and every other byte reads as before. -/
theorem memGet_memPutBytes (a : Nat) (bs : List Byte) (h : Memory.wf m = true) : memGet (memPutBytes m a bs) k
    = if a ≤ k ∧ k < a + bs.length then bs.getD (k - a) 0#8 else memGet m k := by
  refine byte_ext fun b hb => ?_
  rw [memGet_eq_iff_mem (wf_memPutBytes a bs h) hb, mem_memPutBytes]
  split
  next hin =>
    have hlen : k - a < bs.length := by omega
    simp [hb, List.getD_eq_getElem?_getD, hlen]
  next => exact (memGet_eq_iff_mem h hb).symm

/-! ### Memories that read alike -/

theorem wf_pairwise (h : Memory.wf m = true) : m.Pairwise fun c d => c.1 < d.1 := by
  induction m with
  | nil => exact .nil
  | cons c m ih =>
    obtain ⟨-, hrise, hm⟩ := wf_cons.1 h
    exact .cons hrise (ih hm)

theorem wf_ne_default (h : Memory.wf m = true) : ∀ c ∈ m, c.2 ≠ memDefault := by
  induction m with
  | nil => simp
  | cons c m ih =>
    obtain ⟨hne, -, hm⟩ := wf_cons.1 h
    exact List.forall_mem_cons.2 ⟨hne, ih hm⟩

/-- Memories in canonical form that read alike list the same cells in the same order. -/
theorem eq_of_memGet_eq (hm : Memory.wf m = true) (hn : Memory.wf n = true) (h : ∀ k, memGet m k = memGet n k) :
    m = n := by
  have hmem : ∀ c, c ∈ m ↔ c ∈ n := fun ⟨k, b⟩ => by
    by_cases hb : b = memDefault
    · exact ⟨fun hc => absurd hb (wf_ne_default hm _ hc), fun hc => absurd hb (wf_ne_default hn _ hc)⟩
    · rw [← memGet_eq_iff_mem hm hb, ← memGet_eq_iff_mem hn hb, h k]
  have hne : ∀ {l : List Host.Cell}, Memory.wf l = true → l.Nodup := fun hl =>
    (wf_pairwise hl).imp fun hlt heq => absurd hlt (by simp [heq])
  exact ((List.perm_ext_iff_of_nodup (hne hm) (hne hn)).2 hmem).eq_of_pairwise
    (fun _ _ _ _ hcd hdc => absurd hcd (by omega)) (wf_pairwise hm) (wf_pairwise hn)

/-- Settles O10: a read is membership among the cells, and the cells in order are one list. -/
theorem memoryReadsBack : Obligations.MemoryReadsBack :=
  ⟨fun _ a bs _ h => memGet_memPutBytes a bs h, fun _ _ => eq_of_memGet_eq⟩

end Sys2Proof.Proofs

/-! SUPPORT. The surface commands (O16). -/
namespace Sys2Proof.Proofs
open Sys2Proof Sys2Proof.Machine Sys2Proof.Laws

variable {p : Packet} {s : State} {i : Nat}

/-! ### SURFACE_CREATE (R148) -/

@[simp] theorem claimSlot_stride (x : Surface) : (claimSlot x).stride = x.stride := by
  unfold claimSlot
  split
  next => rfl
  next => split <;> rfl

/-- A create of a surface that is not valid, with an extent that can be had, completes with its base and slot stride. -/
theorem surfaceCreateBody_ok (hi : prmIndex p = i) (hm : s.mm.migrating = false) (hv : surfValid s i = false)
    (hok : surfaceOk p (prmSurface p) = true) {base : Nat} {s1 : State}
    (ha : allocate noSurface (allocLimit s p.func) (extentBytes (prmSurface p)) s = (some base, s1)) :
    specSurfaceCreate.body p s = .ok (some (base / 4096)) (some (prmSurface p).stride)
      (putSurf i (claimSlot { prmSurface p with valid := true, base := base, newest := noSlot,
                                                hdr := (takeFree s1).1 % headerPlaces }) (takeFree s1).2) := by
  subst hi
  calc specSurfaceCreate.body p s = surfaceCreateBody p s := rfl
    _ = _ := by
      unfold surfaceCreateBody
      dsimp only
      rw [require_of (by simp [hm, hv]), require_of hok, ha]
      simp only [createAt, claimSlot_stride]

/-! ### Commands of a valid surface (R147) -/

section
variable (hi : prmIndex p = i) (hv : surfValid s i = true)
include hi hv

/-- A command of a valid surface goes on with its entry. -/
theorem onSurface_of (k : Surface → Res) : onSurface p s k = k (surfOf s i) := by
  subst hi
  exact require_of hv _ _

theorem surfaceDestroyBody_ok (hc : (surfOf s i).crystal = false) (hf : (surfOf s i).frozen = false)
    (hr : committedRefers s i = false) (hw : hasAutoWriter s i = false) (hp : anyPinned (surfOf s i) = false)
    (hb : blRefers s i = false) :
    specSurfaceDestroy.body p s = .ok none none (putSurf i { surfOf s i with valid := false } s) := by
  calc specSurfaceDestroy.body p s = surfaceDestroyBody p s := rfl
    _ = _ := by
      unfold surfaceDestroyBody
      rw [onSurface_of hi hv, require_of (by simp [hc]), require_of (by simp [hi, hf, hr, hw, hp, hb]), hi]
      rfl

theorem surfaceQueryBody_ok (hslot : prmb p 2 2 9 0 ≤ (surfOf s i).slotsM1)
    (hbuf : bufferOk p s (prm p 8 8) 32 true = true) : specSurfaceQuery.body p s
      = .ok (some ((surfOf s i).wslot + shl (surfOf s i).newest 16)) (some (surfOf s i).pubSeq)
          (bufferWrite p (prm p 8 8) true (surfaceRecord (surfOwner s i) (surfOf s i) (prmb p 2 2 9 0)) s) := by
  calc specSurfaceQuery.body p s = surfaceQueryBody p s := rfl
    _ = _ := by
      unfold surfaceQueryBody
      rw [onSurface_of hi hv, require_of (by simp [hslot]), withBuf_ok hbuf, hi]

/-- A publish by host software of the write slot that it holds completes with what a publish leaves. -/
theorem slotPublishBody_ok (hkey : (surfOf s i).crystal = false ∨ isUnlocked s = true)
    (hwriter : (surfOf s i).writer = 0) (hf : (surfOf s i).frozen = false) (hclaim : prmbit p 2 0 = false)
    (hheld : (surfOf s i).wslot ≠ noSlot) (hslot : prmb p 4 2 9 0 = (surfOf s i).wslot)
    (hcap : (surfOf s i).lastCap.getD 0 ≤ prm p 8 8) :
    specSlotPublish.body p s = slotResult i (publishHost i (prm p 8 8) (surfOf s i) s) := by
  calc specSlotPublish.body p s = slotPublishBody p s := rfl
    _ = _ := by
      unfold slotPublishBody
      rw [onSurface_of hi hv, require_of (by simpa using hkey), require_of (by simp [hwriter]),
        require_of (by simp [hf]), if_neg (by simp [hclaim]), require_of (by simp [hheld]),
        require_of (by simp [hslot, hcap]), hi]

theorem surfaceSetSharingBody_ok (hc : (surfOf s i).crystal = false)
    (hforeign : prmbit p 2 0 = true ∨ (foreignPane s i = false ∧ foreignJob s i = false)) :
    specSurfaceSetSharing.body p s = .ok none none (putSurf i { surfOf s i with shared := prmbit p 2 0 } s) := by
  calc specSurfaceSetSharing.body p s = surfaceSetSharingBody p s := rfl
    _ = _ := by
      unfold surfaceSetSharingBody
      dsimp only
      rw [onSurface_of hi hv, require_of (by simp [hc]), require_of (by simpa [hi] using hforeign), hi]
      rfl

end

/-! ### The statement -/

/-- Settles O16: each clause is the opcode's own part under the checks that its premises pass. -/
theorem surfaceCommandsAnswer : Obligations.SurfaceCommandsAnswer := by
  intro t p s e s0 i hi
  refine ⟨fun h hm hv hok base s1 ha => ?create, fun hv => ⟨fun h hc hf hr hw hp hb => ?destroy,
    fun h hslot hbuf => ?query, fun h hkey hwriter hf hclaim hheld hslot hcap => ?publish,
    fun h hc hforeign => ?sharing⟩, fun h hbuf => ?memory⟩
  case create => exact run_ok h (surfaceCreateBody_ok hi hm hv hok ha)
  case destroy => exact run_ok h (surfaceDestroyBody_ok hi hv hc hf hr hw hp hb)
  case query => exact run_ok h (surfaceQueryBody_ok hi hv hslot hbuf)
  case publish => exact run_ok h (slotPublishBody_ok hi hv hkey hwriter hf hclaim hheld hslot hcap)
  case sharing => exact run_ok h (surfaceSetSharingBody_ok hi hv hc hforeign)
  case memory => exact run_ok h (withBuf_ok hbuf _ _ _)

end Sys2Proof.Proofs

/-! SUPPORT. Configuration of functions, their resets, the link and accesses of BAR2 (O40). -/
namespace Sys2Proof.Proofs
open Sys2Proof Sys2Proof.Machine Sys2Proof.Laws

variable {t : Ticks} {s s1 s2 : State} {f off n : Nat}

/-! ### Configuration (R598, R601, R603) -/

/-- A configuration write that reaches a function sets its bits, and lets out what waited for Bus Master Enable. -/
theorem exec_busMasterEnableChange {c : CfgWrite} (h : advance t s = s1) (hf : configReaches s1 f = true)
    (hs : { s1 with host := { s1.host with
        bme := setBit s1.host.bme f c.bme, mse := setBit s1.host.mse f c.mse,
        msixEn := setBit s1.host.msixEn f c.msixEn,
        pfBar2 := if f = 0 ∧ 30 ≤ c.bar2 ∧ c.bar2 ≤ 37 then c.bar2 else s1.host.pfBar2 } } = s2) :
    exec (.busMasterEnableChange t f c) s
      = .next (if c.bme = true then msixFlush f (forAll (List.range 8) (writeHeld f) s2) else s2) := by
  have hcode : (if f = 0 then bar2Code s1.host.pfBar2 c.bar2 else s1.host.pfBar2)
      = if f = 0 ∧ 30 ≤ c.bar2 ∧ c.bar2 ≤ 37 then c.bar2 else s1.host.pfBar2 := by
    unfold bar2Code
    rw [← ite_and]
  calc exec (.busMasterEnableChange t f c) s = execBusMasterEnableChange t f c s := rfl
    _ = .next (writeConfig f c s1) := by
      unfold execBusMasterEnableChange
      rw [h]
      exact congrArg _ (if_pos hf)
    _ = _ := by
      unfold writeConfig
      simp only [hcode, hs]

theorem exec_vfEnableSet {num bar2 : Nat} (h : advance t s = s1) (hc : configReaches s1 0 = true)
    (hoff : s1.host.vfEnable = false) (hnum : num ≤ 15) :
    exec (.vfEnableSet t num bar2) s = .next (enableVfs num bar2 s1) := by
  calc exec (.vfEnableSet t num bar2) s = execVfEnableSet t num bar2 s := rfl
    _ = _ := by
      unfold execVfEnableSet
      rw [h]
      exact congrArg _ (if_pos (by simp [hc, hoff, hnum]))

theorem exec_vfEnableClear (h : advance t s = s1) (hc : configReaches s1 0 = true) (hon : s1.host.vfEnable = true) :
    exec (.vfEnableClear t) s = .next (disableVfs s1) := by
  calc exec (.vfEnableClear t) s = execVfEnableClear t s := rfl
    _ = _ := by
      unfold execVfEnableClear
      rw [h]
      exact congrArg _ (if_pos (by simp [hc, hon]))

/-! ### Resets of a function (R551 to R553) -/

theorem exec_flr (h : advance t s = s1) (hf : configReaches s1 f = true) :
    exec (.flr t f) s = .next (flrLocal f s1) := by
  calc exec (.flr t f) s = execFlr t f s := rfl
    _ = _ := by
      unfold execFlr
      rw [h]
      exact congrArg _ (if_pos hf)

theorem exec_flrRemoteApply {device : Nat} (h : Occurs t s s1) (hf : f < 16) :
    exec (.flrRemoteApply t f device) s = .next (flrItems f (some device) s1) := by
  calc exec (.flrRemoteApply t f device) s = execFlrRemoteApply t f device s := rfl
    _ = _ := by
      unfold execFlrRemoteApply
      rw [whenRunning_of h, if_pos hf]

/-! ### The link (R534, R535, R594, R600) -/

theorem exec_pcieRefclkLoss (h : advance t s = s1) :
    exec (.pcieRefclkLoss t) s = .next { s1 with host := { s1.host with linkUp := false } } := by
  subst h
  rfl

section
variable (h : advance t s = s1) (hc : clocked s1 = true)
include h hc

theorem exec_perstNAssert : exec (.perstNAssert t) s
    = .next { linkReset s1 with pmu := { (linkReset s1).pmu with perstLow := true } } := by
  calc exec (.perstNAssert t) s = execPerstNAssert t s := rfl
    _ = _ := by
      unfold execPerstNAssert
      dsimp only
      rw [h, if_pos hc]

theorem exec_hotReset (hup : s1.host.linkUp = true) : exec (.hotReset t) s = .next (linkReset s1) := by
  calc exec (.hotReset t) s = execHotReset t s := rfl
    _ = _ := by
      unfold execHotReset
      rw [h]
      exact congrArg _ (if_pos (by simp [hc, hup]))

theorem exec_pcieLinkTrained : exec (.pcieLinkTrained t) s
    = .next { s1 with host := { s1.host with linkUp := true }, pmu := { s1.pmu with perstLow := false } } := by
  calc exec (.pcieLinkTrained t) s = execPcieLinkTrained t s := rfl
    _ = _ := by
      unfold execPcieLinkTrained
      rw [h]
      exact congrArg _ (if_pos hc)

end

/-! ### Accesses of BAR2 (R33, R140 to R142, R605) -/

/-- Bytes that lie in one granule are one run. -/
theorem runsOf_granule (hpos : 0 < n) (hlen : n ≤ 4096 - off % 4096) : runsOf off n = [(off, n)] := by
  have hmin : min n (4096 - off % 4096) = n := by omega
  unfold runsOf granuleRuns
  rw [if_neg (by omega)]
  simp only [hmin, Nat.sub_self]
  unfold granuleRuns
  rw [if_pos rfl]

/-- An access of BAR2 waits: behind an earlier one of its function, or while its channel does not serve class C6. -/
def bar2Held (x : Bar2Op) (s : State) : Prop :=
  s.host.posted.any (fun y => y.func == x.func) = true ∨ channelServes s 6 (channelOf s x.addr) = false

theorem bar2Post_held {x : Bar2Op} (h : bar2Held x s) :
    bar2Post x s = { s with host := { s.host with posted := s.host.posted ++ [x] } } :=
  if_pos (by simpa only [bar2Held, Bool.or_eq_true, Bool.not_eq_true'] using h)

theorem bar2Post_now {x : Bar2Op} (h : ¬bar2Held x s) : bar2Post x s = bar2Do x s :=
  if_neg (by simpa only [bar2Held, Bool.or_eq_true, Bool.not_eq_true'] using h)

section
variable (h : advance t s = s1) (hf : f < 16) (hr : hostReaches s1 f = true) (hm : mseOf s1 f = true)
  (hoff : off < bar2Size s1 f)
include h hf hr hm hoff

/-- A request within the BAR of a function that answers it acts. -/
theorem bar2Access_of (act : State → State) : bar2Access t f off act s = .next (act s1) := by
  unfold bar2Access
  rw [h]
  dsimp only
  rw [if_neg (by simp [hf, hr, hoff]), if_neg (by simp [hm])]

theorem exec_bar2Atomicop : exec (.bar2Atomicop t f off) s = .next (emit (.ur f) (denyBar2 f s1)) :=
  bar2Access_of h hf hr hm hoff fun s => emit (.ur f) (denyBar2 f s)

variable (hd : drainBar2 s1 = s2)
include hd

/-- A write that lies in one granule is one posted write, once the accesses that waited have gone on. -/
theorem exec_bar2Write {data : List Byte} (hpos : 0 < data.length) (hlen : data.length ≤ 4096 - off % 4096) :
    exec (.bar2Write t f off data) s = .next (bar2WriteRun f off data s2) := by
  calc exec (.bar2Write t f off data) s = execBar2Write t f off data s := rfl
    _ = _ := by
      unfold execBar2Write
      rw [bar2Access_of h hf hr hm hoff, runsOf_granule hpos hlen, hd]
      simp [forAll]

/-- A read that lies in one granule is one read, once the accesses that waited have gone on. -/
theorem exec_bar2Read (hpos : 0 < n) (hlen : n ≤ 4096 - off % 4096) :
    exec (.bar2Read t f off n) s = .next (bar2ReadRun f off n s2) := by
  calc exec (.bar2Read t f off n) s = execBar2Read t f off n s := rfl
    _ = _ := by
      unfold execBar2Read
      rw [bar2Access_of h hf hr hm hoff, runsOf_granule hpos hlen, hd]
      rfl

end

theorem bar2WriteRun_allowed {data : List Byte} (h : bar2Allowed s f true off = true) :
    bar2WriteRun f off data s = bar2Post ⟨f, off, true, data, data.length, s.clk.ticks⟩ s :=
  if_neg (by simp [h])

theorem bar2WriteRun_denied {data : List Byte} (h : bar2Allowed s f true off = false) :
    bar2WriteRun f off data s = denyBar2 f s :=
  if_pos (by simp [h])

theorem bar2ReadRun_allowed (h : bar2Allowed s f false off = true) :
    bar2ReadRun f off n s = bar2Post ⟨f, off, false, [], n, s.clk.ticks⟩ s :=
  if_neg (by simp [h])

theorem bar2ReadRun_denied (h : bar2Allowed s f false off = false) :
    bar2ReadRun f off n s = emit (.ur f) (denyBar2 f s) :=
  if_pos (by simp [h])

/-- A read that reaches a fenced channel is answered with Unsupported Request, and any other with its data. -/
theorem bar2Do_read {since : Ticks} : bar2Do ⟨f, off, false, [], n, since⟩ s
    = if fencedAt s off = true then emit (.ur f) s
      else emit (.bar2Data f (memRead s off n) (sectorBad s off n)) (countRead off n s) :=
  if_neg Bool.false_ne_true

/-! ### The statement -/

/-- Settles O40: each event acts once it reaches the device, and an access of BAR2 is one run of one granule. -/
theorem functionsAct : Obligations.FunctionsAct := by
  intro t s s1 f h
  refine ⟨fun c hf => ?config, fun num bar2 hc => ⟨exec_vfEnableSet h hc, exec_vfEnableClear h hc⟩, exec_flr h,
    fun device hocc hf => exec_flrRemoteApply hocc hf,
    fun hc => ⟨exec_perstNAssert h hc, exec_hotReset h hc, exec_pcieLinkTrained h hc⟩, exec_pcieRefclkLoss h,
    fun hf hr hm off s2 hoff hd => ⟨fun data hpos hlen => ?write, fun n hpos hlen => ?read,
      exec_bar2Atomicop h hf hr hm hoff⟩⟩
  case config =>
    have hexec := exec_busMasterEnableChange (c := c) h hf rfl
    exact ⟨fun hb => hexec.trans (congrArg _ (if_neg (by simp [hb]))),
      fun hb => hexec.trans (congrArg _ (if_pos hb))⟩
  case write =>
    rw [exec_bar2Write h hf hr hm hoff hd hpos hlen]
    refine ⟨fun hok => ?_, fun hno => congrArg _ (bar2WriteRun_denied hno)⟩
    rw [bar2WriteRun_allowed hok]
    exact ⟨fun hgo => congrArg _ (bar2Post_now hgo), fun hw => congrArg _ (bar2Post_held hw)⟩
  case read =>
    rw [exec_bar2Read h hf hr hm hoff hd hpos hlen]
    refine ⟨fun hok => ?_, fun hno => congrArg _ (bar2ReadRun_denied hno)⟩
    rw [bar2ReadRun_allowed hok]
    have hnow := bar2Post_now (s := s2) (x := ⟨f, off, false, [], n, s2.clk.ticks⟩)
    refine ⟨fun hgo hfence => ?_, fun hgo hfence => ?_, fun hw => congrArg _ (bar2Post_held hw)⟩
    · exact congrArg _ ((hnow hgo).trans (bar2Do_read.trans (if_neg (by simp [hfence]))))
    · exact congrArg _ ((hnow hgo).trans (bar2Do_read.trans (if_pos hfence)))

end Sys2Proof.Proofs

/-! SUPPORT. The events of power: drain, channel restarts, power fail, the loops and the governor (O44). -/
namespace Sys2Proof.Proofs
open Sys2Proof Sys2Proof.Machine Sys2Proof.Laws

variable {t : Ticks} {s s1 : State} {n a : Nat}

/-! ### The drain (R545) -/

theorem exec_powerStateDrainEnd (h : Occurs t s s1) (ha : s1.pmu.drainAt.isSome = true) (hd : drained s1 = true) :
    exec (.powerStateDrainEnd t) s = .next (startEntry s1) := by
  calc exec (.powerStateDrainEnd t) s = execPowerStateDrainEnd t s := rfl
    _ = _ := by
      unfold execPowerStateDrainEnd
      rw [whenRunning_of h, if_pos (by simp [ha, hd])]

theorem exec_powerStateDrainTimeout (h : Occurs t s s1) (ha : s1.pmu.drainAt = some a)
    (hdue : a + msTicks 100 ≤ s1.clk.ticks) (hd : drained s1 = false) :
    exec (.powerStateDrainTimeout t) s = .next (finishUnit pmuUnit 0x107 none none
      { s1 with pmu := { s1.pmu with drainAt := none, changing := false } }) := by
  calc exec (.powerStateDrainTimeout t) s = execPowerStateDrainTimeout t s := rfl
    _ = _ := by
      unfold execPowerStateDrainTimeout
      rw [whenRunning_of h, ha]
      exact congrArg _ (if_neg (by simp [hd, hdue]))

/-! ### Channel restarts (R112) -/

section
variable (h : Occurs t s s1) (ha : Tbl.find? s1.mm.restart n = some a) (hn : chanState s1 n = 1)
include h ha hn

theorem exec_channelRestartDone (hin : s1.clk.ticks ≤ a + msTicks 2) :
    exec (.channelRestartDone t n) s = .next (channelBack n s1) := by
  calc exec (.channelRestartDone t n) s = execChannelRestartDone t n s := rfl
    _ = _ := by
      unfold execChannelRestartDone
      rw [whenRunning_of h, ha]
      exact congrArg _ (if_pos (by simp [hn, hin]))

/-- A channel that is not back after 2 ms is retired; the last live one goes on. -/
theorem exec_channelRestartTimeout {s2 : State} (hdue : a + msTicks 2 ≤ s1.clk.ticks)
    (hs : retireChannel n 2 1 (raiseUnit (unitChan n) (256 + 4 * n + 3) s1) = s2) :
    exec (.channelRestartTimeout t n) s = .next (settleResume (if chanState s2 n = 1
      then { s2 with mm := { s2.mm with restart := Tbl.set s2.mm.restart n s2.clk.ticks } } else s2)) := by
  calc exec (.channelRestartTimeout t n) s = execChannelRestartTimeout t n s := rfl
    _ = _ := by
      unfold execChannelRestartTimeout
      rw [whenRunning_of h, ha]
      dsimp only
      rw [if_pos (by simp [hn, hdue]), hs]
      simp only [beq_iff_eq]

end

/-! ### Power fail (R564, R586) -/

/-- The power-fail checkpoint is the next one, or takes the place of one in progress. -/
theorem exec_pfw (h : Occurs t s s1) : exec (.pfw t) s = .next (if ltrBusy (raise 999 s1) = true
    then writeCheckpoint 3 (raise 999 s1).rel.ltrWSeq (raise 999 s1) else startCheckpoint 3 (raise 999 s1)) :=
  whenRunning_of h fun s => if ltrBusy (raise 999 s) = true
    then writeCheckpoint 3 (raise 999 s).rel.ltrWSeq (raise 999 s) else startCheckpoint 3 (raise 999 s)

/-! ### The governor (R560) -/

/-- A sample that is due and that `PMU_TJ` holds is stored, and the four rows follow it. -/
theorem thermalSample_of {tj : Int} (hdue : dueAfter s (msTicks 1) s.pmu.tjAt = true) (hlo : -2048 ≤ tj)
    (hhi : tj ≤ 2047) : thermalSample tj s = blankStep (restoreStep (overrideStep (shedStep
      { s with pmu := { s.pmu with tj := tj, tjHwm := max s.pmu.tjHwm tj, tjAt := some s.clk.ticks } }))) := by
  have hheld : max (-2048) (min 2047 tj) = tj := by omega
  unfold thermalSample
  rw [hdue, hheld]
  rfl

/-! ### The loops (R556 to R559, R620) -/

/-- A window whose low end meets the safety floor is not clamped. -/
theorem noteClamp_of_le {loop lo : Nat} (h : safetyFloor s loop ≤ lo) : noteClamp loop lo s = s :=
  if_neg (by omega)

/-- A supply that is due, inside the window, above the floor and at most 10 mV away becomes the setpoint. -/
theorem avsUpdate_of {want m : Nat} (hdue : dueAfter s (msTicks 1) s.pmu.avsAt = true) (hm : roundUp want 25 = m)
    (hdown : s.pmu.vset ≤ m + 100) (hup : m ≤ s.pmu.vset + 100) (hlo : 10 * s.pmu.vmin ≤ m) (hhi : m ≤ 10 * s.pmu.vmax)
    (hfloor : roundUp (10 * floorMv s) 25 ≤ m) (hclamp : floorMv s ≤ s.pmu.vmin) {s2 : State}
    (hs : { s with pmu := { s.pmu with vset := m, avsAt := some s.clk.ticks } } = s2) :
    avsUpdate want s = if m = s.pmu.vset then s2 else emit (.supply m) s2 := by
  have hstep : max (s.pmu.vset - 100) (min (s.pmu.vset + 100) m) = m := by omega
  have hwindow : max (max (10 * s.pmu.vmin) (roundUp (10 * floorMv s) 25))
      (min (max (10 * s.pmu.vmax) (roundUp (10 * floorMv s) 25)) m) = m := by omega
  have hinside : (decide (m < 10 * s.pmu.vmin) && decide (roundUp (10 * floorMv s) 25 ≤ 10 * s.pmu.vmin)
      || decide (10 * s.pmu.vmax < m) && decide (roundUp (10 * floorMv s) 25 ≤ 10 * s.pmu.vmax)) = false := by
    simp [Nat.not_lt.2 hlo, Nat.not_lt.2 hhi]
  have hfree : noteClamp 0 s.pmu.vmin s = s := noteClamp_of_le hclamp
  unfold avsUpdate
  simp only [hdue, hm, hstep, hwindow, hinside, hfree, hs, Bool.not_true, Bool.false_eq_true, if_false]

/-- A rate that is wanted inside the window, above what MR4 demands, becomes the refresh rate. -/
theorem refreshPoll_of {mr4 want : Nat} (hdue : dueAfter s (msTicks 16) s.pmu.rfAt = true) (hmr4 : mr4 ≤ s.pmu.rfMin)
    {s2 : State} (hs : { s with pmu := { s.pmu with mr4 := mr4, rfAt := some s.clk.ticks } } = s2)
    (hwant : wantedRefresh s2 = want) (hlo : s.pmu.rfMin ≤ want) (hhi : want ≤ s.pmu.rfMax) (hmax : s.pmu.rfMax ≤ 3) :
    refreshPoll mr4 s = if want = s.pmu.refresh then s2
      else { s2 with pmu := { s2.pmu with refresh := want, rfSince := s2.clk.onTicks } } := by
  have hgo : (!dueAfter s (msTicks 16) s.pmu.rfAt || decide (3 < mr4)) = false := by
    simp [hdue]
    omega
  have hmin : s2.pmu.rfMin = s.pmu.rfMin := by rw [← hs]
  have hmaxEq : s2.pmu.rfMax = s.pmu.rfMax := by rw [← hs]
  have hrate : s2.pmu.refresh = s.pmu.refresh := by rw [← hs]
  have hnew : max (max s.pmu.rfMin mr4) (min (max s.pmu.rfMax mr4) (want : Int).toNat) = want := by omega
  have hinside : (decide ((want : Int) < (s.pmu.rfMin : Int)) && decide (mr4 ≤ s.pmu.rfMin)
      || decide ((s.pmu.rfMax : Int) < (want : Int)) && decide (mr4 ≤ s.pmu.rfMax)) = false := by
    simp [Nat.not_lt.2 hlo, Nat.not_lt.2 hhi]
  have hfree : noteClamp 3 s.pmu.rfMin s2 = s2 := noteClamp_of_le (by rw [← hs]; exact hmr4)
  unfold refreshPoll
  simp only [hgo, hs, hmin, hmaxEq, hwant, hnew, hinside, hfree, hrate, Bool.false_eq_true, if_false]

/-- A code that the loop asks for inside the window of the lane's last training is taken. -/
theorem exec_serdesEqAdapt {lane code : Nat} {w : Nat × Nat} (h : Occurs t s s1) (hlane : lane < 16)
    (hw : Tbl.get s1.pmu.eqWin (0, 31) lane = w) (hlo : w.1 ≤ code) (hhi : code ≤ w.2) :
    exec (.serdesEqAdapt t lane code) s
      = .next { s1 with pmu := { s1.pmu with eq := Tbl.set s1.pmu.eq lane code } } := by
  have hheld : max w.1 (min w.2 code) = code := by omega
  calc exec (.serdesEqAdapt t lane code) s = execSerdesEqAdapt t lane code s := rfl
    _ = _ := by
      unfold execSerdesEqAdapt
      rw [whenRunning_of h, hw]
      dsimp only
      rw [if_neg (by omega), hheld, if_neg (by simp [Nat.not_lt.2 hlo, Nat.not_lt.2 hhi])]

/-! ### The statement -/

/-- Settles O44: each event acts under the condition that its premises meet. -/
theorem powerEventsAct : Obligations.PowerEventsAct := by
  intro t s s1 h
  refine ⟨exec_powerStateDrainEnd h, fun a ha hdue hd => exec_powerStateDrainTimeout h ha hdue hd,
    fun n a ha hn => ⟨exec_channelRestartDone h ha hn, fun hdue => exec_channelRestartTimeout h ha hn hdue rfl⟩,
    fun _ hidle => ?next, fun hbusy => ?instead, fun hdue tj hlo hhi => ?thermal,
    fun hdue want m hm hdown hup hlo hhi hfloor hclamp => ?avs, fun hdue mr4 hmr4 want hwant hlo hhi hmax => ?refresh,
    fun lane code w hlane hw hlo hhi => exec_serdesEqAdapt h hlane hw hlo hhi⟩
  case next => rw [exec_pfw h, if_neg (by simp [hidle])]
  case instead => rw [exec_pfw h, if_pos hbusy]
  case thermal => exact (whenRunning_of h _).trans (congrArg _ (thermalSample_of hdue hlo hhi))
  case avs =>
    exact (whenRunning_of h _).trans (congrArg _ (avsUpdate_of hdue hm hdown hup hlo hhi hfloor hclamp rfl))
  case refresh => exact (whenRunning_of h _).trans (congrArg _ (refreshPoll_of hdue hmr4 rfl hwant hlo hhi hmax))

end Sys2Proof.Proofs

/-! SUPPORT. The fetch scheduler: service slots, data that arrive and gate lists (O46). -/
namespace Sys2Proof.Proofs
open Sys2Proof Sys2Proof.Machine Sys2Proof.Laws

variable {t : Ticks} {s s1 s2 s3 : State} {n : Nat}

/-! ### A service slot of a channel (R163, R164) -/

/-- What is chosen of a class goes while its gate stays open for 8 ns. -/
def throughGate {α : Type} (left : Option Nat) (o : Option α) : Option α := if mayIssue left = true then o else none

theorem throughGate_open {α : Type} {left : Option Nat} (h : 8 ≤ left.getD 0) (o : Option α) :
    throughGate left o = o :=
  if_pos (decide_eq_true h)

theorem throughGate_none {α : Type} {left : Option Nat} {o : Option α} (h : left.getD 0 < 8 ∨ o = none) :
    throughGate left o = none := by
  rcases h with h | rfl
  · exact if_neg (by simp [mayIssue, h])
  · exact ite_self _

/-- A slot in the 8 ns after an issue does nothing. -/
theorem serviceSlot_early {a : Ticks} (ha : (chanFsOf s n).lastIssue = some a) (h : s.clk.ticks < a + 10) :
    serviceSlot n s = s := by
  simp [serviceSlot, ha, h]

/-- A free slot issues the request chosen of class 0, or else that of class 1, once the waits are counted. -/
theorem serviceSlot_free {c : ChanFs} {left0 left1 : Option Nat} (hc : chanFsOf s n = c)
    (hfree : ∀ a, c.lastIssue = some a → a + 10 ≤ s.clk.ticks)
    (h0 : openLeft s c 1 = left0) (h1 : openLeft s c 2 = left1)
    (h2 : guardClass n left0 ((List.range 16).filterMap fun r => (offer0 s r n).map fun o => (r, o.1)) s = s2)
    (h3 : guardClass n left1 ((List.range 16).filterMap fun r => (offer1 s2 r n).map fun o => (r, o.1)) s2 = s3) :
    serviceSlot n s = (throughGate left0 (choose0 s3 n)).elim
      ((throughGate left1 (choose1 s3 n)).elim s3 fun o => issueReq n o.1 o.2 false s3)
      fun o => issueReq n o.1 o.2.1 o.2.2 s3 := by
  have hgo : ∀ x : Option (Nat × LineReq × Bool), ∀ y : Option (Nat × LineReq), (match x, y with
      | some (r, q, g), _ => issueReq n r q g s3
      | none, some (r, q) => issueReq n r q false s3
      | none, none => s3) = x.elim (y.elim s3 fun o => issueReq n o.1 o.2 false s3)
        fun o => issueReq n o.1 o.2.1 o.2.2 s3 := by
    rintro (_ | x) (_ | y) <;> rfl
  unfold serviceSlot throughGate
  cases hlast : c.lastIssue with
  | none =>
    simp only [hc, hlast, h0, h1, h2, h3, Bool.not_true, Bool.false_eq_true, if_false]
    exact hgo _ _
  | some a =>
    simp only [hc, hlast, hfree a hlast, h0, h1, h2, h3, decide_true, Bool.not_true, Bool.false_eq_true, if_false]
    exact hgo _ _

theorem exec_fsRequestIssue (h : Occurs t s s1) (hn : n < 16) :
    exec (.fsRequestIssue t n) s = .next (drainAccesses (serviceSlot n s1)) := by
  calc exec (.fsRequestIssue t n) s = execFsRequestIssue t n s := rfl
    _ = _ := by
      unfold execFsRequestIssue
      rw [whenRunning_of h, if_pos hn]

/-! ### Data that arrive (R126, R183, R188) -/

/-- The data of a request are lost: its channel is fenced, its slot is INVALID or its sector holds an error. -/
def dataLost (x : FetchFlight) (pd : Desc × Option Nat) (sf : Surface) (s : State) : Bool :=
  fenced s x.channel || (slotOf sf (pd.2.getD 0)).invalid || sectorBad s (reqAddr s pd.1 (pd.2.getD 0) x.req) 256

/-- The tile that a request belongs to decodes. -/
def dataDecodes (x : FetchFlight) (pd : Desc × Option Nat) (sf : Surface) (s : State) : Bool :=
  sf.comp != 1 || tileDecodes s sf (pd.2.getD 0) (dSX pd.1 / 32 + x.req.k / (uMax sf.format + 1)) x.req.row

theorem dataDecodes_iff (x : FetchFlight) (pd : Desc × Option Nat) (sf : Surface) (s : State) :
    dataDecodes x pd sf s = true ↔ sf.comp ≠ 1
      ∨ tileDecodes s sf (pd.2.getD 0) (dSX pd.1 / 32 + x.req.k / (uMax sf.format + 1)) x.req.row = true := by
  rw [dataDecodes, Bool.or_eq_true, bne_iff_ne]

/-- Good data are timed, and are there for the raster's line unless their frame is past. -/
def takeData (x : FetchFlight) (s : State) : State :=
  let s3 := noteLatency x.channel x.raster x.cls ((s.clk.ticks - x.issued) * 4 / 5) s
  if x.old = true then s3
  else putFs x.raster { fsOf s3 x.raster with arrived := x.req :: (fsOf s3 x.raster).arrived } s3

section
variable {x : FetchFlight} {l : List FetchFlight} (hl : s.fs.flights = x :: l)
include hl

/-- The first request in flight ends: without data, with a tile that fails to decode, or with its data taken. -/
theorem arrive_front {pd : Desc × Option Nat} {sf : Surface} (ok : Bool)
    (hs : { s with fs := { s.fs with flights := l } } = s2) (hpd : reqPane s2 x.raster x.req.pane = pd)
    (hsf : surfOf s2 (dSurface pd.1) = sf) :
    arrive x.raster x.req ok s = if ok = false ∨ dataLost x pd sf s2 = true then s2
      else if dataDecodes x pd sf s2 = true then takeData x s2
      else if x.req.k % (uMax sf.format + 1) = 0 then ftcError (dSurface pd.1) s2 else s2 := by
  have hfind : findPos (fun y : FetchFlight => y.raster == x.raster && y.req == x.req) s.fs.flights = some 0 := by
    rw [hl]
    exact if_pos (by simp)
  have hget : s.fs.flights[0]? = some x := by rw [hl]; rfl
  have hdrop : dropAt s.fs.flights 0 = l := by rw [hl]; rfl
  have hlost : ∀ b : Bool, (b || fenced s2 x.channel || (slotOf sf (pd.2.getD 0)).invalid
      || sectorBad s2 (reqAddr s2 pd.1 (pd.2.getD 0) x.req) 256) = (b || dataLost x pd sf s2) := by
    simp [dataLost, Bool.or_assoc]
  have hdecodes : (sf.comp != 1 || tileDecodes s2 sf (pd.2.getD 0) (dSX pd.1 / 32 + x.req.k / (uMax sf.format + 1))
      x.req.row) = dataDecodes x pd sf s2 := rfl
  unfold arrive takeData
  simp only [hfind, hget, hdrop, hs, hpd, hsf, hlost, hdecodes]
  cases ok <;> cases dataLost x pd sf s2 <;> cases dataDecodes x pd sf s2 <;> simp

/-- The data of the first request in flight arrive unless its channel restarts. -/
theorem exec_fetchDataArrive_front (h : Occurs t s1 s) (hx : chanState s x.channel ≠ 1) (ok : Bool) :
    exec (.fetchDataArrive t x.raster x.req.pane x.req.row x.req.k ok) s1 = .next (arrive x.raster x.req ok s) := by
  have hfind : s.fs.flights.find? (fun y => y.raster == x.raster && y.req == x.req) = some x := by simp [hl]
  calc exec (.fetchDataArrive t x.raster x.req.pane x.req.row x.req.k ok) s1
      = execFetchDataArrive t x.raster x.req.pane x.req.row x.req.k ok s1 := rfl
    _ = _ := by
      unfold execFetchDataArrive
      rw [whenRunning_of h]
      dsimp only
      rw [hfind]
      exact congrArg _ (if_neg (by simp [hx]))

end

/-! ### Gate lists (R161, R166) -/

theorem exec_mcgEntryAdvance (h : Occurs t s s1) (hn : n < 16) : exec (.mcgEntryAdvance t n) s
    = .next (putChanFs n { chanFsOf s1 n with
        entry := indexAt (chanFsOf s1 n).running (gatePos s1 (chanFsOf s1 n)) } s1) :=
  by
  calc exec (.mcgEntryAdvance t n) s = execMcgEntryAdvance t n s := rfl
    _ = _ := by
      unfold execMcgEntryAdvance
      rw [whenRunning_of h, if_pos hn]

/-- Once the time of a channel's pending list has come, every list whose time has come takes over. -/
theorem exec_gateSwitch (h : Occurs t s s1) (hn : n < 16) (harm : (chanFsOf s1 n).arm = .pending)
    (hT : (chanFsOf s1 n).armT ≤ now s1) : exec (.gateSwitch t n) s
      = .next (raise 240 (writeGaps (forAll ((List.range 16).filter (takeoverDue s1)) takeOver s1))) := by
  have hdue : takeoverDue s1 n = true := by simp [takeoverDue, harm, hT]
  have hsome : ¬((List.range 16).filter (takeoverDue s1)).isEmpty = true := by
    simpa using ⟨n, hn, hdue⟩
  calc exec (.gateSwitch t n) s = execGateSwitch t n s := rfl
    _ = .next (takeOverDue s1) := by
      unfold execGateSwitch
      rw [whenRunning_of h, if_pos (by simp [hn, hdue])]
    _ = _ := congrArg _ (if_neg hsome)

/-! ### The statement -/

/-- Settles O46: a service slot goes by what may issue, an arrival by what became of the data, and the lists by the
time. -/
theorem fetchingActs : Obligations.FetchingActs := by
  intro t s s1 n h hn c hc
  refine ⟨fun left0 left1 s2 s3 h0 h1 h2 h3 => ⟨fun hfree => ?free, fun a ha hearly => ?early⟩,
    ?arrival, ?advance, fun harm hT => ?takeover⟩
  case free =>
    rw [exec_fsRequestIssue h hn, serviceSlot_free hc hfree h0 h1 h2 h3]
    refine ⟨fun r q g hopen hgo => ?_, fun r q hshut hopen hgo => ?_, fun hshut0 hshut1 => ?_⟩
    · rw [throughGate_open hopen, hgo, Option.elim_some]
    · rw [throughGate_none hshut, throughGate_open hopen, hgo, Option.elim_none, Option.elim_some]
    · rw [throughGate_none hshut0, throughGate_none hshut1, Option.elim_none, Option.elim_none]
  case early => rw [exec_fsRequestIssue h hn, serviceSlot_early (hc ▸ ha) hearly]
  case arrival =>
    rintro _ pane row k x l hl rfl hq hx
    obtain ⟨rfl, rfl, rfl⟩ : x.req.pane = pane ∧ x.req.row = row ∧ x.req.k = k := by simp [hq]
    dsimp only
    intro s2 hs pd hpd sf hsf
    have hends (ok : Bool) := (exec_fetchDataArrive_front hl h hx ok).trans
      (congrArg _ (arrive_front hl ok hs hpd hsf))
    refine ⟨(hends false).trans (congrArg _ (if_pos (.inl rfl))),
      fun hbad => (hends true).trans (congrArg _ (if_pos (.inr hbad))),
      fun hbad hd => ?undecoded, fun hbad hd => ?taken⟩
    all_goals
      have hgood : ¬(true = false ∨ dataLost x pd sf s2 = true) := by
        simpa using (show dataLost x pd sf s2 = false from hbad)
      refine (hends true).trans (congrArg _ ?_)
      rw [if_neg hgood]
    case undecoded => exact if_neg ((dataDecodes_iff x pd sf s2).not.2 hd)
    case taken => exact if_pos ((dataDecodes_iff x pd sf s2).2 hd)
  case advance => rw [exec_mcgEntryAdvance h hn, hc]
  case takeover => exact exec_gateSwitch h hn (hc ▸ harm) (hc ▸ hT)

end Sys2Proof.Proofs

/-! SUPPORT. Errors of memory and of line buffers, and the migration of a channel (O59). -/
namespace Sys2Proof.Proofs
open Sys2Proof Sys2Proof.Machine Sys2Proof.Laws

variable {t : Ticks} {s s1 s2 s3 s4 : State}

/-! ### Corrected errors (R569, R572) -/

/-- A row whose repair is scheduled, or cannot be had, stays as it is. -/
theorem scheduleRow_known {w : RowRef} (h : (s.rel.pprPending.contains w || s.rel.pprExhausted.contains w) = true) :
    scheduleRow w s = s :=
  if_pos h

section
variable {w : RowRef} (h : (s.rel.pprPending.contains w || s.rel.pprExhausted.contains w) = false)
include h

theorem scheduleRow_free (hb : bankUsed s w = false) : scheduleRow w s
    = raise 963 (savePst { s with rel := { s.rel with pprPending := s.rel.pprPending ++ [w] } }) :=
  (if_neg (ne_true_of_eq_false h)).trans (if_neg (ne_true_of_eq_false hb))

theorem scheduleRow_used (hb : bankUsed s w = true) : scheduleRow w s = exhaustRow w s :=
  (if_neg (ne_true_of_eq_false h)).trans (if_pos hb)

end

/-- A corrected error in reach is logged and counted, and the eighth of its row in 24 h crosses the threshold. -/
theorem eccCorrected_of {x : EccHit} {n : Nat} {w : RowRef} {corr : List (RowRef × Ticks)} {errs : List (Nat × Ticks)}
    (hx : eccInReach s x = true) (hn : channelOf s x.addr = n) (hw : hitRow n x = w)
    (h2 : logEcc n (if x.link = true then 2 else 0) x
      (ltrAdd (0x200 + 64 * n) 1 (raiseUnit (unitChan n) (256 + 4 * n + 1) s)) = s2)
    (hcorr : (w, s2.clk.onTicks) :: s2.rel.corr.filter (fun e => withinLast s2 (hourTicks 24) e.2) = corr)
    (herrs : (n, s2.clk.onTicks) :: s2.pmu.rfErrs.filter (fun e => withinLast s2 (secTicks 600) e.2) = errs)
    (h3 : { s2 with rel := { s2.rel with corr := corr }, pmu := { s2.pmu with rfErrs := errs } } = s3) :
    eccCorrected x s = if 8 ≤ (corr.filter fun e => e.1 == w).length then scheduleRow w s3 else s3 := by
  unfold eccCorrected
  simp only [hx, hn, hw, h2, hcorr, herrs, h3, Bool.not_true, Bool.false_eq_true, if_false]

theorem exec_eccCorrected (h : Occurs t s s1) (x : EccHit) : exec (.eccCorrected t x) s = .next (eccCorrected x s1) :=
  whenRunning_of h _

/-! ### Uncorrectable errors (R571, R574) -/

/-- An uncorrectable error in reach marks its sector and is logged; it counts unless its sector was logged in 24 h, and
more than 4 retire the channel. -/
theorem eccUncorrectable_of {x : EccHit} {n q : Nat} {known errAt l : List (Nat × Nat × Ticks)}
    (hx : eccInReach s x = true) (hn : channelOf s x.addr = n) (hq : x.addr / 256 = q)
    (h2 : logEcc n (if x.link = true then 3 else 1) x
      (ltrAdd (0x200 + 64 * n + 8) 1 (raiseUnit (unitChan n) (256 + 4 * n + 2) s)) = s2)
    (h3 : { s2 with mm := { s2.mm with badSect := insertNat q s2.mm.badSect } } = s3)
    (hl : s3.rel.sectors.filter (fun e => withinLast s3 (hourTicks 24) e.2.2) = l) (hknown : loggedErrors s3 = known)
    (herrAt : known.filter (·.2.1 != q) ++ [(n, q, s3.clk.onTicks)] = errAt)
    (h4 : { s3 with rel := { s3.rel with sectors := l ++ [(n, q, s3.clk.onTicks)], errAt := errAt } } = s4) :
    eccUncorrectable x s = if ∃ e ∈ known, e.2.1 = q
      then { s3 with rel := { s3.rel with sectors := l, errAt := errAt } }
      else if 4 < uncorrCount s4 n then retireChannel n 1 (uncorrCount s4 n) s4 else s4 := by
  have hany : (known.any fun e => e.2.1 == q) = true ↔ ∃ e ∈ known, e.2.1 = q := by
    simp only [List.any_eq_true, beq_iff_eq]
  subst hn hq h2 h3 hl hknown herrAt h4
  exact (if_neg (by simp [hx])).trans (if_congr hany rfl rfl)

theorem exec_eccUncorrectable (h : Occurs t s s1) (x : EccHit) :
    exec (.eccUncorrectable t x) s = .next (eccUncorrectable x s1) :=
  whenRunning_of h _

/-! ### The migration (R143 to R145) -/

section
variable {m : Migration} (hm : s.mm.migr = some m)
include hm

/-- The surface that is moved goes to its place, or is lost when there is none. -/
theorem surfaceMoved_of {i : Nat} {x : Surface} {a : Option Nat × State} (hi : m.moving = some i) (hx : surfOf s i = x)
    (ha : allocate 16384 (allocLimit s (surfOwner s i)) (extentBytes x) s = a) :
    surfaceMoved i s = a.1.elim
      (nextMove (raise 322 (putSurf i { x with lost := true, frozen := false, wslot := noSlot, newest := noSlot } a.2)))
      fun b => nextMove (putSurf i (claimSlot { surfOf (copySlots x b a.2) i with base := b, frozen := false })
        (copySlots x b a.2)) := by
  unfold surfaceMoved
  simp only [hm, hi, hx, ha, ne_eq, not_true_eq_false, if_false]
  cases a.1 <;> rfl

variable {lost : List Nat} {s5 : State} (hidle : m.moving = none)
  (hs : switchInterleave m (lostGranules s m.channel lost) s = s5)
include hidle hs

theorem migrationDone_last (hw : s5.mm.waiting = []) :
    migrationDone lost s = { s5 with mm := { s5.mm with migr := none, migrating := false } } := by
  unfold migrationDone
  simp only [hm, hidle, hs, hw, Option.isSome_none, Bool.false_eq_true, if_false]

theorem migrationDone_next {w : Migration} {rest : List Migration} (hw : s5.mm.waiting = w :: rest) :
    migrationDone lost s = nextMove { s5 with mm := { s5.mm with migr := some w, waiting := rest } } := by
  unfold migrationDone
  simp only [hm, hidle, hs, hw, Option.isSome_none, Bool.false_eq_true, if_false]

end

/-- The switch: granules are read and written where they were and are, the lost ones become zero, the channel leaves,
and the slots hit are invalidated. -/
theorem switchInterleave_eq {m : Migration} {zero copied : List Nat} {hits : List (Nat × Nat)}
    (hhits : switchHits s m zero = hits) (hcopied : granulesOn s m.channel = copied)
    (h2 : forAll zero (fun g s => memPoke (4096 * g) (List.replicate 4096 0#8) s)
      (forAll copied (fun g s => countRead (4096 * g) 4096 s) s) = s2)
    (h3 : forAll copied (fun g s => countWrite (4096 * g) 4096 s) { s2 with mm := { s2.mm with
        live := setBit s2.mm.live m.channel false
        badSect := s2.mm.badSect.filter fun q => channelOf s2 (256 * q) != m.channel } } = s3)
    (h4 : invalidateSlots hits
      { s3 with mm := { s3.mm with mem := s3.mm.mem.filter fun c => decide (c.1 < deviceTop s3) } } = s4) :
    switchInterleave m zero s = raise 321 (if hits = [] then s4 else raise 323 s4) := by
  unfold switchInterleave
  simp only [hhits, hcopied, h2, h3, h4, List.isEmpty_iff]

theorem exec_migrationSurfaceMoved (h : Occurs t s s1) (i : Nat) :
    exec (.migrationSurfaceMoved t i) s = .next (surfaceMoved i s1) :=
  whenRunning_of h _

theorem exec_migrationDone (h : Occurs t s s1) (lost : List Nat) :
    exec (.migrationDone t lost) s = .next (migrationDone lost s1) :=
  whenRunning_of h _

/-! ### Line buffers (R576) -/

/-- A parity error marks its line where a raster runs on the slice and is counted; more than 16 in 1 s retire it. -/
theorem parityError_of {c pane y : Nat} {x : Slice} {l : List (Nat × Ticks)} (hc : c < 16) (hx : sliceOf s c = x)
    (h2 : (if x.bound = true ∧ (rasterOf s x.raster).st ≠ .stopped then putFs x.raster { fsOf s x.raster with
      parity := (pane, y) :: (fsOf s x.raster).parity.filter (· != (pane, y)) } s else s) = s2)
    (hl : (c, s2.clk.onTicks) :: s2.rel.parity.filter (fun e => withinLast s2 (secTicks 1) e.2) = l)
    (h3 : raise 968 { s2 with rel := { s2.rel with parity := l, parityCnt := sat 32 (s2.rel.parityCnt + 1) } } = s3) :
    parityError c pane y s = if 16 < (l.filter fun e => e.1 == c).length
      then retireSlice c (l.filter fun e => e.1 == c).length s3 else s3 := by
  have hidle : (!x.bound || (rasterOf s x.raster).st == .stopped) = true
      ↔ ¬(x.bound = true ∧ (rasterOf s x.raster).st ≠ .stopped) := by
    cases x.bound <;> simp
  unfold parityError
  rw [if_neg (by omega)]
  simp only [hx, hidle, ite_not, h2, hl, h3]

theorem exec_parity (h : Occurs t s s1) (c pane y : Nat) :
    exec (.parity t c pane y) s = .next (parityError c pane y s1) :=
  whenRunning_of h _

/-! ### The statement -/

/-- Settles O59: each event acts as its lemma says, and each clause is one of the cases there. -/
theorem memoryEventsAct : Obligations.MemoryEventsAct := by
  intro t s s1 h
  refine ⟨fun x n w hx hn hw => ?corrected, fun x n q hx hn hq => ?uncorrectable, fun m i x a hm hi hx ha => ?moved,
    fun m lost hm hidle zero hits copied hzero hhits hcopied => ?done, fun c pane y x hc hx s2 hs2 => ?parity⟩
  case corrected =>
    rw [exec_eccCorrected h, eccCorrected_of hx hn hw rfl rfl rfl rfl]
    refine ⟨fun hno => congrArg _ (ite_eq_right_iff.2 fun hmany =>
      scheduleRow_known (hno.resolve_left (Nat.not_lt.2 hmany))), fun hmany hknown => ?_⟩
    rw [if_pos hmany]
    subst hw
    exact ⟨fun hb => congrArg _ (scheduleRow_free hknown hb), fun hb => congrArg _ (scheduleRow_used hknown hb)⟩
  case uncorrectable =>
    rw [exec_eccUncorrectable h, eccUncorrectable_of hx hn hq rfl rfl rfl rfl rfl rfl]
    exact ⟨fun hold => congrArg _ (if_pos hold), fun hnew =>
      ⟨fun hfew => congrArg _ ((if_neg hnew).trans (if_neg (Nat.not_lt.2 hfew))),
        fun hmany => congrArg _ ((if_neg hnew).trans (if_pos hmany))⟩⟩
  case moved =>
    rw [exec_migrationSurfaceMoved h, surfaceMoved_of hm hi hx ha]
    refine ⟨fun hnone => ?_, fun b hb => ?_⟩
    · rw [hnone, Option.elim_none]
    · rw [hb, Option.elim_some]
  case done =>
    have hswitch := switchInterleave_eq hhits hcopied rfl rfl rfl
    rw [exec_migrationDone h]
    subst hzero
    exact ⟨fun hw => congrArg _ (migrationDone_last hm hidle hswitch hw),
      fun w rest hw => congrArg _ (migrationDone_next hm hidle hswitch hw)⟩
  case parity =>
    rw [exec_parity h, parityError_of hc hx hs2 rfl rfl]
    exact ⟨fun hfew => congrArg _ (if_neg (Nat.not_lt.2 hfew)), fun hmany => congrArg _ (if_pos hmany)⟩

end Sys2Proof.Proofs

/-! SUPPORT. What reset leaves (O5). -/
namespace Sys2Proof.Proofs
open Sys2Proof Sys2Proof.Machine

/-! ### Records at reset: the tables are empty, so each entry is the default of its kind -/

theorem chanFsOf_reset (n : Nat) : chanFsOf State.reset n = {} := rfl
theorem fsOf_reset (r : Nat) : fsOf State.reset r = {} := rfl
theorem rasterOf_reset (r : Nat) : rasterOf State.reset r = {} := rfl
theorem srcOf_reset (n : Nat) : srcOf State.reset n = {} := rfl
theorem tgtOf_reset (n : Nat) : tgtOf State.reset n = {} := rfl
theorem qpOf_reset (f q : Nat) : qpOf State.reset f q = {} := rfl

/-- Settles O5: each record reads as the default of its kind, whose fields are the reset values. -/
theorem resetLeaves : Obligations.ResetLeaves := by
  refine ⟨fun n => ?gates, fun r => ?rasters, fun n => ?sources, fun n => ?targets, fun f q => ?pairs, rfl, rfl, rfl, rfl⟩
  case gates => rw [chanFsOf_reset]; exact ⟨rfl, rfl, rfl⟩
  case rasters => rw [fsOf_reset, rasterOf_reset]; exact ⟨rfl, rfl, rfl⟩
  case sources => rw [srcOf_reset]; exact ⟨rfl, rfl, rfl, rfl, rfl⟩
  case targets => rw [tgtOf_reset]; exact ⟨rfl, rfl, rfl⟩
  case pairs => rw [qpOf_reset]; exact ⟨rfl, rfl⟩

end Sys2Proof.Proofs

/-! SUPPORT. The commands of gate lists, shapers, leads and their queries (O17). -/
namespace Sys2Proof.Proofs
open Sys2Proof Sys2Proof.Machine Sys2Proof.Laws

variable {p : Packet} {s : State} {r : Nat}

/-- With a buffer that can be written, what follows the check of the buffer goes on with the write of the record. -/
theorem withBuf_of {buf align : Nat} {optional : Bool} (h : bufferOk p s buf align optional = true) (bytes : List Byte)
    (k : (State → State) → Res) :
    withBuf p s buf align optional bytes k = k (bufferWrite p buf optional bytes) := by
  have hwrite : bufferWrite p buf optional bytes
      = if (optional && buf == 0) = true then id else emit (.hostWrite p.func buf bytes) := by
    funext x
    unfold bufferWrite
    split <;> rfl
  unfold bufferOk at h
  unfold withBuf
  rw [hwrite]
  split
  next => rfl
  next habsent =>
    obtain ⟨halign, hreach⟩ : buf % align = 0 ∧ hostAccessFails p s = false := by simpa [habsent] using h
    rw [if_neg (by simp [halign]), if_neg (by simp [hreach])]

/-! ### Gate lists (R162, R166 to R168, R200) -/

theorem gatelistLoadBody_ok {l : List GateEntry} (hl : loadEntries p 16 (prmb p 2 2 8 0) = l.map (fun x => (x, 0)))
    (hok : gateListOk l = true) (hlive : namesLive p (takeOverDue s) = true)
    (harm : ∀ n ∈ chMask p, (chanFsOf (takeOverDue s) n).arm ≠ .pending) :
    specGatelistLoad.body p s = .ok (some (cycleOf l)) (some (openTime 1 l))
      (writeGaps (forAll (chMask p) (fun n x => putChanFs n
        { chanFsOf x n with armed := l, arm := .loaded, taken := none } x) (takeOverDue s))) := by
  have hentries : (l.map fun x => (x, 0)).map (·.1) = l := by simp [Function.comp_def]
  calc specGatelistLoad.body p s = gatelistLoadBody p s := rfl
    _ = _ := by
      unfold gatelistLoadBody
      dsimp only
      rw [hl, hentries, require_of (by simp [hlive, hok]), require_of (by simpa using harm)]

section
variable (hlive : namesLive p s = true) (hfree : ∀ n ∈ chMask p, takenTime s n = none)
include hlive hfree

/-- A disarming leaves each list that was pending loaded. -/
theorem gatelistArmBody_disarm (hd : prmbit p 2 0 = true) :
    specGatelistArm.body p s = .ok none none (writeGaps (forAll (chMask p) (fun n x => putChanFs n
      { chanFsOf x n with arm := if (chanFsOf x n).arm = .pending then .loaded else (chanFsOf x n).arm } x) s)) := by
  calc specGatelistArm.body p s = gatelistArmBody p s := rfl
    _ = _ := by
      unfold gatelistArmBody
      dsimp only
      rw [require_of hlive, require_of (by simp [hd]), List.filterMap_eq_nil_iff.2 hfree]
      exact if_pos hd

/-- An arm for a time at least 1 µs ahead, whose lists admission takes, is not late. -/
theorem gatelistArmBody_arm (hd : prmbit p 2 0 = false) (hloaded : ∀ n ∈ chMask p, (chanFsOf s n).arm ≠ .empty)
    (hahead : now s + 1000 ≤ prm p 8 8)
    (hadm : admitLists s (fun n => if (chMask p).contains n then armedAt (prm p 8 8) false (chanFsOf s n)
      else chanFsOf s n) = none) :
    specGatelistArm.body p s = .done 0 (some (prm p 8 8)) (some (prm p 8 8 / 2 ^ 32))
      (writeGaps (forAll (chMask p) (fun n x => putChanFs n (armedAt (prm p 8 8) false (chanFsOf x n)) x) s)) := by
  have hlate : decide (prm p 8 8 < now s + 1000) = false := decide_eq_false (Nat.not_lt.2 hahead)
  have hlists : ((chMask p).all fun n => (chanFsOf s n).arm != .empty || (takenTime s n).isSome) = true :=
    List.all_eq_true.2 fun n hn => by simp [hloaded n hn]
  calc specGatelistArm.body p s = gatelistArmBody p s := rfl
    _ = _ := by
      unfold gatelistArmBody
      dsimp only
      rw [require_of hlive, require_of (by simp [hlists]), List.filterMap_eq_nil_iff.2 hfree, hlate]
      simp only [hd, Bool.false_eq_true, if_false, hadm]

end

/-- The record of the armed or the running list; the takeover time of an armed one shows only while it is pending
(DEDUCED, notes/assumptions/54.md). -/
theorem gatelistQueryBody_ok (hbuf : bufferOk p s (prm p 8 8) 16 true = true) {c : ChanFs}
    (hc : chanFsOf s (prmb p 0 1 3 0) = c) {l : List GateEntry} {time : Nat}
    (hl : (if prmbit p 1 0 = true then c.armed else c.running) = l)
    (htime : (if prmbit p 1 0 = true then armTime c.arm c.armT else c.swT) = time) :
    specGatelistQuery.body p s = .ok (some (cycleOf l)) (some (openTime 1 l))
      (bufferWrite p (prm p 8 8) true (gateRecord time c.arm c.late l) s) := by
  subst hc hl htime
  exact withBuf_ok hbuf _ _ _

/-! ### Shapers and leads (R181, R187) -/

theorem shaperSetBody_ok (hr : prmRaster p = r) (horph : (rasterOf s r).orphan = false)
    (hpeak : prmb p 1 1 5 0 = 0 ∨ (16 ≤ prmb p 1 1 5 0 ∧ prmb p 1 1 5 0 ≤ 32)) (hcbs : burstOk (prmb p 4 4 20 0) = true)
    (hpbs : burstOk (prmb p 8 4 20 0) = true) {f : RasterFs}
    (hf : { fsOf s r with stPeak := (nonzero (prmb p 1 1 5 0)).or (fsOf s r).stPeak,
                          stCbs := (nonzero (prmb p 4 4 20 0)).or (fsOf s r).stCbs,
                          stPbs := (nonzero (prmb p 8 4 20 0)).or (fsOf s r).stPbs } = f) :
    specShaperSet.body p s = .ok none none (putFs r (if rasterStopped s r then takeShaper f else f) s) := by
  subst hr hf
  calc specShaperSet.body p s = shaperSetBody p s := rfl
    _ = _ := by
      unfold shaperSetBody
      dsimp only
      rw [require_of (by simp [horph]), require_of (by simpa [hcbs, hpbs] using hpeak)]
      rfl

theorem leadSetBody_ok (hr : prmRaster p = r) (horph : (rasterOf s r).orphan = false) (hlo : 2 ≤ prmb p 1 1 4 0)
    (hle : prmb p 1 1 4 0 ≤ prmb p 2 1 4 0) (hhi : prmb p 2 1 4 0 ≤ 16)
    (hadm : admitClaim s [(fsOf s r).leadMin, prmb p 1 1 4 0] r (claimOf s r) = none) :
    specLeadSet.body p s = .ok (some (fsOf s r).cap) none
      (putFs r { fsOf s r with stLead := some (prmb p 1 1 4 0, prmb p 2 1 4 0) } s) := by
  subst hr
  calc specLeadSet.body p s = leadSetBody p s := rfl
    _ = _ := by
      unfold leadSetBody
      dsimp only
      rw [require_of (by simp [horph]), require_of (decide_eq_true ⟨hlo, hle, hhi⟩), hadm]
      rfl

/-! ### Queries of demand and latency (R193, R199, R200) -/

theorem demandQueryBody_ok (hr : prmRaster p = r) (hpend : prmbit p 1 0 = true → pendingScenes s r ≠ [])
    (hbuf : bufferOk p s (prm p 8 8) 16 false = true) {ds cry all : List Desc} {tim : Timing} {d0 : List Nat}
    (hds : (if prmbit p 1 0 = true then (pendingScenes s r).headD [] else committedScene s r) = ds)
    (hall : crystalsOf s r = all)
    (hcry : (if prmbit p 1 0 = true then all.drop (all.length - 1) else (activeCrystal s r).toList) = cry)
    (htim : (timingsOf (rasterOf s r)).headD {} = tim)
    (hd0 : ((bandDemand s r tim ds).map fun b => channelRate tim (liveCount s) b.1) = d0) :
    specDemandQuery.body p s = .ok (some (worstBand d0)) (some (mbps (maxOf d0)))
      (bufferWrite p (prm p 8 8) false (demandRecord s r tim ds cry) s) := by
  subst hr hd0 htim hcry hall hds
  have hsome : (!prmbit p 1 0 || !(pendingScenes s (prmRaster p)).isEmpty) = true := by
    cases hw : prmbit p 1 0
    · rfl
    · simpa using hpend hw
  exact (require_of hsome _ _).trans (withBuf_ok hbuf _ _ _)

/-- With CLEAR the bins are zeroed once the record is written. -/
theorem latencyHistReadBody_ok (hlive : namesLive p s = true) (hbuf : bufferOk p s (prm p 8 8) 1 false = true) {s1 : State}
    (h1 : bufferWrite p (prm p 8 8) false ((chMask p).flatMap fun n => latencyBlock (chanFsOf s n)) s = s1) :
    specLatencyHistRead.body p s = .ok none none (if prmbit p 2 0 = true then
      forAll (chMask p) (fun n x => putChanFs n { chanFsOf x n with hist := List.replicate 16 0, histMax := 0 } x) s1
      else s1) := by
  subst h1
  exact (require_of hlive _ _).trans (withBuf_of hbuf _ _)

/-! ### The statement -/

/-- Settles O17: each clause is the opcode's own part under the checks that its premises pass. -/
theorem escapementCommandsAnswer : Obligations.EscapementCommandsAnswer := by
  intro t p s e s0 r hr
  refine ⟨fun h l hl hok hlive harm => ?load, fun h hlive hfree => ⟨fun hd => ?disarm, fun hd hloaded hahead hadm => ?arm⟩,
    fun h c hc hbuf => ⟨fun hw => ?armed, fun hw => ?running⟩, fun h horph hpeak hcbs hpbs => ?shaper,
    fun h horph hlo hle hhi hadm => ?lead, fun h hpend hbuf => ?demand, fun h hlive hbuf => ?latency⟩
  case load => exact run_ok h (gatelistLoadBody_ok hl hok hlive harm)
  case disarm => exact run_ok h (gatelistArmBody_disarm hlive hfree hd)
  case arm => exact run_done h (gatelistArmBody_arm hlive hfree hd hloaded hahead hadm)
  case armed => exact run_ok h (gatelistQueryBody_ok hbuf hc (if_pos hw) (if_pos hw))
  case running => exact run_ok h (gatelistQueryBody_ok hbuf hc (if_neg (by simp [hw])) (if_neg (by simp [hw])))
  case shaper => exact run_ok h (shaperSetBody_ok hr horph hpeak hcbs hpbs rfl)
  case lead => exact run_ok h (leadSetBody_ok hr horph hlo hle hhi hadm)
  case demand => exact run_ok h (demandQueryBody_ok hr hpend hbuf rfl rfl rfl rfl rfl)
  case latency => exact run_ok h (latencyHistReadBody_ok hlive hbuf rfl)

end Sys2Proof.Proofs

/-! SUPPORT. The commands of scenes and panes (O18). -/
namespace Sys2Proof.Proofs
open Sys2Proof Sys2Proof.Machine Sys2Proof.Laws

variable {p : Packet} {s : State} {r : Nat}

/-! ### The raster that a scene command names (R306, R320, R552) -/

/-- A raster whose scenes host software may change: it is in no orphan hold, and no follower. -/
structure SceneOpen (p : Packet) (s : State) (r : Nat) : Prop where
  named : prmRaster p = r
  notOrphan : (rasterOf s r).orphan = false
  notFollower : isFollower s r = false

section
variable (h : SceneOpen p s r)
include h

theorem sceneTarget_of (k : Res) : sceneTarget p s k = k := by
  obtain ⟨rfl, horph, hfol⟩ := h
  simp [sceneTarget, require, horph, hfol]

theorem shadowTarget_of (hlock : strikeLocked s r = false) (k : Res) : shadowTarget p s k = k := by
  unfold shadowTarget
  rw [sceneTarget_of h, h.named, require_of (by simp [hlock])]

end

/-! ### Scenes that a packet gives (R227, R228, R240) -/

/-- Checks 1 to 5 of R228 pass. -/
structure SceneTaken (p : Packet) (s : State) (r : Nat) : Prop where
  bound : (rasterOf s r).first.isSome = true
  read : prmb p 2 2 12 0 = 0 ∨ hostAccessFails p s = false
  header : hdrOk p = true
  faultless : firstFault s r (prmDescs p) = none
  owned : ∀ d ∈ prmDescs p, notOwned s p.func d = false

theorem SceneTaken.sceneChecks_eq (h : SceneTaken p s r) (hr : prmRaster p = r) (k : List Desc → Res) :
    sceneChecks p s k = k (prmDescs p) := by
  have howned : (prmDescs p).find? (notOwned s p.func) = none :=
    List.find?_eq_none.2 fun d hd => by simp [h.owned d hd]
  unfold sceneChecks
  dsimp only
  rw [hr, require_of h.bound, require_of (by simpa using h.read), require_of h.header, h.faultless, howned]

theorem fallbackSetBody_ok (ho : SceneOpen p s r) (h : SceneTaken p s r) :
    specFallbackSet.body p s = .ok none none (putScene r { sceneOf s r with
      fallback := if (prmDescs p).isEmpty then none else some (prmHdr p, prmDescs p) } s) := by
  obtain rfl := ho.named
  exact (sceneTarget_of ho _).trans (h.sceneChecks_eq rfl _)

/-- A scene that passes admission as well is answered with its number and peak demand; only a submit stores it. -/
theorem submitBody_ok (ho : SceneOpen p s r) (h : SceneTaken p s r) (hlock : strikeLocked s r = false)
    (hids : ∀ k, checkIds s r [] (prmDescs p) k = k) (hadm : admitScene s r (prmDescs p) = none) {peak : Nat}
    (hpeak : mbps (peak0 s r ⟨[prmDescs p], [], timingsOf (rasterOf s r)⟩) = peak) (store : Bool) :
    submitBody store p s = .ok (some (prmb p 4 4 23 0)) (some peak)
      (if store = true then submitScene r (prmHdr p) (prmDescs p) (prmbit p 1 0) s else s) := by
  obtain rfl := ho.named
  unfold submitBody
  dsimp only
  rw [shadowTarget_of ho hlock, h.sceneChecks_eq rfl, hids, hadm, hpeak]
  rfl

theorem sceneCommitBody_ok (ho : SceneOpen p s r) (hlock : strikeLocked s r = false) :
    specSceneCommit.body p s = .ok (some (sceneOf s r).shadow.scene) none (setCommit r s) := by
  obtain rfl := ho.named
  exact shadowTarget_of ho hlock _

/-! ### PANE_UPDATE (R230, R231) -/

/-- A member of a shadow scene is no crystal's. -/
theorem inShadow_not_crystal {id : Nat} (h : inShadow s r id = true) : isCrystalDesc (shadowDesc s id) = false := by
  unfold inShadow at h
  simpa using (Bool.and_eq_true_iff.1 h).2

/-- An update that the rules of R204 pass, and whose new surface, if it names one, may stand in for the old one without
admission. -/
theorem paneUpdateBody_ok (ho : SceneOpen p s r) (hlock : strikeLocked s r = false) {id : Nat} {d : Desc}
    (hid : prmb p 2 2 12 0 = id) (hd : shadowDesc s id = d) (hin : inShadow s r id = true)
    (hmask : prmb p 4 4 31 11 = 0) (hrules : breaksRules p s id (updated p d) = false)
    (hsurf : ∀ i, newSurface p s = some i →
      (surfOf s i).crystal = false ∧ sameSurface (surfOf s (dSurface d)) (surfOf s i) = true) {s1 : State}
    (h1 : putShadow id (updated p d) (clearCommit r s) = s1) :
    specPaneUpdate.body p s = .ok none none (if prmbit p 1 0 = true then setCommit r s1 else s1) := by
  obtain rfl := ho.named
  subst hid hd h1
  have hcrystal := inShadow_not_crystal hin
  calc specPaneUpdate.body p s = paneUpdateBody p s := rfl
    _ = _ := by
      unfold paneUpdateBody
      dsimp only
      rw [shadowTarget_of ho hlock, require_of (by simp [hcrystal]), require_of (by simp [hin, hmask])]
      cases hnew : newSurface p s with
      | none => exact require_of (by simp [hrules]) _ _
      | some i =>
        obtain ⟨hplain, hsame⟩ := hsurf i hnew
        exact (require_of (by simp [hplain]) _ _).trans (require_of (by simp [hsame, hrules]) _ _)

/-! ### Queries (R239, R241) -/

theorem sceneQueryBody_ok (ho : SceneOpen p s r) (hn : prmb p 4 2 12 0 ≤ 4096)
    (hbuf : bufferOk p s (prm p 8 8) 64 false = true) {h : SceneHdr} {ds : List Desc}
    (hh : (if prmbit p 1 0 = true then (sceneOf s r).shadow else (sceneOf s r).active) = h)
    (hds : (if prmbit p 1 0 = true then shadowScene s r else committedScene s r) = ds) :
    specSceneQuery.body p s = .ok (some h.scene) (some ds.length)
      (bufferWrite p (prm p 8 8) false (sceneRecord s r h ds (prmb p 2 2 12 0) (prmb p 4 2 12 0)) s) := by
  obtain ⟨rfl, -, hfol⟩ := ho
  subst hh hds
  exact (require_of (by simp [hfol, hn]) _ _).trans (withBuf_ok hbuf _ _ _)

/-- With CLEAR the counters of the raster's own panes are zeroed once the record is written. -/
theorem paneCountersReadBody_ok (ho : SceneOpen p s r) (hpos : 1 ≤ prmb p 4 2 12 0) (hn : prmb p 4 2 12 0 ≤ 4096)
    (hlast : prmb p 2 2 12 0 + prmb p 4 2 12 0 ≤ 8192) (hbuf : bufferOk p s (prm p 8 8) 32 false = true)
    {ids : List Nat} {s1 : State} (hids : (List.range (prmb p 4 2 12 0)).map (prmb p 2 2 12 0 + ·) = ids)
    (h1 : bufferWrite p (prm p 8 8) false (ids.flatMap (paneCounters s r)) s = s1) :
    specPaneCountersRead.body p s = .ok none none (if prmbit p 1 0 = true then
      forAll (ids.filter (inActive s1 r)) (fun id x => putRun id (zeroCounters (paneRun x id)) x) s1 else s1) := by
  obtain ⟨rfl, horph, hfol⟩ := ho
  subst h1 hids
  exact (require_of (by simp [horph]) _ _).trans
    ((require_of (by simp [hfol, hpos, hn, hlast]) _ _).trans (withBuf_of hbuf _ _))

/-! ### The statement -/

/-- Settles O18: each clause is the opcode's own part under the checks that its premises pass. -/
theorem sceneCommandsAnswer : Obligations.SceneCommandsAnswer := by
  intro t p s e s0 r hr horph hfol
  have ho : SceneOpen p s0 r := ⟨hr, horph, hfol⟩
  refine ⟨fun hbound hread hhdr hfault howned => ?scenes, fun h hlock => ?commit,
    fun h hlock d hd hin hmask hrules hsurf => ?update, fun h hn hbuf => ?query,
    fun h hpos hn hlast hbuf => ?counters⟩
  case scenes =>
    have hs : SceneTaken p s0 r := ⟨hbound, hread, hhdr, hfault, howned⟩
    refine ⟨fun h => run_ok h (fallbackSetBody_ok ho hs), fun hlock hids hadm => ?_⟩
    have hbody := submitBody_ok ho hs hlock hids hadm rfl
    exact ⟨fun h => run_ok h (hbody true), fun h => run_ok h (hbody false)⟩
  case commit => exact run_ok h (sceneCommitBody_ok ho hlock)
  case update => exact run_ok h (paneUpdateBody_ok ho hlock rfl hd hin hmask hrules hsurf rfl)
  case query => exact run_ok h (sceneQueryBody_ok ho hn hbuf rfl rfl)
  case counters => exact run_ok h (paneCountersReadBody_ok ho hpos hn hlast hbuf rfl rfl)

end Sys2Proof.Proofs

/-! SUPPORT. Writes of the registers that command a unit (O41). -/
namespace Sys2Proof.Proofs
open Sys2Proof Sys2Proof.Machine Sys2Proof.Laws

variable {t : Ticks} {s s1 : State} {r v c : Nat}

/-! ### COMMIT (R313, R320, R340) -/

/-- COMMIT set where it was clear starts an index build; in the latch cycle that neither a strike nor the hold of an
orphan keeps, it counts as deferred as well. -/
theorem setCommit_of_clear (hc : (rasterOf s r).commit = false) {s2 : State}
    (h2 : startBuild r (putRaster r { rasterOf s r with commit := true, commitAt := s.clk.ticks } s) = s2) :
    setCommit r s = if (rasterOf s r).latchAt = some s.clk.ticks ∧ (rasterOf s r).orphan = false ∧ strikeOf s r = none
      then countDefer r s2 else s2 := by
  subst h2
  have hcond : ((rasterOf s r).latchAt == some s.clk.ticks && !(rasterOf s r).orphan && (strikeOf s r).isNone) = true
      ↔ (rasterOf s r).latchAt = some s.clk.ticks ∧ (rasterOf s r).orphan = false ∧ strikeOf s r = none := by
    simp [and_assoc]
  unfold setCommit
  dsimp only
  rw [if_neg (by simp [hc])]
  exact if_congr hcond rfl rfl

/-- PF0's write of COMMIT acts on a raster that no VF owns, that follows no other and whose shadow set no strike locks. -/
theorem exec_rgCommitWrite (h : Reaches t 0 s s1) (hr : r < 16) (hown : rasterOwner s1 r = 0)
    (hfol : isFollower s1 r = false) (hlock : strikeLocked s1 r = false) :
    exec (.rgCommitWrite t 0 r v) s = .next (if tbit v 0 = true then setCommit r s1 else clearCommit r s1) := by
  calc exec (.rgCommitWrite t 0 r v) s = execRgCommitWrite t 0 r v s := rfl
    _ = _ := by
      unfold execRgCommitWrite
      rw [regAccess_of h, if_pos ⟨rfl, hr⟩, writeCommit, if_neg (by simp [hown, hfol, hlock])]

/-! ### The pane-table window (R232, R233) -/

theorem exec_paneWindowWrite {off id : Nat} {old d : Desc} (h : Reaches t 0 s s1) (hlo : 0x100000 ≤ off)
    (hhi : off < 0x180000) (hid : (off - 0x100000) / 64 = id) (hold : shadowDesc s1 id = old)
    (hd : putBytes old (off % 64 / 4 * 4) (leBytes 4 v) = d) :
    exec (.paneWindowWrite t 0 off v) s = .next (if windowDenied s1 id d = true then denyWindow (dRaster old) s1
      else clearCommit (dRaster d) (putShadow id d (clearCommit (dRaster old) s1))) := by
  subst hid hold hd
  calc exec (.paneWindowWrite t 0 off v) s = execPaneWindowWrite t 0 off v s := rfl
    _ = _ := by
      unfold execPaneWindowWrite
      rw [regAccess_of h, if_pos ⟨rfl, hlo, hhi⟩]
      rfl

/-! ### Lists of the blitter (R459, R477) -/

theorem exec_blRegListStart (h : Reaches t 0 s s1) : exec (.blRegListStart t 0 v) s = .next (writeLctl v s1) :=
  regAccess_of h (writeLctl v) id

theorem exec_blRegListStop (h : Reaches t 0 s s1) : exec (.blRegListStop t 0 v) s = .next (writeLctl v s1) :=
  regAccess_of h (writeLctl v) id

/-- START without STOP while no list runs: the list waits where new operations wait, and else begins if it can. -/
theorem writeLctl_start (hstart : tbit v 0 = true) (hstop : tbit v 1 = false) (hlist : s.bl.list = none) {s2 : State}
    (h2 : { s with bl := { s.bl with stopOnErr := tbit v 2, regWait := true } } = s2) :
    writeLctl v s = if blHolds s = true then s2 else beginRegList s2 := by
  subst h2
  simp only [writeLctl, hstart, hstop, hlist, Option.isNone_none, Bool.and_self, if_true, Bool.false_eq_true, if_false]
  rfl

/-- STOP without START ends the list in progress, once its entry is over. -/
theorem writeLctl_stop {l : BlList} (hstart : tbit v 0 = false) (hstop : tbit v 1 = true) (hlist : s.bl.list = some l)
    {s2 : State} (h2 : { s with bl := { s.bl with stopOnErr := tbit v 2, list := some { l with stop := true } } } = s2) :
    writeLctl v s = if s.bl.op.isSome = true then s2 else endList 0x108 s2 := by
  subst h2
  simp only [writeLctl, hstart, hstop, hlist, Bool.false_and, Bool.false_eq_true, if_false, if_true]

/-- A list goes on waiting while the blitter is at work or memory does not serve the list. -/
theorem beginRegList_busy (h : s.bl.op.isSome = true ∨ s.bl.job.isSome = true
    ∨ listWaits s s.bl.laddr (listLimit s.bl.lcount) = true) : beginRegList s = s := by
  refine if_neg fun hfree => ?_
  simp only [Bool.and_eq_true, Bool.not_eq_true', Option.isNone_iff_eq_none] at hfree
  obtain ⟨⟨⟨⟨-, hop⟩, -⟩, hjob⟩, hserved⟩ := hfree
  simp [hop, hjob, hserved] at h

theorem beginRegList_free (hwait : s.bl.regWait = true) (hop : s.bl.op = none) (hlist : s.bl.list = none)
    (hjob : s.bl.job = none) (hserved : listWaits s s.bl.laddr (listLimit s.bl.lcount) = false) :
    beginRegList s = beginList s.bl.laddr (listLimit s.bl.lcount) s.bl.stopOnErr true
      { s with bl := { s.bl with regWait := false } } :=
  if_pos (by simp [hwait, hop, hlist, hjob, hserved])

/-! ### Chains of the DMA (R482, R492, R499) -/

section
variable (h : Reaches t 0 s s1)
include h

theorem exec_hdRegStart : exec (.hdRegStart t 0 c) s = .next (startChain c s1) :=
  regAccess_of h (startChain c) id

theorem exec_hdRegAbort : exec (.hdRegAbort t 0 c) s = .next (abortChain c s1) :=
  regAccess_of h (abortChain c) id

theorem exec_hdReqsetWrite : exec (.hdReqsetWrite t 0 v) s = .next (writeReqset v s1) :=
  regAccess_of h (writeReqset v) id

end

section
variable {x : HdChan} (hx : hdOf s c = x)
include hx

theorem startChain_idle (hc : c < 12) (hst : x.st = .idle) (hok : hdStartable x = true) : startChain c s = putHd c
    { x with st := .ready, head := x.chead, count := 0, resid := 0, desc := none, start := true } s := by
  subst hx
  exact if_pos ⟨hc, hst, hok⟩

theorem startChain_busy (hst : x.st ≠ .idle) : startChain c s = s := by
  subst hx
  exact if_neg fun hidle => hst hidle.2.1

theorem abortChain_busy (hc : c < 12) (hst : x.st ≠ .idle) :
    abortChain c s = abortChan c (putHd c { x with abort := true } s) := by
  subst hx
  exact if_pos ⟨hc, hst⟩

theorem abortChain_idle (hst : x.st = .idle) : abortChain c s = s := by
  subst hx
  exact if_neg fun hbusy => hbusy.2 hst

end

/-! ### The statement -/

/-- Settles O41: each write reaches its unit, and each clause is one branch of what the unit does. -/
theorem registerCommandsAct : Obligations.RegisterCommandsAct := by
  intro t s s1 v h
  refine ⟨fun r hr hown hfol hlock => ⟨fun hv hclear => ⟨fun hkept => ?set, fun hlatch horph hstrike => ?deferred⟩,
      fun hv => ?clear⟩,
    fun off hlo hhi id old d hid hold hd => ⟨fun hok => ?window, fun hdeny => ?denied⟩,
    fun hstart hstop hlist => ⟨fun hbusy => ?waits, fun hholds hop hjob hserved => ?begins⟩,
    fun l hstart hstop hlist => ⟨fun hop => ?stops, fun hop => ?ends⟩,
    fun c hc x hx => ⟨fun hst hok => ?start, fun hst => ?started, fun hst => ?abort, fun hst => ?idle⟩,
    exec_hdReqsetWrite h⟩
  case set =>
    rw [exec_rgCommitWrite h hr hown hfol hlock, if_pos hv, setCommit_of_clear hclear rfl]
    refine congrArg _ (if_neg fun ⟨hlatch, horph, hnone⟩ => ?_)
    rcases hkept with hk | hk | hk
    · exact hk hlatch
    · simp [horph] at hk
    · simp [hnone] at hk
  case deferred =>
    rw [exec_rgCommitWrite h hr hown hfol hlock, if_pos hv, setCommit_of_clear hclear rfl]
    exact congrArg _ (if_pos ⟨hlatch, horph, hstrike⟩)
  case clear =>
    rw [exec_rgCommitWrite h hr hown hfol hlock]
    exact congrArg _ (if_neg (by simp [hv]))
  case window =>
    rw [exec_paneWindowWrite h hlo hhi hid hold hd]
    exact congrArg _ (if_neg (by simp [hok]))
  case denied =>
    rw [exec_paneWindowWrite h hlo hhi hid hold hd]
    exact congrArg _ (if_pos hdeny)
  case waits =>
    rw [exec_blRegListStart h, writeLctl_start hstart hstop hlist rfl]
    exact congrArg _ (ite_eq_left_iff.2 fun hfree => beginRegList_busy (hbusy.resolve_left hfree))
  case begins =>
    rw [exec_blRegListStart h, writeLctl_start hstart hstop hlist rfl, if_neg (by simp [hholds])]
    exact congrArg _ (beginRegList_free rfl hop hlist hjob hserved)
  case stops =>
    rw [exec_blRegListStop h, writeLctl_stop hstart hstop hlist rfl]
    exact congrArg _ (if_pos hop)
  case ends =>
    rw [exec_blRegListStop h, writeLctl_stop hstart hstop hlist rfl]
    exact congrArg _ (if_neg (by simp [hop]))
  case start => exact (exec_hdRegStart h).trans (congrArg _ (startChain_idle hx hc hst hok))
  case started => exact (exec_hdRegStart h).trans (congrArg _ (startChain_busy hx hst))
  case abort => exact (exec_hdRegAbort h).trans (congrArg _ (abortChain_busy hx hc hst))
  case idle => exact (exec_hdRegAbort h).trans (congrArg _ (abortChain_idle hx hst))

end Sys2Proof.Proofs

/-! SUPPORT. The frames of a raster: its latches, its frame starts, its lines and the builds of its index (O45). -/
namespace Sys2Proof.Proofs
open Sys2Proof Sys2Proof.Machine Sys2Proof.Laws

variable {t : Ticks} {s s1 s2 : State} {r y : Nat} {x : Raster}

/-- An event of a raster that exists acts on it. -/
theorem whenRunning_raster (h : Occurs t s s1) (hr : r < 16) (f : State → State) :
    whenRunning t (fun s => if r < 16 then f s else s) s = .next (f s1) :=
  (whenRunning_of h _).trans (congrArg _ (if_pos hr))

/-! ### Latches (R300, R301, R547, R639) -/

/-- A start latch whose lead-in would not end before the planned frame start is taken, and the last of a return from P2
completes the return. -/
theorem rasterStartLatch_due (hx : rasterOf s r = x) (hwait : x.waitingStart = true)
    (hentering : s.pmu.entering = false) (hdue : x.startFt ≤ nsAt s (s.clk.ticks + leadTicks x.tim))
    (hs : takeLatch r s.clk.ticks (putRaster r { x with
      waitingStart := false, leadIn := true, restart := false, line := x.tim.latch,
      accAt := s.clk.ticks, pos0 := x.tim.latch * linePixels x.tim, starts := 0 } s) = s2) :
    rasterStartLatch r s = if s2.pmu.resuming && !(List.range 16).any fun k => (rasterOf s2 k).restart
      then finishUnit pmuUnit 0 (some 2) none
        (raise 992 { s2 with pmu := { s2.pmu with resuming := false, changing := false } })
      else s2 := by
  subst hx hs
  exact if_neg (by simp [hwait, hentering, hdue])

/-- The latch of a frame is taken once its line begins. -/
theorem rasterLatch_due (hx : rasterOf s r = x) (hst : x.st ≠ .stopped) (hlatched : x.latched = false)
    (hnew : x.newFrame = false) (hline : x.tim.latch ≤ x.line + 1) (hdue : lineTick x x.tim.latch ≤ s.clk.ticks) :
    rasterLatch r s = takeLatch r (lineTick x x.tim.latch) s := by
  subst hx
  exact if_neg (by simp [hst, hlatched, hnew, hline, hdue])

/-! ### Frame starts (R300, R309) -/

/-- What comes before a new frame: the frame in progress ends, when there is one. -/
def frameEnded (r : Nat) (s : State) : State :=
  if (rasterOf s r).leadIn then s else endFrame r (frameTick (rasterOf s r)) s

/-- A new frame begins at a tick: the re-home, the frame and its timing, its state, and line 0 of its tiles. -/
def frameBegun (r : Nat) (due : Ticks) (s : State) : State :=
  let s3 := rehomeStep r s
  let s4 := putRaster r (beginFrameAt due (nsAt s3 due) (rasterOf s3 r)) s3
  let s4 := if (rasterOf s3 r).nextTim.isSome then recountRaster r s4 else s4
  let s5 := setDpState r (upcoming s4 r) s4
  let y := rasterOf s5 r
  let s6 := if y.ready.isNone && y.st != .halted then composeTiles r 0 y.frame s5 else s5
  compareUnit (unitRaster r) (forAll (tilesOf s6 r) startSinks s6)

/-- At a frame start that is due the frame before has ended, and the raster stops or its next frame begins. -/
theorem frameStart_due (hx : rasterOf s r = x) (hruns : x.st ≠ .stopped ∨ x.leadIn = true)
    (hlatched : x.latched = true) (hnew : x.newFrame = false) (hline : x.line + 1 = vTotal x.tim)
    (hdue : frameTick x ≤ s.clk.ticks) :
    frameStart r s = if x.stopping then stopRaster r (frameEnded r s)
      else frameBegun r (frameTick x) (frameEnded r s) := by
  subst hx
  exact if_neg (by simpa [hlatched, hnew, hline, hdue] using or_iff_not_imp_left.1 hruns)

/-! ### Lines (R299, R302, R304) -/

/-- A line that is due begins: an active one is emitted, and the slices compose the next line, if that is active or the
first of the next frame. -/
theorem lineStart_due (hx : rasterOf s r = x) (hdue : lineDue s x y = true)
    (hs : putRaster r { x with line := y, newFrame := false } s = s1)
    (he : (if y < x.tim.vact && !x.leadIn then forAll (tilesOf s1 r) (emitLine y) s1 else s1) = s2) :
    lineStart r y s = if y + 1 < x.tim.vact then openLine r (composeTiles r (y + 1) x.frame s2)
      else if y + 1 = vTotal x.tim then openLine r (composeNext r s2) else s2 := by
  subst hx hs he
  exact if_neg (by simp [hdue])

/-- Outside the active lines nothing is emitted or composed, but line 0 of the next frame in the last line. -/
theorem lineStart_blank (hx : rasterOf s r = x) (hdue : lineDue s x y = true)
    (hs : putRaster r { x with line := y, newFrame := false } s = s1) (hblank : x.tim.vact ≤ y) :
    lineStart r y s = if y + 1 = vTotal x.tim then openLine r (composeNext r s1) else s1 := by
  rw [lineStart_due hx hdue hs (if_neg (by simp [Nat.not_lt.2 hblank])), if_neg (by omega)]

/-! ### Builds (R213) -/

/-- A build in progress of an index completes. -/
theorem exec_indexBuildDone (h : Occurs t s s1) (hr : r < 16) (hbuild : (sceneOf s1 r).building = true) :
    exec (.indexBuildDone t r) s = .next (finishBuild r s1) := by
  calc exec (.indexBuildDone t r) s = execIndexBuildDone t r s := rfl
    _ = _ := by
      unfold execIndexBuildDone
      rw [whenRunning_of h, if_pos (by simp [hr, hbuild])]

/-! ### The statement -/

/-- Settles O45: each event of the raster is one operation on it, and each clause one branch of that operation. -/
theorem rasterFramesAct : Obligations.RasterFramesAct := by
  intro t s s1 r h hr x hx
  refine ⟨fun hwait hentering hdue => ?start, fun hst hlatched hnew hline hdue => ?latch,
    fun hruns hlatched hnew hline due hdue hpast s2 hlead hframe => ?frame, fun y hdue => ?line, fun hbuild => ?build⟩
  case start =>
    have hexec := (whenRunning_raster h hr (rasterStartLatch r)).trans
      (congrArg _ (rasterStartLatch_due hx hwait hentering hdue rfl))
    refine ⟨fun hres => hexec.trans (congrArg _ (if_neg (by simp [hres]))),
      fun hres hnone => hexec.trans (congrArg _ (if_pos ?_))⟩
    simpa [hres] using hnone
  case latch =>
    exact (whenRunning_raster h hr (rasterLatch r)).trans
      (congrArg _ (rasterLatch_due hx hst hlatched hnew hline hdue))
  case frame =>
    have hended : frameEnded r s1 = s2 := by
      subst hx hdue
      cases hl : (rasterOf s1 r).leadIn with
      | true => exact (if_pos hl).trans (hlead hl).symm
      | false => exact (if_neg (Bool.eq_false_iff.1 hl)).trans (hframe hl).symm
    have hexec := (whenRunning_raster h hr (frameStart r)).trans
      (congrArg _ (frameStart_due hx hruns hlatched hnew hline (hdue ▸ hpast)))
    rw [hended, hdue] at hexec
    exact ⟨fun hstop => hexec.trans (congrArg _ (if_pos hstop)),
      fun hstop => hexec.trans (congrArg _ (if_neg (Bool.eq_false_iff.1 hstop)))⟩
  case line =>
    have hexec := whenRunning_raster h hr (lineStart r y)
    refine ⟨fun hact hlead => ?_, fun hblank hmid => ?_, fun hblank hlast => ?_⟩
    · have hemit : (decide (y < x.tim.vact) && !x.leadIn) = true := by simp [hlead, Nat.lt_of_succ_lt hact]
      exact hexec.trans (congrArg _ ((lineStart_due hx hdue rfl (if_pos hemit)).trans (if_pos hact)))
    · exact hexec.trans (congrArg _ ((lineStart_blank hx hdue rfl hblank).trans (if_neg (Nat.ne_of_lt hmid))))
    · exact hexec.trans (congrArg _ ((lineStart_blank hx hdue rfl hblank).trans (if_pos hlast)))
  case build =>
    subst hx
    exact exec_indexBuildDone h hr hbuild

end Sys2Proof.Proofs

/-! SUPPORT. The loads of colour tables and of output settings (O19). -/
namespace Sys2Proof.Proofs
open Sys2Proof Sys2Proof.Machine Sys2Proof.Laws

variable {p : Packet} {s s1 : State} {b : List Byte}

/-! ### The checks of a load (R266) -/

/-- Data that can be read is what the load goes on with. -/
theorem withTable_of {n : Nat} (hbuf : bufferOk p s (prm p 8 8) 64 false = true) (hb : fitBytes n p.env.data = b)
    (k : List Byte → Res) : withTable p s n k = k b := by
  obtain ⟨halign, hreach⟩ : prm p 8 8 % 64 = 0 ∧ hostAccessFails p s = false := by simpa [bufferOk] using hbuf
  unfold withTable
  rw [require_of (by simp [halign]), require_of (by simp [hreach]), hb]

theorem firstBad_of {l : List (Option Nat)} (h : ∀ x ∈ l, x = none) (k : Res) : firstBad l k = k := by
  unfold firstBad
  rw [show l.findSome? id = none from List.findSome?_eq_none_iff.2 h]

/-! ### Coefficient banks and input matrices (R253, R257, R266, R271) -/

/-- The bytes of data that a load of a kind reads. -/
def bankSize (kind : Nat) : Nat := if kind = 0 then 1024 else if kind = 1 then 768 else 64

/-- The faults that the data, the index and TAPS of a load of a kind have, in the order of their checks. -/
def bankFaults (kind i taps : Nat) (b : List Byte) : List (Option Nat) :=
  if kind = 2 then [whole (taps == 0), whole (decide (8 ≤ i) && zeroBytes b 42 64)]
  else [badCoef (if kind = 0 then 8 else 6) b, badPhase (if kind = 0 then 8 else 6) b,
    whole (if kind = 1 then taps != 3 else taps == 0)]

/-- A load of a bank or of an input matrix: its parameters are legal, its data can be read, and no raster still goes on
with an older copy. -/
structure BankLoad (p : Packet) (s : State) (kind i taps : Nat) : Prop where
  kind_eq : prmb p 0 1 1 0 = kind
  index_eq : prmb p 1 1 5 0 = i
  taps_eq : prmb p 2 1 1 0 = taps
  buffer : bufferOk p s (prm p 8 8) 64 false = true
  bits : onlyBits p [(0, 1, 3), (1, 1, 0x3F), (2, 1, 3), allBits 8 8] = true
  closed : loadOpen s (tblKey kind i) = false

namespace BankLoad

variable {kind i taps : Nat}

/-- Of data without a fault a new copy is loaded, once admission has passed where TAPS of a vertical bank change. -/
theorem body_eq (h : BankLoad p s kind i taps) (hindex : kind ≠ 3 ∧ (kind = 2 ∨ i < 32))
    (hb : fitBytes (bankSize kind) p.env.data = b) (hfaults : ∀ x ∈ bankFaults kind i taps b, x = none)
    (h1 : loadTable (tblKey kind i) ⟨b, taps⟩ allRasters s = s1) :
    specCoefBankLoad.body p s
      = if kind = 1 ∧ tapsOf (newestCopy s (tblKey kind i)) ≠ tapsOf (some ⟨b, taps⟩) then
          verdictRes (admitBank s s1 i) (loaded s1)
        else loaded s1 := by
  obtain ⟨rfl, rfl, rfl, hbuf, hbits, hclosed⟩ := h
  subst h1
  calc specCoefBankLoad.body p s
    _ = _ := require_of (by simpa [hbits] using hindex) _ _
    _ = _ := withTable_of hbuf hb _
    _ = _ := firstBad_of hfaults _
    _ = _ := require_of (by simp [hclosed]) _ _

theorem horizontal (h : BankLoad p s 0 i 0) (hi : i < 32) (hb : fitBytes 1024 p.env.data = b)
    (hcoef : badCoef 8 b = none) (hphase : badPhase 8 b = none) :
    specCoefBankLoad.body p s = loaded (loadTable (tblKey 0 i) ⟨b, 0⟩ allRasters s) :=
  h.body_eq (by simp [hi]) hb (by simp [bankFaults, whole, hcoef, hphase]) rfl

/-- A change of TAPS asks for admission. -/
theorem vertical (h : BankLoad p s 1 i taps) (hi : i < 32) (hb : fitBytes 768 p.env.data = b)
    (hcoef : badCoef 6 b = none) (hphase : badPhase 6 b = none) (htaps : taps ≠ 3)
    (h1 : loadTable (tblKey 1 i) ⟨b, taps⟩ allRasters s = s1)
    (hadm : tapsOf (newestCopy s (tblKey 1 i)) ≠ tapsOf (some ⟨b, taps⟩) → admitBank s s1 i = none) :
    specCoefBankLoad.body p s = loaded s1 := by
  rw [h.body_eq (by simp [hi]) hb (by simp [bankFaults, whole, hcoef, hphase, htaps]) h1]
  split
  next hchange =>
    rw [hadm hchange.2]
    rfl
  next => rfl

theorem matrixEntry (h : BankLoad p s 2 i 0) (hi : 8 ≤ i) (hb : fitBytes 64 p.env.data = b)
    (hzero : zeroBytes b 42 64 = true) :
    specCoefBankLoad.body p s = loaded (loadTable (tblKey 2 i) ⟨b, 0⟩ allRasters s) :=
  h.body_eq (by simp) hb (by simp [bankFaults, whole, hi, hzero]) rfl

end BankLoad

/-! ### LUTs (R260, R264, R266) -/

theorem itfLutLoadBody_ok (hbuf : bufferOk p s (prm p 8 8) 64 false = true)
    (hbits : onlyBits p [(0, 1, 7), allBits 8 8] = true) (hclosed : loadOpen s (tblKey 3 (prmb p 0 1 2 0)) = false)
    (hb : fitBytes 2048 p.env.data = b) (hentry : badEntry b = none) :
    specItfLutLoad.body p s = loaded (loadTable (tblKey 3 (prmb p 0 1 2 0)) { data := b } allRasters s) :=
  calc specItfLutLoad.body p s
    _ = _ := require_of hbits _ _
    _ = _ := withTable_of hbuf hb _
    _ = _ := firstBad_of (by simp [hentry]) _
    _ = _ := require_of (by simp [hclosed]) _ _

theorem lut3dLoadBody_ok (hbuf : bufferOk p s (prm p 8 8) 64 false = true)
    (hbits : onlyBits p [(0, 1, 0xF), allBits 8 8] = true) (hclosed : loadOpen s (tblKey 4 (prmRaster p)) = false)
    (hb : fitBytes 39304 p.env.data = b) (hreserved : nodesReserved b = true) (hnode : badNode b = none) :
    specLut3dLoad.body p s = loaded (loadTable (tblKey 4 (prmRaster p)) { data := b } [prmRaster p] s) :=
  calc specLut3dLoad.body p s
    _ = _ := require_of hbits _ _
    _ = _ := withTable_of hbuf hb _
    _ = _ := firstBad_of (by simp [whole, hreserved, hnode]) _
    _ = _ := require_of (by simp [hclosed]) _ _

/-! ### Output settings (R265, R267, R294) -/

/-- Codes in range, with no temporal dither on a raster whose crystal check has an ACTION, are stored. -/
theorem outputColourSetBody_ok {r : Nat} {o : OutSet} (hr : prmRaster p = r) (ho : prmOutSet p = o)
    (hbits : onlyBits p [(0, 1, 0xF), (1, 1, 0xF), (2, 1, 7), (3, 1, 0x33), allBits 8 24] = true)
    (hwtf : o.wtf ≤ 4) (hotf : o.otf ≤ 4) (hdither : o.dither ≤ 2) (haction : o.dither = 2 → hasAction s r = false)
    (hold : (rasterTbl s r).oldOut = none) : specOutputColourSet.body p s = loaded (setOutput r o s) := by
  subst hr ho
  calc specOutputColourSet.body p s
    _ = _ := require_of (by simp [hbits, hwtf, hotf, hdither]) _ _
    _ = _ := require_of (by simpa [Decidable.imp_iff_not_or] using haction) _ _
    _ = _ := require_of (by simp [hold]) _ _

/-! ### The statement -/

/-- Settles O19: each clause is the opcode's own part under the checks that its premises pass. -/
theorem colourCommandsAnswer : Obligations.ColourCommandsAnswer := by
  intro t p s e s0 b
  refine ⟨fun h hbuf hbits hclosed => ?bank, fun h hbuf hbits hclosed hb hentry => ?itf,
    fun h hbuf hbits hclosed hb hreserved hnode => ?lut3d, fun h hbits hwtf hotf hdither haction hold => ?output⟩
  case bank =>
    have hload : ∀ {kind taps}, prmb p 0 1 1 0 = kind → prmb p 2 1 1 0 = taps →
        BankLoad p s0 kind (prmb p 1 1 5 0) taps := fun hkind htaps =>
      ⟨hkind, rfl, htaps, hbuf, hbits, hkind ▸ hclosed⟩
    refine ⟨fun hkind hi hb hcoef hphase htaps => ?_, fun hkind hi hb hcoef hphase taps htaps htaps3 hadm => ?_,
      fun hkind hb htaps hi hzero => ?_⟩
    · rw [hkind]
      exact run_ok h ((hload hkind htaps).horizontal hi hb hcoef hphase)
    · rw [hkind] at hadm ⊢
      exact run_ok h ((hload hkind htaps).vertical hi hb hcoef hphase htaps3 rfl hadm)
    · rw [hkind]
      exact run_ok h ((hload hkind htaps).matrixEntry hi hb hzero)
  case itf => exact run_ok h (itfLutLoadBody_ok hbuf hbits hclosed hb hentry)
  case lut3d => exact run_ok h (lut3dLoadBody_ok hbuf hbits hclosed hb hreserved hnode)
  case output => exact run_ok h (outputColourSetBody_ok rfl rfl hbits hwtf hotf hdither haction hold)

end Sys2Proof.Proofs

/-! SUPPORT. The commands of the crystal layer: its key (O20), crystals and their commits (O21). -/
namespace Sys2Proof.Proofs
open Sys2Proof Sys2Proof.Machine Sys2Proof.Laws

variable {p : Packet} {s : State} {r : Nat}

/-- A check of an opcode that fails. -/
theorem require_not {c : Bool} (h : c = false) (x k : Res) : require c x k = x := by
  rw [h]
  rfl

/-- Admission has room. -/
theorem verdictRes_of {v : Verdict} (h : v = none) (k : Res) : verdictRes v k = k := by
  rw [h]
  rfl

/-! ### CRYSTAL_UNLOCK (R275, R276) -/

/-- Legal parameters of CRYSTAL_UNLOCK (R275). -/
structure UnlockLegal (p : Packet) : Prop where
  bits : onlyBits p [allBits 0 16, allBits 16 2] = true
  atLeast : 1 ≤ prm p 16 2
  atMost : prm p 16 2 ≤ 60000

namespace UnlockLegal

/-- An unlock with legal parameters goes by what becomes of the key: not compared, another one, or the key. -/
theorem body_eq (h : UnlockLegal p) : specCrystalUnlock.body p s
    = if (s.key.key = 0 || isLockedOut s) = true then .done 0x111 none none (refuseUnlock false s)
      else if prm p 0 16 ≠ s.key.key then .done 0x111 none none (refuseUnlock true s)
      else .ok (some (prm p 16 2)) none { settleUnlock s with key := { (settleUnlock s).key with
        until_ := some ((settleUnlock s).clk.ticks + msTicks (prm p 16 2)) } } :=
  require_of (by simp [h.bits, h.atLeast, h.atMost]) _ _

theorem not_compared (h : UnlockLegal p) (hkey : s.key.key = 0 ∨ isLockedOut s = true) :
    specCrystalUnlock.body p s = .done 0x111 none none (refuseUnlock false s) :=
  h.body_eq.trans (if_pos (by simpa using hkey))

section
variable (h : UnlockLegal p) (hset : s.key.key ≠ 0) (hopen : isLockedOut s = false)
include h hset hopen

theorem another (hkey : prm p 0 16 ≠ s.key.key) :
    specCrystalUnlock.body p s = .done 0x111 none none (refuseUnlock true s) := by
  rw [h.body_eq, if_neg (by simp [hset, hopen]), if_pos hkey]

theorem matching (hkey : prm p 0 16 = s.key.key) : specCrystalUnlock.body p s
    = .ok (some (prm p 16 2)) none { settleUnlock s with key := { (settleUnlock s).key with
        until_ := some ((settleUnlock s).clk.ticks + 1250000 * prm p 16 2) } } := by
  rw [h.body_eq, if_neg (by simp [hset, hopen]), if_neg (by simp [hkey]), msTicks, Nat.mul_comm]

end

end UnlockLegal

/-! ### CRYSTAL_KEY_PROVISION (R274) -/

section
variable (hbits : onlyBits p [allBits 0 16, allBits 16 16] = true)
include hbits

/-- With no key programmed, or with the old one given, only the new key is left to check. -/
theorem crystalKeyProvisionBody_eq (hold : s.key.key = 0 ∨ prm p 16 16 = s.key.key) :
    specCrystalKeyProvision.body p s = require (prm p 0 16 != 0) badParam
      (okay (savePst { s with key := { s.key with key := prm p 0 16 } })) :=
  (require_of hbits _ _).trans (require_of (by simpa using hold) _ _)

theorem crystalKeyProvisionBody_ok (hold : s.key.key = 0 ∨ prm p 16 16 = s.key.key) (hnew : prm p 0 16 ≠ 0) :
    specCrystalKeyProvision.body p s = okay (savePst { s with key := { s.key with key := prm p 0 16 } }) :=
  (crystalKeyProvisionBody_eq hbits hold).trans (require_of (by simpa using hnew) _ _)

theorem crystalKeyProvisionBody_zero (hold : s.key.key = 0 ∨ prm p 16 16 = s.key.key) (hnew : prm p 0 16 = 0) :
    specCrystalKeyProvision.body p s = badParam :=
  (crystalKeyProvisionBody_eq hbits hold).trans (require_not (by simpa using hnew) _ _)

theorem crystalKeyProvisionBody_refused (hset : s.key.key ≠ 0) (hold : prm p 16 16 ≠ s.key.key) :
    specCrystalKeyProvision.body p s = keyRequired :=
  (require_of hbits _ _).trans (require_not (by simp [hset, hold]) _ _)

end

/-- Settles O20: each clause is the branch of its opcode's own part that the keys given and stored choose. -/
theorem crystalKeyCommandsAnswer : Obligations.CrystalKeyCommandsAnswer := by
  intro t p s e s0
  refine ⟨fun h hbits hlo hhi => ?unlock, fun h hbits => ?lock, fun h hbits => ?provision⟩
  case unlock =>
    have hlegal : UnlockLegal p := ⟨hbits, hlo, hhi⟩
    exact ⟨fun hset hopen hkey => run_ok h (hlegal.matching hset hopen hkey),
      fun hset hopen hkey => run_done h (hlegal.another hset hopen hkey),
      fun hkey => run_done h (hlegal.not_compared hkey)⟩
  case lock => exact run_ok h (require_of hbits _ _)
  case provision =>
    exact ⟨fun hold hnew => run_ok h (crystalKeyProvisionBody_ok hbits hold hnew),
      fun hset hold => run_fail h (crystalKeyProvisionBody_refused hbits hset hold),
      fun hold hnew => run_fail h (crystalKeyProvisionBody_zero hbits hold hnew)⟩

/-! ### The raster whose crystal a packet changes (R275) -/

/-- A raster whose crystal may be changed: the layer is unlocked, and the raster is no follower. -/
structure CrystalOpen (p : Packet) (s : State) (r : Nat) : Prop where
  named : prmRaster p = r
  unlocked : isUnlocked s = true
  notFollower : isFollower s r = false

/-! ### CRYSTAL_PANE_SET (R278 to R280) -/

section
variable (h : CrystalOpen p s r) (hbits : onlyBits p paneSetBits = true)
include h hbits

theorem crystalPaneSetBody_removal (hremove : prmbit p 0 4 = true) :
    specCrystalPaneSet.body p s = .ok none (some (crystalPeak (stage r none s) r)) (stage r none s) := by
  obtain ⟨rfl, hunlocked, hfol⟩ := h
  calc specCrystalPaneSet.body p s
    _ = _ := require_of hunlocked _ _
    _ = _ := require_of (by simp [hbits, hfol]) _ _
    _ = _ := if_pos hremove

/-- A new crystal that the rules of R278 pass is staged where admission has room for it. -/
theorem crystalPaneSetBody_stage (hset : prmbit p 0 4 = false) (hrules : ∀ k, crystalChecks p s k = k) {s1 : State}
    (h1 : stage r (some (prmb p 2 2 12 0, crystalDesc p s)) s = s1) (hadm : admitCrystal s1 r = none) :
    specCrystalPaneSet.body p s = .ok none (some (crystalPeak s1 r)) s1 := by
  obtain ⟨rfl, hunlocked, hfol⟩ := h
  subst h1
  calc specCrystalPaneSet.body p s
    _ = _ := require_of hunlocked _ _
    _ = _ := require_of (by simp [hbits, hfol]) _ _
    _ = _ := if_neg (by simp [hset])
    _ = _ := hrules _
    _ = _ := verdictRes_of hadm _

end

/-! ### CRYSTAL_EXPECT_SET (R284, R285, R293, R294) -/

/-- The commit that the parameters of CRYSTAL_EXPECT_SET give, on no slot. -/
def commitOf (p : Packet) (s : State) : CryCommit :=
  { slot := 0, seq := prm p 4 4, surface := 0, action := prmb p 1 1 1 0, learn := prmbit p 1 2,
    release := prmbit p 1 3, expect := prm p 8 4, at_ := s.clk.ticks, pinned := false }

/-- Legal parameters of CRYSTAL_EXPECT_SET: an ACTION is set only where no temporal dither is (R294). -/
structure ExpectLegal (p : Packet) (s : State) (r : Nat) : Prop extends CrystalOpen p s r where
  bits : onlyBits p [(0, 1, 0xF), (1, 1, 0xF), allBits 4 4, allBits 8 4] = true
  action : prmb p 1 1 1 0 ≠ 3
  dither : prmb p 1 1 1 0 = 0 ∨ ((outSetOf s r).dither ≠ 2 ∧ (Tbl.get s.col.out {} r).dither ≠ 2)

namespace ExpectLegal

/-- A legal commit is set on no slot for a staged removal, and otherwise on the readable slot of the crystal's surface
that has the sequence number. -/
theorem body_eq (h : ExpectLegal p s r) : specCrystalExpectSet.body p s
    = if ((crystalOf s r).staged == some none) = true then okay (setCrystalCommit r (commitOf p s) s)
      else match committingSurface s r with
        | none => badParam
        | some sf =>
          match (readableSlots (surfOf s sf)).find? fun n => (slotOf (surfOf s sf) n).seq == prm p 4 4 with
          | none => badParam
          | some n => okay (setCrystalCommit r { commitOf p s with slot := n, surface := sf, pinned := true } s) := by
  obtain ⟨⟨rfl, hunlocked, hfol⟩, hbits, haction, hdither⟩ := h
  calc specCrystalExpectSet.body p s
    _ = _ := require_of hunlocked _ _
    _ = _ := require_of (by simp [hbits, hfol, haction]) _ _
    _ = _ := require_of (by simpa using hdither) _ _

theorem removal (h : ExpectLegal p s r) (hstaged : (crystalOf s r).staged = some none) :
    specCrystalExpectSet.body p s = okay (setCrystalCommit r (commitOf p s) s) :=
  h.body_eq.trans (if_pos (by simp [hstaged]))

theorem slot (h : ExpectLegal p s r) (hstaged : (crystalOf s r).staged ≠ some none) {sf n : Nat}
    (hsf : committingSurface s r = some sf)
    (hn : (readableSlots (surfOf s sf)).find? (fun n => (slotOf (surfOf s sf) n).seq == prm p 4 4) = some n) :
    specCrystalExpectSet.body p s
      = okay (setCrystalCommit r { commitOf p s with slot := n, surface := sf, pinned := true } s) := by
  rw [h.body_eq, if_neg (by simpa using hstaged), hsf]
  dsimp only
  rw [hn]

end ExpectLegal

/-- Settles O21: each clause is the opcode's own part under the checks that its premises pass. -/
theorem crystalPaneCommandsAnswer : Obligations.CrystalPaneCommandsAnswer := by
  intro t p s e s0 r hr hunlocked hfol
  have hcrystal : CrystalOpen p s0 r := ⟨hr, hunlocked, hfol⟩
  refine ⟨fun h hbits => ⟨fun hremove => ?remove, fun hset hrules hadm => ?stage⟩,
    fun h hbits haction hdither => ⟨fun hstaged => ?removal, fun hstaged sf n hsf hn => ?slot⟩⟩
  case remove => exact run_ok h (crystalPaneSetBody_removal hcrystal hbits hremove)
  case stage => exact run_ok h (crystalPaneSetBody_stage hcrystal hbits hset hrules rfl hadm)
  case removal => exact run_ok h (ExpectLegal.removal ⟨hcrystal, hbits, haction, hdither⟩ hstaged)
  case slot => exact run_ok h (ExpectLegal.slot ⟨hcrystal, hbits, haction, hdither⟩ hstaged hsf hn)

end Sys2Proof.Proofs

/-! SUPPORT. Strikes: the commands that arm and cancel them, and their events on one device, at a part and at the
anchor (O24, O48). -/
namespace Sys2Proof.Proofs
open Sys2Proof Sys2Proof.Machine Sys2Proof.Laws

variable {t : Ticks} {p : Packet} {s s1 s2 : State} {r num : Nat} {k : Strike} {o : OpenStrike}

/-! ### STRIKE_ARM and STRIKE_CANCEL (R318, R321, R322, R343) -/

/-- What STRIKE_ARM asks of each raster that it names: it shows frames of its own on the global grid, and no strike
holds it. -/
structure MayStrike (s : State) (r : Nat) : Prop where
  notFollower : isFollower s r = false
  notOrphan : (rasterOf s r).orphan = false
  started : isStarted (rasterOf s r) = true
  notStopping : (rasterOf s r).stopping = false
  aligned : (rasterOf s r).aligned = true
  free : strikeOf s r = none

/-- STRIKE_ARM of rasters that may all strike goes by the STRIKE_ID: 0 is a strike of this device alone. -/
theorem strikeArmBody_eq (hbits : onlyBits p [allBits 0 2, allBits 2 2, allBits 8 8] = true) (hsome : armMembers p ≠ [])
    (hall : ∀ r ∈ armMembers p, MayStrike s r) :
    specStrikeArm.body p s = if prm p 2 2 = 0 then armLocal p s else armPart p s := by
  have hlead : ((armMembers p).all fun r => !isFollower s r) = true :=
    List.all_eq_true.2 fun r hr => by simp [(hall r hr).notFollower]
  have hheld : ((armMembers p).all fun r => !(rasterOf s r).orphan) = true :=
    List.all_eq_true.2 fun r hr => by simp [(hall r hr).notOrphan]
  have hruns : ((armMembers p).all fun r =>
      isStarted (rasterOf s r) && !(rasterOf s r).stopping && (rasterOf s r).aligned) = true :=
    List.all_eq_true.2 fun r hr => by simp [(hall r hr).started, (hall r hr).notStopping, (hall r hr).aligned]
  have hfree : ((armMembers p).all fun r => (strikeOf s r).isNone) = true :=
    List.all_eq_true.2 fun r hr => by simp [(hall r hr).free]
  calc specStrikeArm.body p s = strikeArmBody p s := rfl
    _ = _ := by
      unfold strikeArmBody
      dsimp only
      rw [require_of (by simp [hbits, hsome, hlead]), require_of hheld, require_of hruns, require_of hfree]

/-- A strike whose first boundary lies at most 10 s after T is armed for the first boundary ahead. -/
theorem armLocal_done {ms : List StrikeMember} {per : Nat × Nat} {first c : Nat} (hms : strikeMembers s (prm p 0 2) = ms)
    (hper : commonPeriod ms = per) (hfirst : firstStart per (prm p 8 8) = first)
    (hc : aheadBoundary per ms 0 (now s) first = c) (hnear : first ≤ prm p 8 8 + 10000000000) :
    armLocal p s = .done (if c = first then 0 else 0x10B) (some c) (some (c / 2 ^ 32))
      (armStrike (strikeFor p c (decisionTime per ms c) per) s) := by
  subst hms hper hfirst hc
  exact require_of (by simpa using hnear) _ _

theorem strikeCancelBody_ok (hbits : onlyBits p [(0, 1, 0xF)] = true) (horph : (rasterOf s (prmRaster p)).orphan = false)
    (hk : strikeOf s (prmRaster p) = some k) (hopen : strikeDecided s k = false) :
    specStrikeCancel.body p s = .ok none none (cancelStrike (prmRaster p) s) := by
  calc specStrikeCancel.body p s = strikeCancelBody p s := rfl
    _ = _ := by
      unfold strikeCancelBody
      dsimp only
      rw [require_of hbits, require_of (by simp [horph]), hk]
      exact require_of (by simp [hopen]) _ _

/-- Settles O24: each clause is the opcode's own part under the checks that its premises pass. -/
theorem strikeCommandsAnswer : Obligations.StrikeCommandsAnswer := by
  intro t p s e s0
  refine ⟨fun h hbits hsome hall hid => ?arm, fun h hbits horph k hk hopen => ?cancel⟩
  case arm =>
    have hmay : ∀ r ∈ armMembers p, MayStrike s0 r := fun r hr => by
      obtain ⟨hfol, horph, hstart, hstop, halign, hfree⟩ := hall r hr
      exact ⟨hfol, horph, hstart, hstop, halign, hfree⟩
    have hbody := (strikeArmBody_eq hbits hsome hmay).trans (if_pos hid)
    exact fun hnear => run_done h (hbody.trans (armLocal_done rfl rfl rfl rfl hnear))
  case cancel => exact run_ok h (strikeCancelBody_ok hbits horph hk hopen)

/-! ### Decisions and votes (R319, R451) -/

theorem exec_strikeDecision (h : Occurs t s s1) (hk : strikeOf s1 r = some k) (hid : k.id = 0) (hs : k.struck = false)
    (hd : k.d ≤ now s1) : exec (.strikeDecision t r) s = .next (decideStrike k s1) := by
  calc exec (.strikeDecision t r) s = execStrikeDecision t r s := rfl
    _ = _ := by
      unfold execStrikeDecision
      rw [whenRunning_of h, hk]
      exact congrArg _ (if_pos (by simp [hid, hs, hd]))

/-- At V a part that has fixed its boundary and has not voted says whether its members are ready. -/
theorem exec_strikeVoteTime (h : Occurs t s s1) (hk : partOf s1 num = some k) (hc : k.c ≠ 0) (hv : k.voted = false)
    (hs : k.struck = false) (hd : k.d ≤ now s1 + 100000) :
    exec (.strikeVoteTime t num) s = .next (sayUp num (.vote (strikeReady s1 k.members))
      (mapStrikes (fun x => x.members == k.members) (fun x => { x with voted := true }) s1)) := by
  calc exec (.strikeVoteTime t num) s = execStrikeVoteTime t num s := rfl
    _ = _ := by
      unfold execStrikeVoteTime
      rw [whenRunning_of h, hk]
      exact congrArg _ (if_neg (by simp [hc, hv, hs, hd]))

/-! ### Verdicts (R451) -/

theorem exec_strikeVerdictDeadline (h : Occurs t s s1) (ho : openOf s1 num = some o) (ha : s1.cf.anchor = true)
    (hc : o.c ≠ 0) (hs : o.struck = false) {ms : List StrikeMember} (hms : openMembers o = ms)
    (hd : decisionTime (commonPeriod ms) ms o.c ≤ now s1 + 50000) :
    exec (.strikeVerdictDeadline t num) s = .next (giveVerdict o s1) := by
  subst hms
  calc exec (.strikeVerdictDeadline t num) s = execStrikeVerdictDeadline t num s := rfl
    _ = _ := by
      unfold execStrikeVerdictDeadline
      rw [whenRunning_of h, ho]
      exact congrArg _ (if_neg (by simp [ha, hc, hs, hd]))

/-- The anchor strikes when every part has voted that it is ready, and moves the strike otherwise. -/
theorem giveVerdict_eq {ms : List StrikeMember} {c : Nat} (hms : openMembers o = ms)
    (hc : nextBoundary (commonPeriod ms) o.c = c) : giveVerdict o s = if ∀ x ∈ o.regs, (x.1, true) ∈ o.votes
      then tellParts o .struck (putOpen { o with struck := true } s)
      else tellParts o (.moved c (decisionTime (commonPeriod ms) ms c)) (putOpen { o with c := c, votes := [] } s) := by
  subst hms hc
  exact if_congr (by simp) rfl rfl

/-! ### What the anchor receives (R450, R451) -/

/-- A registration from another device is answered, and announced once it is taken. -/
theorem exec_strikeRegistrationRx {x : FlitRx} {reg : StrikeReg} {st c : Nat} {s3 : State} (h : Occurs t s s1)
    (hx : Lands x [0xF] s1 s2) (hvalid : s2.cf.valid = true) (ha : s2.cf.anchor = true) (hnum : strikeNum reg.id ≠ 0)
    (hdev : reg.device ≠ s2.cf.devid) (hreg : registerPart reg s2 = (st, c, s3)) {s4 : State}
    (h4 : sendTo reg.device (downFlit (strikeNum reg.id) (.answer st c)) s3 = s4) :
    exec (.strikeRegistrationRx t x reg) s = .next (if st = 0 then announce (strikeNum reg.id) s4 else s4) := by
  subst h4
  calc exec (.strikeRegistrationRx t x reg) s = execStrikeRegistrationRx t x reg s := rfl
    _ = _ := by
      unfold execStrikeRegistrationRx
      rw [whenRunning_of h, flitRx_of hx, if_neg (by simp [hvalid, ha, hnum, hdev]), hreg]

theorem exec_strikeVoteRx {x : FlitRx} {device : Nat} (h : Occurs t s s1) (hx : Lands x [0xF] s1 s2)
    (hvalid : s2.cf.valid = true) (ha : s2.cf.anchor = true) (v : StrikeUp) :
    exec (.strikeVoteRx t x device num v) s = .next (anchorTake num device v s2) := by
  calc exec (.strikeVoteRx t x device num v) s = execStrikeVoteRx t x device num v s := rfl
    _ = _ := by
      unfold execStrikeVoteRx
      rw [whenRunning_of h, flitRx_of hx, if_pos (by simp [hvalid, ha])]

section
variable {device : Nat} (ho : openOf s num = some o)
include ho

/-- A vote counts until the verdict, in place of an earlier one of the same part. -/
theorem anchorTake_vote (hc : o.c ≠ 0) (hs : o.struck = false) {ms : List StrikeMember} (hms : openMembers o = ms)
    (hd : now s + 50000 ≤ decisionTime (commonPeriod ms) ms o.c) (b : Bool) : anchorTake num device (.vote b) s
      = putOpen { o with votes := (device, b) :: o.votes.filter fun y => y.1 != device } s := by
  subst hms
  unfold anchorTake
  rw [ho]
  exact if_neg (by simp [hc, hs, hd])

theorem anchorTake_cancel : anchorTake num device .cancel s = tellParts o .cancelled (closeStrike num s) := by
  unfold anchorTake
  rw [ho]

/-- A part that kept its shadow set splits a strike that was struck. -/
theorem anchorTake_kept (hs : o.struck = true) : anchorTake num device .kept s = tellParts o .split s := by
  unfold anchorTake
  rw [ho]
  exact if_pos hs

end

theorem exec_strikeRegistrationTimeout (h : Occurs t s s1) (ho : openOf s1 num = some o) (ha : s1.cf.anchor = true)
    (hmiss : o.regs.length < o.parts) (hdue : o.t + 10000000000 ≤ now s1) :
    exec (.strikeRegistrationTimeout t num) s = .next (tellParts o .cancelled (closeStrike num s1)) := by
  calc exec (.strikeRegistrationTimeout t num) s = execStrikeRegistrationTimeout t num s := rfl
    _ = _ := by
      unfold execStrikeRegistrationTimeout
      rw [whenRunning_of h, ho]
      exact congrArg _ (if_pos (by simp [ha, hmiss, hdue]))

/-! ### What a part receives (R451, R452) -/

theorem exec_strikeVerdictRx {x : FlitRx} (h : Occurs t s s1) (hx : Lands x [0xF] s1 s2) (w : StrikeDown) :
    exec (.strikeVerdictRx t x num w) s = .next (partWord num w s2) := by
  calc exec (.strikeVerdictRx t x num w) s = execStrikeVerdictRx t x num w s := rfl
    _ = _ := by
      unfold execStrikeVerdictRx
      rw [whenRunning_of h, flitRx_of hx]

section
variable (hk : partOf s num = some k)
include hk

/-- Only a part that has voted takes the verdict that the strike is struck. -/
theorem partWord_struck (hv : k.voted = true) : partWord num .struck s
    = mapStrikes (fun y => y.members == k.members) (fun y => { y with struck := true }) s := by
  unfold partWord
  rw [hk]
  exact if_pos hv

theorem partWord_moved (c d : Nat) : partWord num (.moved c d) s = moveStrike k c d s := by
  unfold partWord
  rw [hk]

theorem partWord_cancelled : partWord num .cancelled s
    = alertMembers k.members alCancelled (dropStrikes (fun y => y.members == k.members) s) := by
  unfold partWord
  rw [hk]

end

/-- Settles O48: each event acts on the strike that it finds, and each clause is one branch of what it does. -/
theorem strikesAct : Obligations.StrikesAct := by
  intro t s s1 h
  refine ⟨fun r k hk hid hs hd => ⟨fun hready => ?struck, fun hready => ?movesOn⟩,
    fun num k hk hc hv hs hd => exec_strikeVoteTime h hk hc hv hs hd,
    fun num o ho ha hc hs ms hms hd => ⟨fun hall => ?verdict, fun hmiss c hnext => ?noVerdict⟩,
    fun x reg s2 hx hvalid ha hnum hdev st c s3 hreg => exec_strikeRegistrationRx h hx hvalid ha hnum hdev hreg rfl,
    fun x device num s2 o hx hvalid ha ho => ?fromParts, fun x num s2 k hx hk => ?fromAnchor,
    fun num o ho ha hmiss hdue => exec_strikeRegistrationTimeout h ho ha hmiss hdue⟩
  case struck => exact (exec_strikeDecision h hk hid hs hd).trans (congrArg _ (if_pos hready))
  case movesOn => exact (exec_strikeDecision h hk hid hs hd).trans (congrArg _ (if_neg (by simp [hready])))
  case verdict =>
    rw [exec_strikeVerdictDeadline h ho ha hc hs hms hd, giveVerdict_eq hms rfl, if_pos hall]
  case noVerdict =>
    rw [exec_strikeVerdictDeadline h ho ha hc hs hms hd, giveVerdict_eq hms hnext, if_neg hmiss]
  case fromParts =>
    have hexec := exec_strikeVoteRx (device := device) (num := num) h hx hvalid ha
    refine ⟨fun b ms hc hs hms hd => ?_, ?_, fun hs => ?_⟩
    · rw [hexec, anchorTake_vote ho hc hs hms hd]
    · rw [hexec, anchorTake_cancel ho]
    · rw [hexec, anchorTake_kept ho hs]
  case fromAnchor =>
    have hexec := exec_strikeVerdictRx (num := num) h hx
    refine ⟨fun hv => ?_, fun c d => ?_, ?_, ?_⟩
    · rw [hexec, partWord_struck hk hv]
    · rw [hexec, partWord_moved hk]
    · rw [hexec, partWord_cancelled hk]
    · rw [hexec, partWord]

end Sys2Proof.Proofs

/-! SUPPORT. The events of DisplayPort ports: training, plug, unplug and authentication (O56). -/
namespace Sys2Proof.Proofs
open Sys2Proof Sys2Proof.Machine Sys2Proof.Laws

variable {t : Ticks} {s s1 : State} {p : Nat} {d : DpPort}

/-! ### The end of training (R327) -/

/-- A port that trains: it is configured, plugged in and in training. -/
structure Trains (s : State) (p : Nat) (d : DpPort) : Prop where
  inRange : p < 4
  port : dpOf s p = d
  enabled : d.enabled = true
  plugged : d.hpd = true
  training : d.training = true

/-- Training may always fail, and may end with the configured values. -/
theorem trainingResult_failed (d : DpPort) (rate : Nat) : trainingResult d rate 0 = true := rfl
theorem trainingResult_configured (d : DpPort) : trainingResult d d.rate d.lanes = true := by
  simp [trainingResult]

/-- Training that ends with a link and no unplug before: the streams' slots are counted anew, those that do not fit stop, and
the streams of stopped rasters carry no video. -/
theorem exec_dpTrainingDone_trained (h : Occurs t s s1) (ht : Trains s1 p d) (hlost : d.hpdLost = false) {rate lanes : Nat}
    (hres : trainingResult d rate lanes = true) (hlanes : lanes ≠ 0) {s2 s3 s4 : State}
    (h2 : recountStreams p (putDp p { d with training := false, trained := true, tRate := rate, tLanes := lanes,
                                             hpdLost := false } s1) = s2)
    (h4 : stopStreams p (portStreams s2 p) s2 = s4)
    (h3 : forAll ((portStreams s4 p).map (·.1)) idleVideo s4 = s3) :
    exec (.dpTrainingDone t p rate lanes) s
      = .next (finishUnit (unitDp p) 0 (some (dpData s3 p)) none (settleDp p s3)) := by
  obtain ⟨hp, rfl, hen, hhpd, htrain⟩ := ht
  subst h2 h4 h3
  have hok : (lanes != 0) = true := by simp [hlanes]
  calc exec (.dpTrainingDone t p rate lanes) s = execDpTrainingDone t p rate lanes s := rfl
    _ = _ := by
      unfold execDpTrainingDone
      rw [whenRunning_of h]
      dsimp only
      rw [if_neg (by simp [hp, hen, hhpd, htrain, hres]), hok, hlost]
      rfl

/-- Training that fails with no unplug before: the link stays down and its streams alert their rasters. -/
theorem exec_dpTrainingDone_failed (h : Occurs t s s1) (ht : Trains s1 p d) (hlost : d.hpdLost = false) {rate : Nat}
    {s2 s3 : State}
    (h2 : recountStreams p (putDp p { d with training := false, trained := false, tRate := 0, tLanes := 0,
                                             hpdLost := false } s1) = s2)
    (h3 : alertStreams p s2 = s3) : exec (.dpTrainingDone t p rate 0) s
      = .next (finishUnit (unitDp p) 0 (some (dpData s3 p)) none (settleDp p s3)) := by
  obtain ⟨hp, rfl, hen, hhpd, htrain⟩ := ht
  subst h2 h3
  calc exec (.dpTrainingDone t p rate 0) s = execDpTrainingDone t p rate 0 s := rfl
    _ = _ := by
      unfold execDpTrainingDone
      rw [whenRunning_of h]
      dsimp only
      rw [if_neg (by simp [hp, hen, hhpd, htrain, trainingResult_failed]), hlost]
      rfl

/-! ### Plug and unplug (R327) -/

theorem exec_dpHpdChange_plug (h : Occurs t s s1) (hp : p < 4) (hd : dpOf s1 p = d) (hhpd : d.hpd = false) :
    exec (.dpHpdChange t p true) s
      = .next (compareUnit (unitDp p) (putDp p { d with hpd := true, training := d.enabled } s1)) := by
  subst hd
  calc exec (.dpHpdChange t p true) s = execDpHpdChange t p true s := rfl
    _ = _ := by
      unfold execDpHpdChange
      rw [whenRunning_of h]
      exact congrArg _ (if_neg (by simp [hp, hhpd]))

/-- An unplug takes the link down and ends what waits for the port. -/
theorem exec_dpHpdChange_unplug (h : Occurs t s s1) (hp : p < 4) (hd : dpOf s1 p = d) (hhpd : d.hpd = true) {s2 : State}
    (h2 : dpDown p { d with hpd := false, training := false, hpdLost := d.enabled } s1 = s2) :
    exec (.dpHpdChange t p false) s
      = .next (finishUnit (unitDp p) 0 (some (dpData s2 p)) none (settleDp p s2)) := by
  subst hd h2
  calc exec (.dpHpdChange t p false) s = execDpHpdChange t p false s := rfl
    _ = _ := by
      unfold execDpHpdChange
      rw [whenRunning_of h]
      exact congrArg _ (if_neg (by simp [hp, hhpd]))

/-! ### Authentication (R331) -/

/-- The result of an authentication of a protected stream is kept with the receiver IDs of a success, unless a success is
reported over a link that is not trained; where the stream was authenticated, a failure alerts its raster. -/
theorem exec_hdcpAuthResult (h : Occurs t s s1) (hd : dpOf s1 p = d) {stream k : Nat} {x : Sink}
    (hx : (portStreams s1 p).find? (fun e => e.2.stream == stream) = some (k, x)) (hhdcp : x.hdcp = true) {ok : Bool}
    (hlink : ok = true → d.trained = true) {ids : List Byte} {s2 : State}
    (h2 : putDp p { d with auth := setBit d.auth stream ok }
      (putSink k 0 { x with rxids := if ok then fitBytes 20 ids else [] } s1) = s2) :
    exec (.hdcpAuthResult t p stream ok ids) s
      = .next (if (tbit d.auth stream && !ok) = true then rasterAlert k alDp s2 else s2) := by
  subst hd h2
  have hacts : (x.hdcp && ((dpOf s1 p).trained || !ok)) = true := by
    cases ok with
    | true => simp [hhdcp, hlink rfl]
    | false => simp [hhdcp]
  calc exec (.hdcpAuthResult t p stream ok ids) s = execHdcpAuthResult t p stream ok ids s := rfl
    _ = _ := by
      unfold execHdcpAuthResult
      rw [whenRunning_of h]
      dsimp only
      rw [hx]
      exact congrArg _ (if_neg (by simp [hacts]))

/-- Settles O56: each event acts on its port under the condition that its premises meet, and each clause is one branch of
what it does. -/
theorem displayPortActs : Obligations.DisplayPortActs := by
  intro t s s1 p h hp d hd
  refine ⟨fun rate lanes hen hhpd htrain hlost => ⟨fun hrate hlanes hpos => ?trained, fun hlanes => ?failed⟩,
    exec_dpHpdChange_plug h hp hd, fun hhpd => exec_dpHpdChange_unplug h hp hd hhpd rfl,
    fun stream k x hx hhdcp => ⟨fun htrained ids => ?kept, fun hauth ids => ?lost⟩⟩
  case trained =>
    have hres : trainingResult d rate lanes = true := by rw [hrate, hlanes, trainingResult_configured]
    exact exec_dpTrainingDone_trained h ⟨hp, hd, hen, hhpd, htrain⟩ hlost hres hpos rfl rfl rfl
  case failed =>
    subst hlanes
    exact exec_dpTrainingDone_failed h ⟨hp, hd, hen, hhpd, htrain⟩ hlost rfl rfl
  case kept =>
    exact (exec_hdcpAuthResult h hd hx hhdcp (fun _ => htrained) rfl).trans (congrArg _ (if_neg (by simp)))
  case lost =>
    exact (exec_hdcpAuthResult h hd hx hhdcp (ok := false) (by simp) rfl).trans
      (congrArg _ (if_pos (by simp [hauth])))

end Sys2Proof.Proofs

/-! SUPPORT. The commands that attach and detach sinks and configure DisplayPort ports (O23). -/
namespace Sys2Proof.Proofs
open Sys2Proof Sys2Proof.Machine Sys2Proof.Laws

variable {p : Packet} {s : State} {k kind : Nat} {x : Sink}

/-! ### SINK_ATTACH: the checks of every kind (R323, R324, R343) -/

/-- What SINK_ATTACH asks for a sink of every kind: the raster is in no orphan hold and has a timing, the parameters are
legal, and the RG has no sink of the kind. -/
structure AttachAllowed (p : Packet) (s : State) (k kind : Nat) : Prop where
  raster : prmRaster p = k
  kind_eq : prmb p 1 1 1 0 = kind
  notOrphan : (rasterOf s (leaderOf s k)).orphan = false
  fields : onlyBits p (attachBits kind) = true
  timed : (tileTiming s k).set = true
  encoding : prmb p 2 1 1 0 ≠ 3
  matrix : prmb p 2 1 3 2 ≠ 3
  depth : prmb p 3 1 1 0 ≠ 3
  free : sinkOf s k kind = none

/-- Attach a sink of a kind, with the checks of that kind. -/
def attachOfKind (k kind : Nat) (p : Packet) (x : Sink) (s : State) : Res :=
  match kind with
  | 0 => attachDp k p x s
  | 1 => attachSender k p x s
  | 2 => attachWb k p x s
  | _ => attachExport k p x s

/-- Where the checks of every kind pass, those of the sink's kind decide. -/
theorem AttachAllowed.body_eq (h : AttachAllowed p s k kind) (hx : prmSink p s = x) :
    specSinkAttach.body p s = attachOfKind k kind p x s := by
  obtain ⟨rfl, rfl, horph, hbits, htimed, henc, hmat, hdepth, hfree⟩ := h
  subst hx
  calc specSinkAttach.body p s = sinkAttachBody p s := rfl
    _ = _ := by
      unfold sinkAttachBody
      dsimp only [prmKind]
      rw [require_of (by simp [horph]), require_of (by simp [hbits, htimed, henc, hmat, hdepth]),
        require_of (by simp [hfree])]
      rfl

/-! ### SINK_ATTACH: the checks of each kind (R328 to R336) -/

/-- The DisplayPort port of a stream of n slots takes it: a configured port, a stream number that is free, capacity for
the slots and, with DSC, for the pixel rate. -/
structure DpTakes (p : Packet) (s : State) (k : Nat) (x : Sink) (n : Nat) : Prop where
  slots : streamSlots (tileTiming s k) x (portLink (dpOf s x.port)).1 (portLink (dpOf s x.port)).2 = n
  enabled : (dpOf s x.port).enabled = true
  first : (dpOf s x.port).mst = true ∨ x.stream = 0
  dsc : dscOk p (tileTiming s k) x = true
  free : ∀ y ∈ portStreams s x.port, y.2.stream ≠ x.stream
  fits : slotsFit (dpOf s x.port).mst (n :: (portStreams s x.port).map (·.2.slots)) = true
  dscRate : dscFits ((((portStreams s x.port).filter (·.2.dsc)).map fun y => tileTiming s y.1)
    ++ (if x.dsc = true then [tileTiming s k] else [])) = true
  single : (dpOf s x.port).mst = true ∨ portStreams s x.port = []

theorem attachDp_ok {n : Nat} (h : DpTakes p s k x n) {s1 : State} (h1 : putSink k 0 { x with slots := n } s = s1) :
    attachDp k p x s
      = .ok (some n) none (if (dpOf s x.port).trained = true then idleVideo k s1 else rasterAlert k alDp s1) := by
  obtain ⟨rfl, hen, hfirst, hdsc, hfree, hfits, hrate, hsingle⟩ := h
  subst h1
  have hnumber : ((dpOf s x.port).mst || x.stream == 0 || !(portStreams s x.port).isEmpty) = true := by
    rcases hfirst with hm | hm <;> simp [hm]
  have hsst : ((dpOf s x.port).mst || (portStreams s x.port).isEmpty) = true := by
    rcases hsingle with hm | hm <;> simp [hm]
  unfold attachDp
  dsimp only
  rw [require_of (by rw [hen, hnumber, hdsc]; rfl), require_of hsst, require_of (by simpa using hfree),
    require_of (by rw [hfits, hrate]; rfl)]

/-- The flow of a sender with configuration c takes it: the raster runs on the grid, the flow is a free ST 2110-20 one
whose blocks a frame fills, and its port carries it. -/
structure FlowTakes (s : State) (k : Nat) (x : Sink) (c : EgressCfg) : Prop where
  config : (egressOf s x.flow).staged.getD (egressOf s x.flow).cfg = c
  started : isStarted (rasterOf s (leaderOf s k)) = true
  aligned : (rasterOf s (leaderOf s k)).aligned = true
  video : c.kind = 1
  free : (egressOf s x.flow).sender = none
  filled : c.blocks * 180 ≤ sinkBytes (tileTiming s k) x

theorem attachSender_ok {c : EgressCfg} (h : FlowTakes s k x c) {s1 : State}
    (h1 : putQueue x.flow (senderQueue s (tileTiming s k) x c (queueOf s x.flow)) s = s1)
    (hport : checkPort s1 c.port (tsPortOf s1 c.port) = none) (hkind : prmKind p = 1) : attachSender k p x s
      = .ok (some 0) none (putSink k 1 x (putEgress x.flow { egressOf s x.flow with sender := some k } s1)) := by
  obtain ⟨rfl, hstart, halign, hvideo, hfree, hfill⟩ := h
  subst h1
  unfold attachSender
  dsimp only
  rw [require_of (by simp [hstart, halign, hvideo]), require_of (by simp [hfree]), require_of (by simpa using hfill),
    require_of (by simp [hport]), attachSink, hkind]

/-- The surface of a writeback sink takes it: it is one for writeback that no other sink writes, and its size and format
are those of the sink's lines. -/
structure SurfaceTakes (s : State) (k : Nat) (x : Sink) : Prop where
  valid : (surfOf s x.surface).valid = true
  notCrystal : (surfOf s x.surface).crystal = false
  writer : (surfOf s x.surface).writer = 4
  size : wbFits s k x = true
  format : formatFits (surfOf s x.surface).format x.enc (sinkBits x) = true
  compression : (surfOf s x.surface).comp = 0 ∨ (surfOf s x.surface).comp = 2
  free : hasAutoWriter s x.surface = false

theorem attachWb_ok (h : SurfaceTakes s k x) (hkind : prmKind p = 2) :
    attachWb k p x s = .ok (some 0) none (putSink k 2 x s) := by
  obtain ⟨hvalid, hplain, hwriter, hsize, hformat, hcomp, hfree⟩ := h
  unfold attachWb
  dsimp only
  rw [require_of hvalid, require_of (by simp [hplain]), require_of (by simpa [hwriter, hsize, hformat] using hcomp),
    require_of (by simp [hfree]), attachSink, hkind]

/-- The node takes an export: its destination is another device of the node, and every link of the route has room. -/
structure NodeTakes (p : Packet) (s : State) (k : Nat) (x : Sink) : Prop where
  valid : s.cf.valid = true
  node : x.dest / 64 = s.cf.devid / 64
  device : x.dest % 64 < nodeSize s
  other : x.dest ≠ s.cf.devid
  beyond : p.env.aux.headD 0 = 0
  link : ∀ j, firstHop s x.dest = some j →
    exportsFit (linkLanes s j) (exportRate (tileTiming s k) x :: exportLoad s j) = true

theorem attachExport_ok (h : NodeTakes p s k x) (hkind : prmKind p = 3) : attachExport k p x s
    = .ok (some 0) none (putSink k 3 x { s with cf := { s.cf with expStop := setBit s.cf.expStop k false } }) := by
  obtain ⟨hvalid, hnode, hdev, hother, hbeyond, hlink⟩ := h
  unfold attachExport
  dsimp only
  rw [require_of (by simp [hvalid, hnode, hdev, hother]), hbeyond, attachSink, hkind]
  cases hhop : firstHop s x.dest with
  | none => exact require_of (by simp) _ _
  | some j => exact require_of (by simp [hlink j hhop]) _ _

/-! ### SINK_DETACH (R323) -/

/-- A sink goes at once where its raster has stopped and its last frame waits for nothing, and else at the end of the
frame. -/
theorem sinkDetachBody_ok (hr : prmRaster p = k) (hkind : prmb p 1 1 1 0 = kind)
    (horph : (rasterOf s (leaderOf s k)).orphan = false) (hbits : onlyBits p [(0, 1, 0xF), (1, 1, 3)] = true)
    (hx : sinkOf s k kind = some x) : specSinkDetach.body p s
      = .ok none none (if (rasterOf s (leaderOf s k)).st = .stopped ∧ wbWaits s k kind = false
          then dropSink k kind s else putSink k kind { x with leaving := true } s) := by
  subst hr hkind
  calc specSinkDetach.body p s = sinkDetachBody p s := rfl
    _ = _ := by
      unfold sinkDetachBody
      dsimp only [prmKind]
      rw [require_of (by simp [horph]), require_of hbits, hx]
      exact congrArg _ (if_congr (by simp) rfl rfl)

/-! ### DP_PORT_CONFIG (R327, R344) -/

/-- What DP_PORT_CONFIG asks of the settings of port i: an enabled port has a rate and lanes, and the streams that it
carries still fit. -/
structure DpSettings (p : Packet) (s : State) (i rate lanes : Nat) : Prop where
  port : prmb p 0 1 1 0 = i
  rate_eq : prmb p 2 1 1 0 = rate
  lanes_eq : prmb p 3 1 2 0 = lanes
  fields : onlyBits p [(0, 1, 3), (1, 1, 3), (2, 1, 3), (3, 1, 7), (4, 1, 1)] = true
  link : prmbit p 1 0 = true → rate ≠ 0 ∧ (lanes = 1 ∨ lanes = 2 ∨ lanes = 4)
  streams : portStreams s i = [] ∨ (prmbit p 1 0 = true
    ∧ slotsFit (prmbit p 1 1) ((portStreams s i).map fun y => streamSlots (tileTiming s y.1) y.2 rate lanes) = true
    ∧ (prmbit p 1 1 = true ∨ ∀ y ∈ portStreams s i, y.2.stream = 0))

section
variable {i rate lanes : Nat} (h : DpSettings p s i rate lanes)
include h

theorem DpSettings.linkOk : (!prmbit p 1 0 || (rate != 0 && [1, 2, 4].contains lanes)) = true := by
  cases hen : prmbit p 1 0
  · rfl
  · obtain ⟨hrate, hlanes⟩ := h.link hen
    simp [hrate, hlanes]

theorem DpSettings.streamsOk : ((portStreams s i).isEmpty || (prmbit p 1 0
    && (slotsFit (prmbit p 1 1) ((portStreams s i).map fun y => streamSlots (tileTiming s y.1) y.2 rate lanes)
      && (prmbit p 1 1 || (portStreams s i).all fun y => y.2.stream == 0)))) = true := by
  rcases h.streams with hnone | ⟨hen, hfits, hfirst⟩
  · simp [hnone]
  · have hnumber : (prmbit p 1 1 || (portStreams s i).all fun y => y.2.stream == 0) = true := by simpa using hfirst
    simp [hen, hfits, hnumber]

/-- The settings are stored, the link goes down and an enabled port with a sink plugged in trains. -/
theorem dpPortConfigBody_ok {d : DpPort} {s1 s2 : State}
    (hd : { dpOf s i with enabled := prmbit p 1 0, mst := prmbit p 1 1, rate := rate, lanes := lanes,
                          fallback := prmbit p 4 0, training := prmbit p 1 0 && (dpOf s i).hpd,
                          hpdLost := false } = d)
    (h1 : recountStreams i (dpDown i d s) = s1)
    (h2 : (if prmbit p 1 0 = true then setMgmt (unitDp i) (stateWord 0x42 (dpDetail lanes rate)) s1
      else clearMgmt (unitDp i) s1) = s2) :
    specDpPortConfig.body p s = .ok (some (dpData s2 i)) none s2 := by
  have hlink := h.linkOk
  have hstreams := h.streamsOk
  obtain ⟨rfl, rfl, rfl, hbits, -, -⟩ := h
  subst hd h1 h2
  calc specDpPortConfig.body p s = dpPortConfigBody p s := rfl
    _ = _ := by
      unfold dpPortConfigBody
      dsimp only
      rw [require_of (by rw [hbits, hlink]; rfl), require_of hstreams]
      rfl

end

/-! ### The statement -/

/-- Settles O23: each clause is the opcode's own part under the checks that its premises pass. -/
theorem sinkCommandsAnswer : Obligations.SinkCommandsAnswer := by
  intro t p s e s0 k kind x hr hkind
  refine ⟨fun h horph hbits hset henc hmat hdepth hfree hx => ?attach,
    fun h horph hbits hsink => run_ok h (sinkDetachBody_ok hr hkind horph hbits hsink),
    fun h i rate lanes hi hrate hlanes hbits hlink hstreams =>
      run_ok h (dpPortConfigBody_ok ⟨hi, hrate, hlanes, hbits, hlink, hstreams⟩ rfl rfl rfl)⟩
  have hbody := AttachAllowed.body_eq ⟨hr, hkind, horph, hbits, hset, henc, hmat, hdepth, hfree⟩ hx
  refine ⟨fun h0 n hn hen hfirst hdsc hnumber hfits hrate hsingle => ?dp,
    fun h1 c hc hstart halign hvideo hsender hfill => ?sender,
    fun h2 sf hsf hvalid hplain hwriter hsize hformat hcomp hauto => ?writeback,
    fun h3 hvalid hnode hdev hother hbeyond hlink => ?node⟩
  case dp =>
    subst h0
    exact run_ok h (hbody.trans (attachDp_ok ⟨hn, hen, hfirst, hdsc, hnumber, hfits, hrate, hsingle⟩ rfl))
  case sender =>
    subst h1
    have hflow : FlowTakes s0 k x c := ⟨hc, hstart, halign, hvideo, hsender, hfill⟩
    exact fun hport => run_ok h (hbody.trans (attachSender_ok hflow rfl hport hkind))
  case writeback =>
    subst h2 hsf
    exact run_ok h (hbody.trans (attachWb_ok ⟨hvalid, hplain, hwriter, hsize, hformat, hcomp, hauto⟩ hkind))
  case node =>
    subst h3
    exact run_ok h (hbody.trans (attachExport_ok ⟨hvalid, hnode, hdev, hother, hbeyond, hlink⟩ hkind))

end Sys2Proof.Proofs

/-! SUPPORT. The commands of the network engine: Ethernet ports, ingest flows and FST subscriptions, egress flows,
multicast entries and flow queries (O25). -/
namespace Sys2Proof.Proofs
open Sys2Proof Sys2Proof.Machine Sys2Proof.Laws

variable {p : Packet} {s : State} {f : Nat}

/-! ### PORT_CONFIG (R347, R348) -/

/-- PORT_CONFIG's parameters are legal and the lanes that its MODE gives port f are strapped to Ethernet, free of other
ports and not retired. -/
structure PortSettings (p : Packet) (s : State) (f mode lanes : Nat) : Prop where
  port : prmb p 0 1 2 0 = f
  mode_eq : prmb p 1 1 2 0 = mode
  fields : onlyBits p portConfigBits = true
  mtu_ge : 1518 ≤ prmb p 2 2 13 0
  mtu_le : prmb p 2 2 13 0 ≤ 9216
  lanes_eq : modeLanes f mode = some lanes
  strapped : Nat.land lanes (etherLanes s) = lanes
  free : ∀ q < 8, q ≠ f → Nat.land lanes (ethOf s q).lanes = 0
  live : Nat.land lanes s.ne.deadLanes = 0
  unnamed : mode = 0 → portNamed s f = false

/-- The port takes its settings and its link restarts, where the queues of a port that changes still fit. -/
theorem portConfigBody_ok {mode lanes : Nat} (h : PortSettings p s f mode lanes) {s1 s2 : State}
    (h1 : putEth f (configuredPort p mode lanes (ethOf s f)) s = s1)
    (hfits : (ethOf s f).mode ≠ 0 → ((ethOf s f).mode ≠ mode ∨ (ethOf s f).mtu ≠ prmb p 2 2 13 0) →
      checkPort s1 f (tsPortOf s1 f) = none)
    (h2 : reportChanges s (setPortUp f false (setMgmt (unitPort f) (portWord (mode != 0) lanes) s1)) = s2) :
    specPortConfig.body p s = .ok (some (portData s2 f)) none s2 := by
  obtain ⟨rfl, rfl, hbits, hge, hle, hlanes, hstrap, hfree, hlive, hnamed⟩ := h
  subst h1 h2
  have hothers : ((List.range 8).all fun q => q == prmb p 0 1 2 0 || Nat.land lanes (ethOf s q).lanes == 0) = true := by
    simpa [or_iff_not_imp_left] using hfree
  calc specPortConfig.body p s = portConfigBody p s := rfl
    _ = _ := by
      unfold portConfigBody
      dsimp only
      rw [require_of (by simp [hbits, hge, hle]), hlanes]
      dsimp only
      rw [require_of (by simpa using hstrap), require_of hothers, require_of (by simpa using hlive),
        require_of (by simpa [or_iff_not_imp_left] using hnamed)]
      refine verdictRes_of ?_ _
      split
      next hchange =>
        obtain ⟨hon, hother⟩ := (Bool.and_eq_true _ _).mp hchange
        exact hfits (by simpa using hon) (by simpa using hother)
      next => rfl

/-! ### INGEST_FLOW_SET, FST_SUBSCRIBE and FST_UNSUBSCRIBE (R358, R363, R369) -/

/-- Flow f may be bound as x: its surface is valid, holds no crystal and takes no other ingest flow, and no other leg
matches what its legs match. -/
structure MayBind (s : State) (f : Nat) (x : Ingest) : Prop where
  valid : (surfOf s x.surface).valid = true
  notCrystal : (surfOf s x.surface).crystal = false
  free : boundElsewhere s f x.surface = false
  unique : legsUnique s f (legsOf x) = true
  fits : membershipFits (setIngest f x s) = true

/-- The shared checks of the commands that bind an ingest flow pass. -/
theorem bindIngest_ok {x : Ingest} {offs : List Nat} {surfOk : Bool} (h : MayBind s f x) (hsurf : surfOk = true)
    (hlegs : ∀ o ∈ offs, legOk p s o = true) : bindIngest p s f x offs surfOk = okay (setIngest f x s) := by
  obtain ⟨-, hplain, hfree, hunique, hfits⟩ := h
  unfold bindIngest
  rw [require_of (by simp [hplain]), require_of (by simpa [hsurf] using hlegs), require_of (by simp [hfree]),
    require_of hunique]
  exact require_of hfits _ _

/-- The ingest flow that INGEST_FLOW_SET gives. -/
def prmIngest (p : Packet) : Ingest :=
  { kind := 1, enabled := true, merge := prmbit p 2 1, fill := prmb p 2 1 3 2, pt := prmb p 3 1 6 0,
    surface := prmb p 4 2 13 0, ssrc := prm p 8 4, ssrcEn := prmbit p 12 0, legA := prmLeg p 16,
    legB := if prmbit p 2 1 = true then prmLeg p 64 else {} }

section
variable (hf : prmb p 0 2 11 0 = f)
  (hbits : onlyBits p ([(0, 2, 0xFFF), (2, 1, 0xF), (3, 1, 0x7F), (4, 2, 0x3FFF), allBits 8 4, (12, 1, 1)] ++ legBits 16
    ++ (if prmbit p 2 1 = true then legBits 64 else [allBits 64 48])) = true)
include hf hbits

theorem ingestFlowSetBody_end (hen : prmbit p 2 0 = false) :
    specIngestFlowSet.body p s = okay (stopIngest f s) := by
  subst hf
  calc specIngestFlowSet.body p s = ingestFlowSetBody p s := rfl
    _ = _ := require_of hbits _ _
    _ = _ := if_pos (by simp [hen])

/-- A flow that no subscription has is bound to a surface that ingest writes in one of its formats. -/
theorem ingestFlowSetBody_bind (hen : prmbit p 2 0 = true) (hkind : (ingestOf s f).kind ≠ 2) (hfill : prmb p 2 1 3 2 ≠ 3)
    (hbind : MayBind s f (prmIngest p)) {sf : Surface} (hsf : surfOf s (prmb p 4 2 13 0) = sf) (hwriter : sf.writer = 1)
    (hlo : 0x20 ≤ sf.format) (hhi : sf.format ≤ 0x28) (hcomp : sf.comp = 0) (hlegA : legOk p s 16 = true)
    (hlegB : prmbit p 2 1 = true → legOk p s 64 = true) :
    specIngestFlowSet.body p s = okay (setIngest f (prmIngest p) s) := by
  have hvalid : (surfOf s (prmb p 4 2 13 0)).valid = true := hbind.valid
  subst hf hsf
  have hlegs : ∀ o ∈ (if prmbit p 2 1 = true then [16, 64] else [16]), legOk p s o = true := by
    split
    next hmerge => simpa using ⟨hlegA, hlegB hmerge⟩
    next => simpa using hlegA
  calc specIngestFlowSet.body p s = ingestFlowSetBody p s := rfl
    _ = _ := require_of hbits _ _
    _ = _ := if_neg (by simp [hen])
    _ = _ := require_of (by simpa using hkind) _ _
    _ = _ := require_of (by simpa using hfill) _ _
    _ = _ := bindIngest_ok hbind (by simp [hvalid, hwriter, hlo, hhi, hcomp]) hlegs

end

/-- The subscription that FST_SUBSCRIBE gives. -/
def prmSubscription (p : Packet) : Ingest :=
  { kind := 2, enabled := true, surface := prmb p 4 2 13 0, handle := prm p 8 4, legA := prmLeg p 16 }

/-- A flow that is no video flow is subscribed to a surface that FST writes. -/
theorem fstSubscribeBody_ok (hf : prmb p 0 2 11 0 = f)
    (hbits : onlyBits p ([(0, 2, 0xFFF), (4, 2, 0x3FFF), allBits 8 4] ++ legBits 16) = true)
    (hkind : (ingestOf s f).kind ≠ 1) (hbind : MayBind s f (prmSubscription p)) {sf : Surface}
    (hsf : surfOf s (prmb p 4 2 13 0) = sf) (hwriter : sf.writer = 2) (hcomp : sf.comp = 2)
    (hleg : legOk p s 16 = true) : specFstSubscribe.body p s = okay (setIngest f (prmSubscription p) s) := by
  have hvalid : (surfOf s (prmb p 4 2 13 0)).valid = true := hbind.valid
  subst hf hsf
  calc specFstSubscribe.body p s = fstSubscribeBody p s := rfl
    _ = _ := require_of hbits _ _
    _ = _ := require_of (by simpa using hkind) _ _
    _ = _ := bindIngest_ok hbind (by simp [hvalid, hwriter, hcomp]) (by simpa using hleg)

theorem fstUnsubscribeBody_ok (hf : prmb p 0 2 11 0 = f) (hbits : onlyBits p [(0, 2, 0xFFF)] = true)
    (hkind : (ingestOf s f).kind = 2) : specFstUnsubscribe.body p s = okay (stopIngest f s) := by
  subst hf
  exact require_of (by simp [hbits, hkind]) _ _

/-! ### EGRESS_FLOW_SET (R364 to R368) -/

section
variable (hf : prmb p 0 2 9 0 = f)
include hf

theorem egressFlowSetBody_disable (hbits : onlyBits p egressBits = true) (hkind : (prmEgress p).kind = 0)
    (hsender : (egressOf s f).sender = none) : specEgressFlowSet.body p s = okay (stopEgress f s) := by
  subst hf
  calc specEgressFlowSet.body p s = egressFlowSetBody p s := rfl
    _ = _ := if_pos hkind
    _ = _ := require_of hbits _ _
    _ = _ := require_of (by simp [hsender]) _ _

/-- A flow of a legal kind is set where the queues of a port that gains it still fit. -/
theorem egressFlowSetBody_set (hon : (prmEgress p).kind ≠ 0) (hlegal : (prmEgress p).kind ≠ 3)
    (hkind : (egressOf s f).cfg.kind = 0 ∨ (egressOf s f).cfg.kind = (prmEgress p).kind)
    (hrules : ∀ k, egressCheck p s (prmEgress p) k = k) {s1 : State}
    (h1 : putEgress f { egressOf s f with cfg := prmEgress p } s = s1)
    (hfits : (egressOf s f).cfg.kind = 0 ∨ (egressOf s f).stopped = true ∨ (egressOf s f).cfg.port ≠ (prmEgress p).port →
      checkPort s1 (prmEgress p).port (tsPortOf s1 (prmEgress p).port) = none) :
    specEgressFlowSet.body p s = .ok (some (largestPacket s (prmEgress p))) none (setEgress f (prmEgress p) s) := by
  subst hf h1
  calc specEgressFlowSet.body p s = egressFlowSetBody p s := rfl
    _ = _ := if_neg hon
    _ = _ := require_of (by simpa using hlegal) _ _
    _ = _ := require_of (by simpa using hkind) _ _
    _ = _ := hrules _
    _ = _ := by
      refine verdictRes_of ?_ _
      split
      next hgains => exact hfits (by simpa [or_assoc] using hgains)
      next => rfl

end

/-! ### MCAST_JOIN and MCAST_LEAVE (R354) -/

section
variable (hok : joinOk p = true)
include hok

/-- An entry that is there already is joined without a change. -/
theorem mcastJoinBody_again (hj : prmJoin p ∈ s.ne.joins) : specMcastJoin.body p s = okay s := by
  calc specMcastJoin.body p s = mcastJoinBody p s := rfl
    _ = _ := require_of hok _ _
    _ = _ := if_pos (by simpa using hj)

theorem mcastJoinBody_new (hj : prmJoin p ∉ s.ne.joins) {s1 : State}
    (h1 : reportChanges s { s with ne := { s.ne with joins := s.ne.joins ++ [prmJoin p] } } = s1)
    (hfits : membershipFits s1 = true) : specMcastJoin.body p s = okay s1 := by
  subst h1
  calc specMcastJoin.body p s = mcastJoinBody p s := rfl
    _ = _ := require_of hok _ _
    _ = _ := if_neg (by simpa using hj)
    _ = _ := require_of hfits _ _

theorem mcastLeaveBody_ok (hj : prmJoin p ∈ s.ne.joins) : specMcastLeave.body p s
    = okay (reportChanges s { s with ne := { s.ne with joins := s.ne.joins.erase (prmJoin p) } }) :=
  require_of (by simpa [hok] using hj) _ _

end

/-! ### FLOW_QUERY (R382) -/

section
variable (hf : prmb p 2 2 11 0 = f) (hbits : onlyBits p [(0, 1, 1), (2, 2, 0xFFF), allBits 8 8] = true)
  (hbuf : bufferOk p s (prm p 8 8) 64 true = true)
include hf hbits hbuf

theorem flowQueryBody_egress (hegress : prmbit p 0 0 = true) (hlt : f < 1024) : specFlowQuery.body p s
    = .ok (some ((egressOf s f).cfg.kind + shl (b2n ((egressOf s f).cfg.kind != 0)) 2)) (some (egressOf s f).frameCnt)
        (bufferWrite p (prm p 8 8) true (egressRecord s f) s) := by
  subst hf
  calc specFlowQuery.body p s = flowQueryBody p s := rfl
    _ = _ := require_of (by simp [hbits, hlt]) _ _
    _ = _ := by
      simp only [hegress, if_true]
      exact withBuf_ok hbuf _ _ _

theorem flowQueryBody_ingest (hingest : prmbit p 0 0 = false) : specFlowQuery.body p s
    = .ok (some ((ingestOf s f).kind + shl (b2n ((ingestOf s f).kind != 0)) 2)) (some (ingestOf s f).frames)
        (bufferWrite p (prm p 8 8) true (ingestRecord (ingestOf s f)) s) := by
  subst hf
  calc specFlowQuery.body p s = flowQueryBody p s := rfl
    _ = _ := require_of (by simp [hbits, hingest]) _ _
    _ = _ := by
      simp only [hingest, Bool.false_eq_true, if_false]
      exact withBuf_ok hbuf _ _ _

end

/-- Settles O25: each clause is the opcode's own part under the checks that its premises pass. -/
theorem networkCommandsAnswer : Obligations.NetworkCommandsAnswer := by
  intro t p s e s0 f
  refine ⟨fun h hf hbits hge hle mode lanes hmode hlanes hstrap hfree hlive hnamed hfits => ?port,
    fun h hf hbits => ⟨fun hen => ?endIngest, fun hen hkind hfill sf hsf hvalid hwriter hlo hhi hcomp hplain hlegA hlegB
      hbound hunique hmember => ?bindIngest⟩,
    fun h hf hbits hkind sf hsf hvalid hwriter hcomp hleg hplain hbound hunique hmember => ?subscribe,
    fun h hf hbits hkind => ?unsubscribe,
    fun h hf hbits => ⟨fun hkind hsender => ?disable, fun hon hlegal hkind hrules hfits => ?egress⟩,
    fun hok => ⟨fun h hj => ?again, fun h hj hfits => ?join, fun h hj => ?leave⟩,
    fun h hf hbits hbuf => ⟨fun hegress hlt => ?queryEgress, fun hingest => ?queryIngest⟩⟩
  case port =>
    exact run_ok h (portConfigBody_ok ⟨hf, hmode, hbits, hge, hle, hlanes, hstrap, hfree, hlive, hnamed⟩ rfl hfits rfl)
  case endIngest => exact run_ok h (ingestFlowSetBody_end hf hbits hen)
  case bindIngest =>
    subst hsf
    have hbind : MayBind s0 f (prmIngest p) := ⟨hvalid, hplain, hbound, hunique, hmember⟩
    exact run_ok h (ingestFlowSetBody_bind hf hbits hen hkind hfill hbind rfl hwriter hlo hhi hcomp hlegA hlegB)
  case subscribe =>
    subst hsf
    have hbind : MayBind s0 f (prmSubscription p) := ⟨hvalid, hplain, hbound, hunique, hmember⟩
    exact run_ok h (fstSubscribeBody_ok hf hbits hkind hbind rfl hwriter hcomp hleg)
  case unsubscribe => exact run_ok h (fstUnsubscribeBody_ok hf hbits hkind)
  case disable => exact run_ok h (egressFlowSetBody_disable hf hbits hkind hsender)
  case egress => exact run_ok h (egressFlowSetBody_set hf hon hlegal hkind hrules rfl hfits)
  case again => exact run_ok h (mcastJoinBody_again hok hj)
  case join => exact run_ok h (mcastJoinBody_new hok hj rfl hfits)
  case leave => exact run_ok h (mcastLeaveBody_ok hok hj)
  case queryEgress => exact run_ok h (flowQueryBody_egress hf hbits hbuf hegress hlt)
  case queryIngest => exact run_ok h (flowQueryBody_ingest hf hbits hbuf hingest)

end Sys2Proof.Proofs

/-! SUPPORT. Cririk links: the ends of retrains, the bursts that start them, bring-up, loss, and the flits of a link
(O53). -/
namespace Sys2Proof.Proofs
open Sys2Proof Sys2Proof.Machine Sys2Proof.Laws

variable {t : Ticks} {s s1 : State} {k : Nat} {l : CfLink}

/-! ### Retrains (R573, R575) -/

/-- A retrain that runs on the lane it is charged to ends; the sixteenth that a lane is charged within an hour retires
it. -/
theorem exec_retrainDone (h : Occurs t s s1) {x lane : Nat} (hruns : retrains s1 x = true)
    (hlane : tbit (linkKeyLanes s1 x) lane = true) {s2 s3 s4 : State} {log : List (Nat × Ticks)} {n : Nat}
    (h2 : trainLanes (linkKeyLanes s1 x) s1 = s2)
    (h3 : (if x < 8 then putEth x { ethOf s2 x with retraining := false, attempts := 0 } s2
      else endRetrain (x - 8) s2) = s3)
    (hlog : (lane, s3.clk.onTicks) :: s3.rel.laneRt.filter (fun e => withinLast s3 (hourTicks 1) e.2) = log)
    (h4 : { s3 with rel := { s3.rel with laneRt := log } } = s4) (hn : (log.filter fun e => e.1 == lane).length = n) :
    exec (.retrainDone t x lane) s = .next (if 16 ≤ n then retireLane lane 0x11 n s4 else s4) := by
  subst h2 h3 hlog h4 hn
  calc exec (.retrainDone t x lane) s = execRetrainDone t x lane s := rfl
    _ = .next (retrainDone x lane s1) := whenRunning_of h _
    _ = _ := congrArg _ (if_neg (by simp [hruns, hlane]))

section
variable (h : Occurs t s s1) {x lanes mine bad : Nat} (hruns : retrains s1 x = true) (hmine : linkKeyLanes s1 x = mine)
  (hbad : Nat.land lanes mine = bad) (hsome : bad ≠ 0) {log : List (Nat × Ticks)} {n : Nat} {s2 : State}
  (hlog : (x, s1.clk.onTicks) :: s1.rel.attempts.filter (fun e => withinLast s1 (secTicks 10) e.2) = log)
  (hn : (log.filter fun e => e.1 == x).length = n)
  (h2 : (if x < 8 then putEth x { ethOf s1 x with attempts := (ethOf s1 x).attempts + 1 } s1
    else putLink (x - 8) { linkOf s1 (x - 8) with attempts := (linkOf s1 (x - 8)).attempts + 1 } s1) = s2)
include h hruns hmine hbad hsome hlog hn h2

/-- An attempt that fails on some lanes is counted; the third within 10 s ends the retrain, with the lanes retired, or
with the link lost where every lane failed. -/
theorem exec_retrainAttemptFail {s3 : State}
    (h3 : { s2 with rel := { s2.rel with attempts := log.filter fun e => e.1 != x } } = s3) :
    exec (.retrainAttemptFail t x lanes) s = .next (if n < 3 then { s2 with rel := { s2.rel with attempts := log } }
      else if bad = mine then trainingLost x s3 else forAll (bitList 16 bad) (fun i s => retireLane i 0x10 n s) s3) := by
  subst hmine hbad hlog hn h2 h3
  calc exec (.retrainAttemptFail t x lanes) s = execRetrainAttemptFail t x lanes s := rfl
    _ = .next (retrainFails x lanes s1) := whenRunning_of h _
    _ = _ := congrArg _ (if_neg (by simpa [hruns] using hsome))

end

/-! ### Blocks that fail to decode (R427) -/

/-- Blocks that fail to decode are counted, and start a retrain unless one runs. -/
theorem exec_cfBlockDecodeFail (h : Occurs t s s1) (hk : k < 4) (hl : linkOf s1 k = l) {n : Nat} (hup : l.up = true)
    (hn : n ≠ 0) {l' : CfLink} (hl' : { l with fecunc := sat 32 (l.fecunc + n) } = l') :
    exec (.cfBlockDecodeFail t k n) s = .next (if l.retraining = true then putLink k l' s1
      else raiseUnit (unitLink k) (648 + k)
        (putLink k { l' with retraining := true, attempts := 0, retrain := sat 32 (l.retrain + 1) } s1)) := by
  subst hl hl'
  calc exec (.cfBlockDecodeFail t k n) s = execCfBlockDecodeFail t k n s := rfl
    _ = _ := whenRunning_of h _
    _ = _ := congrArg _ (if_neg (by simp [hk, hup, hn]))

/-! ### Bring-up and loss (R426, R429) -/

/-- What ends a bring-up: the HELLO has named the link opposite and the calibration is done. -/
structure CanComeUp (l : CfLink) (k : Nat) : Prop where
  enabled : l.enabled = true
  bringup : l.bringup.isSome = true
  wired : ∃ u n, l.peer = some (u, opposite k, n)
  calibrated : l.calibrated = true

/-- The link comes up on the lanes of its configuration that passed training and are not retired. -/
theorem exec_cfLinkUp (h : Occurs t s s1) (hk : k < 4) (hl : linkOf s1 k = l) (hready : CanComeUp l k) {lanes m : Nat}
    (hm : maskOf ((bitList 16 (Nat.land lanes (linkMask l.first l.width))).filter fun i => !tbit s1.ne.deadLanes i) = m)
    (hsome : m ≠ 0) (hadopt : l.adopt = false) {s2 : State}
    (h2 : trainLanes m (setLinkUp k true (putLink k { l with bringup := none, laneMap := m, adopt := false } s1)) = s2) :
    exec (.cfLinkUp t k lanes) s = .next (if (!s2.cf.anchor && beatParent s2 == some k) = true
      then { s2 with tk := { s2.tk with beatSeen := false } } else s2) := by
  obtain ⟨hen, hbring, ⟨u, n, hpeer⟩, hcal⟩ := hready
  subst hl hm h2
  calc exec (.cfLinkUp t k lanes) s = execCfLinkUp t k lanes s := rfl
    _ = _ := by
      unfold execCfLinkUp
      rw [whenRunning_of h]
      dsimp only
      rw [hpeer, if_neg (by simpa [hk, hen, hbring, hcal] using hsome), hadopt]
      rfl

theorem exec_cfBringupTimeout (h : Occurs t s s1) (hk : k < 4) {b : Ticks} (hb : (linkOf s1 k).bringup = some b)
    (hdue : b + msTicks 500 ≤ s1.clk.ticks) {s2 : State} (h2 : discardWaiting k s1 = s2) :
    exec (.cfBringupTimeout t k) s
      = .next (compareUnit (unitLink k) (putLink k { linkOf s2 k with bringup := none, downAt := s2.clk.ticks } s2)) := by
  subst h2
  calc exec (.cfBringupTimeout t k) s = execCfBringupTimeout t k s := rfl
    _ = _ := by
      unfold execCfBringupTimeout
      rw [whenRunning_of h]
      dsimp only
      rw [hb]
      exact congrArg _ (if_pos (by simp [hk, hdue]))

theorem exec_cfBringupRetry (h : Occurs t s s1) (hk : k < 4) (hl : linkOf s1 k = l) (hen : l.enabled = true)
    (hdown : l.up = false) (hbring : l.bringup = none) (hdue : l.downAt + secTicks 1 ≤ s1.clk.ticks) :
    exec (.cfBringupRetry t k) s = .next (startBringup k s1) := by
  subst hl
  calc exec (.cfBringupRetry t k) s = execCfBringupRetry t k s := rfl
    _ = _ := whenRunning_of h _
    _ = _ := congrArg _ (if_pos (by simp [hk, hen, hdown, hbring, hdue]))

theorem exec_cfLinkDown (h : Occurs t s s1) (hk : k < 4) (hup : (linkOf s1 k).up = true) :
    exec (.cfLinkDown t k) s = .next (dropLink k s1) := by
  calc exec (.cfLinkDown t k) s = execCfLinkDown t k s := rfl
    _ = _ := whenRunning_of h _
    _ = _ := congrArg _ (if_pos (by simp [hk, hup]))

/-! ### Flits (R421, R424, R425) -/

theorem exec_cfFlitTx (h : Occurs t s s1) (hk : k < 4) (hl : linkOf s1 k = l) (hen : l.enabled = true)
    (hup : l.up = true) (hretrain : l.retraining = false) : exec (.cfFlitTx t k) s = .next (sendFlit k s1) := by
  subst hl
  calc exec (.cfFlitTx t k) s = execCfFlitTx t k s := rfl
    _ = _ := whenRunning_of h _
    _ = _ := congrArg _ (if_pos (by simp [hk, hen, hup, hretrain]))

section
variable (hl : linkOf s k = l) (hroom : l.replay.length < 1024)
include hl hroom

theorem sendFlit_waiting {f : Flit} (hf : nextWaiting l = some f) : sendFlit k s = transmit k f false s := by
  subst hl
  unfold sendFlit
  simp only [hroom, decide_true, if_true, hf]

variable (hnone : nextWaiting l = none)
include hnone

/-- With none waiting that may go, a transfer's next flit goes where the surface channel has a credit and no flit that
waits for one. -/
theorem sendFlit_transfer (hup : l.up = true) (hcredit : 0 < Tbl.get l.credits 0 (halfKey vcSurf false))
    (hfree : ∀ f ∈ l.waiting, f.vc ≠ vcSurf) {f : Flit} {s2 : State} (hmade : makeXferFlit k s = some (f, s2)) :
    sendFlit k s = transmit k f false s2 := by
  have hidle : (l.waiting.any fun f => f.vc == vcSurf) = false := by simpa using hfree
  subst hl
  unfold sendFlit
  simp only [hroom, decide_true, if_true, hnone, hup, hcredit, hidle, Bool.not_false, Bool.and_self, hmade]

theorem sendFlit_idle (hmade : makeXferFlit k s = none) :
    sendFlit k s = transmit k { vc := vcSync, ty := 0 } true s := by
  subst hl
  unfold sendFlit
  simp only [hroom, decide_true, hnone, hmade, ite_self]

end

/-- An IDLE flit brings acknowledgements and credits. -/
theorem exec_idleFlitRx (h : Occurs t s s1) {x : FlitRx} (hk : k < 4) (hl : linkOf s1 k = l) (hlink : x.link = k)
    (hty : x.ty = 0) (hen : l.enabled = true) (hup : l.up = true) (hretrain : l.retraining = false) :
    exec (.idleFlitRx t x) s = .next (putLink k (takeHeader x l) s1) := by
  subst hlink hl
  calc exec (.idleFlitRx t x) s = execIdleFlitRx t x s := rfl
    _ = .next (flitRx x [0] id s1) := whenRunning_of h _
    _ = _ := by
      unfold flitRx
      dsimp only
      rw [if_neg (by simp [hk, hen, hup, hretrain]), if_neg (by simp [hty]), if_pos hty]

/-- Settles O53: each event acts on the link that it finds, and each clause is one branch of what it does. -/
theorem linksAct : Obligations.LinksAct := by
  intro t s s1 h
  refine ⟨fun x lane hruns hlane => exec_retrainDone h hruns hlane rfl rfl rfl rfl rfl,
    fun x lanes mine bad hruns hmine hbad hsome => ⟨fun hfew => ?counted, fun hmany => ?third⟩, fun k hk l hl => ?link⟩
  case counted =>
    rw [exec_retrainAttemptFail h hruns hmine hbad hsome rfl rfl rfl rfl, if_pos hfew]
  case third =>
    rw [exec_retrainAttemptFail h hruns hmine hbad hsome rfl rfl rfl rfl, if_neg (Nat.not_lt.2 hmany)]
  case link =>
    refine ⟨fun n hup hn l' hl' => ?burst,
      fun lanes m u n hen hbring hpeer hcal hm hsome hadopt =>
        exec_cfLinkUp h hk hl ⟨hen, hbring, ⟨u, n, hpeer⟩, hcal⟩ hm hsome hadopt rfl,
      fun b hb hdue s2 h2 => exec_cfBringupTimeout h hk (hl ▸ hb) hdue h2,
      fun hen hdown hbring hdue => exec_cfBringupRetry h hk hl hen hdown hbring hdue,
      fun hup => exec_cfLinkDown h hk (hl ▸ hup), fun hen hup hretrain hroom => ?send,
      fun x hlink hty hen hup hretrain => exec_idleFlitRx h hk hl hlink hty hen hup hretrain⟩
    case burst =>
      have hact := exec_cfBlockDecodeFail h hk hl hup hn hl'
      exact ⟨fun hretrain => hact.trans (congrArg _ (if_pos hretrain)),
        fun hretrain => hact.trans (congrArg _ (if_neg (by simp [hretrain])))⟩
    case send =>
      rw [exec_cfFlitTx h hk hl hen hup hretrain]
      exact ⟨fun f hf => congrArg _ (sendFlit_waiting hl hroom hf),
        fun f s2 hnone hcredit hfree hmade => congrArg _ (sendFlit_transfer hl hroom hnone hup hcredit hfree hmade),
        fun hnone hmade => congrArg _ (sendFlit_idle hl hroom hnone hmade)⟩

end Sys2Proof.Proofs

/-! SUPPORT. Flows: frames of ingest flows that time out, and the packets that ST 2110-20 and FST senders send (O50). -/
namespace Sys2Proof.Proofs
open Sys2Proof Sys2Proof.Machine Sys2Proof.Laws

variable {t : Ticks} {s s1 : State} {f : Nat}

/-! ### A frame without a packet for 100 ms (R360, R361) -/

/-- The frame of a flow has waited 100 ms for a packet that is not in the buffer, and memory serves its closing. -/
structure FrameOverdue (s : State) (f : Nat) : Prop where
  flow : f < 4096
  due : (ingestOf s f).lastPkt + msTicks 100 ≤ s.clk.ticks
  empty : ∀ q ∈ s.ne.ibuf, q.flow ≠ f
  served : servedAll s 3 = true

section
variable (h : Occurs t s s1) (hdue : FrameOverdue s1 f)
include h hdue

/-- An overdue frame that is open or being discarded closes, without its marker. -/
theorem exec_ingestFrameTimeout : exec (.ingestFrameTimeout t f) s
    = .next (if (ingestOf s1 f).st = .idle then s1 else closeFrame f false s1) := by
  obtain ⟨hflow, hlast, hempty, hserved⟩ := hdue
  have hbuf : (s1.ne.ibuf.any fun q => q.flow == f) = false := by simpa using hempty
  calc exec (.ingestFrameTimeout t f) s = execIngestFrameTimeout t f s := rfl
    _ = _ := by
      unfold execIngestFrameTimeout
      rw [whenRunning_of h]
      dsimp only
      by_cases hidle : (ingestOf s1 f).st = .idle
      · rw [if_neg (by simp [hidle]), if_pos hidle]
      · rw [if_pos (by simp [hflow, hlast, hbuf, hserved, hidle]), if_neg hidle]

theorem exec_ingestFrameTimeout_open (hst : (ingestOf s1 f).st ≠ .idle) :
    exec (.ingestFrameTimeout t f) s = .next (closeFrame f false s1) :=
  (exec_ingestFrameTimeout h hdue).trans (congrArg _ (if_neg hst))

end

/-- A frame that was being discarded is forgotten: it was counted when it began. -/
theorem closeFrame_discarding (hst : (ingestOf s f).st = .discarding) (marker : Bool) :
    closeFrame f marker s = putIngest f (closedFlow (ingestOf s f)) s := by
  unfold closeFrame
  dsimp only
  rw [hst]

/-- An open frame closes as its kind of flow does, and the flow has none any more. -/
theorem closeFrame_open (hst : (ingestOf s f).st = .opened) (marker : Bool) {s1 : State}
    (h1 : (if (ingestOf s f).kind = 2 then closeFst f s else closeVideo f marker s) = s1) :
    closeFrame f marker s = putIngest f (closedFlow (ingestOf s1 f)) s1 := by
  subst h1
  unfold closeFrame
  dsimp only
  rw [hst]

/-- What LOSS_FILL makes of a video frame that closes without its marker. -/
theorem closeVideo_unmarked {x : Ingest} {sf : Surface} (hx : ingestOf s f = x) (hsf : surfOf s x.surface = sf) :
    closeVideo f false s = if x.fill = 2 then discardFrame f s
      else publishFlow f true (frameLoss x) (if (x.fill = 0 && sf.newest != noSlot) = true
        then forAll ((List.range (sHeight sf)).filter fun y => !lineFull x (wireLine sf) y)
          (fun y s => copyFromNewest sf (sf.pitch * 256 * y) (wireLine sf) s) s
        else s) := by
  subst hx hsf
  rfl

/-- An FST frame that lacks tiles gets them from the newest slot, or as zeros, and is published as INCOMPLETE. -/
theorem closeFst_missing {x : Ingest} {sf : Surface} (hx : ingestOf s f = x) (hsf : surfOf s x.surface = sf)
    {missing : List Nat}
    (hmiss : (List.range (tilesX (sWidth sf) * tilesY (sHeight sf))).filter (fun i => !x.tiles.contains i) = missing)
    (hsome : missing ≠ []) : closeFst f s = publishFlow f true missing.length (forAll missing
      (fun i s => if sf.newest = noSlot
        then writeSlot sf (tileOffset sf i) (List.replicate (tileBytes sf.budget) 0#8) s
        else copyFromNewest sf (tileOffset sf i) (tileBytes sf.budget) s) s) := by
  subst hx hsf hmiss
  have hcount := decide_eq_true (List.length_pos_iff.2 hsome)
  unfold closeFst
  dsimp only
  rw [hcount]

/-! ### Packets of a raster's frame (R364, R365, R390) -/

/-- The next packet of an ST 2110-20 sender's oldest frame has all its data and its release time has come. -/
structure PacketDue (s : State) (f : Nat) (x : Egress) (g : SendFrame) (rest : List SendFrame) : Prop where
  flow : f < 1024
  egress : egressOf s f = x
  kind : x.cfg.kind = 1
  running : x.stopped = false
  frames : x.frames = g :: rest
  data : min g.total ((g.next + 1) * g.cfg.blocks * 180) ≤ g.data.length
  due : g.ft + (g.ra + g.next * g.rb) / g.rc ≤ now s

theorem exec_st2110PacketRelease (h : Occurs t s s1) {x : Egress} {g : SendFrame} {rest : List SendFrame}
    (hp : PacketDue s1 f x g rest) : exec (.st2110PacketRelease t f) s = .next (releasePacket f g rest s1) := by
  obtain ⟨hflow, rfl, hkind, hrun, hframes, hdata, hdue⟩ := hp
  calc exec (.st2110PacketRelease t f) s = execSt2110PacketRelease t f s := rfl
    _ = _ := by
      unfold execSt2110PacketRelease
      rw [whenRunning_of h]
      dsimp only
      rw [hframes]
      exact congrArg _ (if_pos (by simp [hflow, hkind, hrun, hdata, hdue]))

theorem enqueueOrDrop_room {q : Nat} {b : List Byte} (hroom : queueRoom s q b.length = true) :
    enqueueOrDrop q b s = enqueue q b s := if_pos hroom

theorem enqueueOrDrop_full {q : Nat} {b : List Byte} (hroom : queueRoom s q b.length = false) :
    enqueueOrDrop q b s = queueAlert q (countDropped q 1 s) := if_neg (by simp [hroom])

/-! ### Packets of an FST slot (R368) -/

/-- An FST sender sends a slot of its surface. -/
structure SendsSlot (s : State) (f : Nat) (x : Egress) (g : FstSend) (sf : Surface) : Prop where
  egress : egressOf s f = x
  kind : x.cfg.kind = 2
  running : x.stopped = false
  slot : x.fst = some g
  surface : surfOf s x.cfg.surface = sf

/-- The frame of the next packet of an FST slot: END, or n tiles with their data. -/
def fstPacket (s : State) (x : Egress) (g : FstSend) (sf : Surface) (ended : Bool) (n : Nat) (data : List Byte) :
    List Byte :=
  buildUdp (flowUdp s x.cfg) (fstBytes
    { version := 1, ty := if ended then 1 else 0,
      last := !ended && g.tile + n == tilesX (sWidth sf) * tilesY (sHeight sf), tcount := n,
      handle := ownHandle s x.cfg.surface, pseq := x.nextSeq, slotSeq := g.seq, capture := (slotOf sf g.slot).capture,
      format := sf.format, budget := sf.budget, widthM1 := sf.widthM1, heightM1 := sf.heightM1,
      first := if ended then 0 else g.tile } ++ data)

theorem exec_fstPacketSend (h : Occurs t s s1) (hf : f < 1024) :
    exec (.fstPacketSend t f) s = .next (fstSend f s1) := by
  calc exec (.fstPacketSend t f) s = execFstPacketSend t f s := rfl
    _ = _ := whenRunning_of h _
    _ = _ := congrArg _ (if_pos hf)

/-- The tiles that a sender's next packet carries: from the first that can be read on, as many as follow it and can be
read too, and no more than the flow's packets hold. -/
def sendableTiles (s : State) (x : Egress) (g : FstSend) (sf : Surface) : List Nat :=
  let good := fun i => readable s (slotAddr sf g.slot + tileOffset sf i) (tileBytes sf.budget)
  let left := (List.range (tilesX (sWidth sf) * tilesY (sHeight sf) - g.tile)).map (g.tile + ·)
  ((left.dropWhile fun i => !good i).take x.cfg.blocks).takeWhile good

/-- Of the m numbers from a on, the first b of a run of good ones are the first n where those are good. -/
theorem takeWhile_run {good : Nat → Bool} {a m b n : Nat} (hm : 0 < m) (hb : 0 < b) (hn : min b m = n)
    (hgood : ∀ i < n, good (a + i) = true) :
    ((((List.range m).map (a + ·)).dropWhile fun i => !good i).take b).takeWhile good = (List.range n).map (a + ·) := by
  have hfirst : good a = true := hgood 0 (by omega)
  have hdrop : ((List.range m).map (a + ·)).dropWhile (fun i => !good i) = (List.range m).map (a + ·) :=
    List.dropWhile_eq_self_iff.2 fun _ => by simp [hfirst]
  rw [hdrop, ← List.map_take, List.take_range, hn, List.takeWhile_eq_self_iff]
  simpa using hgood

section
variable {x : Egress} {g : FstSend} {sf : Surface} {total len : Nat}
  (htotal : tilesX (sWidth sf) * tilesY (sHeight sf) = total)
include htotal

theorem sendableTiles_end (htile : g.tile = total) : sendableTiles s x g sf = [] := by
  unfold sendableTiles
  simp [htotal, htile]

theorem sendableTiles_run {n : Nat} (htile : g.tile < total) (hb : 0 < x.cfg.blocks)
    (hn : min x.cfg.blocks (total - g.tile) = n)
    (hgood : ∀ i < n, readable s (slotAddr sf g.slot + tileOffset sf (g.tile + i)) (tileBytes sf.budget) = true) :
    sendableTiles s x g sf = (List.range n).map (g.tile + ·) := by
  subst htotal
  exact takeWhile_run (by omega) hb hn hgood

/-- What an FST sender does, by the tiles that its packet carries: without any it sends END and goes on to the next slot;
without room in its queue it waits. -/
theorem fstSend_eq (h : SendsSlot s f x g sf) {sent : List Nat} {g' : FstSend} {ended : Bool} {b : List Byte}
    (hsent : sendableTiles s x g sf = sent)
    (hserved : ∀ i ∈ sent, served s 3 (slotAddr sf g.slot + tileOffset sf i) (tileBytes sf.budget) = true)
    (hg : { g with tile := sent.headD total } = g') (hended : decide (total ≤ g'.tile) = ended)
    {addr : Nat → Nat} (haddr : (fun i => slotAddr sf g'.slot + tileOffset sf (g'.tile + i)) = addr)
    (hlen : tileBytes sf.budget = len) (hb : fstPacket s x g' sf ended sent.length
      ((List.range sent.length).flatMap fun i => memRead s (addr i) len) = b) {s1 : State} {y : Egress}
    (h1 : forAll (List.range sent.length) (fun i s => countRead (addr i) len s) s = s1)
    (hy : { x with nextSeq := (x.nextSeq + 1) % 2 ^ 32, fst := some { g' with tile := g'.tile + sent.length } } = y) :
    fstSend f s = if queueRoom s f b.length = true then
        if ended = true then fstNext f (dropFst f (enqueue f b (putEgress f
          { y with frameCnt := sat 32 (x.frameCnt + 1), lastSent := some g.seq } s1)))
        else enqueue f b (putEgress f y s1)
      else s := by
  obtain ⟨hx, hkind, hrun, hslot, hsf⟩ := h
  have hwaits : (sent.any fun i => !served s 3 (slotAddr sf g.slot + tileOffset sf i) (tileBytes sf.budget)) = false := by
    simpa using hserved
  unfold sendableTiles at hsent
  unfold fstSend
  rw [hx]
  dsimp only at hsent ⊢
  rw [hslot]
  dsimp only
  rw [hsf, hsent, hwaits]
  subst hg hended haddr hlen hb h1 hy htotal
  simp only [fstPacket, decide_eq_true_eq, hkind, hrun]
  generalize queueRoom s f _ = room
  cases room <;> rfl

end

section
variable {x : Egress} {g : FstSend} {sf : Surface} (h : SendsSlot s f x g sf) {total len : Nat}
  (htotal : tilesX (sWidth sf) * tilesY (sHeight sf) = total)
include h htotal

/-- After the last tile END goes out; the slot is let go and the next one begins. -/
theorem fstSend_end (htile : g.tile = total) (hroom : queueRoom s f (fstPacket s x g sf true 0 []).length = true) :
    fstSend f s = fstNext f (dropFst f (enqueue f (fstPacket s x g sf true 0 []) (putEgress f
      { x with nextSeq := (x.nextSeq + 1) % 2 ^ 32, fst := some g, frameCnt := sat 32 (x.frameCnt + 1),
               lastSent := some g.seq } s))) := by
  have hsame : { g with tile := ([] : List Nat).headD total } = g := htile ▸ rfl
  have hsend := fstSend_eq htotal h (sendableTiles_end htotal htile) (by simp) hsame (decide_eq_true htile.ge) rfl rfl rfl
    rfl rfl
  rw [hsend]
  exact if_pos hroom

/-- Tiles that can be read and that memory serves go out while the queue has room. -/
theorem fstSend_tiles {n : Nat} (htile : g.tile < total) (hb : 0 < x.cfg.blocks)
    (hn : min x.cfg.blocks (total - g.tile) = n) (hlen : tileBytes sf.budget = len) {addr : Nat → Nat}
    (haddr : (fun i => slotAddr sf g.slot + tileOffset sf (g.tile + i)) = addr)
    (hgood : ∀ i < n, readable s (addr i) len = true ∧ served s 3 (addr i) len = true) {data : List Byte}
    (hdata : ((List.range n).flatMap fun i => memRead s (addr i) len) = data) {b : List Byte}
    (hpkt : fstPacket s x g sf false n data = b) :
    fstSend f s = if queueRoom s f b.length = true then enqueue f b (putEgress f
        { x with nextSeq := (x.nextSeq + 1) % 2 ^ 32, fst := some { g with tile := g.tile + n } }
        (forAll (List.range n) (fun i s => countRead (addr i) len s) s))
      else s := by
  subst haddr hlen hdata hpkt
  have hpos : 0 < n := by omega
  have hsent := sendableTiles_run htotal htile hb hn fun i hi => (hgood i hi).1
  have hserved : ∀ i ∈ (List.range n).map (g.tile + ·),
      served s 3 (slotAddr sf g.slot + tileOffset sf i) (tileBytes sf.budget) = true := by
    simpa using fun i hi => (hgood i hi).2
  have hfirst : ((List.range n).map (g.tile + ·)).headD total = g.tile := by
    obtain ⟨m, rfl⟩ := Nat.exists_eq_succ_of_ne_zero hpos.ne'
    simp [List.range_succ_eq_map]
  have hsame : { g with tile := ((List.range n).map (g.tile + ·)).headD total } = g := by rw [hfirst]
  have hsend := fstSend_eq htotal h hsent hserved hsame (decide_eq_false htile.not_ge) rfl rfl rfl rfl rfl
  rw [hsend, List.length_map, List.length_range]
  rfl

end

/-! ### The statement -/

/-- Settles O50: each clause is what the event does to a flow in the state that the clause names. -/
theorem flowEventsAct : Obligations.FlowEventsAct := by
  intro t s s1 f h
  refine ⟨fun x sf hf hx hsf hlast hempty hserved => ?timeout,
    fun x g rest hf hx hkind hrun hframes hdata hdue s2 h2 => ?release,
    fun x g sf hf hx hkind hrun hg hsf total len htotal hlen => ?send⟩
  case timeout =>
    have hdue : FrameOverdue s1 f := ⟨hf, by rw [hx]; exact hlast, hempty, hserved⟩
    have hopen := fun hst => exec_ingestFrameTimeout_open h hdue (hx ▸ hst)
    refine ⟨fun hst => ?idle, fun hst => ?discarding, fun hst hkind => ?video, fun hst hkind missing hmiss hsome => ?tiles⟩
    case idle => exact (exec_ingestFrameTimeout h hdue).trans (congrArg _ (if_pos (by rw [hx, hst])))
    case discarding =>
      rw [hopen (by simp [hst]), closeFrame_discarding (by rw [hx, hst])]
      rfl
    case video =>
      have hvideo := closeFrame_open (hx.symm ▸ hst) false (if_neg (hx.symm ▸ hkind))
      rw [hopen (by simp [hst]), hvideo, closeVideo_unmarked hx hsf]
      subst hx
      refine ⟨fun hfill => ?_, fun hfill => ?_, fun hfill hnew => ?_⟩
      · rw [if_pos hfill]
        rfl
      · rw [if_neg (by omega), if_neg (by simpa using fun h0 => by omega)]
        rfl
      · rw [if_neg (by omega), if_pos (by simp [hfill, hnew])]
        rfl
    case tiles =>
      have hfst := closeFrame_open (hx.symm ▸ hst) false (if_pos (hx.symm ▸ hkind))
      rw [hopen (by simp [hst]), hfst, closeFst_missing hx hsf hmiss hsome]
      rfl
  case release =>
    subst hx h2
    rw [exec_st2110PacketRelease h ⟨hf, rfl, hkind, hrun, hframes, hdata, hdue⟩]
    exact ⟨fun hroom => congrArg _ (enqueueOrDrop_room hroom), fun hroom => congrArg _ (enqueueOrDrop_full hroom)⟩
  case send =>
    have hsends : SendsSlot s1 f x g sf := ⟨hx, hkind, hrun, hg, hsf⟩
    subst htotal
    rw [exec_fstPacketSend h hf]
    refine ⟨fun htile hroom => congrArg _ (fstSend_end hsends rfl htile hroom), fun n htile hb hn hgood data hdata => ?_⟩
    rw [fstSend_tiles hsends rfl htile hb hn hlen rfl hgood hdata rfl]
    exact ⟨fun hroom => congrArg _ (if_pos hroom), fun hroom => congrArg _ (if_neg (Bool.eq_false_iff.1 hroom))⟩

end Sys2Proof.Proofs

/-! SUPPORT. The events of Ethernet ports: received frames on their way to a flow's slot, firmware's answers, links and
retrains (O49). -/
namespace Sys2Proof.Proofs
open Sys2Proof Sys2Proof.Machine Sys2Proof.Laws

variable {t : Ticks} {s s1 : State} {port f level : Nat} {e : EthPort} {b : List Byte}

/-! ### The buffer and the meter (R356, R408) -/

/-- A packet that enters the buffer goes on at once unless a packet of its flow waits before it or memory does not
serve it. -/
theorem bufferPacket_eq {q : IngestPkt} {s1 s2 : State} (h1 : drainIngest s = s1)
    (h2 : putIngest q.flow { ingestOf s1 q.flow with lastPkt := s.clk.ticks } s1 = s2) :
    bufferPacket q s = if s2.ne.ibuf.any (fun w => w.flow == q.flow) = true ∨ packetServed s2 q = false
      then { s2 with ne := { s2.ne with ibuf := s2.ne.ibuf ++ [q] } } else assignPacket q.flow q.pkt s2 := by
  subst h1 h2
  exact if_congr (by simp) rfl rfl

section
variable {legB : Bool} {dscp len : Nat} {q : FlowPkt} {fl z : Ingest} (hfl : ingestOf s f = fl)
  (hz : (window q.seq fl).2 = z)
include hfl hz

/-- A packet that the sequence window has seen, or that is too old for it, is counted and no more. -/
theorem flowPacket_outside (hw : (window q.seq fl).1 ≠ .used) :
    flowPacket f legB dscp len level q s = putIngest f z s := by
  subst hfl hz
  unfold flowPacket
  dsimp only
  split
  next hused => exact absurd hused hw
  next => rfl

variable (hw : (window q.seq fl).1 = .used) {ok : Bool} {s1 : State}
  (hmeter : meterPacket f dscp len level (putIngest f { z with
    packets := (z.packets + 1) % 2 ^ 64, cntA := if legB = true then z.cntA else sat 32 (z.cntA + 1),
    cntB := if legB = true then sat 32 (z.cntB + 1) else z.cntB } s) = (ok, s1))
include hw hmeter

/-- A packet in the window is counted and metered; one that the meter passes is buffered where the buffer has room. -/
theorem flowPacket_used {held : Nat} (hheld : max (level * 1024) (sumOf (s1.ne.ibuf.map (·.len))) + len = held) :
    flowPacket f legB dscp len level q s = if ok = false then s1
      else if 4194304 < held then
        let s2 := { s1 with ne := { s1.ne with ibovf := sat 32 (s1.ne.ibovf + 1) } }
        if s1.ne.ibovf = 0 then raise 418 s2 else s2
      else bufferPacket ⟨f, len, q⟩ { s1 with ne := { s1.ne with ibufHwm := max s1.ne.ibufHwm (cdiv held 1024) } } := by
  subst hfl hz hheld
  unfold flowPacket
  dsimp only
  rw [hw]
  dsimp only
  rw [hmeter]
  exact if_congr (by simp) rfl rfl

end

/-! ### Legs and header checks (R355, R358, R369) -/

section
variable {u : UdpRx} {len : Nat}

theorem udpPacket_noFlow (hleg : matchLeg s port u = none) : udpPacket port len level u s
    = putEth port { ethOf s port with rxnoflow := sat 32 ((ethOf s port).rxnoflow + 1) } s := by
  unfold udpPacket
  rw [hleg]

variable {legB : Bool} {fl : Ingest} {sf : Surface} (hleg : matchLeg s port u = some (f, legB))
  (hfl : ingestOf s f = fl) (hsf : surfOf s fl.surface = sf)
include hleg hfl hsf

/-- A packet whose headers are not its flow's format is counted as malformed. -/
theorem udpPacket_malformed (hbad : fl.kind ≠ 2 ∧ rtpCheck fl sf (now s) u.payload = none
      ∨ fl.kind = 2 ∧ fstCheck fl sf u.payload = .malformed) :
    udpPacket port len level u s = putIngest f { fl with malformed := sat 32 (fl.malformed + 1) } s := by
  subst hfl hsf
  unfold udpPacket
  rw [hleg]
  dsimp only
  rcases hbad with ⟨hkind, hcheck⟩ | ⟨hkind, hcheck⟩
  · rw [if_neg hkind, hcheck]
  · rw [if_pos hkind, hcheck]

/-- An FST packet of another format than its surface's is counted and sets the flow's alert bit. -/
theorem udpPacket_mismatch (hkind : fl.kind = 2) (hcheck : fstCheck fl sf u.payload = .mismatch) :
    udpPacket port len level u s = ingestAlert f (putIngest f { fl with mismatch := sat 32 (fl.mismatch + 1) } s) := by
  subst hfl hsf
  unfold udpPacket
  rw [hleg]
  dsimp only
  rw [if_pos hkind, hcheck]

theorem udpPacket_passes {q : FlowPkt} (hgood : fl.kind ≠ 2 ∧ rtpCheck fl sf (now s) u.payload = some q
      ∨ fl.kind = 2 ∧ fstCheck fl sf u.payload = .ok q) :
    udpPacket port len level u s = flowPacket f legB u.dscp len level q s := by
  subst hfl hsf
  unfold udpPacket
  rw [hleg]
  dsimp only
  rcases hgood with ⟨hkind, hcheck⟩ | ⟨hkind, hcheck⟩
  · rw [if_neg hkind, hcheck]
  · rw [if_pos hkind, hcheck]

end

/-! ### A frame arrives (R349, R350, R356) -/

theorem exec_ethFrameRx (h : Occurs t s s1) (hp : port < 8) (fixed : Nat) :
    exec (.ethFrameRx t port level fixed b) s = .next (frameRx port level b (countFixed port fixed s1)) := by
  calc exec (.ethFrameRx t port level fixed b) s = execEthFrameRx t port level fixed b s := rfl
    _ = _ := whenRunning_of h _
    _ = _ := congrArg _ (if_pos hp)

theorem frameRx_down (hcarries : portCarries s port = false) : frameRx port level b s = s :=
  if_pos (by simp [hcarries])

theorem frameRx_bad (hcarries : portCarries s port = true) (hok : frameOk (ethOf s port).mtu b = false) :
    frameRx port level b s = rxError port s :=
  (if_neg (by simp [hcarries])).trans (if_pos (by simp [hok]))

/-- A good frame is counted, and one whose address the port does not accept goes no further. -/
theorem frameRx_good (hcarries : portCarries s port = true) (hok : frameOk (ethOf s port).mtu b = true)
    (h1 : putEth port { ethOf s port with rxfr := ((ethOf s port).rxfr + 1) % 2 ^ 64,
                                          rxoct := ((ethOf s port).rxoct + b.length) % 2 ^ 64 } s = s1) :
    frameRx port level b s = if acceptsAddress s1 port b = false then s1
      else match parseFrame b with
        | .error => rxError port s1
        | .control => s1
        | .udp u => udpPacket port b.length level u s1 := by
  subst h1
  unfold frameRx
  dsimp only
  rw [if_neg (by simp [hcarries]), if_neg (by simp [hok])]
  exact if_congr (by simp) rfl rfl

/-! ### Firmware's answers (R351, R353) -/

theorem exec_fwFrameService_down (h : Occurs t s s1) {req : FwRequest} (hcarries : portCarries s1 port = false) :
    exec (.fwFrameService t port req) s = .next s1 := by
  calc exec (.fwFrameService t port req) s = execFwFrameService t port req s := rfl
    _ = _ := whenRunning_of h _
    _ = _ := congrArg _ (if_pos (by simp [hcarries]))

/-- Firmware drops what comes after the 10,000th frame of a port in one second, and answers the frames before. -/
theorem exec_fwFrameService (h : Occurs t s s1) (hp : port < 8) (he : ethOf s1 port = e) {req : FwRequest}
    (hcarries : portCarries s1 port = true) {sec n : Nat} (hsec : now s1 / 1000000000 = sec)
    (hn : (if e.fwSecond = sec then e.fwCount else 0) = n) :
    exec (.fwFrameService t port req) s = .next (if 10000 ≤ n
      then putEth port { e with fwdrop := sat 32 (e.fwdrop + 1) } s1
      else fwAnswer port req (putEth port { e with fwSecond := sec, fwCount := n + 1 } s1)) := by
  subst he hsec hn
  calc exec (.fwFrameService t port req) s = execFwFrameService t port req s := rfl
    _ = _ := whenRunning_of h _
    _ = _ := congrArg _ (if_neg (by simp [hp, hcarries]))

section
variable (he : ethOf s port = e) (hcarries : (e.up && !e.retraining) = true)
include he

theorem ownAddress_iff (v6 : Bool) (a : Nat) : ownAddress s port v6 a = true
    ↔ a ≠ 0 ∧ (if v6 = true then a = e.ipv6 ∨ a = llAddress e.mac else a = e.ipv4) := by
  subst he
  unfold ownAddress
  cases v6 <;> simp

include hcarries

theorem sendFw_up (len kind : Nat) (words : List Nat) : sendFw port len kind words s = emit (.fwFrame port kind words)
    (putEth port { e with txfr := (e.txfr + 1) % 2 ^ 64, txoct := (e.txoct + len) % 2 ^ 64 } s) := by
  subst he
  exact if_pos hcarries

theorem fwAnswer_arp (a : Nat) : fwAnswer port (.arp a) s = if a ≠ 0 ∧ a = e.ipv4
    then emit (.fwFrame port 2 [e.mac, a])
      (putEth port { e with txfr := (e.txfr + 1) % 2 ^ 64, txoct := (e.txoct + 64) % 2 ^ 64 } s) else s := by
  rw [← sendFw_up he hcarries]
  subst he
  exact if_congr (ownAddress_iff rfl false a) rfl rfl

theorem fwAnswer_solicit (a : Nat) : fwAnswer port (.solicit a) s
    = if a ≠ 0 ∧ (a = e.ipv6 ∨ a = llAddress e.mac) then emit (.fwFrame port 3 [e.mac, a])
      (putEth port { e with txfr := (e.txfr + 1) % 2 ^ 64, txoct := (e.txoct + 90) % 2 ^ 64 } s) else s := by
  rw [← sendFw_up he hcarries]
  subst he
  exact if_congr (ownAddress_iff rfl true a) rfl rfl

theorem fwAnswer_echo (v6 : Bool) (a : Nat) (data : List Byte) : fwAnswer port (.echo v6 a data) s
    = if a ≠ 0 ∧ (if v6 = true then a = e.ipv6 ∨ a = llAddress e.mac else a = e.ipv4) then
        emit (.fwFrame port 4 (b2n v6 :: a :: data.map (·.toNat))) (putEth port
          { e with txfr := (e.txfr + 1) % 2 ^ 64,
                   txoct := (e.txoct + fwFrameLen v6 (4 + data.length)) % 2 ^ 64 } s)
      else s := by
  rw [← sendFw_up he hcarries]
  exact if_congr (ownAddress_iff he v6 a) rfl rfl

end

/-! ### Links and retrains (R351, R371, R374) -/

/-- The link of an enabled port comes up, and firmware announces the port's addresses. -/
theorem exec_ethLinkUp (h : Occurs t s s1) (hp : port < 8) (he : ethOf s1 port = e) (hmode : e.mode ≠ 0)
    (hdown : e.up = false) {s2 : State}
    (h2 : (if e.adopt = true then setMgmt (unitPort port) (portWord true e.lanes) s1 else s1) = s2) :
    exec (.ethLinkUp t port) s = .next (announceAddresses port (trainLanes e.lanes (setPortUp port true
      (putEth port { e with coming := false, adopt := false } s2)))) := by
  subst he h2
  calc exec (.ethLinkUp t port) s = execEthLinkUp t port s := rfl
    _ = _ := whenRunning_of h _
    _ = _ := congrArg _ (if_neg (by simp [hp, portOn, hmode, hdown]))

theorem exec_ethLinkDown (h : Occurs t s s1) (hp : port < 8) (he : ethOf s1 port = e) :
    exec (.ethLinkDown t port) s = .next (if e.up = true
      then setPortUp port false (putEth port { e with retraining := false } s1) else s1) := by
  subst he
  calc exec (.ethLinkDown t port) s = execEthLinkDown t port s := rfl
    _ = _ := whenRunning_of h _
    _ = _ := congrArg _ (if_congr (by simp [hp]) rfl rfl)

/-- UP of a port that changes raises its source; the port's flows follow, and its two states are compared. -/
theorem setPortUp_change (he : ethOf s port = e) {v : Bool} (hv : e.up ≠ v) : setPortUp port v s
    = compareUnit (unitPort port) (settleFlows port (raise (384 + 4 * port) (putEth port { e with up := v } s))) := by
  subst he
  exact if_neg hv

/-- Codewords that could not be corrected are counted, and start a retrain unless one runs. -/
theorem exec_fecUncorrectable (h : Occurs t s s1) (hp : port < 8) (he : ethOf s1 port = e) {n : Nat} (hup : e.up = true)
    (hn : n ≠ 0) {x : EthPort} (hx : { e with fecunc := sat 32 (e.fecunc + n) } = x) :
    exec (.fecUncorrectable t port n) s = .next (if e.retraining = true then putEth port x s1
      else raiseUnit (unitPort port) (384 + 4 * port + 2)
        (putEth port { x with retraining := true, attempts := 0, retrain := sat 32 (e.retrain + 1) } s1)) := by
  subst he hx
  calc exec (.fecUncorrectable t port n) s = execFecUncorrectable t port n s := rfl
    _ = _ := whenRunning_of h _
    _ = _ := congrArg _ (if_neg (by simp [hp, hup, hn]))

/-! ### The statement -/

/-- Settles O49: a frame is followed step by step to where it is counted, dropped or taken; the other clauses are each one
branch of what their event does. -/
theorem ethernetEventsAct : Obligations.EthernetEventsAct := by
  intro t s s1 port h hp e he
  refine ⟨fun level fixed b s2 x h2 hx => ?frame,
    fun req => ⟨fun hcarries => exec_fwFrameService_down h hcarries, fun hcarries sec n hsec hn => ?firmware⟩,
    fun hmode hdown s2 h2 => ?linkUp, fun hup => ?linkDown, fun hdown => ?isDown, fun n hup hn x hx => ?burst⟩
  case frame =>
    have hs2 : countFixed port fixed s1 = s2 := by
      subst he
      exact h2
    rw [exec_ethFrameRx h hp, hs2]
    subst hx
    refine ⟨fun hcarries => congrArg _ (frameRx_down hcarries), fun hcarries hok => congrArg _ (frameRx_bad hcarries hok),
      fun hcarries hok y s3 hy h3 => ?good⟩
    have hy3 : ethOf s3 port = y := by rw [← h3, ethOf_putEth]
    rw [frameRx_good hcarries hok (by rw [hy, h3])]
    refine ⟨fun haddr => congrArg _ (if_pos haddr), fun haddr => ?accepted⟩
    rw [if_neg (by simp [haddr])]
    subst hy3
    refine ⟨fun hparse => by rw [hparse]; rfl, fun hparse => by rw [hparse], fun u hparse => ?udp⟩
    rw [hparse]
    refine ⟨fun hleg => congrArg _ (udpPacket_noFlow hleg), fun f legB fl sf hleg hfl hsf =>
      ⟨fun hbad => congrArg _ (udpPacket_malformed hleg hfl hsf hbad),
        fun hkind hcheck => congrArg _ (udpPacket_mismatch hleg hfl hsf hkind hcheck), fun q hgood z => ?passes⟩⟩
    dsimp only
    rw [udpPacket_passes hleg hfl hsf hgood]
    refine ⟨fun hz hw => congrArg _ (flowPacket_outside hfl hz hw), fun hz hw ok s4 hmeter => ?used⟩
    have hused := fun held => flowPacket_used (held := held) hfl hz hw hmeter
    refine ⟨fun hok => congrArg _ ((hused _ rfl).trans (if_pos hok)), fun hok held hheld => ?metered⟩
    rw [hused held hheld, if_neg (by simp [hok])]
    refine ⟨fun hfull => congrArg _ (if_pos hfull), fun hroom s5 h5 s6 h6 => ?buffered⟩
    rw [if_neg (Nat.not_lt.2 hroom)]
    exact congrArg _ (bufferPacket_eq h5 h6)
  case firmware =>
    refine ⟨fun hmany => ?dropped, fun hfew y s2 hy h2 => ?answered⟩
    case dropped => rw [exec_fwFrameService h hp he hcarries hsec hn, if_pos hmany]
    case answered =>
      have hact := fun req => (exec_fwFrameService (req := req) h hp he hcarries hsec hn).trans
        (congrArg _ (if_neg (Nat.not_le.2 hfew)))
      have hup : (y.up && !y.retraining) = true := by
        rw [← hy, ← he]
        exact hcarries
      have hy2 : ethOf s2 port = y := by rw [← h2, ethOf_putEth]
      rw [hact, hy, h2]
      have hmac : e.mac = y.mac := by rw [← hy]
      have hipv4 : e.ipv4 = y.ipv4 := by rw [← hy]
      have hipv6 : e.ipv6 = y.ipv6 := by rw [← hy]
      rw [hmac, hipv4, hipv6]
      refine ⟨fun a hreq => ?_, fun a hreq => ?_, fun v6 a data hreq => ?_, fun v6 v g s3 hreq h3 => ?_, fun hreq => ?_⟩
      all_goals rw [hreq]
      · exact congrArg _ (fwAnswer_arp hy2 hup a)
      · exact congrArg _ (fwAnswer_solicit hy2 hup a)
      · exact congrArg _ (fwAnswer_echo hy2 hup v6 a data)
      · rw [← h3]
        rfl
      · rfl
  case linkUp =>
    rw [he]
    exact exec_ethLinkUp h hp he hmode hdown h2
  case linkDown =>
    rw [exec_ethLinkDown h hp he, if_pos hup, setPortUp_change (ethOf_putEth _ _ _) (by simp [hup])]
  case isDown => rw [exec_ethLinkDown h hp he, if_neg (by simp [hdown])]
  case burst =>
    have hact := exec_fecUncorrectable h hp he hup hn hx
    exact ⟨fun hretrain => hact.trans (congrArg _ (if_pos hretrain)),
      fun hretrain => hact.trans (congrArg _ (if_neg (by simp [hretrain])))⟩

end Sys2Proof.Proofs

/-! SUPPORT. The commands of the traffic scheduler: queue shapers, port gate lists, meters and statistics (O26). -/
namespace Sys2Proof.Proofs
open Sys2Proof Sys2Proof.Machine Sys2Proof.Laws

variable {p : Packet} {s : State}

/-! ### QUEUE_SHAPER_SET (R386 to R388, R415) -/

/-- A queue takes what its groups set, where the port still holds the CIR of its enabled queues. -/
theorem queueShaperSetBody_ok {q : Nat} {x : TsQueue} (hbits : onlyBits p shaperBits = true) (hq : prmb p 0 2 9 0 = q)
    (hx : shapedQueue s p (queueOf s q) = x) (hok : shaperOk s p x = true)
    (hsender : prmbit p 2 0 = true → (egressOf s q).sender = none) {port : Nat} (hport : (egressOf s q).cfg.port = port)
    {s1 : State} (h1 : putQueue q x s = s1)
    (hfits : queueOn s q = true → (x.cir ≠ (queueOf s q).cir ∨ x.cls ≠ (queueOf s q).cls) →
      checkPort s1 port (tsPortOf s1 port) = none) :
    specQueueShaperSet.body p s = .ok (some (portCir s1 port)) none s1 := by
  subst hq hx hport h1
  have hidle : (!(prmbit p 2 0 && (egressOf s (prmb p 0 2 9 0)).sender.isSome)) = true := by
    cases hrates : prmbit p 2 0
    · rfl
    · simp [hsender hrates]
  calc specQueueShaperSet.body p s = queueShaperSetBody p s := rfl
    _ = _ := require_of (by simp [hbits, hok]) _ _
    _ = _ := require_of hidle _ _
    _ = _ := by
      refine verdictRes_of ?_ _
      split
      next hchange =>
        obtain ⟨hon, hother⟩ := (Bool.and_eq_true _ _).mp hchange
        exact hfits hon (by simpa using hother)
      next => rfl

/-! ### Port gate lists (R392 to R397, R416) -/

/-- A legal list is loaded into ports that have none pending once the lists whose time has come have taken over. -/
theorem qbvListLoadBody_ok {s1 : State} (h1 : portsTakeOver s = s1) {n : Nat} (hn : prmb p 2 2 9 0 = n)
    {l : List GateEntry}
    (hl : ((List.range n).map fun i => (⟨prm p (16 + 4 * i) 3, prm p (19 + 4 * i) 1⟩ : GateEntry)) = l)
    (hbits : onlyBits p [allBits 0 1, (2, 2, 0x3FF), allBits 4 1, allBits 16 (4 * n)] = true)
    (hports : portMaskOk p s1 = true) (hlist : portListOk l = true)
    (harm : ∀ i ∈ portMask p, (tsPortOf s1 i).arm ≠ .pending) :
    specQbvListLoad.body p s = .ok (some (portCycle l)) none (forAll (portMask p) (fun i x =>
      putTsPort i { tsPortOf x i with armed := l, arm := .loaded, taken := none, armOvh := prm p 4 1 } x) s1) := by
  subst h1 hn hl
  calc specQbvListLoad.body p s = qbvListLoadBody p s := rfl
    _ = _ := require_of (by simp [hbits, hports, hlist]) _ _
    _ = _ := require_of (by simpa using harm) _ _

/-- Checks of which none refuses refuse nothing. -/
theorem firstOf_map_none {α : Type} {l : List α} {f : α → Verdict} (h : ∀ i ∈ l, f i = none) : firstOf (l.map f) = none := by
  induction l with
  | nil => rfl
  | cons i l ih =>
    obtain ⟨hi, hl⟩ := List.forall_mem_cons.1 h
    rw [List.map_cons, hi]
    exact ih hl

section
variable (hbits : onlyBits p [allBits 0 1, (1, 1, 1), allBits 8 8] = true) (hports : portMaskOk p s = true)
  (hfree : ∀ i ∈ portMask p, portTaken s i = none)
include hbits hports hfree

/-- A disarming leaves each list that was pending loaded. -/
theorem qbvListArmBody_disarm (hd : prmbit p 1 0 = true) :
    specQbvListArm.body p s = okay (forAll (portMask p) (fun i x => putTsPort i
      { tsPortOf x i with arm := if (tsPortOf x i).arm = .pending then .loaded else (tsPortOf x i).arm } x) s) := by
  calc specQbvListArm.body p s = qbvListArmBody p s := rfl
    _ = _ := by
      unfold qbvListArmBody
      dsimp only
      rw [require_of (by simp [hbits, hports]), require_of (by simp [hd]), List.filterMap_eq_nil_iff.2 hfree]
      exact if_pos hd

/-- An arm for a time at least 1 µs ahead, whose lists hold the CIR of the ports' queues, is not late. -/
theorem qbvListArmBody_arm (hd : prmbit p 1 0 = false) (hloaded : ∀ i ∈ portMask p, (tsPortOf s i).arm ≠ .empty)
    (hahead : now s + 1000 ≤ prm p 8 8)
    (hfits : ∀ i ∈ portMask p, checkPort s i (portArmedAt (prm p 8 8) false (tsPortOf s i)) = none) :
    specQbvListArm.body p s = .done 0 (some (prm p 8 8)) (some (prm p 8 8 / 2 ^ 32))
      (forAll (portMask p) (fun i x => putTsPort i (portArmedAt (prm p 8 8) false (tsPortOf x i)) x) s) := by
  have hlate : decide (prm p 8 8 < now s + 1000) = false := decide_eq_false (Nat.not_lt.2 hahead)
  have hlists : ((portMask p).all fun i => (tsPortOf s i).arm != .empty || (portTaken s i).isSome) = true :=
    List.all_eq_true.2 fun i hi => by simp [hloaded i hi]
  calc specQbvListArm.body p s = qbvListArmBody p s := rfl
    _ = _ := by
      unfold qbvListArmBody
      dsimp only
      rw [require_of (by simp [hbits, hports]), require_of (by simp [hlists]), List.filterMap_eq_nil_iff.2 hfree, hlate]
      simp only [hd, Bool.false_eq_true, if_false, firstOf_map_none hfits]

end

/-! ### METER_SET (R407) -/

/-- Legal rates and burst sizes set a meter, both of its buckets full. -/
theorem meterSetBody_ok {cir pir cbs pbs : Nat} (hcir : prmb p 4 4 29 0 = cir) (hpir : prmb p 8 4 29 0 = pir)
    (hcbs : prmb p 12 4 23 0 = cbs) (hpbs : prmb p 16 4 23 0 = pbs)
    (hbits : onlyBits p [(0, 2, 0xFFF), (2, 1, 3), (4, 4, 0x3FFFFFFF), (8, 4, 0x3FFFFFFF), (12, 4, 0xFFFFFF),
      (16, 4, 0xFFFFFF)] = true) (hrates : cir ≤ pir) (hc : 64 ≤ cbs) (hp : 64 ≤ pbs) :
    specMeterSet.body p s = okay (putMeter (prmb p 0 2 11 0)
      { meterOf s (prmb p 0 2 11 0) with en := prmbit p 2 0, aware := prmbit p 2 1, cir := cir, pir := pir,
                                         cbs := cbs, pbs := pbs, tc := cbs * 2 ^ 32, tp := pbs * 2 ^ 32,
                                         at_ := s.clk.ticks } s) := by
  subst hcir hpir hcbs hpbs
  exact require_of (by simp [hbits, hrates, hc, hp]) _ _

/-! ### TS_STATS_READ (R404, R405, R417) -/

/-- TS_STATS_READ names from 1 to 64 records, of which the last is below n. -/
structure StatsNamed (p : Packet) (n : Nat) : Prop where
  fields : onlyBits p [(0, 1, 1), (1, 1, 1), (2, 2, 0xFFF), (4, 2, 0xFFF), allBits 8 8] = true
  atLeast : 1 ≤ prmb p 4 2 11 0
  atMost : prmb p 4 2 11 0 ≤ 64
  below : prmb p 2 2 11 0 + prmb p 4 2 11 0 ≤ n

/-- The records of meters or of queues are written, and with CLEAR each is zeroed after that. -/
theorem tsStatsReadBody_ok (hnamed : StatsNamed p (if prmbit p 0 0 = true then 4096 else 1024))
    (hbuf : bufferOk p s (prm p 8 8) 64 false = true) {record : Nat → List Byte} {clear : Nat → State → State}
    (hrecord : (if prmbit p 0 0 = true then meterRecord s else queueRecord s) = record)
    (hclear : (if prmbit p 0 0 = true then clearMeter else clearQueue) = clear) {s1 : State}
    (h1 : bufferWrite p (prm p 8 8) false ((statsRange p).flatMap record) s = s1) :
    specTsStatsRead.body p s = okay (if prmbit p 1 0 = true then forAll (statsRange p) clear s1 else s1) := by
  obtain ⟨hbits, hsome, hfew, hbelow⟩ := hnamed
  subst hrecord hclear h1
  have hlen : (statsRange p).length = prmb p 4 2 11 0 := by simp [statsRange]
  calc specTsStatsRead.body p s = tsStatsReadBody p s := rfl
    _ = _ := require_of (by rw [hbits, hlen]; exact decide_eq_true ⟨hsome, hfew, hbelow⟩) _ _
    _ = _ := withBuf_of hbuf _ _

/-! ### The statement -/

/-- Settles O26: each clause is the opcode's own part under the checks that its premises pass. -/
theorem trafficCommandsAnswer : Obligations.TrafficCommandsAnswer := by
  intro t p s e s0
  refine ⟨fun h hbits q x hq hx hok hsender hfits => ?shaper,
    fun h s1 n l h1 hn hl hbits hports hlist harm => ?load,
    fun h hbits hports hfree => ⟨fun hd => ?disarm, fun hd hloaded hahead hfits => ?arm⟩,
    fun h cir pir cbs pbs hcir hpir hcbs hpbs hbits hrates hc hp => ?meter,
    fun h hbits hsome hfew hbuf => ⟨fun hmeters hbelow => ?meters, fun hqueues hbelow => ?queues⟩⟩
  case shaper => exact run_ok h (queueShaperSetBody_ok hbits hq hx hok hsender rfl rfl hfits)
  case load => exact run_ok h (qbvListLoadBody_ok h1 hn hl hbits hports hlist harm)
  case disarm => exact run_ok h (qbvListArmBody_disarm hbits hports hfree hd)
  case arm => exact run_done h (qbvListArmBody_arm hbits hports hfree hd hloaded hahead hfits)
  case meter => exact run_ok h (meterSetBody_ok hcir hpir hcbs hpbs hbits hrates hc hp)
  case meters =>
    have hnamed : StatsNamed p (if prmbit p 0 0 = true then 4096 else 1024) :=
      ⟨hbits, hsome, hfew, by rwa [if_pos hmeters]⟩
    exact run_ok h (tsStatsReadBody_ok hnamed hbuf (if_pos hmeters) (if_pos hmeters) rfl)
  case queues =>
    have hnot : ¬prmbit p 0 0 = true := by simp [hqueues]
    have hnamed : StatsNamed p (if prmbit p 0 0 = true then 4096 else 1024) :=
      ⟨hbits, hsome, hfew, by rwa [if_neg hnot]⟩
    exact run_ok h (tsStatsReadBody_ok hnamed hbuf (if_neg hnot) (if_neg hnot) rfl)

end Sys2Proof.Proofs

/-! SUPPORT. The events of the traffic scheduler: transmission selection, gate entries and takeovers of ports, and the
sampling of queues (O52). -/
namespace Sys2Proof.Proofs
open Sys2Proof Sys2Proof.Machine Sys2Proof.Laws

variable {t : Ticks} {s s1 : State} {port : Nat} {x : TsPort}

/-! ### Transmission (R389, R394, R395) -/

/-- A free port drops what can never go, counts the waits that begin, and sends the queue that is next, if one is. -/
theorem portSelect_free (hrate : portRate s port ≠ 0) (hfree : (tsPortOf s port).freeAt ≤ now s * 1000) {s2 : State}
    (h2 : countGuards port (forAll (queuesOf s port) (fun q s => dropHeads port q (queueOf s q).frames.length s) s) = s2) :
    portSelect port s = (chooseQueue s2 port).elim s2 fun e => sendHead port e.1 e.2 s2 := by
  subst h2
  refine (if_neg (by simp [hrate, hfree])).trans ?_
  dsimp only
  cases chooseQueue _ port with
  | none => rfl
  | some e => rfl

theorem exec_portTxSelect (h : Occurs t s s1) (hp : port < 8) :
    exec (.portTxSelect t port) s = .next (portSelect port s1) := by
  calc exec (.portTxSelect t port) s = execPortTxSelect t port s := rfl
    _ = _ := whenRunning_of h _
    _ = _ := congrArg _ (if_pos hp)

/-! ### Gate lists of ports (R394, R396, R397) -/

theorem exec_qbvEntryAdvance (h : Occurs t s s1) (hp : port < 8) (hx : tsPortOf s1 port = x) :
    exec (.qbvEntryAdvance t port) s
      = .next (putTsPort port { x with entry := portIndexAt x.running (portPos s1 x) } s1) := by
  subst hx
  calc exec (.qbvEntryAdvance t port) s = execQbvEntryAdvance t port s := rfl
    _ = _ := whenRunning_of h _
    _ = _ := congrArg _ (if_pos hp)

/-- The pending list of a port takes over once its time has come. -/
theorem exec_qbvGateSwitch (h : Occurs t s s1) (hp : port < 8) (harm : (tsPortOf s1 port).arm = .pending)
    (hT : (tsPortOf s1 port).armT ≤ now s1) : exec (.qbvGateSwitch t port) s = .next (portTakeOver port s1) := by
  have hdue : portDue s1 port = true := by simp [portDue, harm, hT]
  calc exec (.qbvGateSwitch t port) s = execQbvGateSwitch t port s := rfl
    _ = _ := whenRunning_of h _
    _ = _ := congrArg _ (if_pos (by simp [hp, hdue]))

/-- At a takeover the armed list runs from its time with its OVERHEAD, and nothing is armed any more. -/
theorem portTakeOver_eq {y : TsPort}
    (hy : { tsPortOf s port with running := (tsPortOf s port).armed, armed := [], arm := .empty,
                                 swT := (tsPortOf s port).armT, taken := some (tsPortOf s port).armT,
                                 start := (tsPortOf s port).armT, ovh := (tsPortOf s port).armOvh } = y) :
    portTakeOver port s = raiseUnit (unitPort port) (448 + port)
      (putTsPort port { y with entry := portIndexAt y.running (portPos s y) } s) := by
  subst hy
  rfl

/-! ### Sampling (R404) -/

/-- In a µs that has no sample yet, the queues enabled before this cycle are sampled. -/
theorem exec_queueStatsSample (h : Occurs t s s1) (hnew : now s1 / 1000 ≠ s1.ts.sampled) :
    exec (.queueStatsSample t) s
      = .next (forAll ((s1.prior.ne.egress.filter fun e => e.2.cfg.kind != 0).map (·.1)) sampleQueue
          { s1 with ts := { s1.ts with sampled := now s1 / 1000 } }) := by
  calc exec (.queueStatsSample t) s = execQueueStatsSample t s := rfl
    _ = _ := whenRunning_of h _
    _ = _ := congrArg _ (if_neg hnew)

/-! ### The statement -/

/-- Settles O52: each event acts under the condition that its premises meet, the choice of a port by the queue that is
next. -/
theorem trafficEventsAct : Obligations.TrafficEventsAct := by
  intro t s s1 port h hp x hx
  refine ⟨fun hrate hfree => ?select, exec_qbvEntryAdvance h hp hx, fun harm hT => ?takeover, exec_queueStatsSample h⟩
  case select =>
    subst hx
    rw [exec_portTxSelect h hp, portSelect_free hrate hfree rfl]
    exact ⟨fun q g hnext => by rw [hnext, Option.elim_some], fun hnone => by rw [hnone, Option.elim_none]⟩
  case takeover =>
    subst hx
    exact (exec_qbvGateSwitch h hp harm hT).trans (congrArg _ (portTakeOver_eq rfl))

end Sys2Proof.Proofs

/-! SUPPORT. The invariant of the machine: the state at reset meets it (O3) and every step keeps it (O4). -/
namespace Sys2Proof.Proofs
open Sys2Proof Sys2Proof.Machine Sys2Proof.Laws

/-- What keeps memory canonical and the mode legal keeps the invariant. -/
theorem inv_of_keeps {s s' : State} (h : Keeps s s') (hs : Inv s) : Inv s' := by
  obtain ⟨-, -, hmem, hmode⟩ := h
  exact ⟨hmem hs.1, hmode hs.2⟩

theorem keeps_exec {c : Instr} {s s' : State} (h : exec c s = .next s') : Keeps s s' := by
  obtain ⟨s₂, hs₂, hkeeps⟩ := exec_answers c s
  rw [h] at hs₂
  cases hs₂
  exact hkeeps

/-- Settles O3: memory is empty at reset, and the power state and the boot stage are 0. -/
theorem resetMeetsTheInvariant : Obligations.ResetMeetsTheInvariant :=
  ⟨rfl, Nat.zero_le 3, Nat.zero_le 3, .inl rfl⟩

/-- Settles O4: with an empty queue nothing changes; otherwise the front command keeps what the invariant speaks of,
which taking it off the queue leaves alone. -/
theorem stepKeepsTheInvariant : Obligations.StepKeepsTheInvariant := by
  intro s s' hs h
  cases hq : s.pending with
  | nil =>
    rw [step_nil hq] at h
    cases h
    exact hs
  | cons c l =>
    rw [step_cons hq] at h
    exact inv_of_keeps (keeps_exec h) hs

end Sys2Proof.Proofs

/-! SUPPORT. The commands of links, nodes, time, transfers and routes (O27). -/
namespace Sys2Proof.Proofs
open Sys2Proof Sys2Proof.Machine Sys2Proof.Laws

variable {p : Packet} {s : State}

/-! ### LINK_CONFIG (R419, R426) -/

section
variable {k : Nat} (hk : prmb p 0 1 1 0 = k) (hbits : onlyBits p [(0, 1, 7), (1, 1, 0xF), (2, 1, 7)] = true)
include hk hbits

/-- A link that is disabled drops what waits on it and goes down. -/
theorem linkConfigBody_disable (hen : prmbit p 0 2 = false) {sd s1 : State} (hsd : discardWaiting k s = sd)
    (h1 : setLinkUp k false (setMgmt (unitLink k) (linkWord false 0) (putLink k
      { linkOf sd k with enabled := false, laneMap := 0, bringup := none, retraining := false, replay := [],
                         degraded := false } sd)) = s1) :
    specLinkConfig.body p s = .ok (some (linkData s1 k)) none s1 := by
  subst hk hsd h1
  calc specLinkConfig.body p s = linkConfigBody p s := rfl
    _ = _ := require_of hbits _ _
    _ = _ := if_pos (by simp [hen])

/-- The lanes FIRST to FIRST + WIDTH - 1 that a link may have: of one quad, in fabric mode, live and no other link's. -/
structure LanesTaken (s : State) (k first width : Nat) : Prop where
  lanes : width = 1 ∨ width = 2 ∨ width = 4
  aligned : first % width = 0
  quad : first / 4 = (first + width - 1) / 4
  fabric : Nat.land (linkMask first width) (fabricLanes s) = linkMask first width
  free : ∀ j < 4, j ≠ k → Nat.land (linkMask first width) (heldLanes s j) = 0
  live : Nat.land (linkMask first width) s.ne.deadLanes = 0

/-- A link that is enabled on such lanes goes down and begins its bring-up on them. -/
theorem linkConfigBody_enable (hen : prmbit p 0 2 = true) {first width : Nat} (hf : prmb p 1 1 3 0 = first)
    (hw : prmb p 2 1 2 0 = width) (h : LanesTaken s k first width) {s1 s2 : State}
    (h1 : setMgmt (unitLink k) (linkWord true width) (setLinkUp k false s) = s1)
    (h2 : startBringup k (putLink k { linkOf s1 k with enabled := true, first := first, width := width,
                                                       degraded := false, adopt := false } s1) = s2) :
    specLinkConfig.body p s = .ok (some (linkData s2 k)) none s2 := by
  subst hk hf hw h1 h2
  obtain ⟨hwidth, haligned, hquad, hfabric, hfree, hlive⟩ := h
  have hlanes : ((List.range 4).all fun j => j == prmb p 0 1 1 0
      || Nat.land (linkMask (prmb p 1 1 3 0) (prmb p 2 1 2 0)) (heldLanes s j) == 0) = true := by
    simpa [or_iff_not_imp_left] using hfree
  calc specLinkConfig.body p s = linkConfigBody p s := rfl
    _ = _ := require_of hbits _ _
    _ = _ := if_neg (by simp [hen])
    _ = _ := require_of (by rw [hfabric]; simp [hwidth, haligned, ← hquad]) _ _
    _ = _ := require_of hlanes _ _
    _ = _ := require_of (beq_iff_eq.2 hlive) _ _

end

/-! ### Nodes and time (R431, R432, R438, R442, R456) -/

/-- Enumeration without a fault gives the node its shape and each member its place. -/
theorem nodeEnumerateBody_ok {topo node w h : Nat} (htopo : prmb p 0 1 1 0 = topo) (hnode : prmb p 2 2 11 0 = node)
    (hw : prmb p 4 1 6 0 = w) (hh : prmb p 5 1 3 0 = h)
    (hbits : onlyBits p [(0, 1, 3), (2, 2, 0xFFF), (4, 1, 0x7F), (5, 1, 0xF)] = true) (hrow : topoOk topo w h = true)
    (hdest : p.dest = 0x3FFFF) (horigin : p.origin = none)
    (hidle : s.cf.valid = true → anyRunning s = false ∧ s.cp.routed = [] ∧ p.env.aux.headD 0 = 0)
    (hfault : enumFault s topo w h (p.env.aux.getD 1 0) = none) (hother : node ≠ 4095) {s1 : State}
    (h1 : { s with
      cf := { s.cf with devid := node * 64, valid := true, anchor := true, topo := topo, wM1 := w - 1, hM1 := h - 1,
                        members := foundMembers 1 (p.env.aux.drop 2) },
      tk := { s.tk with refN := 60, refD := 1, stRef := none } } = s1) :
    specNodeEnumerate.body p s = .ok (some (w * h)) (some 0xFFFFFFFF) (raise 658 (placeMembers s1)) := by
  subst htopo hnode hw hh h1
  have hquiet : (!(s.cf.valid && (anyRunning s || !s.cp.routed.isEmpty || p.env.aux.headD 0 != 0))) = true := by
    cases hv : s.cf.valid
    · rfl
    · obtain ⟨hrun, hrouted, haux⟩ := hidle hv
      rw [hrun, hrouted, haux]
      rfl
  calc specNodeEnumerate.body p s = nodeEnumerateBody p s := rfl
    _ = _ := require_of (by simp [hbits, hrow, hdest, horigin]) _ _
    _ = _ := require_of hquiet _ _
    _ = _ := by
      dsimp only
      rw [hfault]
      exact require_of (by simp [hother]) _ _

theorem ptpConfigBody_ok
    (hbits : onlyBits p [(0, 1, 0x7F), (1, 1, 0xF), allBits 2 6, (8, 1, 1), (9, 1, 0x7F)] = true)
    (hrole : prmb p 1 1 1 0 ≠ 3) (hvalid : s.cf.valid = true) (hanchor : s.cf.anchor = true) {c : PtpCfg}
    (hc : { port := prmb p 0 1 2 0, backupEn := prmbit p 0 3, backup := prmb p 0 1 6 4, role := prmb p 1 1 1 0,
            twoStep := prmbit p 1 2, ipv6 := prmbit p 1 3, prio1 := prm p 3 1, prio2 := prm p 4 1,
            logAnn := sint 8 (prm p 5 1), logSync := sint 8 (prm p 6 1), logDreq := sint 8 (prm p 7 1),
            steer := prmbit p 8 0, dco := prmb p 9 1 6 0 } = c) :
    specPtpConfig.body p s = okay (setTkState (if prmb p 1 1 1 0 = 0 then 0 else 1)
      { s with tk := { s.tk with ptp := c, domain := prm p 2 1, lastAnn := s.clk.ticks } }) := by
  subst hc
  exact require_of (by simp [hbits, hrole, hvalid, hanchor]) _ _

theorem timeQueryBody_ok (hbits : onlyBits p [allBits 8 8] = true) (hbuf : bufferOk p s (prm p 8 8) 64 false = true) :
    specTimeQuery.body p s = .ok (some (now s)) (some (now s / 2 ^ 32))
      (bufferWrite p (prm p 8 8) false (timeRecord s) s) := by
  calc specTimeQuery.body p s = timeQueryBody p s := rfl
    _ = _ := require_of hbits _ _
    _ = _ := withBuf_ok hbuf (timeRecord s) _ _

/-- A rate of 1 to 480 frames per second is staged from 1 s on here and told to the other members. -/
theorem beatCalibrateBody_ok {n d : Nat} (hbits : onlyBits p [(0, 4, 0xFFFFFF), (4, 4, 0xFFFFFF)] = true)
    (hvalid : s.cf.valid = true) (hanchor : s.cf.anchor = true) (hn : prmb p 0 4 23 0 = n) (hd : prmb p 4 4 23 0 = d)
    (hpos : d ≠ 0) (hlow : d ≤ n) (hhigh : n ≤ 480 * d) {up : List Nat}
    (hup : ((List.range 4).filter fun j => (linkOf s j).up) = up) :
    specBeatCalibrate.body p s = .ok (some (maxOf (up.map fun j => (linkOf s j).ldelay))) none
      (forAll (otherMembers s) (fun dev s' => sendMsg dev (.refRate n d (now s + 1000000000)) s')
        (stageRate n d (now s + 1000000000) s)) := by
  subst hn hd hup
  exact require_of (by simp [hbits, hvalid, hanchor, hpos, hlow, hhigh]) _ _

/-! ### SURFACE_TRANSFER (R434 to R436) -/

section
variable {i : Nat} (hi : prmb p 2 2 13 0 = i)
include hi

/-- A transfer of a readable slot to another member of the node begins in a free context. -/
theorem startTransfer_pends {slot ctx : Nat} {follow : Bool}
    (hslot : slotBySeq (surfOf s i) (if follow = true then 0 else prm p 12 4) = some slot) (hctx : freeCtx s = some ctx)
    (hsurf : (surfOf s i).valid = true) (hcrystal : (surfOf s i).crystal = false) (hvalid : s.cf.valid = true)
    (hother : prm p 8 4 / 16384 ≠ s.cf.devid) (hnode : prm p 8 4 / 16384 / 64 = s.cf.devid / 64)
    (hsize : prm p 8 4 / 16384 % 64 < nodeSize s) (hhop : (firstHop s (prm p 8 4 / 16384)).isSome = true) :
    startTransfer p s follow = .pend (xferUnit ctx) (startXfer ctx slot
      { follow := follow, surface := i, handle := prm p 8 4, func := p.func, seq := 0 } s) := by
  subst hi
  unfold startTransfer
  dsimp only
  rw [hslot, hctx, require_of hsurf, require_of (by simp [hcrystal]),
    require_of (by simp [hvalid, hother, hnode, hsize])]
  exact require_of hhop _ _

theorem stopTransfer_ok {c : Nat} {x : Xfer} (hx : Tbl.first? s.cf.xfers (fun _ y =>
      y.follow && y.surface == i && y.handle == prm p 8 4) = some (c, x)) :
    stopTransfer p s = okay (if x.slot.isNone = true then dropXfer c s else putXfer c { x with stop := true } s) := by
  subst hi
  unfold stopTransfer
  rw [hx]

/-- An import is bound to a surface that its writer is free for and that no other import or transfer fills. -/
theorem bindImport_ok (hsurf : (surfOf s i).valid = true) (hwriter : (surfOf s i).writer = 3)
    (hcrystal : (surfOf s i).crystal = false)
    (himports : ∀ y ∈ s.cf.imports, y.1 ≠ prmb p 4 1 3 0 → y.2.surface ≠ i)
    (hxfers : ∀ y ∈ s.cf.xfersIn, y.2.surface ≠ i) :
    bindImport p s = okay { s with cf := { s.cf with
      imports := Tbl.set s.cf.imports (prmb p 4 1 3 0) { surface := i, device := prmb p 8 4 17 0 } } } := by
  subst hi
  have hfree : (!((s.cf.imports.filter fun y => y.1 != prmb p 4 1 3 0).any fun y => y.2.surface == prmb p 2 2 13 0)
      && !(s.cf.xfersIn.any fun y => y.2.surface == prmb p 2 2 13 0)) = true := by
    rw [Bool.and_eq_true, Bool.not_eq_true', Bool.not_eq_true', List.any_eq_false, List.any_eq_false]
    refine ⟨fun y hy => ?_, fun y hy => by simpa using hxfers y hy⟩
    obtain ⟨hmem, hne⟩ := List.mem_filter.1 hy
    simpa using himports y hmem (by simpa using hne)
  calc bindImport p s = _ := require_of (by simp [hcrystal]) _ _
    _ = _ := require_of (by simp [hsurf, hwriter]) _ _
    _ = _ := require_of hfree _ _

end

section
variable (hbits : onlyBits p transferBits = true)
include hbits

theorem surfaceTransferBody_start (hkind : prmb p 0 1 1 0 < 2) {follow : Bool}
    (hfollow : decide (prmb p 0 1 1 0 = 1) = follow) : specSurfaceTransfer.body p s = startTransfer p s follow := by
  subst hfollow
  calc specSurfaceTransfer.body p s = surfaceTransferBody p s := rfl
    _ = _ := require_of hbits _ _
    _ = _ := by
      obtain hk | hk : prmb p 0 1 1 0 = 0 ∨ prmb p 0 1 1 0 = 1 := by omega
      all_goals rw [hk]; rfl

theorem surfaceTransferBody_stop (hkind : prmb p 0 1 1 0 = 2) : specSurfaceTransfer.body p s = stopTransfer p s := by
  calc specSurfaceTransfer.body p s = surfaceTransferBody p s := rfl
    _ = _ := require_of hbits _ _
    _ = _ := by rw [hkind]; rfl

theorem surfaceTransferBody_import (hkind : prmb p 0 1 1 0 = 3) : specSurfaceTransfer.body p s = bindImport p s := by
  calc specSurfaceTransfer.body p s = surfaceTransferBody p s := rfl
    _ = _ := require_of hbits _ _
    _ = _ := by rw [hkind]; rfl

end

/-! ### ROUTE_QUERY (R456) -/

section
variable {dev : Nat} (hbits : onlyBits p [(0, 4, 0x3FFFF)] = true) (hdev : prmb p 0 4 17 0 = dev)
include hbits hdev

theorem routeQueryBody_self (hvalid : s.cf.valid = true) (hself : dev = s.cf.devid) :
    specRouteQuery.body p s = .ok (some 256) none s := by
  subst hdev
  calc specRouteQuery.body p s = routeQueryBody p s := rfl
    _ = _ := require_of hbits _ _
    _ = _ := if_pos (by simp [hvalid, hself])

theorem routeQueryBody_other (hother : ¬(s.cf.valid = true ∧ dev = s.cf.devid)) :
    specRouteQuery.body p s = (routeTo s dev).elim (.ok (some 0) none s) fun r =>
      .ok (some (r.length + shl ((r.head?.map (·.2)).getD 0) 6 + 256))
        (some ((r.map fun h => memberLanes s h.1 h.2).foldl min 4)) s := by
  subst hdev
  calc specRouteQuery.body p s = routeQueryBody p s := rfl
    _ = _ := require_of hbits _ _
    _ = _ := if_neg (by simpa using hother)
    _ = _ := by cases routeTo s (prmb p 0 4 17 0) <;> rfl

end

/-! ### The statement -/

/-- Settles O27: each clause is the opcode's own part under the checks that its premises pass. -/
theorem fabricCommandsAnswer : Obligations.FabricCommandsAnswer := by
  intro t p s e s0 k
  refine ⟨fun h hk hbits => ⟨fun hen => ?disable, fun hen first width m hf hw hm hwidth haligned hquad hfabric hfree
      hlive => ?enable⟩,
    fun h hbits topo node w hgt htopo hnode hw hh hrow hdest horigin hidle hfault hother => ?enumerate,
    fun h hbits hrole hvalid hanchor => run_ok h (ptpConfigBody_ok hbits hrole hvalid hanchor rfl),
    fun h hbits hbuf => run_ok h (timeQueryBody_ok hbits hbuf),
    fun h hbits hvalid hanchor n d hn hd hpos hlow hhigh =>
      run_ok h (beatCalibrateBody_ok hbits hvalid hanchor hn hd hpos hlow hhigh rfl),
    fun h hbits i hi => ⟨fun hkind slot ctx follow hfollow hslot hctx hsurf hcrystal hvalid hnot hnode hsize hhop =>
        ?start,
      fun hkind c x hx => ?stop, fun hkind hsurf hwriter hcrystal himports hxfers => ?bind⟩,
    fun h hbits dev hdev => ⟨fun hvalid hself => run_ok h (routeQueryBody_self hbits hdev hvalid hself),
      fun hnot hnone => ?noRoute, fun hnot r hroute => ?route⟩⟩
  case disable => exact run_ok h (linkConfigBody_disable hk hbits hen rfl rfl)
  case enable =>
    subst hm
    exact run_ok h (linkConfigBody_enable hk hbits hen hf hw ⟨hwidth, haligned, hquad, hfabric, hfree, hlive⟩ rfl rfl)
  case enumerate =>
    exact run_ok h (nodeEnumerateBody_ok htopo hnode hw hh hbits hrow hdest horigin hidle hfault hother rfl)
  case start =>
    exact run_pend h ((surfaceTransferBody_start hbits hkind hfollow).trans
      (startTransfer_pends hi hslot hctx hsurf hcrystal hvalid hnot hnode hsize hhop))
  case stop => exact run_ok h ((surfaceTransferBody_stop hbits hkind).trans (stopTransfer_ok hi hx))
  case bind =>
    exact run_ok h ((surfaceTransferBody_import hbits hkind).trans
      (bindImport_ok hi hsurf hwriter hcrystal himports hxfers))
  case noRoute =>
    have hbody := routeQueryBody_other hbits hdev hnot
    rw [hnone] at hbody
    exact run_ok h hbody
  case route =>
    have hbody := routeQueryBody_other hbits hdev hnot
    rw [hroute] at hbody
    exact run_ok h hbody

end Sys2Proof.Proofs

/-! SUPPORT. The commands of the blitter (O28). -/
namespace Sys2Proof.Proofs
open Sys2Proof Sys2Proof.Machine Sys2Proof.Laws

variable {t : Ticks} {p : Packet} {s s0 : State} {e : Entry}

/-- While fewer than 64 jobs are queued, a packet whose opcode queues a job becomes the last of them (R457). -/
theorem run_queues {sp : CmdSpec} {op : Nat} (h : Runs sp t p s e s0) (hbody : sp.body = queueBody op)
    (hroom : s0.bl.queue.length < 64) : runPacket sp t p s = .next (afterwards p { s0 with
      bl := { s0.bl with queue := s0.bl.queue ++ [⟨{ e with opcode := op, pkt := p }, false, []⟩] } }) :=
  run_keep h (by rw [hbody]; exact if_neg (Nat.not_le.2 hroom))

/-- Settles O28: each job opcode queues its job, and BLIT_DEADTIME_SET has no checks of its own. -/
theorem blitterCommandsAnswer : Obligations.BlitterCommandsAnswer := by
  intro t p s e s0
  exact ⟨fun hroom => ⟨fun h => run_queues h rfl hroom, fun h => run_queues h rfl hroom, fun h => run_queues h rfl hroom,
    fun h => run_queues h rfl hroom, fun h => run_queues h rfl hroom, fun h => run_queues h rfl hroom⟩,
    fun h => run_ok h rfl⟩

end Sys2Proof.Proofs

/-! SUPPORT. The commands of the housekeeping DMA (O29). -/
namespace Sys2Proof.Proofs
open Sys2Proof Sys2Proof.Machine Sys2Proof.Laws

variable {p : Packet} {s : State} {c : Nat} (hc : prmChan p = c)
include hc

theorem hdChannelConfigBody_ok {x : HdChan} (hx : hdOf s c = x)
    (hbits : onlyBits p [(0, 1, 0xF), (1, 1, 0x1F), (2, 1, 0x1F), (4, 4, 0x1FFFFF), allBits 8 8, (16, 4, 0xFFFFF)]
      = true) (hpage : prm p 8 8 % 4096 = 0) (hidle : x.st = .idle) :
    specHdChannelConfig.body p s = okay (putHd c
      { x with prio := prmb p 1 1 1 0, burst := prmb p 1 1 4 2, cqLog2 := prmb p 2 1 3 0, cqSpace := prmbit p 2 4,
               limit := prmb p 4 4 20 0, cqbase := prm p 8 8, cqpi := 0, cqci := 0, ciAt := none,
               ctmo := prmb p 16 4 19 0, configured := true, noRecords := false } s) := by
  subst hc hx
  calc specHdChannelConfig.body p s = hdChannelConfigBody p s := rfl
    _ = _ := require_of (by simp [hbits, hpage]) _ _
    _ = _ := require_of (by simp [hidle]) _ _

/-- An idle channel whose configuration is in range becomes READY; the packet completes at once, or with the chain. -/
theorem hdStartBody_eq (hbits : onlyBits p [(0, 1, 0xF), (1, 1, 1), (8, 8, 0xBFFFFFFFFFFFFFE0)] = true)
    (hstart : hdStartable (hdOf s c) = true) (hidle : (hdOf s c).st = .idle) :
    specHdStart.body p s = if prmbit p 1 0 = true then okay (readyChain c (prm p 8 8) false s)
      else .pend (hdStartUnit c) (readyChain c (prm p 8 8) false s) := by
  subst hc
  calc specHdStart.body p s = hdStartBody p s := rfl
    _ = _ := require_of (by simp [hbits, hstart]) _ _
    _ = _ := require_of (by simp [hidle]) _ _

/-- A chain that is aborted has ended with its counts, or the packet waits until it has. -/
theorem hdAbortBody_eq (hbits : onlyBits p [(0, 1, 0xF)] = true) {s1 : State} (h1 : abortChan c s = s1) :
    specHdAbort.body p s = if (hdOf s1 c).st = .idle then .ok (some (hdOf s1 c).count) (some (hdOf s1 c).resid) s1
      else .pend (hdAbortUnit c) s1 := by
  subst hc h1
  calc specHdAbort.body p s = hdAbortBody p s := rfl
    _ = _ := require_of hbits _ _

omit hc in
theorem abortChan_idle (hidle : (hdOf s c).st = .idle) : abortChan c s = s := by
  unfold abortChan
  dsimp only
  rw [hidle]

theorem hdQueryBody_ok (hbits : onlyBits p [(0, 1, 0xF)] = true) :
    specHdQuery.body p s = .ok (some (hdStatWord (hdOf s c))) (some (hdOf s c).count) s := by
  subst hc
  exact require_of hbits _ _

omit hc

/-- Settles O29: each clause is the opcode's own part under the checks that its premises pass. -/
theorem hdCommandsAnswer : Obligations.HdCommandsAnswer := by
  intro t p s e s0 c hc
  refine ⟨fun h hbits hpage hidle => run_ok h (hdChannelConfigBody_ok hc rfl hbits hpage hidle),
    fun h hbits hconf hburst hlow hhigh hidle => ?start, fun h hbits => ⟨fun hidle => ?idle, fun hends => ?ends,
      fun hwaits => ?waits⟩, fun h hbits => run_ok h (hdQueryBody_ok hc hbits)⟩
  case start =>
    have hbody := hdStartBody_eq hc hbits (by simp [hdStartable, hconf, hburst, hlow, hhigh]) hidle
    exact ⟨fun himm => run_ok h (hbody.trans (if_pos himm)), fun hlast => run_pend h (hbody.trans (if_neg (by simp [hlast])))⟩
  case idle => exact run_ok h ((hdAbortBody_eq hc hbits (abortChan_idle hidle)).trans (if_pos hidle))
  case ends => exact run_ok h ((hdAbortBody_eq hc hbits rfl).trans (if_pos hends))
  case waits => exact run_pend h ((hdAbortBody_eq hc hbits rfl).trans (if_neg hwaits))

end Sys2Proof.Proofs

/-! SUPPORT. The housekeeping DMA at work: its channels, bursts, descriptors, requests and timeouts (O58). -/
namespace Sys2Proof.Proofs
open Sys2Proof Sys2Proof.Machine Sys2Proof.Laws

variable {t : Ticks} {s s1 s2 : State} {c n : Nat} {x : HdChan} {d : List Byte}

/-! ### Channels (R482) -/

theorem exec_hdChannelSelect (h : Occurs t s s1) (hfree : hdRunning s1 = none) (hholds : blHolds s1 = false)
    (hnext : nextChannel s1 = some c) (hx : hdOf s1 c = x) (hwaits : descWaits s1 x.head = false)
    (h2 : putHd c { x with st := .running } s1 = s2) {desc : List Byte} {ok : Bool} :
    exec (.hdChannelSelect t desc ok) s = .next (fetchDesc c x.head desc ok
      { s2 with hd := { s2.hd with cur := c, lastAt := Tbl.set s2.hd.lastAt x.prio c } }) := by
  subst hx h2
  calc exec (.hdChannelSelect t desc ok) s = execHdChannelSelect t desc ok s := rfl
    _ = _ := whenRunning_of h _
    _ = _ := congrArg _ (by
      rw [if_neg (by simp [hfree, hholds]), hnext]
      exact if_neg (by simp [hwaits]))

/-! ### Requests (R491, R492) -/

theorem exec_hdHwRequest (h : Occurs t s s1) {line : Nat} (hline : line < 12) :
    exec (.hdHwRequest t line) s = .next (addRequest line s1) := by
  calc exec (.hdHwRequest t line) s = execHdHwRequest t line s := rfl
    _ = _ := whenRunning_of h _
    _ = _ := congrArg _ (if_pos hline)

/-- A chain is looked for among the channels alone. -/
theorem hdRunning_of_chans {s s' : State} (h : s'.hd.chans = s.hd.chans) : hdRunning s' = hdRunning s := by
  unfold hdRunning hdOf
  rw [h]

/-- Without a chain that runs, a request changes no more than its line. -/
theorem addRequest_free (hfree : hdRunning s = none) {line : Nat} (hn : Tbl.get s.hd.req 0 line = n) :
    addRequest line s = if n = 255 then noteSet 0x58000 5 { s with hd := { s.hd with reqOvf := true } }
      else { s with hd := { s.hd with req := Tbl.set s.hd.req line (n + 1) } } := by
  subst hn
  unfold addRequest
  dsimp only
  rw [hdRunning_of_chans (s := s) (by split <;> rfl), hfree]

/-! ### Bursts (R488, R490) -/

/-- The chain that runs has its next burst to do: n bytes, for which nothing paces it, the gate of the destination's
channel is open and memory serves C5. -/
structure Bursts (s : State) (c : Nat) (x : HdChan) (d : List Byte) (n : Nat) : Prop where
  runs : hdRunning s = some c
  chan : hdOf s c = x
  desc : x.desc = some d
  running : x.st = .running
  phase : x.phase = .burst
  noRequest : x.waitreq = false
  unpaced : hPaced d = false
  length : burstLen x d = n
  isOpen : c5Open s (hDst d) x.k = true
  served : hdServed s (hDst d) x.k n = true

theorem exec_hdBurst (h : Occurs t s s1) (hruns : hdRunning s1 = some c) {src dst : List Byte} {ok : Bool} :
    exec (.hdBurst t src dst ok) s = .next (hdBurst c src dst ok s1) := by
  calc exec (.hdBurst t src dst ok) s = execHdBurst t src dst ok s := rfl
    _ = _ := whenRunning_of h _
    _ = _ := by rw [hruns]

section
variable (hb : Bursts s c x d n) {src dst : List Byte} {ok : Bool}
include hb

/-- A fill writes its pattern. -/
theorem hdBurst_fill (hreads : hReads d = false) (hwrites : hWrites d = true) : hdBurst c src dst ok s
    = (burstWrite (hDst d) x.k (patternBytes d x.k n) ok s).elim (busFail c · s) (burstDone c n) := by
  obtain ⟨-, rfl, hdesc, hst, hphase, hwait, hpaced, rfl, hgate, hserved⟩ := hb
  unfold hdBurst
  simp only [hdesc, hst, hphase, hwait, hpaced, hgate, hserved, hreads, hwrites, copied, bne_self_eq_false, Bool.not_true,
    Bool.not_false, Bool.true_or, Bool.and_true, Bool.or_false, Bool.false_and, Bool.false_eq_true, if_false, if_true]
  cases burstWrite (hDst d) (hdOf s c).k (patternBytes d (hdOf s c).k (burstLen (hdOf s c) d)) ok s <;> rfl

/-- A copy reads its source and writes what it read, free values where the two meet. -/
theorem hdBurst_copy (hreads : hReads d = true) (hwrites : hWrites d = true) (hgate' : c5Open s (hSrc d) x.k = true)
    (hserved' : hdServed s (hSrc d) x.k n = true) : hdBurst c src dst ok s
    = (burstData s (hSrc d) x.k n src ok).elim (busFail c · s) fun v =>
        let w := copied d x.k v (noteRead (hSrc d) x.k n s)
        (burstWrite (hDst d) x.k w.1 ok w.2).elim (busFail c · w.2) (burstDone c n) := by
  obtain ⟨-, rfl, hdesc, hst, hphase, hwait, hpaced, rfl, hgate, hserved⟩ := hb
  unfold hdBurst
  simp only [hdesc, hst, hphase, hwait, hpaced, hgate, hserved, hreads, hwrites, hgate', hserved', bne_self_eq_false,
    Bool.not_true, Bool.false_or, Bool.and_true, Bool.or_false, Bool.false_eq_true, if_false, if_true]
  cases burstData s (hSrc d) (hdOf s c).k (burstLen (hdOf s c) d) src ok with
  | inl a => rfl
  | inr v =>
    dsimp only [Sum.elim_inr]
    cases burstWrite (hDst d) _ _ ok _ <;> rfl

end

/-! ### Descriptors at their end (R493) -/

theorem exec_hdDescComplete (h : Occurs t s s1) (hruns : hdRunning s1 = some c) {back ok : Bool} {desc : List Byte} :
    exec (.hdDescComplete t back desc ok) s = .next (hdComplete c back desc ok s1) := by
  calc exec (.hdDescComplete t back desc ok) s = execHdDescComplete t back desc ok s := rfl
    _ = _ := whenRunning_of h _
    _ = _ := by rw [hruns]

/-- A descriptor whose bytes are done, with memory serving its read-back and the next descriptor's fetch. -/
theorem hdComplete_closing (hx : hdOf s c = x) (hd : x.desc = some d) (hphase : x.phase = .closing)
    (hback : x.k ≠ 0 → hWrites d = true → hdServed s (hDst d) (x.k - 1) 1 = true)
    (hnext : rdbit d 31 6 = false → descWaits s (nextDesc d) = false)
    (h2 : (if hWrites d = true ∧ x.k ≠ 0 then noteRead (hDst d) (x.k - 1) 1 s else s) = s2) (back : Bool)
    (desc : List Byte) (ok : Bool) : hdComplete c back desc ok s
    = match readBackFails s2 x d back with
      | some a => busFail c a s2
      | none => if hLen d ≤ x.k then closeDesc c desc ok d s2 else endChain c
          { status := 0x108, aborted := true, residue := hLen d - x.k, mismatch := x.mismatch.isSome } s2 := by
  subst hx h2
  have hserved : ((hdOf s c).k != 0 && hWrites d && !hdServed s (hDst d) ((hdOf s c).k - 1) 1) = false := by
    cases hw : hWrites d
    · simp
    · by_cases hk : (hdOf s c).k = 0
      · simp [hk]
      · simp [hback hk hw]
  have hfetch : ((hdOf s c).st != .aborting && !rdbit d 31 6 && descWaits s (nextDesc d)) = false := by
    cases he : rdbit d 31 6
    · simp [hnext he]
    · simp
  unfold hdComplete
  simp only [hd]
  rw [hserved, hfetch, if_neg (by simp [hphase])]
  simp only [Bool.and_eq_true, bne_iff_ne, ne_eq] <;> rfl

/-! ### Timeouts (R492, R498) -/

theorem exec_hdReqTimeout (h : Occurs t s s1) (hruns : hdRunning s1 = some c) (hx : hdOf s1 c = x)
    (hwait : x.waitreq = true) (hlimit : x.ctmo ≠ 0) (hlong : x.waitAt + usTicks x.ctmo < s1.clk.ticks) :
    exec (.hdReqTimeout t) s = .next (endChain c { status := 0x10A, residue := hLen (x.desc.getD []) - x.k,
                                                   mismatch := x.mismatch.isSome } s1) := by
  subst hx
  calc exec (.hdReqTimeout t) s = execHdReqTimeout t s := rfl
    _ = _ := whenRunning_of h _
    _ = _ := congrArg _ (by
      rw [hruns]
      exact if_pos (by simp [hwait, hlimit, hlong]))

/-- In a burst the access that lasts too long is that of the source, where there is one. -/
theorem exec_hdAccessTimeout (h : Occurs t s s1) (hruns : hdRunning s1 = some c) (hx : hdOf s1 c = x)
    (hd : x.desc = some d) (hst : x.st = .running) (hphase : x.phase = .burst) (hwait : x.waitreq = false)
    (hlong : x.accessAt + usTicks 10 ≤ s1.clk.ticks) {o : HOpnd} (ho : (if hReads d = true then hSrc d else hDst d) = o)
    (hgate : c5Open s1 o x.k = true) : exec (.hdAccessTimeout t) s = .next (busFail c (hAddr o x.k) s1) := by
  subst hx ho
  calc exec (.hdAccessTimeout t) s = execHdAccessTimeout t s := rfl
    _ = _ := whenRunning_of h _
    _ = _ := congrArg _ (by
      have hburst : ((hdOf s1 c).phase == .closing || (hdOf s1 c).st == .aborting) = false := by simp [hst, hphase]
      rw [hruns]
      simp only [hd, hburst, Bool.not_false, Bool.true_and, Bool.false_eq_true, if_false]
      exact if_neg (by simp [hwait, hlong, hgate]))

/-! ### The statement -/

/-- Settles O58: each event acts under the condition that its premises meet; a burst fails where its read or its write
does, and a descriptor where its read-back does. -/
theorem hdEventsAct : Obligations.HdEventsAct := by
  intro t s s1 h
  refine ⟨fun c desc ok hfree hholds hnext hwaits => exec_hdChannelSelect h hfree hholds hnext rfl hwaits rfl,
    fun line n hline hn hfree => ?request,
    fun c x d src dst ok n hruns hx hd hst hphase hwait hpaced hlen hgate hserved => ?burst,
    fun c x d desc ok back s2 hruns hx hd hphase hback hnext h2 => ?complete,
    fun c x hruns hx => ⟨fun hwait hlimit hlong => exec_hdReqTimeout h hruns hx hwait hlimit hlong,
      fun d hd hst hphase hwait hlong hgate =>
        exec_hdAccessTimeout h hruns hx hd hst hphase hwait hlong rfl hgate⟩⟩
  case request =>
    rw [exec_hdHwRequest h hline, addRequest_free hfree hn]
    exact ⟨fun hfew => by rw [if_neg (Nat.ne_of_lt hfew)], fun hfull => by rw [if_pos hfull]⟩
  case burst =>
    have hb : Bursts s1 c x d n := ⟨hruns, hx, hd, hst, hphase, hwait, hpaced, hlen, hgate, hserved⟩
    rw [exec_hdBurst h hruns]
    refine ⟨fun hreads hwrites => ?fill, fun hreads hwrites hgate' hserved' => ?copy⟩
    case fill =>
      rw [hdBurst_fill hb hreads hwrites]
      exact ⟨fun s2 hw => by rw [hw]; rfl, fun a hw => by rw [hw]; rfl⟩
    case copy =>
      rw [hdBurst_copy hb hreads hwrites hgate' hserved']
      refine ⟨fun v w s2 hv hw hwrite => ?_, fun a ha => by rw [ha]; rfl⟩
      subst hw
      rw [hv]
      dsimp only [Sum.elim_inr]
      rw [hwrite]
      rfl
  case complete =>
    rw [exec_hdDescComplete h hruns, hdComplete_closing hx hd hphase hback hnext h2]
    exact ⟨fun a ha => by rw [ha], fun hnone hdone => by rw [hnone]; exact congrArg _ (if_pos hdone)⟩

end Sys2Proof.Proofs

/-! SUPPORT. The commands of the event concentrator (O30). -/
namespace Sys2Proof.Proofs
open Sys2Proof Sys2Proof.Machine Sys2Proof.Laws

section
variable {p : Packet} {s : State} {n : Nat} (hn : prm p 0 2 = n)
include hn

theorem eventRouteBody_ok
    (hbits : onlyBits p [(0, 2, 0x3FF), (2, 2, 0x7FF), (4, 1, 0x7F), (5, 1, 0xF), (6, 1, 1)] = true) (hlow : 1 ≤ n)
    (hhigh : n ≤ 1023) (hsome : 1 ≤ prm p 2 2) (hmost : prm p 2 2 ≤ 1023) (hend : n + prm p 2 2 ≤ 1024)
    (htgt : prm p 4 1 ≤ 67) : specEventRoute.body p s = .ok (some (srcWord s n)) none
      (forAll ((List.range (prm p 2 2)).map (n + ·)) (setRoute (prm p 4 1) (prm p 5 1) (prmbit p 6 0)) s) := by
  subst hn
  have hrange : routeRange p = (List.range (prm p 2 2)).map (prm p 0 2 + ·) := by
    unfold routeRange
    rw [Nat.min_eq_right hmost]
  have hsource : badSource (prm p 0 2) = false := decide_eq_false (by omega)
  rw [← hrange]
  calc specEventRoute.body p s = eventRouteBody p s := rfl
    _ = _ := require_of (by simp [hbits, hsource, hsome, hmost, hend, htgt]) _ _

theorem eventQueryBody_ok (hbits : onlyBits p [(0, 2, 0x3FF)] = true) (hlow : 1 ≤ n) (hhigh : n ≤ 1023) :
    specEventQuery.body p s = .ok (some (srcWord s n)) (some (tstatWord (lastArb s) (srcOf s n).target)) s := by
  subst hn
  have hsource : badSource (prm p 0 2) = false := decide_eq_false (by omega)
  exact require_of (by simp [hbits, hsource]) _ _

theorem eventSoftSetBody_ok (hbits : onlyBits p [(0, 2, 0x3FF)] = true) (hlow : 1008 ≤ n) (hhigh : n ≤ 1023) :
    specEventSoftSet.body p s = okay (raise n s) := by
  subst hn
  exact require_of (by simp [hbits, hlow, hhigh]) _ _

end

/-- Settles O30: each clause is the opcode's own part under the checks that its premises pass. -/
theorem eventCommandsAnswer : Obligations.EventCommandsAnswer := by
  intro t p s e s0 n hn
  exact ⟨fun h hbits hlow hhigh hsome hmost hend htgt =>
      run_ok h (eventRouteBody_ok hn hbits hlow hhigh hsome hmost hend htgt),
    fun h hbits hlow hhigh => run_ok h (eventQueryBody_ok hn hbits hlow hhigh),
    fun h hbits hlow hhigh => run_ok h (eventSoftSetBody_ok hn hbits hlow hhigh)⟩

end Sys2Proof.Proofs

/-! SUPPORT. Claims, completions and holds at an event target, by the function that holds it and by others (O38). -/
namespace Sys2Proof.Proofs
open Sys2Proof Sys2Proof.Machine Sys2Proof.Laws

variable {t : Ticks} {s s1 : State} {f tg v : Nat}

/-! ### Accesses that reach the device -/

theorem exec_evcClaim (h : Reaches t f s s1) : exec (.evcClaim t f tg) s = .next (claimBy f tg s1) := regAccess_of h _ _

theorem exec_evcComplete (h : Reaches t f s s1) : exec (.evcComplete t f tg v) s = .next (completeBy f tg v s1) :=
  regAccess_of h _ _

theorem exec_evcTargetHold (h : Reaches t f s s1) : exec (.evcTargetHold t f tg v) s = .next (writeTctl f tg v s1) :=
  regAccess_of h _ _

theorem exec_evcTargetIdle (h : Reaches t f s s1) : exec (.evcTargetIdle t f tg v) s = .next (writeTctl f tg v s1) :=
  regAccess_of h _ _

/-! ### The registers of a target (R514, R515, R518, R528) -/

theorem claimRead_source {n : Nat} (hn : claimTop s tg = n) (hsome : n ≠ 0) {s2 : State}
    (h2 : putTgt tg { tgtOf s tg with armed := true, request := false, idle := false, waiting := false,
                                      tookAt := some s.clk.ticks } s = s2) :
    claimRead tg s = (n, putSrc n
      { srcOf s2 n with pending := false, claimed := true, claimer := tg, moved := none, since := none } s2) := by
  subst hn h2
  exact if_neg hsome

/-- A host's target of which nothing is claimed only arms. -/
theorem claimRead_none (hn : claimTop s tg = 0) (hhost : 4 ≤ tg) :
    claimRead tg s = (0, putTgt tg { tgtOf s tg with armed := true, request := false } s) := by
  refine (if_pos hn).trans ?_
  rw [if_neg (Nat.not_lt.2 hhost)]

theorem claimTop_held (hheld : tgtHeld (lastArb s) tg = true) : claimTop s tg = 0 := if_pos hheld

theorem endClaim_edge {n : Nat} (hlevel : isLevelSource n = false) : endClaim n s
    = wakeFor n (putSrc n { srcOf s n with claimed := false, claimer := 0, since := none } s) := by
  simp [endClaim, hlevel]

theorem endClaim_level {n : Nat} (hlevel : isLevelSource n = true) : endClaim n s
    = wakeFor n (putSrc n { srcOf s n with claimed := false, claimer := 0, since := none,
                                           pending := (srcOf s n).asserted, pendAt := s.clk.ticks } s) := by
  simp [endClaim, hlevel]

section
variable (ht : tg < 68) (hf : tgtHolder s tg = f)
include ht hf

theorem claimBy_holder : claimBy f tg s = emit (.readData f (claimRead tg s).1) (claimRead tg s).2 :=
  (if_neg (Nat.not_le.2 ht)).trans (if_pos hf)

theorem completeBy_holder : completeBy f tg v s
    = if (srcOf s (bits v 9 0)).claimed = true ∧ (srcOf s (bits v 9 0)).claimer = tg
      then endClaim (bits v 9 0) (putTgt tg { tgtOf s tg with armed := true } s)
      else noteSet (tstatKey tg) 13 (putTgt tg { tgtOf s tg with badcomp := true } s) := by
  refine (if_neg (by simp [hf, ht])).trans ?_
  simp only [Bool.and_eq_true, beq_iff_eq]

theorem writeTctl_holder : writeTctl f tg v s = putTgt tg { tgtOf s tg with
    hold := tbit v 0,
    idle := (tgtOf s tg).idle || (tbit v 1 && decide (4 ≤ tg) && !inThisArb s (tgtOf s tg).tookAt) } s :=
  if_neg (by simp [hf, ht])

end

section
variable (ht : tg < 68) (hf : tgtHolder s tg ≠ f)
include ht hf

theorem claimBy_other : claimBy f tg s = emit (.readData f 0) s := (if_neg (Nat.not_le.2 ht)).trans (if_neg hf)

omit ht in
theorem completeBy_other : completeBy f tg v s = s := if_pos (.inr hf)

omit ht in
theorem writeTctl_other : writeTctl f tg v s = s := if_pos (.inr hf)

end

/-! ### The statement -/

/-- Settles O38: an access acts as its register does, by whether the function holds the target. -/
theorem eventTargetsAct : Obligations.EventTargetsAct := by
  intro t s s1 f tg v h
  refine ⟨fun ht hf => ?holder, fun ht hf => ?other, fun hf => ?device⟩
  case holder =>
    refine ⟨fun n hn hsome => ?claim, fun hnone hhost => ?nothing, fun n hn hclaimed hclaimer => ?complete,
      fun hnot => ?badComplete, fun s2 h2 => ?control⟩
    case claim => rw [exec_evcClaim h, claimBy_holder ht hf, claimRead_source hn hsome rfl]
    case nothing => rw [exec_evcClaim h, claimBy_holder ht hf, claimRead_none (hnone.elim claimTop_held id) hhost]
    case complete =>
      rw [exec_evcComplete h, completeBy_holder ht hf, hn, if_pos ⟨hclaimed, hclaimer⟩]
      exact ⟨fun hlevel => by rw [endClaim_edge hlevel], fun hlevel => by rw [endClaim_level hlevel]⟩
    case badComplete =>
      have hnone : ¬((srcOf s1 (bits v 9 0)).claimed = true ∧ (srcOf s1 (bits v 9 0)).claimer = tg) :=
        fun hboth => hnot.elim (fun hfree => by simp [hfree] at hboth) fun hne => hne hboth.2
      rw [exec_evcComplete h, completeBy_holder ht hf, if_neg hnone]
    case control => rw [exec_evcTargetHold h, exec_evcTargetIdle h, writeTctl_holder ht hf, h2]; exact ⟨rfl, rfl⟩
  case other =>
    rw [exec_evcClaim h, exec_evcComplete h, exec_evcTargetHold h, claimBy_other ht hf, completeBy_other hf,
      writeTctl_other hf]
    exact ⟨rfl, rfl, rfl⟩
  case device =>
    subst hf
    exact ⟨regAccess_of h _ _, regAccess_of h _ _⟩

end Sys2Proof.Proofs

/-! SUPPORT. Edges, levels, deliveries, unmasking and the fallback of event sources (O39). -/
namespace Sys2Proof.Proofs
open Sys2Proof Sys2Proof.Machine Sys2Proof.Laws

variable {t : Ticks} {s s1 : State} {n tg f v : Nat}

/-! ### Edges and levels (R512) -/

/-- A source that an edge can raise is pending after it, and one that was pending is counted as merged. -/
theorem evcEdge_eq (hne : n ≠ 0) (hmost : n ≤ 1023) (hedge : isLevelSource n = false) (hused : unusedSource n = false) :
    Machine.evcEdge n s = if (srcOf s n).pending = true
      then { s with evc := { s.evc with merges := sat 32 (s.evc.merges + 1) } }
      else wakeFor n (putSrc n { srcOf s n with pending := true, pendAt := s.clk.ticks, since := none } s) :=
  if_neg (by simp [hne, hmost, hedge, hused])

theorem exec_evcEdge (h : Occurs t s s1) : exec (.evcEdge t n) s = .next (Machine.evcEdge n (emit (.event n) s1)) :=
  whenRunning_of h _

theorem exec_evcLevelChange (h : Occurs t s s1) {level : Bool} (hlevel : isLevelSource n = true) :
    exec (.evcLevelChange t n level) s = .next (evcLevel n level s1) := by
  calc exec (.evcLevelChange t n level) s = execEvcLevelChange t n level s := rfl
    _ = _ := whenRunning_of h _
    _ = _ := congrArg _ (if_pos hlevel)

/-- A signal that changes is followed while its source is unclaimed. -/
theorem evcLevel_change {level : Bool} (hnew : (srcOf s n).asserted ≠ level) {x : EvcSrc}
    (hx : { srcOf s n with asserted := level } = x) : evcLevel n level s = wakeFor n (putSrc n (if x.claimed = true then x
      else { x with pending := level, pendAt := s.clk.ticks, since := none, moved := none }) s) := by
  subst hx
  exact if_neg hnew

/-! ### Deliveries (R519, R520, R522) -/

theorem exec_evcDelivery (h : Occurs t s s1) (ht : tg < 68) (hdue : deliveryDue s1 tg = true) {g : EvcTgt}
    (hg : { tgtOf s1 tg with armed := false, idle := false, waiting := false, awake := false,
                             last := some s1.clk.ticks, deliv := sat 32 ((tgtOf s1 tg).deliv + 1) } = g) :
    exec (.evcDelivery t tg) s = .next (if tg < 4 then emit (.coreRequest tg) (putTgt tg { g with request := true } s1)
      else msixDue ((tg - 4) / 4) ((tg - 4) % 4) (putTgt tg g s1)) := by
  subst hg
  exact (whenRunning_of h _).trans (congrArg _ (if_neg (by simp [ht, hdue])))

theorem exec_msixEntryUnmask (h : Reaches t f s s1) (hf : f < 16) (hv : v < 4) : exec (.msixEntryUnmask t f v) s
    = .next (msixFlush f (putMsix f v { msixOf s1 f v with mask := false } s1)) := by
  calc exec (.msixEntryUnmask t f v) s = execMsixEntryUnmask t f v s := rfl
    _ = _ := regAccess_of h _ _
    _ = _ := congrArg _ (if_pos ⟨hv, hf⟩)

/-! ### NOWAKE (R524) -/

theorem exec_evcNowakeFallback (h : Occurs t s s1) {x : EvcSrc} (hx : srcOf s1 n = x) (hpending : x.pending = true)
    (hfree : x.claimed = false) (hnowake : x.nowake = true) (hstays : x.moved = none)
    (hasleep : coreAsleep s1 x.target = true) (hlong : x.pendAt + usTicks 50 ≤ s1.clk.ticks) :
    exec (.evcNowakeFallback t n) s = .next (wakeFor n (putSrc n
      { x with moved := some ((tgtOf s1 x.target).fallback.getD ((x.target + 1) % 4)), since := none } s1)) := by
  subst hx
  exact (whenRunning_of h _).trans (congrArg _ (if_pos (by simp [hpending, hfree, hnowake, hstays, hasleep, hlong])))

/-! ### The statement -/

/-- Settles O39: each event is one branch of its operation on sources or targets. -/
theorem eventDeliveryActs : Obligations.EventDeliveryActs := by
  intro t s s1 n h
  refine ⟨fun hne hmost hedge hused => ?edge, fun level hlevel hnew => ?level, fun tg ht hdue => ?delivery,
    fun f v hr hf hv => exec_msixEntryUnmask hr hf hv,
    fun x hx hpending hfree hnowake hstays hasleep hlong =>
      exec_evcNowakeFallback h hx hpending hfree hnowake hstays hasleep hlong⟩
  case edge =>
    rw [exec_evcEdge h, evcEdge_eq hne hmost hedge hused]
    exact ⟨fun hpending => congrArg _ (if_pos hpending), fun hnot => congrArg _ (if_neg (Bool.eq_false_iff.1 hnot))⟩
  case level =>
    rw [exec_evcLevelChange h hlevel, evcLevel_change hnew rfl]
    exact ⟨fun hclaimed => by rw [if_pos hclaimed], fun hfree => by rw [if_neg (by simp [hfree])]⟩
  case delivery =>
    rw [exec_evcDelivery h ht hdue rfl]
    refine ⟨fun hcore => by rw [if_pos hcore], ?_⟩
    rintro hhost f v s2 rfl rfl rfl
    rw [if_neg (Nat.not_lt.2 hhost)]
    rfl

end Sys2Proof.Proofs

/-! SUPPORT. PTP: messages, holdover, the intervals of messages and oscillator steering (O51). -/
namespace Sys2Proof.Proofs
open Sys2Proof Sys2Proof.Machine Sys2Proof.Laws

variable {t : Ticks} {s s1 : State} {port : Nat}

theorem setTkState_change {v : Nat} (hv : s.tk.state ≠ v) :
    setTkState v s = raise 652 { s with tk := { s.tk with state := v } } := if_neg hv

theorem exec_ptpMessageRx (h : Occurs t s s1) (hp : port < 8) {x : PtpResult} :
    exec (.ptpMessageRx t port x) s = .next (ptpMessage port x s1) := by
  calc exec (.ptpMessageRx t port x) s = execPtpMessageRx t port x s := rfl
    _ = _ := whenRunning_of h _
    _ = _ := congrArg _ (if_pos hp)

section
variable (hruns : runsPtp s = true) (hport : ptpPort s port = true) (hcarries : portCarries s port = true) {x : PtpResult}
include hruns hport hcarries

theorem ptpMessage_delayReq (hx : x.delayReq = true) :
    ptpMessage port x s = if s.tk.state = 4 then sendPtp port 14 s else s :=
  (if_neg (by simp [hruns, hport, hcarries])).trans (if_pos hx)

/-- A message that leaves the clock a slave sets the time, the rate and the state in turn (R440). -/
theorem ptpMessage_slave (hx : x.delayReq = false) (hlow : 1 ≤ x.state) (hhigh : x.state ≤ 3)
    (hstep : stepAllowed s x.step = true) {s2 s3 s4 : State} (h2 : slewTenths x.step s = s2)
    (h3 : setRate (servoRate s2 x.rate) s2 = s3)
    (h4 : setTkState x.state { s3 with tk := { s3.tk with
      offset := satInt x.offset, fofs := satInt x.fofs, gmId := x.gmId, tlv := x.tlv, port := port,
      lastAnn := if x.master = true then s3.clk.ticks else s3.tk.lastAnn } } = s4) :
    ptpMessage port x s = { s4 with tk := { s4.tk with reachedLocked := s4.tk.reachedLocked || x.state == 3 } } := by
  subst h2 h3 h4
  have hmaster : x.state ≠ 4 := by omega
  unfold ptpMessage
  rw [if_neg (by simp [hruns, hport, hcarries]), if_neg (by simp [hx]), if_neg (by simp [hlow, hmaster]; omega)]
  simp only [hstep, hmaster, if_true, if_false]

end

/-- Without a master for three announce intervals the state changes: to MASTER where the clock may be one, else to
HOLDOVER. -/
theorem exec_ptpAnnounceTimeout (h : Occurs t s s1) (hruns : runsPtp s1 = true) (hlow : 1 ≤ s1.tk.state)
    (hhigh : s1.tk.state ≤ 3) (hlong : s1.tk.lastAnn + 3 * logTicks s1.tk.ptp.logAnn ≤ s1.clk.ticks) {master : Bool}
    {v : Nat} (hv : (if (master && s1.tk.ptp.role == 2) = true then 4 else 5) = v) :
    exec (.ptpAnnounceTimeout t master) s = .next (raise 652 { s1 with tk := { s1.tk with state := v } }) := by
  have hslave : [1, 2, 3].contains s1.tk.state = true := by
    obtain h | h | h : s1.tk.state = 1 ∨ s1.tk.state = 2 ∨ s1.tk.state = 3 := by omega
    all_goals rw [h]; rfl
  have hother : s1.tk.state ≠ v := by
    rw [← hv]
    split <;> omega
  calc exec (.ptpAnnounceTimeout t master) s = execPtpAnnounceTimeout t master s := rfl
    _ = _ := whenRunning_of h _
    _ = _ := congrArg _ (if_neg (by simp only [hruns, hslave, hlong]; decide))
    _ = _ := by rw [hv, setTkState_change hother]

theorem ptpDue_of {kind : Nat} (hstate : kind = 2 ∧ 1 ≤ s.tk.state ∧ s.tk.state ≤ 3 ∨ kind < 2 ∧ s.tk.state = 4)
    (hlast : ∀ u, Tbl.find? s.tk.lastMsg (4 * port + kind) = some u → u + ptpInterval s.tk.ptp kind ≤ s.clk.ticks) :
    ptpDue s port kind = true := by
  unfold ptpDue
  rw [Bool.and_eq_true]
  constructor
  · obtain ⟨rfl, hlow, hhigh⟩ | ⟨hkind, hst⟩ := hstate
    · obtain h | h | h : s.tk.state = 1 ∨ s.tk.state = 2 ∨ s.tk.state = 3 := by omega
      all_goals rw [h]; rfl
    · rw [if_neg (by omega)]
      simp [hkind, hst]
  · cases hfound : Tbl.find? s.tk.lastMsg (4 * port + kind) with
    | none => rfl
    | some u => exact decide_eq_true (hlast u hfound)

/-- A message that is due goes out, a two-step Sync with its Follow_Up (R437). -/
theorem exec_ptpMessageInterval (h : Occurs t s s1) (hp : port < 8) (hruns : runsPtp s1 = true)
    (hport : ptpPort s1 port = true) (hcarries : portCarries s1 port = true) {kind : Nat}
    (hdue : ptpDue s1 port kind = true) {s2 : State} (h2 : sendPtp port (10 + kind)
      { s1 with tk := { s1.tk with lastMsg := Tbl.set s1.tk.lastMsg (4 * port + kind) s1.clk.ticks } } = s2) :
    exec (.ptpMessageInterval t port kind) s
      = .next (if kind = 1 ∧ s2.tk.ptp.twoStep = true then sendPtp port 13 s2 else s2) := by
  subst h2
  calc exec (.ptpMessageInterval t port kind) s = execPtpMessageInterval t port kind s := rfl
    _ = _ := whenRunning_of h _
    _ = _ := congrArg _ (if_pos (by simp [hp, hruns, hport, hcarries, hdue]))
    _ = _ := by simp only [Bool.and_eq_true, decide_eq_true_eq]

theorem exec_dcoSteer (h : Occurs t s s1) (hruns : runsPtp s1 = true) (hsteer : s1.tk.ptp.steer = true)
    (hlong : s1.tk.lastDco + secTicks 1 ≤ s1.clk.ticks) : exec (.dcoSteer t) s
      = .next (emit (.i2c s1.tk.ptp.dco 0 (beBytes 4 (uint 32 (-s1.tk.fofs))))
          { s1 with tk := { s1.tk with lastDco := s1.clk.ticks } }) := by
  calc exec (.dcoSteer t) s = execDcoSteer t s := rfl
    _ = _ := whenRunning_of h _
    _ = _ := congrArg _ (if_pos (by simp only [hruns, hsteer, hlong]; decide))

/-- Settles O51: each event acts under the condition that its premises meet. -/
theorem ptpEventsAct : Obligations.PtpEventsAct := by
  intro t s s1 port h hruns
  refine ⟨fun x hp hport hcarries hx => ?delayReq, fun x hp hport hcarries hx hlow hhigh hstep => ?message,
    fun hlow hhigh hlong => ⟨exec_ptpAnnounceTimeout h hruns hlow hhigh hlong rfl, fun hrole => ?master⟩,
    fun kind hp hport hcarries hstate hlast s2 h2 =>
      exec_ptpMessageInterval h hp hruns hport hcarries (ptpDue_of hstate hlast) h2,
    fun hsteer hlong => exec_dcoSteer h hruns hsteer hlong⟩
  case delayReq => rw [exec_ptpMessageRx h hp, ptpMessage_delayReq hruns hport hcarries hx]
  case message =>
    rw [exec_ptpMessageRx h hp, ptpMessage_slave hruns hport hcarries hx hlow hhigh hstep rfl rfl rfl]
  case master => exact exec_ptpAnnounceTimeout h hruns hlow hhigh hlong (by simp [hrole])

end Sys2Proof.Proofs

/-! SUPPORT. The time of a node: HELLO and calibration flits of its links, and beats (O54). -/
namespace Sys2Proof.Proofs
open Sys2Proof Sys2Proof.Machine Sys2Proof.Laws

variable {t : Ticks} {s s1 s2 : State} {x : FlitRx} {l : CfLink}

/-! ### HELLO and calibration (R426, R443) -/

/-- The first HELLO of the opposite link starts the calibration; one of another link leaves this one miswired. -/
theorem exec_helloRx (h : Occurs t s s1) (hx : Lands x [0x10] s1 s2) (hl : linkOf s2 x.link = l) {uid lanes : Nat}
    {good : Bool} (hgood : (x.tagw == opposite x.link) = good) {s3 : State}
    (h3 : putLink x.link { l with peer := some (uid, x.tagw, lanes), miswired := !good } s2 = s3) :
    exec (.helloRx t x uid lanes) s = .next (if good = false ∨ l.peer.isNone = false then s3
      else restoreMember x.link uid (startCalibration x.link s3)) := by
  subst hl hgood h3
  calc exec (.helloRx t x uid lanes) s = execHelloRx t x uid lanes s := rfl
    _ = _ := whenRunning_of h _
    _ = _ := congrArg _ (flitRx_of hx _)
    _ = _ := by simp only [Bool.or_eq_true, Bool.not_eq_true']

theorem exec_calReqRx (h : Occurs t s s1) (hx : Lands x [0xD] s1 s2) : exec (.calReqRx t x) s
    = .next (queueFlit x.link { vc := vcSync, ty := 0xE, tagw := x.tagw,
                                payload := beBytes 8 (stamp s2) ++ beBytes 8 (stamp s2) } s2) := by
  calc exec (.calReqRx t x) s = execCalReqRx t x s := rfl
    _ = _ := whenRunning_of h _
    _ = _ := congrArg _ (flitRx_of hx _)

/-- Round trips of a calibration add up, and the 65,536th gives the delay; before it the next one begins. -/
theorem exec_calRespRx (h : Occurs t s s1) (hx : Lands x [0xE] s1 s2) (hl : linkOf s2 x.link = l) {n : Nat} {sum : Int}
    (hsome : 0 < n) (hroom : l.calCount + n ≤ 65536) {y : CfLink}
    (hy : { l with calCount := l.calCount + n, calSum := l.calSum + sum } = y) :
    exec (.calRespRx t x n sum) s = .next (if y.calCount = 65536
      then putLink x.link { y with calibrated := true, ldelay := oneWayDelay y.calSum 65536 } s2
      else queueFlit x.link { vc := vcSync, ty := 0xD, tagw := y.calCount } (putLink x.link y s2)) := by
  subst hl hy
  have hall : min n (65536 - (linkOf s2 x.link).calCount) = n := by omega
  calc exec (.calRespRx t x n sum) s = execCalRespRx t x n sum s := rfl
    _ = _ := whenRunning_of h _
    _ = _ := congrArg _ (flitRx_of hx _)
    _ = _ := congrArg _ (by
      dsimp only
      rw [hall, if_neg hsome.ne'])

/-! ### Beats (R442, R444) -/

/-- The anchor emits a beat whose time has come, while no other rate is staged. -/
theorem exec_beatEmit (h : Occurs t s s1) (hvalid : s1.cf.valid = true) (hanchor : s1.cf.anchor = true)
    (hstaged : s1.tk.stRef = none) (hdue : s1.tk.beatNo < beatNow s1) : exec (.beatEmit t) s
      = .next (alignAll (sendBeats (beatNow s1) s1.clk.rate { s1 with tk := { s1.tk with beatNo := beatNow s1 } })) := by
  have hrate : takeRef s1 = s1 := by
    unfold takeRef
    rw [hstaged]
  calc exec (.beatEmit t) s = execBeatEmit t s := rfl
    _ = _ := whenRunning_of h _
    _ = _ := congrArg _ (if_neg (by simp [hvalid, hanchor, hdue]))
    _ = _ := congrArg _ (by
      rw [hrate]
      exact if_neg (Nat.not_le.2 hdue))

theorem exec_beatRx (h : Occurs t s s1) (hx : Lands x [0xC] s1 s2) (hvalid : s2.cf.valid = true)
    (hother : s2.cf.anchor = false) (hparent : beatParent s2 = some x.link) : exec (.beatRx t x) s
      = .next (takeBeat x.link (rdBE x.payload 0 8) (rdBE x.payload 8 8) (sint 32 (rdBE x.payload 16 4)) s2) := by
  calc exec (.beatRx t x) s = execBeatRx t x s := rfl
    _ = _ := whenRunning_of h _
    _ = _ := congrArg _ (flitRx_of hx _)
    _ = _ := congrArg _ (if_pos (by simp [hvalid, hother, hparent]))

theorem exec_beatLoss (h : Occurs t s s1) (hvalid : s1.cf.valid = true) (hother : s1.cf.anchor = false)
    (hlocked : s1.tk.state = 6)
    (hlong : s1.tk.lastBeat + cdiv (3 * 1000000000 * s1.tk.refD) s1.tk.refN ≤ now s1) :
    exec (.beatLoss t) s = .next (setTkState 5 (raise 653 s1)) := by
  calc exec (.beatLoss t) s = execBeatLoss t s := rfl
    _ = _ := whenRunning_of h _
    _ = _ := congrArg _ (if_pos (by simp only [hvalid, hother, hlocked, hlong]; decide))

/-- Settles O54: each event acts under the condition that its premises meet. -/
theorem nodeTimeActs : Obligations.NodeTimeActs := by
  intro t s s1 h
  refine ⟨fun x uid lanes s2 l hx hl => ⟨fun hwrong => ?miswired, fun hright hfirst => ?calibrates⟩,
    fun x s2 hx => exec_calReqRx h hx, fun x n sum s2 l hx hl hsome => ⟨fun hlast => ?last, fun hmore => ?more⟩,
    fun hvalid hanchor hstaged hdue => exec_beatEmit h hvalid hanchor hstaged hdue,
    fun x s2 hx hvalid hother hparent => exec_beatRx h hx hvalid hother hparent,
    fun hvalid hother hlocked hlong => exec_beatLoss h hvalid hother hlocked hlong⟩
  case miswired => exact (exec_helloRx h hx hl (beq_false_of_ne hwrong) rfl).trans (congrArg _ (if_pos (.inl rfl)))
  case calibrates =>
    exact (exec_helloRx h hx hl (beq_iff_eq.2 hright) rfl).trans (congrArg _ (if_neg (by simp [hfirst])))
  case last =>
    refine (exec_calRespRx h hx hl hsome hlast.le rfl).trans (congrArg _ ((if_pos hlast).trans ?_))
    rw [hlast]
  case more => exact (exec_calRespRx h hx hl hsome hmore.le rfl).trans (congrArg _ (if_neg hmore.ne))

end Sys2Proof.Proofs

/-! SUPPORT. The commands of power states, loops, shedding and device reset (O31). -/
namespace Sys2Proof.Proofs
open Sys2Proof Sys2Proof.Machine Sys2Proof.Laws

variable {t : Ticks} {p : Packet} {s s0 : State} {e : Entry}

/-- The packet is put in flight on a unit before what follows. -/
theorem run_pendThen {sp : CmdSpec} {unit : Nat} {act : State → State} (h : Runs sp t p s e s0)
    (hbody : sp.body p s0 = pendThen unit act s0) : runPacket sp t p s = .next (afterwards p
      (act { s0 with cp := { s0.cp with inflight := s0.cp.inflight ++ [⟨e, unit, false⟩] } })) :=
  run_keep h hbody

/-! ### POWER_STATE_SET (R545 to R547, R565) -/

section
variable {want old : Nat} (hchange : s.pmu.changing = false) (hbits : onlyBits p [(0, 1, 3), allBits 4 4] = true)
  (hwant : prmb p 0 1 1 0 = want) (hold : s.pmu.pstate = old) (hwake : prm p 4 4 = 0 ∨ want = 3)
include hchange hbits hwant hold hwake

theorem powerStateSetBody_eq : specPowerStateSet.body p s
    = if want = old then .ok (some old) none (raise 992 s)
      else if want < 2 ∧ old < 2 then .ok (some old) none (raise 992 { s with pmu := { s.pmu with pstate := want } })
      else if want < 2 then pendThen pmuUnit (beginReturn want) s
      else pendThen pmuUnit (beginDrain want (prm p 4 4)) s := by
  subst hwant hold
  calc specPowerStateSet.body p s = powerStateSetBody p s := rfl
    _ = _ := require_of (by simp [hchange]) _ _
    _ = _ := require_of (by simp [hbits, hwake]) _ _

theorem powerStateSetBody_same (hsame : want = old) :
    specPowerStateSet.body p s = .ok (some old) none (raise 992 s) :=
  (powerStateSetBody_eq hchange hbits hwant hold hwake).trans (if_pos hsame)

theorem powerStateSetBody_awake (hlow : want < 2) (hfrom : old < 2) (hne : want ≠ old) :
    specPowerStateSet.body p s = .ok (some old) none (raise 992 { s with pmu := { s.pmu with pstate := want } }) :=
  (powerStateSetBody_eq hchange hbits hwant hold hwake).trans ((if_neg hne).trans (if_pos ⟨hlow, hfrom⟩))

theorem powerStateSetBody_return (hlow : want < 2) (hfrom : 2 ≤ old) :
    specPowerStateSet.body p s = pendThen pmuUnit (beginReturn want) s :=
  (powerStateSetBody_eq hchange hbits hwant hold hwake).trans
    ((if_neg (by omega)).trans ((if_neg (by omega)).trans (if_pos hlow)))

theorem powerStateSetBody_drain (hhigh : 2 ≤ want) (hne : want ≠ old) :
    specPowerStateSet.body p s = pendThen pmuUnit (beginDrain want (prm p 4 4)) s :=
  (powerStateSetBody_eq hchange hbits hwant hold hwake).trans
    ((if_neg hne).trans ((if_neg (by omega)).trans (if_neg (by omega))))

end

/-! ### Loops, shedding, the query and the reset (R536, R555, R558, R567) -/

theorem loopWindowSetBody_ok {loop lo hi : Nat} (hbits : onlyBits p [(0, 1, 3), allBits 4 2, allBits 6 2] = true)
    (hloop : prmb p 0 1 1 0 = loop) (hlo : prm p 4 2 = lo) (hhi : prm p 6 2 = hi) (hok : windowOk loop lo hi = true) :
    specLoopWindowSet.body p s
      = .ok (some (max lo (safetyFloor s loop) + shl (max hi (safetyFloor s loop)) 16)) none
          (noteClamp loop lo (storeWindow loop lo hi s)) := by
  subst hloop hlo hhi
  exact require_of (by simp [hbits, hok]) _ _

theorem shedMaskSetBody_ok (hbits : onlyBits p [(0, 1, 0x7C)] = true) :
    specShedMaskSet.body p s = .ok (some s.pmu.noshed) none (setShedMask (prm p 0 1) s) := require_of hbits _ _

theorem pmuQueryBody_ok (hbits : onlyBits p [allBits 8 8] = true) (hbuf : bufferOk p s (prm p 8 8) 64 true = true) :
    specPmuQuery.body p s = .ok (some (pstateWord s)) (some (tjWord s))
      (bufferWrite p (prm p 8 8) true (pmuRecord s) s) :=
  (require_of hbits _ _).trans (withBuf_ok hbuf (pmuRecord s) _ _)

theorem deviceResetBody_keep (hbits : onlyBits p [(0, 1, 3)] = true) : specDeviceReset.body p s
    = .keep fun e late =>
        let s1 := checkpointNow 2 (finish e (lateStatus late 0) none none s)
        deviceReset 2 (if prmbit p 0 0 = true
          then savePst { s1 with rel := { s1.rel with eccSel := prmbit p 0 1 } } else s1) :=
  require_of hbits _ _

/-- DEVICE_RESET answers, takes a checkpoint, stores the ECC selection where it is asked to, and resets. -/
theorem run_deviceReset (h : Runs specDeviceReset t p s e s0) (hbits : onlyBits p [(0, 1, 3)] = true) {s1 : State}
    (h1 : checkpointNow 2 (finish e 0 none none s0) = s1) : runPacket specDeviceReset t p s
      = .next (afterwards p (deviceReset 2 (if prmbit p 0 0 = true
          then savePst { s1 with rel := { s1.rel with eccSel := prmbit p 0 1 } } else s1))) := by
  have hok : lateStatus false 0 = 0 := rfl
  rw [run_keep h (deviceResetBody_keep hbits), hok, h1]

/-! ### The statement -/

/-- Settles O31: each clause is the opcode's own part under the checks that its premises pass. -/
theorem powerCommandsAnswer : Obligations.PowerCommandsAnswer := by
  intro t p s e s0
  refine ⟨fun h hchange hbits want old hwant hold hwake => ⟨fun hsame => ?same, fun hlow hfrom hne => ?awake,
      fun hlow hfrom => ?back, fun hhigh hne => ?drain⟩,
    fun h hbits loop lo hi hloop hlo hhi hok => run_ok h (loopWindowSetBody_ok hbits hloop hlo hhi hok),
    fun h hbits => run_ok h (shedMaskSetBody_ok hbits), fun h hbits hbuf => run_ok h (pmuQueryBody_ok hbits hbuf),
    fun h hbits => run_deviceReset h hbits rfl⟩
  case same => exact run_ok h (powerStateSetBody_same hchange hbits hwant hold hwake hsame)
  case awake => exact run_ok h (powerStateSetBody_awake hchange hbits hwant hold hwake hlow hfrom hne)
  case back => exact run_pendThen h (powerStateSetBody_return hchange hbits hwant hold hwake hlow hfrom)
  case drain => exact run_pendThen h (powerStateSetBody_drain hchange hbits hwant hold hwake hhigh hne)

end Sys2Proof.Proofs

/-! SUPPORT. Recovery: the page, its programming and the verified image (O42). -/
namespace Sys2Proof.Proofs
open Sys2Proof Sys2Proof.Machine Sys2Proof.Laws

variable {t : Ticks} {s s1 : State}

/-- An access that reaches the part before it is READY acts as the boot lets it (R541). -/
theorem regAccess_early {f : Nat} (hs : advance t s = s1) (hreach : hostReaches s1 f = true) (hmse : mseOf s1 f = true)
    (hboot : isReady s1 = false) (act early : State → State) : regAccess t f act early s = .next (early s1) := by
  subst hs
  simp [regAccess, hreach, hmse, hboot]

section
variable (hs : advance t s = s1) (hstage : s1.pmu.stage = 6)
include hs hstage

/-- An access of PF0 in recovery to the registers that the ROM serves. -/
theorem regAccess_recovery (hreach : hostReaches s1 0 = true) (hmse : mseOf s1 0 = true) (early : State → State) :
    regAccess t 0 id (fun s => if inRecovery s 0 = true then early s else s) s = .next (early s1) := by
  have hboot : isReady s1 = false := by simp [isReady, hstage]
  rw [regAccess_early hs hreach hmse hboot, if_pos (by simp [inRecovery, hstage])]

theorem exec_recoveryPageCommit (hreach : hostReaches s1 0 = true) (hmse : mseOf s1 0 = true) :
    exec (.recoveryPageCommit t 0) s = .next (commitPage s1) :=
  regAccess_recovery hs hstage hreach hmse commitPage

theorem exec_recoveryDone (hreach : hostReaches s1 0 = true) (hmse : mseOf s1 0 = true) (ok : Bool) :
    exec (.recoveryDone t 0 ok) s = .next (verifyImage ok s1) :=
  regAccess_recovery hs hstage hreach hmse (verifyImage ok)

theorem exec_recoveryPageProgrammed (hclock : clocked s1 = true) (hbusy : s1.pmu.busy = true) :
    exec (.recoveryPageProgrammed t) s = .next { s1 with pmu := { s1.pmu with
      busy := false, commit := false, flash := Tbl.set s1.pmu.flash s1.pmu.page s1.pmu.window } } := by
  change execRecoveryPageProgrammed t s = _
  unfold execRecoveryPageProgrammed
  rw [hs]
  exact congrArg _ (if_pos (by simp [hclock, hstage, hbusy]))

end

theorem commitPage_free (hfree : s.pmu.busy = false) :
    commitPage s = { s with pmu := { s.pmu with commit := true, busy := true } } := if_neg (by simp [hfree])

theorem commitPage_busy (hbusy : s.pmu.busy = true) : commitPage s = s := if_pos hbusy

theorem verifyImage_free (hfree : s.pmu.busy = false) (ok : Bool) : verifyImage ok s = if ok = true
    then { s with pmu := { s.pmu with stage := 3, slot := 0, recovered := true, done := true, rcvErr := false } }
    else { s with pmu := { s.pmu with done := true, rcvErr := true } } := if_neg (by simp [hfree])

theorem verifyImage_busy (hbusy : s.pmu.busy = true) (ok : Bool) : verifyImage ok s = s := if_pos hbusy

/-- Settles O42: PF0's accesses reach the ROM, which acts on them while no page is being programmed. -/
theorem recoveryActs : Obligations.RecoveryActs := by
  intro t s s1 hs hstage hclock
  refine ⟨fun hreach hmse hfree => ?free, fun hreach hmse hbusy => ?busy,
    fun hbusy => exec_recoveryPageProgrammed hs hstage hclock hbusy⟩
  case free =>
    rw [exec_recoveryPageCommit hs hstage hreach hmse, exec_recoveryDone hs hstage hreach hmse,
      exec_recoveryDone hs hstage hreach hmse, commitPage_free hfree, verifyImage_free hfree, verifyImage_free hfree]
    exact ⟨rfl, rfl, rfl⟩
  case busy =>
    rw [exec_recoveryPageCommit hs hstage hreach hmse, exec_recoveryDone hs hstage hreach hmse, commitPage_busy hbusy,
      verifyImage_busy hbusy]
    exact ⟨rfl, rfl⟩

end Sys2Proof.Proofs

/-! SUPPORT. The resets of the device, its boot, its shutdown and its ways back from P3 (O43). -/
namespace Sys2Proof.Proofs
open Sys2Proof Sys2Proof.Machine Sys2Proof.Laws

variable {t : Ticks} {s s1 s2 : State}

/-! ### The supply monitors and the pin (R531, R536, R622, R623) -/

section
variable (hs : advance t s = s1)
include hs

/-- A monitor that reads low resets everything that no fuse holds; that of VDD_CORE is not heard in P3. -/
theorem exec_powerOnReset (h2 : (if s1.pmu.off = true then emit (.thermtrip false) s1 else s1) = s2) (aon : Bool) :
    exec (.powerOnReset t aon) s = .next (if s1.pmu.pstate = 3 ∧ (!aon) = true then s1
      else afterReset (porPmu s2.pmu) {} (cutPst s2)) := by
  subst hs h2
  rfl

theorem exec_porRelease (w : Nat) (hpor : s1.pmu.por = true) : exec (.porRelease t w) s = .next { s1 with
    clk := (if s1.pmu.pinLow = true then s1.clk else { s1.clk with base := 0, at_ := s1.clk.ticks, rate := 0 })
    pmu := { s1.pmu with por := false, inReset := s1.pmu.pinLow, strapBoot := bits w 1 0, strapQ0 := tbit w 2,
                         strapQ1 := tbit w 3 }
    ne := { s1.ne with q0eth := tbit w 2, q1eth := tbit w 3 } } := by
  change execPorRelease t w s = _
  unfold execPorRelease
  rw [hs]
  refine congrArg _ ((if_neg (by simp [hpor])).trans ?_)
  cases hlow : s1.pmu.pinLow <;> simp [hlow, restartTime]

theorem exec_pinReset (hpin : s1.pmu.pinLow = false) (hpor : s1.pmu.por = false) : exec (.pinReset t) s
    = .next (afterReset { keptPmu s1.pmu with cause := 1, keptLive := none, inReset := true, pinLow := true } {} s1) := by
  change execPinReset t s = _
  unfold execPinReset
  rw [hs]
  exact congrArg _ ((if_neg (by simp [hpin])).trans (if_neg (by simp [hpor])))

omit hs in
/-- The part leaves its reset with the time at 0, and drives THERMTRIP_N no longer (R626). -/
theorem leaveReset_eq : leaveReset s = { (if s.pmu.off = true then emit (.thermtrip false) s else s) with
    clk := { s.clk with base := 0, at_ := s.clk.ticks, rate := 0 },
    pmu := { s.pmu with inReset := false, off := false, hotPend := false } } := by
  unfold leaveReset restartTime
  dsimp only
  cases hoff : s.pmu.off <;> rfl

/-- With RESET_N high again the part starts below 115 °C and stays shut down above (R562, R626). -/
theorem exec_resetNDeassert {tj : Int} (hpin : s1.pmu.pinLow = true) (hpor : s1.pmu.por = false)
    (h2 : { s1 with pmu := { s1.pmu with pinLow := false } } = s2) {s3 : State}
    (h3 : (if s2.pmu.off = true then s2 else emit (.thermtrip true) s2) = s3) : exec (.resetNDeassert t tj) s
      = .next (if tj < 920 then leaveReset s2
          else { s3 with pmu := { s3.pmu with off := true, hotPend := true } }) := by
  subst h2 h3
  change execResetNDeassert t tj s = _
  unfold execResetNDeassert
  rw [hs]
  refine congrArg _ ((if_neg (by simp [hpin])).trans ?_)
  dsimp only
  exact if_neg (Bool.eq_false_iff.1 hpor)

theorem exec_tjBelow115BootStart {tj : Int} (hpend : s1.pmu.hotPend = true) (hpin : s1.pmu.pinLow = false)
    (hcool : tj < 920) : exec (.tjBelow115BootStart t tj) s = .next (leaveReset s1) := by
  change execTjBelow115BootStart t tj s = _
  unfold execTjBelow115BootStart
  rw [hs]
  exact congrArg _ (if_pos (by simp [hpend, hpin, hcool]))

/-! ### Shutdown, DEVICE resets and the watchdog (R532, R533, R548, R562) -/

theorem exec_thermtrip (hpor : s1.pmu.por = false) (hoff : s1.pmu.off = false) : exec (.thermtrip t) s
    = .next (emit (.thermtrip true) (noteSet 0xA0004 4 { s1 with
        pmu := { s1.pmu with off := true, thermtrip := true, tripped := true }
        host := { s1.host with linkUp := false } })) := by
  change execThermtrip t s = _
  unfold execThermtrip
  rw [hs]
  exact congrArg _ (if_neg (by simp [hpor, hoff]))

theorem exec_refclkLoss (hclock : clocked s1 = true) : exec (.refclkLoss t) s = .next (deviceReset 4 s1) := by
  change execRefclkLoss t s = _
  unfold execRefclkLoss
  rw [hs]
  exact congrArg _ (if_pos hclock)

theorem exec_pllLockLoss (hclock : clocked s1 = true) : exec (.pllLockLoss t) s = .next (deviceReset 4 s1) := by
  change execPllLockLoss t s = _
  unfold execPllLockLoss
  rw [hs]
  exact congrArg _ (if_pos hclock)

omit hs in
/-- A core that does not wait is warned of. -/
theorem exec_wdogWarn (h : Occurs t s s1) {c : Nat} (hc : c < 4) (hbusy : (tgtOf s1 c).waiting = false) :
    exec (.wdogWarn t c) s
      = .next (raise 1000 { s1 with pmu := { s1.pmu with warned := Tbl.set s1.pmu.warned c s1.clk.ticks } }) := by
  calc exec (.wdogWarn t c) s = execWdogWarn t c s := rfl
    _ = _ := whenRunning_of h _
    _ = _ := congrArg _ (if_neg (by simp [hc, hbusy]))

omit hs in
theorem exec_watchdogReset (h : Occurs t s s1) {c : Nat} {a : Ticks} (hbusy : (tgtOf s1 c).waiting = false)
    (hwarned : Tbl.find? s1.pmu.warned c = some a) (hlong : a + secTicks 1 ≤ s1.clk.ticks) :
    exec (.watchdogReset t c) s = .next (deviceReset 3 s1) := by
  calc exec (.watchdogReset t c) s = execWatchdogReset t c s := rfl
    _ = _ := whenRunning_of h _
    _ = _ := congrArg _ (by rw [hwarned]; exact if_neg (by simp [hbusy, hlong]))

/-! ### Wakes (R548) -/

theorem exec_wakePin_asleep (hsleep : asleep s1 = true) : exec (.wakePin t) s
    = .next (deviceReset 5 { raise 998 s1 with pmu := { (raise 998 s1).pmu with wake := 0 } }) := by
  change execWakePin t s = _
  unfold execWakePin wakeUp
  rw [hs]
  exact congrArg _ (if_pos hsleep)

theorem exec_wakePin_running (hrun : isRunning s1 = true) : exec (.wakePin t) s = .next (raise 998 s1) := by
  have hawake : ¬asleep s1 = true := by
    simp only [isRunning, Bool.and_eq_true, bne_iff_ne] at hrun
    simp [asleep, hrun.1.2]
  change execWakePin t s = _
  unfold execWakePin
  rw [hs]
  exact congrArg _ ((if_neg hawake).trans (if_pos hrun))

theorem exec_wakeTimer (hsleep : asleep s1 = true) {a : Ticks} (hset : s1.pmu.wakeAt = some a)
    (hdue : a ≤ s1.clk.ticks) (h2 : raise 1001 s1 = s2) :
    exec (.wakeTimer t) s = .next (deviceReset 5 { s2 with pmu := { s2.pmu with wake := 1 } }) := by
  subst h2
  change execWakeTimer t s = _
  unfold execWakeTimer
  rw [hs]
  dsimp only
  rw [hset]
  exact congrArg _ (if_pos (by simp [hsleep, hdue]))

theorem exec_perstNWake (hsleep : asleep s1 = true) (hlow : s1.pmu.perstLow = true) : exec (.perstNWake t) s
    = .next (deviceReset 5 { s1 with pmu := { s1.pmu with perstLow := false, wake := 2 } }) := by
  change execPerstNWake t s = _
  unfold execPerstNWake
  rw [hs]
  exact congrArg _ (if_pos (by simp [hsleep, hlow]))

/-! ### The boot (R538, R539, R627) -/

theorem exec_bootReady (hclock : clocked s1 = true) (x : BootResult) :
    exec (.bootReady t x) s = .next (bootReady x s1) := by
  subst hs
  exact congrArg _ (if_pos hclock)

end

theorem bootReady_resumed (x : BootResult) (hstage : s.pmu.stage = 3) : bootReady x s = bootOn x s := if_pos hstage

section
variable (hstage : s.pmu.stage = 0) (h2 : { s with pins := { s.pins with ospiResetN := .high } } = s2) {x : BootResult}
include hstage h2

/-- Without an image that the straps let it boot, the part goes to recovery. -/
theorem bootReady_recovery (hnone : s.pmu.strapBoot = 2 ∨ x.first = false ∧ x.second = false) :
    bootReady x s = { s2 with pmu := { s2.pmu with stage := 6 } } := by
  subst h2
  refine (if_neg (by simp [hstage])).trans ((if_neg (by simp [hstage])).trans (if_pos ?_))
  rcases hnone with hstrap | ⟨hfirst, hsecond⟩
  · simp [hstrap]
  · simp [hfirst, hsecond]

/-- The slot that the straps name first is booted if it verifies, and else the other. -/
theorem bootReady_slot (hstrap : s.pmu.strapBoot ≠ 2) (himage : x.first = true ∨ x.second = true) {slot : Nat}
    (hslot : (if x.first = true then firstSlot s else 1 - firstSlot s) = slot) :
    bootReady x s = bootOn x { s2 with pmu := { s2.pmu with slot := slot, fallback := !x.first } } := by
  subst h2 hslot
  refine (if_neg (by simp [hstage])).trans ((if_neg (by simp [hstage])).trans (if_neg ?_))
  rcases himage with hfirst | hsecond
  · simp [hstrap, hfirst]
  · simp [hstrap, hsecond]

end

/-! ### The statement -/

/-- Settles O43: each event is a branch of its reset, its wake or its boot. -/
theorem resetsAct : Obligations.ResetsAct := by
  intro t s s1 hs
  refine ⟨fun s2 h2 => ⟨fun hp => ?core, fun hp => ?asleep, (exec_powerOnReset hs h2 true).trans (congrArg _ (if_neg (by simp)))⟩,
    fun w hpor => exec_porRelease hs w hpor, fun hpin hpor => exec_pinReset hs hpin hpor, ?release,
    fun hpor hoff => exec_thermtrip hs hpor hoff,
    fun hclock => ⟨exec_refclkLoss hs hclock, exec_pllLockLoss hs hclock⟩,
    fun hrun c hc hbusy => ⟨exec_wdogWarn ⟨hs, hrun⟩ hc hbusy, fun a hwarned hlong =>
      exec_watchdogReset ⟨hs, hrun⟩ hbusy hwarned hlong⟩,
    fun hsleep => ⟨exec_wakePin_asleep hs hsleep, fun a hset hdue => exec_wakeTimer hs hsleep hset hdue rfl,
      fun hlow => exec_perstNWake hs hsleep hlow⟩,
    fun hrun => exec_wakePin_running hs hrun, fun x hclock hstage => ?boot, fun x hclock hstage => ?resumed⟩
  case core => exact (exec_powerOnReset hs h2 false).trans (congrArg _ (if_neg fun h => hp h.1))
  case asleep => exact (exec_powerOnReset hs h2 false).trans (congrArg _ (if_pos ⟨hp, rfl⟩))
  case release =>
    rintro _ rfl
    refine ⟨fun tj hpin hpor => ⟨fun hcool => ?cool, fun hhot => ?hot⟩, fun tj hpend hpin hcool => ?late⟩
    case cool =>
      rw [exec_resetNDeassert hs hpin hpor rfl rfl, if_pos hcool, leaveReset_eq]
      cases hoff : s1.pmu.off <;> rfl
    case hot =>
      rw [exec_resetNDeassert hs hpin hpor rfl rfl, if_neg (not_lt.2 hhot)]
      cases hoff : s1.pmu.off <;> rfl
    case late =>
      rw [exec_tjBelow115BootStart hs hpend hpin hcool, leaveReset_eq, ← hpin]
  case boot =>
    rw [exec_bootReady hs hclock]
    refine ⟨fun hstrap => by rw [bootReady_recovery hstage rfl (.inl hstrap)],
      fun hfirst hsecond => by rw [bootReady_recovery hstage rfl (.inr ⟨hfirst, hsecond⟩)],
      fun hstrap hfirst => ?first, fun hstrap hfirst hsecond => ?second⟩
    case first =>
      rw [bootReady_slot hstage rfl hstrap (.inl hfirst) (if_pos hfirst), hfirst]
      rfl
    case second =>
      have hother : 1 - firstSlot s1 = if s1.pmu.strapBoot = 1 then 0 else 1 := by
        unfold firstSlot
        split <;> rfl
      rw [bootReady_slot hstage rfl hstrap (.inr hsecond) ((if_neg (by simp [hfirst])).trans hother), hfirst]
      rfl
  case resumed => rw [exec_bootReady hs hclock, bootReady_resumed x hstage]

end Sys2Proof.Proofs

/-! SUPPORT. The commands of retirements, ECC logs and lifetime records (O33). -/
namespace Sys2Proof.Proofs
open Sys2Proof Sys2Proof.Machine Sys2Proof.Laws

variable {p : Packet} {s s1 : State} {buf : Nat}

/-- The records from a position on are written, zeros where the log has none. -/
theorem retirementQueryBody_ok (hb : prm p 8 8 = buf)
    (hbits : onlyBits p [(0, 2, 0x7FF), (2, 2, 0x7FF), allBits 8 8] = true) (hmost : prm p 2 2 ≤ 1792)
    (hbuf : bufferOk p s buf 32 true = true) {records : List Byte}
    (hrecords : ((List.range (prm p 2 2)).flatMap fun i => match s.rel.retired[prm p 0 2 + i]? with
      | some x => retireBytes x
      | none => List.replicate 32 0#8) = records) : specRetirementQuery.body p s
      = .ok (some (relRetired s)) (some (retiredMask s 2 + shl s.rel.retired.length 16))
          (bufferWrite p buf true records s) := by
  subst hb hrecords
  calc specRetirementQuery.body p s = retirementQueryBody p s := rfl
    _ = _ := require_of (by simp [hbits, hmost]) _ _
    _ = _ := withBuf_of hbuf _ _

theorem retirementClearBody_ok {k i : Nat} (hbits : onlyBits p [(0, 1, 3), (1, 1, 0xF)] = true)
    (hk : prmb p 0 1 1 0 = k) (hi : prmb p 1 1 3 0 = i) (hret : isRetired s k i = true)
    (hstill : s.mm.migrating = false) : specRetirementClear.body p s = okay (clearRetired k i s) := by
  subst hk hi
  calc specRetirementClear.body p s = retirementClearBody p s := rfl
    _ = _ := require_of (by simp [hbits, hret]) _ _
    _ = _ := require_of (by simp [hstill]) _ _

theorem ltrReadBody_ok {src : Nat} {bytes : List Byte} {r0 : Option Nat} {good : Bool} (hb : prm p 8 8 = buf)
    (hbits : onlyBits p [(0, 1, 3), (1, 1, 0xF), allBits 8 8] = true) (hsrc : prmb p 0 1 1 0 = src) (hne : src ≠ 3)
    (hread : ltrReadRecord src (prmb p 1 1 3 0) s = ((bytes, r0, good), s1))
    (hbuf : bufferOk p s buf 64 false = true) :
    specLtrRead.body p s = .ok r0 (some (b2n good)) (bufferWrite p buf false bytes s1) := by
  subst hb hsrc
  calc specLtrRead.body p s = ltrReadBody p s := rfl
    _ = _ := require_of (by simp [hbits, hne]) _ _
    _ = _ := withBuf_of hbuf _ _
    _ = _ := by rw [hread]

theorem ltrCheckpointBody_ok (hbits : onlyBits p [] = true) (hfree : ltrBusy s = false) :
    specLtrCheckpoint.body p s = .pend ltrUnit (startCheckpoint 4 s) :=
  (require_of hbits _ _).trans (require_of (by simp [hfree]) _ _)

/-- The log of a channel is written with free bytes behind its entries, and is emptied where the packet asks. -/
theorem eccLogReadBody_ok {n : Nat} {l : List EccEntry} {tail : List Byte} (hb : prm p 8 8 = buf)
    (hbits : onlyBits p [(0, 1, 0xF), (1, 1, 1), allBits 8 8] = true) (hn : prmb p 0 1 3 0 = n)
    (hl : Tbl.get s.rel.ecc [] n = l) (hbuf : bufferOk p s buf 16 false = true)
    (htail : freeBytes (1024 - 16 * l.length) s = (tail, s1)) : specEccLogRead.body p s
      = .ok (some l.length) none (bufferWrite p buf false (l.flatMap eccBytes ++ tail) (if prmbit p 1 0 = true
          then { s1 with rel := { s1.rel with ecc := Tbl.set s1.rel.ecc n [] } } else s1)) := by
  subst hb hn hl
  calc specEccLogRead.body p s = eccLogReadBody p s := rfl
    _ = _ := require_of hbits _ _
    _ = _ := withBuf_of hbuf _ _
    _ = _ := by rw [htail]

/-- Settles O33: each clause is the opcode's own part under the checks that its premises pass. -/
theorem reliabilityCommandsAnswer : Obligations.ReliabilityCommandsAnswer := by
  intro t p s e s0 buf hb
  exact ⟨fun h hbits hmost hbuf => run_ok h (retirementQueryBody_ok hb hbits hmost hbuf rfl),
    fun h hbits k i hk hi hret hstill => run_ok h (retirementClearBody_ok hbits hk hi hret hstill),
    fun h hbits src hsrc hne bytes r0 good s1 hread hbuf => run_ok h (ltrReadBody_ok hb hbits hsrc hne hread hbuf),
    fun h hbits hfree => run_pend h (ltrCheckpointBody_ok hbits hfree),
    fun h hbits n l hn hl hbuf tail s1 htail => run_ok h (eccLogReadBody_ok hb hbits hn hl hbuf htail)⟩

end Sys2Proof.Proofs

/-! SUPPORT. Checkpoints and histograms of the lifetime recorder (O60). -/
namespace Sys2Proof.Proofs
open Sys2Proof Sys2Proof.Machine Sys2Proof.Laws

variable {t : Ticks} {s s1 s2 : State}

/-! ### Checkpoints (R586, R591) -/

theorem exec_ltrPeriodic (h : Occurs t s s1) (hfree : ltrBusy s1 = false)
    (hlong : s1.rel.lastCkpt + secTicks 600 ≤ s1.clk.onTicks) :
    exec (.ltrPeriodic t) s = .next (startCheckpoint 1 s1) := by
  calc exec (.ltrPeriodic t) s = execLtrPeriodic t s := rfl
    _ = _ := whenRunning_of h _
    _ = _ := congrArg _ (if_neg (by simp [hfree, hlong]))

/-- The write of a checkpoint ends: it is kept, or it has failed. -/
theorem exec_ltrCheckpointDone (h : Occurs t s s1) {x : LtrSnap} (hx : s1.rel.ltrPend = some x) (ok : Bool) :
    exec (.ltrCheckpointDone t ok) s = .next (if ok = true then checkpointGood x s1 else checkpointBad s1) := by
  calc exec (.ltrCheckpointDone t ok) s = execLtrCheckpointDone t ok s := rfl
    _ = _ := whenRunning_of h _
    _ = _ := by rw [checkpointDone, hx]

/-- A checkpoint that fails raises 967; the first time it is written again in the next bank. -/
theorem checkpointBad_eq {y : RelSt} (hy : s.rel = y) (h2 : raise 967 (noteSet 0xB0000 8
      { s with rel := { y with ltrFault := true, banks := Tbl.del y.banks y.ltrBank } }) = s2) {s3 : State}
    (h3 : writeCheckpoint y.ltrTrigger ((y.ltrWSeq + 1) % 2 ^ 32) s2 = s3) : checkpointBad s
      = if y.ltrRetry = true then finishUnit ltrUnit 0x110 none none
          { s2 with rel := { s2.rel with ltrPend := none, ltrRetry := false } }
        else { s3 with rel := { s3.rel with ltrRetry := true } } := by
  subst hy h2 h3
  rfl

/-! ### Histograms (R587) -/

/-- A power-on second counts the temperature and the supply in their bins. -/
theorem exec_ltrSecondSample (h : Occurs t s s1) {n : Nat} (hn : powerOn s1 = n) (hnew : s1.rel.lastSec < n)
    (h2 : ltrAdd (0xD0 + 4 * voltBin s1.pmu.vset) 1 (ltrAdd (0x50 + 4 * tjBin s1.pmu.tj) 1 s1) = s2)
    (hhour : n / 3600 ≤ s2.rel.berAt) (ber : List (Nat × Nat)) :
    exec (.ltrSecondSample t ber) s = .next { s2 with rel := { s2.rel with lastSec := n } } := by
  subst hn h2
  calc exec (.ltrSecondSample t ber) s = execLtrSecondSample t ber s := rfl
    _ = _ := whenRunning_of h _
    _ = _ := congrArg _ (if_neg (Nat.not_le.2 hnew))
    _ = _ := congrArg _ (if_pos hhour)

/-- Settles O60: each event acts under the condition that its premises meet. -/
theorem lifetimeEventsAct : Obligations.LifetimeEventsAct := by
  intro t s s1 h
  refine ⟨fun hfree hlong => exec_ltrPeriodic h hfree hlong, ?checkpoint,
    fun ber n hn hnew s2 h2 hhour => exec_ltrSecondSample h hn hnew h2 hhour ber⟩
  rintro x hx y rfl
  refine ⟨?good, fun hfirst => ?retried, fun hsecond => ?failed⟩
  case good => exact (exec_ltrCheckpointDone h hx true).trans (congrArg _ (if_pos rfl))
  case retried =>
    rw [exec_ltrCheckpointDone h hx false, if_neg Bool.false_ne_true, checkpointBad_eq rfl rfl rfl,
      if_neg (by simp [hfirst])]
  case failed =>
    rw [exec_ltrCheckpointDone h hx false, if_neg Bool.false_ne_true, checkpointBad_eq rfl rfl rfl, if_pos hsecond]

end Sys2Proof.Proofs

/-! SUPPORT. The blitter at work: its jobs, bursts, the ends of its operations and the entries of its lists (O57). -/
namespace Sys2Proof.Proofs
open Sys2Proof Sys2Proof.Machine Sys2Proof.Laws

variable {t : Ticks} {s s1 s2 : State}

theorem blReady_of (hready : ∀ a, s.bl.burstEnd = some a → a ≤ s.clk.ticks) : blReady s = true := by
  unfold blReady
  cases hend : s.bl.burstEnd with
  | none => rfl
  | some a => exact decide_eq_true (hready a hend)

/-! ### Jobs (R457, R458, R468) -/

section
variable {j : BlJob}

/-- The first job of the queue starts, unless memory does not serve the pass over its list yet. -/
theorem exec_blJobStart (h : Occurs t s s1) (hidle : blIdle s1 = true) (hreg : s1.bl.regWait = false) {rest : List BlJob}
    (hqueue : s1.bl.queue = j :: rest) (h2 : { s1 with bl := { s1.bl with queue := rest } } = s2) :
    exec (.blJobStart t) s = .next (if jobWaits s1 j = true then s1 else startJob j s2) := by
  subst h2
  calc exec (.blJobStart t) s = execBlJobStart t s := rfl
    _ = _ := whenRunning_of h _
    _ = _ := congrArg _ (by rw [if_neg (by simp [hidle]), if_neg (by simp [hreg]), hqueue])

section
variable (hblit : j.ent.opcode ≠ 0xA05)
include hblit

theorem jobWaits_blit : jobWaits s j = false := by simp [jobWaits, hblit]

theorem startJob_noBlock (hgiven : blockGiven j.ent.pkt = false) : startJob j s = finishJob j 0x101 none none s :=
  (if_neg hblit).trans (if_pos (by simp [hgiven]))

/-- A blit with its block starts when none of the checks refuses it. -/
theorem startJob_block (hgiven : blockGiven j.ent.pkt = true) {r : Refuse}
    (hr : blitRefusal s j.ent.pkt.func (j.ent.opcode % 256) (prms j.ent.pkt) = r) : startJob j s
      = r.elim (beginOp j.ent.pkt.func (prms j.ent.pkt) { s with bl := { s.bl with job := some j } })
          fun x => finishJob j x.1 x.2.1 x.2.2 s := by
  refine (if_neg hblit).trans ((if_neg (by simp [hgiven])).trans ?_)
  dsimp only
  rw [hr]
  cases r <;> rfl

end

section
variable (hlist : j.ent.opcode = 0xA05) {n : Nat} (hn : prmb j.ent.pkt 8 4 16 0 = n)
include hlist hn

theorem jobWaits_list : jobWaits s j = listWaits s (prmb j.ent.pkt 0 8 39 0) n := by simp [jobWaits, hlist, hn]

/-- A list job of 1 to 65,536 entries begins its list. -/
theorem startJob_list : startJob j s = if n = 0 ∨ 65536 < n then finishJob j 0x101 none none s
    else beginList (prmb j.ent.pkt 0 8 39 0) n (prmbit j.ent.pkt 12 0) false
      { s with bl := { s.bl with job := some j } } := by
  subst hn
  exact if_pos hlist

end
end

/-! ### Bursts (R464, R466, R469, R472) -/

/-- The address of unit u of the plane and line e. -/
def unitAddr (c : Blit) (e : Nat × Nat) (u : Nat) : Nat := opndAddr c.dst + unitOff c.dst e.1 e.2 u

/-- The units of a burst with what each is written with, and whether an access of it failed. -/
def unitResults (c : Blit) (e : Nat × Nat) (us : List Nat) (free : Nat) : List (Nat × Option (List Byte) × Bool) :=
  us.map fun u => (u, c.unit e.1 e.2 free u)

/-- The state once a burst has read its source: the reads are counted, and tiles that do not decode are noted. -/
def afterReads (c : Blit) (e : Nat × Nat) (us : List Nat) (s : State) : State :=
  forAll (c.failedTiles e.1 e.2 us) (fun _ s => ftcError c.src.surf s)
    (forAll (burstReads c e.1 e.2 us) (fun k s => countRead (256 * k) 256 s) s)

/-- The state once a burst has written its units. -/
def afterWrites (c : Blit) (e : Nat × Nat) (rs : List (Nat × Option (List Byte) × Bool)) (s : State) : State :=
  forAll rs (fun r s => match r.2.1 with
    | some b => memWrite (unitAddr c e r.1) b s
    | none => s) s

/-- An access of a burst failed, or the fence kept one of its writes out. -/
def burstLost (c : Blit) (e : Nat × Nat) (rs : List (Nat × Option (List Byte) × Bool)) (s : State) : Bool :=
  rs.any fun r => r.2.2 || (r.2.1.isSome && meetsFence s (unitAddr c e r.1) 1)

/-- The operation after its chunk of a line of n bursts: at the next chunk, or at the next line. -/
def nextChunk (n : Nat) (o : BlOp) : BlOp :=
  { o with line := if decide (n ≤ o.chunk + 1) = true then o.line + 1 else o.line,
           chunk := if decide (n ≤ o.chunk + 1) = true then 0 else o.chunk + 1 }

/-- The operation in progress is at line e, in bursts bs, of which the units us of the present one are inside the clips;
it may go on: the dead time is over, the C4 gate is open and memory serves C4. -/
structure BurstDue (s : State) (o : BlOp) (c : Blit) (e : Nat × Nat) (bs : List (List Nat)) (us : List Nat) : Prop where
  op : s.bl.op = some o
  blit : blitOf s o = c
  line : walkLine c o.line = e
  bursts : burstsOf c e.1 e.2 = bs
  units : c.written e.1 e.2 (bs.getD o.chunk []) = us
  unfinished : opOver s o = false
  ready : blReady s = true
  nonempty : bs.getD o.chunk [] ≠ []
  gate : us ≠ [] → c4Open s (channelOf s (unitAddr c e (us.headD 0))) = true
  served : burstServed s c e.1 e.2 us = true

theorem runBurst_of {o : BlOp} {c : Blit} {e : Nat × Nat} {bs : List (List Nat)} {us : List Nat}
    (h : BurstDue s o c e bs us) {v : Nat × State}
    (hv : (if hasSpare c.dst.sf.format = true then takeFree s else (0, s)) = v) {rs : List (Nat × Option (List Byte) × Bool)}
    (hrs : unitResults c e us v.1 = rs) (h2 : afterReads c e us v.2 = s2) {s3 s4 : State} (h3 : afterWrites c e rs s2 = s3)
    (h4 : afterBursts (((burstReads c e.1 e.2 us).map (· / 16)).eraseDups.length + b2n (!us.isEmpty))
      { s3 with bl := { s3.bl with op := some (nextChunk bs.length o) } } = s4) :
    runBurst s = if burstLost c e rs s2 = true then accessFault s4 else s4 := by
  obtain ⟨hop, rfl, rfl, rfl, rfl, hover, hready, hsome, hgate, hserved⟩ := h
  subst hv hrs h2 h3 h4
  have hopen : ∀ {l : List Nat} {b : Bool}, (l ≠ [] → b = true) → (!(l.isEmpty || b)) = false := by
    intro l b hb
    cases l <;> simp_all
  unfold runBurst
  rw [hop]
  refine (if_neg ?_).trans rfl
  rw [hover, hready, hserved, List.isEmpty_eq_false_iff.2 hsome]
  simpa [unitAddr] using hopen hgate

/-! ### The end of an operation (R469, R470) -/

/-- An operation that has run to its end, with no source held and no list, completes its job. -/
theorem endOp_job {o : BlOp} {j : BlJob} (hop : s.bl.op = some o) (hsrc : o.src = none) (hstop : o.stop = false)
    (hend : opLines s o ≤ o.line) (hlist : s.bl.list = none) (hjob : s.bl.job = some j)
    (h2 : { raceOut o s with bl := { s.bl with op := none, list := none, job := none,
                                               ops := (s.bl.ops + 1) % 2 ^ 64 } } = s2) :
    endOp s = finishUnit unitBl 0 (some 0) none
      (finishJob j (lateStatus j.late 0) (some (pixelCount o.block)) (some o.faults) s2) := by
  subst h2
  have hover : opOver s o = true := by simp [opOver, hend]
  unfold endOp clearWork
  simp only [hop, hlist, hover, hsrc, hstop, hjob, bl_raceOut, Bool.not_true, Bool.not_false, Bool.or_false,
    Bool.false_eq_true, if_false, Option.isSome_none]
  rfl

theorem exec_blJobEnd (h : Occurs t s s1) : exec (.blJobEnd t) s = .next (beginRegList (endOp s1)) :=
  calc exec (.blJobEnd t) s = execBlJobEnd t s := rfl
    _ = _ := whenRunning_of h _

/-! ### Entries of a list (R474, R475) -/

/-- The list in progress is at the entry at an address: nothing else runs, and memory serves its read. -/
structure EntryDue (s : State) (l : BlList) (e : Nat) : Prop where
  list : s.bl.list = some l
  free : s.bl.op = none
  runs : blHolds s = false
  place : l.addr + 256 * l.next = e
  ready : blReady s = true
  served : served s 4 e 256 = true

theorem runEntry_unreadable {l : BlList} {e : Nat} (h : EntryDue s l e) (hbad : readable s e 256 = false) :
    runEntry s = entryDone 0x110 none none s := by
  obtain ⟨hlist, hfree, hruns, rfl, hready, hserved⟩ := h
  unfold runEntry
  rw [hlist]
  exact (if_neg (by simp [hfree, hruns, hready, hserved])).trans (if_pos (by simp [hbad]))

/-- An entry that can be read is the END, an empty one, one that a check refuses, or one that begins. -/
theorem runEntry_readable {l : BlList} {e : Nat} (h : EntryDue s l e) (hgood : readable s e 256 = true) {b : List Byte}
    (hb : memRead s e 256 = b) (h2 : afterBursts 1 (countRead e 256 s) = s2) : runEntry s
      = if bOp b = 0xF then endList 0 s2
        else if bOp b = 0xE then
          listStep { s2 with bl := { s2.bl with list := some { l with next := l.next + 1, run := l.run + 1 } } }
        else (blitRefusal s2 0 (bOp b) b).elim (beginOp 0 b s2) fun r => entryDone r.1 r.2.1 r.2.2 s2 := by
  obtain ⟨hlist, hfree, hruns, rfl, hready, hserved⟩ := h
  subst hb h2
  unfold runEntry
  rw [hlist]
  refine (if_neg (by simp [hfree, hruns, hready, hserved])).trans ((if_neg (by simp [hgood])).trans ?_)
  dsimp only
  cases blitRefusal _ 0 _ _ <;> rfl

theorem exec_blListEntryRun (h : Occurs t s s1) : exec (.blListEntryRun t) s = .next (beginRegList (runEntry s1)) :=
  calc exec (.blListEntryRun t) s = execBlListEntryRun t s := rfl
    _ = _ := whenRunning_of h _

/-! ### The statement -/

/-- Settles O57: each event acts under the condition that its premises meet; a burst is lost where one of its accesses
is. -/
theorem blitterEventsAct : Obligations.BlitterEventsAct := by
  intro t s s1 h
  refine ⟨fun j rest hidle hreg hqueue => ⟨fun hblit => ?blit, fun hlist a n ha hn => ?list⟩,
    fun o c e hop hc he bs all us hbs hall hus hover hready hsome => ?burst,
    fun o j hop hsrc hstop hend hlist hjob hreg => ?ends, fun l e hlist hfree hruns he hready hserved => ?entry⟩
  case blit =>
    rw [exec_blJobStart h hidle hreg hqueue rfl, if_neg (by simp [jobWaits_blit hblit])]
    refine ⟨fun hnone => by rw [startJob_noBlock hblit hnone], fun hgiven st r0 r1 hr => ?_, fun hgiven hr => ?_⟩
    · rw [startJob_block hblit hgiven hr]
      rfl
    · rw [startJob_block hblit hgiven hr]
      rfl
  case list =>
    subst ha
    rw [exec_blJobStart h hidle hreg hqueue rfl, jobWaits_list hlist hn, startJob_list hlist hn]
    refine ⟨fun hwaits => by rw [if_pos hwaits], fun hgo hbad => by rw [hgo, if_pos hbad]; rfl,
      fun hgo hpos hmost => ?_⟩
    rw [hgo, if_neg (by omega : ¬(n = 0 ∨ 65536 < n))]
    rfl
  case burst =>
    subst hall
    intro addr hgate hserved v hv rs reads s2 h2 s3 last s4 h4
    have hdue : BurstDue s1 o c e bs us := ⟨hop, hc, he, hbs, hus, hover, blReady_of hready, hsome, hgate, hserved⟩
    have hrun : exec (.blBurst t) s = .next (if burstLost c e rs s2 = true then accessFault s4 else s4) :=
      (whenRunning_of h runBurst).trans (congrArg _ (runBurst_of hdue hv rfl h2 rfl h4))
    rw [hrun]
    refine ⟨fun hall => ?_, fun hsome => ?_⟩
    · have hkept : ¬burstLost c e rs s2 = true := by
        unfold burstLost
        rw [List.any_eq_true]
        rintro ⟨r, hr, hlost⟩
        obtain ⟨hread, hfence⟩ := hall r hr
        rw [hread, Bool.false_or, Bool.and_eq_true] at hlost
        exact absurd hlost.2 (Bool.eq_false_iff.1 (hfence hlost.1))
      rw [if_neg hkept]
    · have hlost : burstLost c e rs s2 = true := by
        obtain ⟨r, hr, hr'⟩ := hsome
        refine List.any_eq_true.2 ⟨r, hr, ?_⟩
        rw [Bool.or_eq_true, Bool.and_eq_true]
        exact hr'
      rw [if_pos hlost]
  case ends =>
    rw [exec_blJobEnd h, endOp_job hop hsrc hstop hend hlist hjob rfl]
  case entry =>
    have hdue : EntryDue s1 l e := ⟨hlist, hfree, hruns, he, blReady_of hready, hserved⟩
    rw [exec_blListEntryRun h]
    refine ⟨fun hbad => by rw [runEntry_unreadable hdue hbad], fun hgood => ?_⟩
    rw [runEntry_readable hdue hgood rfl rfl]
    refine ⟨fun hop => by rw [if_pos hop], fun hop => by rw [if_neg (by omega), if_pos hop],
      fun hE hF st r0 r1 hr => by rw [if_neg hF, if_neg hE, hr, Option.elim_some],
      fun hE hF hr => by rw [if_neg hF, if_neg hE, hr, Option.elim_none]⟩

end Sys2Proof.Proofs
